-- ==== Sys2Proof/Word.lean ====
section
/-! DEFINITION. The word types of the part: bytes, 32-bit words, the 64-bit words of descriptors and rings. -/

namespace Sys2Proof

/-- The 32-bit word of registers, CSRs and instructions (R13, R90). -/
abbrev Word := BitVec 32

/-- One byte of memory; multi-byte values are little-endian (R11). -/
abbrev Byte := BitVec 8

/-- The 64-bit word of descriptors, rings and timestamps. -/
abbrev DWord := BitVec 64

/-- A 512-bit vector register, tile row or local-memory line (R97, R103). -/
abbrev Line := BitVec 512

/-- A sparse map from numbers to values with strictly rising keys; a key that is not listed reads as a default that the
reader names. Its operations stand in Machine/Sparse.lean. -/
abbrev Sparse (α : Type) := List (Nat × α)

end Sys2Proof
end

