-- ==== Sys2Proof/Config.lean ====
section
/-! DEFINITION. What one part fixes, and the free values the manual leaves open. -/

namespace Sys2Proof.Config

/-- The core number under which the model holds the Drover's lockstep pair: one scalar core, since primary and
checker execute one instruction stream (R371, R372; log entry 4). -/
def drvPair : Nat := 1024

/-- The core number under which the model holds the Drover's housekeeping core (R371; log entry 4). -/
def drvHk : Nat := 1025

/-- FREE VALUE. The way an instruction-cache fill replaces when its set is full: the manual names no replacement
policy (R258; log entry 9). -/
opaque icVictim : Nat → BitVec 2

/-- FREE VALUE. Whether the parity of an instruction-cache line is found wrong as a fetch meets it, by time and line: parity
errors come from outside the rules (R258; log entry 54). -/
opaque icParity : Nat → Nat → Bool

/-- FREE VALUE. What IDLE0–3 and LENT0–3 have counted, by time, core and CSR number: the entries of the weave table pass with
the core clock, which no command of the table is (R162; log entry 37). -/
opaque weaveCycles : Nat → Nat → Nat → Word

/-- FREE VALUE. What the TAP shifts out for a debug access the manual does not describe (R48; log entry 10). -/
opaque tapValue : Nat → Word

/-- FREE VALUE. Whether the read line buffer serves a load it could serve (R223 says it may; log entry 14). -/
opaque bufferServes : Nat → Bool

/-- FREE VALUE. The line the read line buffer gives up when it is full: the manual names no policy (R223; log
entry 14). -/
opaque bufferVictim : Nat → BitVec 2

/-- FREE VALUE. The first outbox line of a Drover core: R371 places its outbox in its own local memory, and the manual
gives no register that holds the line (log entry 16). -/
opaque drvOutboxLine : Nat → Nat

/-- FREE VALUE. The EVAL of a line that ISET or the storm limiter raises, by time and line: R151 gives a value only for
lines raised by messages and units (log entry 17). -/
opaque lineEval : Nat → Nat → Word

/-- FREE VALUE. The product of two RAW elements in a convoy operation: RAW bytes have no arithmetic meaning, and no check
of the manual stops a convoy from reading them (R104, R185; log entry 19). -/
opaque rawProduct : Int → Int → Int

/-- FREE VALUE. What a tile instruction abandoned at a kernel's end leaves, by time and core: one of the outcomes of R123
(log entry 13). -/
opaque parkKept : Nat → Nat → Nat

/-- FREE VALUE. The cycles such an instruction had run (R125, R333; log entry 13). -/
opaque parkRan : Nat → Nat → Nat

/-- FREE VALUE. What the CXL device does with an access of a DMA channel or gather engine, by time and address, modulo 6: 0
answers it, 1 and 5 report an error (5 after performing a write), 2 returns poison, 3 and 4 never answer (4 after performing
a write). R279 bounds the device by nothing but SRA_CXL_DL (log entry 23). -/
opaque cxlAnswer : Nat → Nat → Nat

/-- FREE VALUE. The nanoseconds the CXL device took for such an answer (R279; log entry 23). -/
opaque cxlLatency : Nat → Nat → Nat

/-- FREE VALUE. Whether a store of a lane port that the CXL device answered with an error, or did not answer in time, has
performed (R279; log entry 23). -/
opaque cxlPerformed : Nat → Nat → Bool

/-- FREE VALUE. The data byte under poison that no source byte gives, by address: a decode that refuses its header writes
"poisoned lines" and names no bytes (R304; log entry 24). -/
opaque poisonByte : Nat → Byte

/-- FREE VALUE. The value a Drover route's IRQ carries for EVAL, by time and route: R376 names the line and gives no value
(R376; log entry 27). -/
opaque routeEval : Nat → Nat → Word

/-- FREE VALUE. Whether an encoder counts up when A leads B: R395 counts 4× and names no direction (log entry 28). -/
opaque encUp : Bool

/-- FREE VALUE. The ECC1 field of a frame record for more corrections than its 16 bits hold (R383; log entry 29). -/
opaque csiEcc1 : Nat → BitVec 16

/-- FREE VALUE. Whether a write in flight when PERST_N falls performs, by time, core and access: either, as the corner "When
PERST_N falls while writes are in flight" leaves it (R431; log entry 31). -/
opaque resetPerforms : Nat → Nat → Nat → Bool

/-- What a CAN port's receive error counter falls to, above 119, when a good frame ends error passivity (R388; log entry
48). -/
opaque canRecDrop : Nat → Nat

end Sys2Proof.Config
end

