-- ==== Sys2Proof/Syntax.lean ====
section
/-! DEFINITION. The commands of the block: one constructor of `Instr` per row of the table of operations and
events, in the table's order, with the operands each row names. -/

namespace Sys2Proof

/-- A thread of a core. `core` is a core_index of R17, or one of the two scalar cores of the Drover (R371). -/
structure Hart where
  core : Nat
  tid  : BitVec 2
  deriving DecidableEq, Repr

/-- A scalar register specifier (R51). -/
abbrev GReg := BitVec 5

/-- A vector register v0 to v15 (R97). -/
abbrev VReg := BitVec 4

/-- A tile t0 to t7 (R103). -/
abbrev TReg := BitVec 3

/-- An accumulator tile a0 to a3 (R111). -/
abbrev AReg := BitVec 2

/-- The element forms of the vector unit (R98); 0b11 is reserved and has no constructor. -/
inductive ElemType where
  | b8 | b16 | b32
  deriving DecidableEq, Repr

/-- The element types of SCANV (R83). -/
inductive ScanType where
  | wrap32 | sat32 | satQ15
  deriving DecidableEq, Repr

/-- Who makes a register access: the host through BAR0 (Plain), or a courier node with its G bit (R205, R373). -/
inductive Origin where
  | host
  | node (src : Nat) (guarded : Bool)
  deriving DecidableEq, Repr

/-- One BAR0 access (R13, R45): an aligned 32-bit write or read, or one of another size. -/
inductive BarAccess where
  | write32 (v : Word)
  | read32
  | badSize (isWrite : Bool)
  deriving DecidableEq, Repr

/-- A debug or boundary-scan operation of the TAP (R48). -/
inductive TapOp where
  | boundaryScan
  | debugPlain
  | debugGuarded
  deriving DecidableEq, Repr

/-- A DMA channel: channel n of a Serai, or channel c of a core (R267). -/
inductive Chan where
  | sys (serai : Nat) (n : Nat)
  | tile (core : Nat) (c : Nat)
  deriving DecidableEq, Repr

/-- A gather engine: at a near-tier unit, or in a Serai (R267). -/
inductive GatherEngine where
  | near (unit : Nat)
  | far (serai : Nat)
  deriving DecidableEq, Repr

/-- What a CXL Type 3 device answers (R279). -/
inductive CxlAnswer where
  | ok
  | error
  | poison
  deriving DecidableEq, Repr

/-- How the training of a link ended (R352). -/
inductive TrainResult where
  | aligned (gen : BitVec 2) (chip : BitVec 6) (link : BitVec 6) (latency : BitVec 16)
  | noFrame
  deriving DecidableEq, Repr

/-- One unit of a DATA frame with its descriptor (R354). `line` is bits [37:7] of the peer-window offset. -/
inductive LinkUnit where
  | write  (itag : BitVec 12) (line : BitVec 31) (first : BitVec 7) (bytes : List Byte)
  | read   (itag : BitVec 12) (line : BitVec 31) (first lenm1 : BitVec 7)
  | rdata  (itag : BitVec 12) (status : Byte) (bytes : List Byte)
  | resp   (records : List (BitVec 12 × Byte))
  | share  (itag : BitVec 12) (line : BitVec 31) (rate : BitVec 2) (bytes : List Byte)
  | rawblk (itag : BitVec 12) (line : BitVec 31) (header : BitVec 16) (bytes : List Byte)
  | cread  (itag : BitVec 12) (line : BitVec 31) (rate : BitVec 2)
  deriving DecidableEq, Repr

/-- The header ECC outcome of a CSI-2 packet (R379, R382). -/
inductive HeaderEcc where
  | clean | corrected | uncorrectable
  deriving DecidableEq, Repr

/-- A CSI-2 long packet at the receiver's decoder (R379 to R382, R409). -/
structure CsiPacket where
  vc      : BitVec 2
  dt      : BitVec 6
  ecc     : HeaderEcc
  crcOk   : Bool
  payload : List Byte
  deriving DecidableEq, Repr

/-- A received Ethernet frame after the PCS: its bytes from the destination address to the FCS, and what the FCS check found
(R385, R386). -/
structure EthFrame where
  fcsOk : Bool
  bytes : List Byte
  stamp : DWord
  deriving DecidableEq, Repr

/-- A received CAN frame with its start-of-frame timestamp (R388, R408). -/
structure CanFrame where
  id    : BitVec 29
  ide   : Bool
  fdf   : Bool
  brs   : Bool
  bytes : List Byte
  stamp : DWord
  deriving DecidableEq, Repr

/-- The commands of the block. -/
inductive Instr where
  -- package, clocks and fetch
  | registerWrite (o : Origin) (offset : Nat) (a : BarAccess)
  | cmpTimeLoRead
  | pwrokLow
  | pwrokHigh
  | droverPor
  | droverBoot (flash : List (Nat × Byte))
  | tapAccess (op : TapOp)
  | clkselWrite (h : Hart) (v : Word)
  | relockComplete (core : Nat)
  | instructionFetch (h : Hart)
  -- scalar arithmetic
  | add (h : Hart) (rd rs1 rs2 : GReg)
  | sub (h : Hart) (rd rs1 rs2 : GReg)
  | and (h : Hart) (rd rs1 rs2 : GReg)
  | or (h : Hart) (rd rs1 rs2 : GReg)
  | xor (h : Hart) (rd rs1 rs2 : GReg)
  | sll (h : Hart) (rd rs1 rs2 : GReg)
  | srl (h : Hart) (rd rs1 rs2 : GReg)
  | sra (h : Hart) (rd rs1 rs2 : GReg)
  | slt (h : Hart) (rd rs1 rs2 : GReg)
  | sltu (h : Hart) (rd rs1 rs2 : GReg)
  | min (h : Hart) (rd rs1 rs2 : GReg)
  | max (h : Hart) (rd rs1 rs2 : GReg)
  | minu (h : Hart) (rd rs1 rs2 : GReg)
  | maxu (h : Hart) (rd rs1 rs2 : GReg)
  | mul (h : Hart) (rd rs1 rs2 : GReg)
  | mulh (h : Hart) (rd rs1 rs2 : GReg)
  | mulhu (h : Hart) (rd rs1 rs2 : GReg)
  | clz (h : Hart) (rd rs1 : GReg)
  | popc (h : Hart) (rd rs1 : GReg)
  | addi (h : Hart) (rd rs1 : GReg) (imm : BitVec 14)
  | slti (h : Hart) (rd rs1 : GReg) (imm : BitVec 14)
  | sltiu (h : Hart) (rd rs1 : GReg) (imm : BitVec 14)
  | andi (h : Hart) (rd rs1 : GReg) (imm : BitVec 14)
  | ori (h : Hart) (rd rs1 : GReg) (imm : BitVec 14)
  | xori (h : Hart) (rd rs1 : GReg) (imm : BitVec 14)
  | slli (h : Hart) (rd rs1 : GReg) (sh : BitVec 5)
  | sri (h : Hart) (rd rs1 : GReg) (arith : Bool) (sh : BitVec 5)
  | lui (h : Hart) (rd : GReg) (imm : BitVec 22)
  | auipc (h : Hart) (rd : GReg) (imm : BitVec 22)
  -- scalar memory
  | ldB (h : Hart) (rd rb : GReg) (v : Bool) (off : BitVec 13)
  | ldBu (h : Hart) (rd rb : GReg) (v : Bool) (off : BitVec 13)
  | ldH (h : Hart) (rd rb : GReg) (v : Bool) (off : BitVec 13)
  | ldHu (h : Hart) (rd rb : GReg) (v : Bool) (off : BitVec 13)
  | ldW (h : Hart) (rd rb : GReg) (v : Bool) (off : BitVec 13)
  | pfh (h : Hart) (kind : BitVec 5) (rb : GReg) (off : BitVec 13)
  | stB (h : Hart) (rs rb : GReg) (off : BitVec 13)
  | stH (h : Hart) (rs rb : GReg) (off : BitVec 13)
  | stW (h : Hart) (rs rb : GReg) (off : BitVec 13)
  | farLoadAnswer (core id : Nat)
  | farStoreAck (core id : Nat)
  | laneAccessDeadline (core id : Nat)
  | amoswapW (h : Hart) (rd rs1 rs2 : GReg)
  | amoaddW (h : Hart) (rd rs1 rs2 : GReg)
  | amoandW (h : Hart) (rd rs1 rs2 : GReg)
  | amoorW (h : Hart) (rd rs1 rs2 : GReg)
  | amocasW (h : Hart) (rd rs1 rs2 : GReg)
  -- control transfer and windows
  | beq (h : Hart) (ht : Bool) (rs1 rs2 : GReg) (disp : BitVec 13)
  | bne (h : Hart) (ht : Bool) (rs1 rs2 : GReg) (disp : BitVec 13)
  | blt (h : Hart) (ht : Bool) (rs1 rs2 : GReg) (disp : BitVec 13)
  | bge (h : Hart) (ht : Bool) (rs1 rs2 : GReg) (disp : BitVec 13)
  | bltu (h : Hart) (ht : Bool) (rs1 rs2 : GReg) (disp : BitVec 13)
  | bgeu (h : Hart) (ht : Bool) (rs1 rs2 : GReg) (disp : BitVec 13)
  | jmp (h : Hart) (disp : BitVec 25)
  | call (h : Hart) (disp : BitVec 25)
  | callw (h : Hart) (disp : BitVec 25)
  | dbnz (h : Hart) (rc : GReg) (disp : BitVec 22)
  | jr (h : Hart) (rs1 : GReg)
  | callr (h : Hart) (rs1 : GReg)
  | callwr (h : Hart) (rs1 : GReg)
  | retw (h : Hart)
  | wspill (h : Hart) (rs1 : GReg)
  | wfill (h : Hart) (rs1 : GReg)
  -- fixed point
  | addsH (h : Hart) (rd rs1 rs2 : GReg)
  | subsH (h : Hart) (rd rs1 rs2 : GReg)
  | addsB (h : Hart) (rd rs1 rs2 : GReg)
  | subsB (h : Hart) (rd rs1 rs2 : GReg)
  | addsW (h : Hart) (rd rs1 rs2 : GReg)
  | subsW (h : Hart) (rd rs1 rs2 : GReg)
  | mulqH (h : Hart) (rd rs1 rs2 : GReg)
  | mulqB (h : Hart) (rd rs1 rs2 : GReg)
  | macH (h : Hart) (rs1 rs2 : GReg)
  | macB (h : Hart) (rs1 rs2 : GReg)
  | msuH (h : Hart) (rs1 rs2 : GReg)
  | msuB (h : Hart) (rs1 rs2 : GReg)
  | aclr (h : Hart)
  | amovlo (h : Hart) (rd : GReg)
  | amovhi (h : Hart) (rd : GReg)
  | amovw (h : Hart) (rs1 rs2 : GReg)
  | anarrowH (h : Hart) (rd : GReg) (sh : BitVec 4)
  | anarrowB (h : Hart) (rd : GReg) (sh : BitVec 4)
  | cvtHb (h : Hart) (rd rs1 : GReg)
  | cvtBh (h : Hart) (rd rs1 : GReg)
  -- long instructions
  | memcpyv (h : Hart) (ra rb rn : GReg)
  | gatherv (h : Hart) (ra rb rc rn : GReg) (k : BitVec 3)
  | scanv (h : Hart) (ra rb rc rn : GReg) (ty : ScanType)
  | longStep (h : Hart)
  -- CSRs and system
  | csrr (h : Hart) (rd : GReg) (n : BitVec 12)
  | csrw (h : Hart) (rd rs1 : GReg) (n : BitVec 12)
  | csrs (h : Hart) (rd rs1 : GReg) (n : BitVec 12)
  | csrc (h : Hart) (rd rs1 : GReg) (n : BitVec 12)
  | trap (h : Hart) (imm : BitVec 12)
  | eret (h : Hart)
  | wgate (h : Hart) (n : BitVec 4)
  | hold (h : Hart) (n : BitVec 12)
  | holdWindowEnd (h : Hart)
  | wfe (h : Hart) (rd rs1 : GReg) (mask : BitVec 8) (idle : Bool)
  | wfeTimeout (h : Hart)
  | trel (h : Hart) (rs1 : GReg)
  | threadStart (h : Hart)
  | fence (h : Hart) (rd : GReg) (ll fv fin : Bool)
  | twait (h : Hart) (rs1 : GReg)
  | twaitDone (h : Hart)
  | iflush (h : Hart)
  | iflushDone (core : Nat)
  | interruptEntry (h : Hart) (kept ran cycles : Nat)
  | weaveTableUpdate (core : Nat)
  | isetWrite (h : Hart) (v : Word)
  | stormWindowEnd (core : Nat)
  -- vector unit
  | vadd (h : Hart) (et : ElemType) (vd vs1 vs2 : VReg)
  | vsub (h : Hart) (et : ElemType) (vd vs1 vs2 : VReg)
  | vadds (h : Hart) (et : ElemType) (vd vs1 vs2 : VReg)
  | vsubs (h : Hart) (et : ElemType) (vd vs1 vs2 : VReg)
  | vand (h : Hart) (et : ElemType) (vd vs1 vs2 : VReg)
  | vor (h : Hart) (et : ElemType) (vd vs1 vs2 : VReg)
  | vxor (h : Hart) (et : ElemType) (vd vs1 vs2 : VReg)
  | vmin (h : Hart) (et : ElemType) (vd vs1 vs2 : VReg)
  | vmax (h : Hart) (et : ElemType) (vd vs1 vs2 : VReg)
  | vsll (h : Hart) (et : ElemType) (vd vs1 : VReg) (rs2 : GReg)
  | vsrl (h : Hart) (et : ElemType) (vd vs1 : VReg) (rs2 : GReg)
  | vsra (h : Hart) (et : ElemType) (vd vs1 : VReg) (rs2 : GReg)
  | vmulq (h : Hart) (et : ElemType) (vd vs1 vs2 : VReg)
  | vmul (h : Hart) (et : ElemType) (vd vs1 vs2 : VReg)
  | vcmpeq (h : Hart) (et : ElemType) (vd vs1 vs2 : VReg)
  | vcmplt (h : Hart) (et : ElemType) (vd vs1 vs2 : VReg)
  | vsel (h : Hart) (vd vs1 vs2 : VReg)
  | vbcast (h : Hart) (et : ElemType) (vd : VReg) (rs2 : GReg)
  | vext (h : Hart) (et : ElemType) (rd : GReg) (vs1 : VReg) (rs2 : GReg)
  | vcvtHb (h : Hart) (vd vs1 : VReg)
  | vcvtBh (h : Hart) (vd vs1 : VReg)
  | vld (h : Hart) (vd : VReg) (rb : GReg) (off : BitVec 13)
  | vst (h : Hart) (vs : VReg) (rb : GReg) (off : BitVec 13)
  -- tiles, accumulators and the matrix unit
  | stencil (h : Hart) (t : TReg) (rs1 : GReg)
  | tld (h : Hart) (t : TReg) (rs1 rs2 : GReg)
  | tst (h : Hart) (t : TReg) (rs1 rs2 : GReg)
  | tzero (h : Hart) (t : TReg)
  | tmov (h : Hart) (t ts : TReg)
  | texps (h : Hart) (t : TReg) (rs1 : GReg)
  | texpld (h : Hart) (t : TReg) (rs1 : GReg)
  | texpst (h : Hart) (t : TReg) (rs1 : GReg)
  | trdsh (h : Hart) (t : TReg) (rd : GReg)
  | trv (h : Hart) (t : TReg) (rs1 : GReg) (vd : VReg)
  | vtr (h : Hart) (t : TReg) (rs1 : GReg) (vs : VReg)
  | mma (h : Hart) (a : AReg) (ta tb : TReg)
  | mms (h : Hart) (a : AReg) (ta tb : TReg)
  | azero (h : Hart) (a : AReg) (rs : GReg)
  | mnarrow (h : Hart) (td : TReg) (a : AReg) (k : Option (BitVec 4))
  | ast (h : Hart) (a : AReg) (rs : GReg)
  | ald (h : Hart) (a : AReg) (rs : GReg)
  | tileInstructionComplete (h : Hart) (cycles : Nat) (rows : Option Nat)
  -- convoys
  | cvmma (h : Hart) (a : AReg) (ta tb : TReg)
  | cvmms (h : Hart) (a : AReg) (ta tb : TReg)
  | cvsync (h : Hart)
  | cvquery (h : Hart) (rd : GReg)
  | convoyLaunch (n : Nat)
  | convoyLaunchTimeout (n : Nat)
  | convoyOperationComplete (n : Nat)
  | convoyEnable (o : Origin) (n : Nat) (v : Word)
  | convoyLocked (n : Nat)
  | convoyDisable (o : Origin) (n : Nat)
  | convoyUnlocked (n : Nat)
  -- waybills
  | waybillGo (o : Origin) (core : Nat)
  | waybillClear (o : Origin) (core : Nat)
  | waybillLoad (o : Origin) (core : Nat)
  | waybillLoadComplete (core : Nat)
  | wbEnd (core : Nat)
  | wbSend (core : Nat)
  | wbRecv (core : Nat)
  | wbFwd (core : Nat)
  | wbWaitw (core : Nat)
  | wbWaitwMatch (core : Nat)
  | wbSignal (core : Nat)
  | wbLoop (core : Nat)
  | beatArrival (core : Nat) (dir : BitVec 2)
  | creditReturn (core : Nat) (dir : BitVec 2)
  | completionHandshake (core : Nat) (dir : BitVec 2)
  | waybillDeadline (core : Nat)
  -- lanes, courier and tenancy
  | laneBeatArrival (core id lane index : Nat)
  | laneSlotWrite (o : Origin) (lane w : Nat) (v : Word)
  | laneCommit (o : Origin)
  | frameBoundary
  | outboxGo (h : Hart)
  | event (k : Nat)
  | irq (k : Nat)
  | cfgRd (k : Nat)
  | cfgWr (k : Nat)
  | cfgRsp (k : Nat)
  | alert (k : Nat)
  | outboxDeadline (h : Hart)
  | tenRectEnable (o : Origin) (n : Nat) (v : Word)
  | tenRectDisable (o : Origin) (n : Nat)
  | finishWriteRelease (h : Hart)
  -- stacked memory, caches and the scrubber
  | thermalSample (unit : Nat) (temp : Option (BitVec 8))
  | cattrip (unit : Nat)
  | maskCommit (o : Origin) (unit : Nat)
  | nearTierAccess (unit core id : Nat)
  | bcLockWrite (o : Origin) (unit : Nat) (v : Word)
  | preloadGo (o : Origin) (unit : Nat)
  | preloadLine (unit : Nat)
  | preloadComplete (unit : Nat)
  | preloadStop (o : Origin) (unit : Nat)
  | prefetchFetch (unit : Nat)
  | cacheDrainStart (o : Origin) (unit : Nat)
  | cacheDrainComplete (unit : Nat)
  | icCtlWrite (o : Origin) (core : Nat) (v : Word)
  | scrubLine (unit : Nat)
  | localScrubLine (core : Nat)
  | memStartGo (o : Origin)
  | memStartTimeout
  | unitTrained (unit : Nat)
  | cxlEnumerated (port gib : Nat)
  -- DMA and gather
  | dmaChannelEnable (o : Origin) (serai n : Nat)
  | descriptorFetch (ch : Chan)
  | copy (ch : Chan)
  | fill (ch : Chan)
  | compare (ch : Chan)
  | gather (ch : Chan)
  | nop (ch : Chan)
  | triggerFire (ch : Chan)
  | pacePeriod (ch : Chan)
  | rowFetchDispatch (ch : Chan)
  | rowFetchComplete (e : GatherEngine) (k : Nat)
  | cxlResponse (core id : Nat) (a : CxlAnswer) (latency : Nat)
  | cxlTimeout (core id : Nat)
  | dmaDeadline (ch : Chan)
  | descriptorComplete (ch : Chan)
  | dmaAbort (o : Origin) (serai n : Nat)
  | tdmaEnable (o : Origin) (core c : Nat)
  | tdmaDoorbell (core c : Nat)
  -- host objects and rings
  | create (o : Origin) (c : Nat)
  | kill (o : Origin) (c : Nat)
  | contextQuiesced (c : Nat)
  | free (o : Origin) (c : Nat)
  | moValidate (o : Origin) (m : Nat) (v : Word)
  | moRemove (o : Origin) (m : Nat)
  | isoWrite (o : Origin) (v : Word)
  | queueEnable (o : Origin) (q : Nat) (v : Word)
  | queueDisable (o : Origin) (q : Nat)
  | sweep
  | sweepReadReturn (line : Nat) (words : List Word)
  | sweepReadTimeout (line : Nat)
  | ringFetchReturn (q : Nat) (slots : List (List DWord))
  | ringReadTimeout (q : Nat)
  | dispatch (q : Nat)
  | kernelStart (rect : Nat)
  | kernelDoneReport (core : Nat)
  | dispatchComplete (rect : Nat)
  | dispatchTimeout (rect : Nat)
  | evsignal (q : Nat)
  | evwait (q : Nat)
  | evwaitTimeout (q : Nat)
  | evreset (q : Nat)
  | ledger (q : Nat)
  | sraEvsigWrite (core : Nat) (v : Word)
  | evReset (o : Origin) (e : Nat)
  | eventChange
  | errorRecordWrite
  -- chip-to-chip links
  | linkEnable (o : Origin) (serai l : Nat)
  | linkTrainingEnd (serai l : Nat) (r : TrainResult)
  | retrain (serai l : Nat)
  | retrainAttemptEnd (serai l : Nat) (ok : Bool)
  | dataFrame (serai l : Nat) (frame : List Byte)
  | nullFrame (serai l : Nat) (frame : List Byte)
  | replayFrame (serai l : Nat) (frame : List Byte)
  | syncFrame (serai l : Nat) (frame : List Byte)
  | trainFrame (serai l : Nat) (chip link : BitVec 6) (gen : BitVec 2)
  | gapTimer (serai b : Nat)
  | replayTimer (serai b : Nat)
  | bundleLost (serai b : Nat)
  | resync (o : Origin) (serai b : Nat)
  | linkWrite (serai b : Nat)
  | linkRead (serai b : Nat)
  | linkRdata (serai b : Nat)
  | linkResp (serai b : Nat)
  | linkShare (serai b : Nat)
  | linkRawblk (serai b : Nat)
  | linkCread (serai b : Nat)
  -- the Drover die
  | lockstepMismatch
  | drvMemDeadline (k : Nat)
  | routeAccept (n : Nat)
  | ptpSync (offset : DWord) (adj : BitVec 16)
  | ptpSyncMiss
  | csiFrameStart (r : Nat) (stamp : DWord)
  | csiLongPacket (r : Nat) (p : CsiPacket)
  | csiFrameEnd (r : Nat) (stamp : DWord) (ecc : HeaderEcc) (crcOk : Bool)
  | csiFrameRecord (r : Nat)
  | csiFsTimeout (r : Nat)
  | ethRxFrame (p : Nat) (f : EthFrame)
  | ethTxDoorbell (o : Origin) (p ring : Nat) (v : Word)
  | ethRingEnable (o : Origin) (p ring : Nat) (v : Word)
  | ethTxFrame (p : Nat) (stamp : DWord)
  | gateEdge (p : Nat)
  | gclEnable (o : Origin) (p : Nat)
  | gclSwapArm (o : Origin) (p : Nat)
  | gclSwap (p : Nat)
  | canMbReq (o : Origin) (c m : Nat)
  | canMbLaunch (c m : Nat)
  | canTxDone (c m errs : Nat)
  | canMbTimeout (c m : Nat)
  | canRxFrame (c : Nat) (f : CanFrame) (errs : Nat)
  | canRxPop (o : Origin) (c : Nat)
  | canBusOff (c : Nat)
  | vfieldSample (mv : BitVec 16)
  | dinChange (n : Nat) (raw : Bool) (stamp : DWord)
  | dinStormWindowEnd
  | dinHighmax (i : Nat)
  | dinOpen (i : Nat)
  | dinOpenClear (i : Nat)
  | dinEvtRead
  | encoderEdge (e : Nat) (a b : Bool) (since : DWord)
  | encoderZEdge (e : Nat) (stamp : DWord)
  | encoderOpen (e : Nat)
  | encPosWrite (o : Origin) (e : Nat) (v : Word)
  | encZtimeRead (e : Nat)
  | snaptArm (o : Origin) (v : Word)
  | encoderSnapshot
  | adcRun (o : Origin)
  | adcEnable (o : Origin) (a : Nat)
  | adcSample (microunits : List Int)
  | adcOverrange (a : Nat)
  | adcShuntReconnect (a : Nat)
  | adcOpen (a : Nat)
  | doutShortTrip (n : Nat)
  | doutOvertemp (n : Nat)
  | doutReadback (n : Nat) (pinMv vfMv : Int) (openFor10ms : Bool)
  | doutRetry (n : Nat)
  | doutTestPulse (n : Nat) (pinMv : Int)
  | rearm (o : Origin)
  -- primer lines, twins, watchdogs and the e-stop path
  | primerReadback (r : Nat)
  | primerCheckComplete (r : Nat)
  | twinSubmit (o : Origin) (k : Nat) (sideB : Bool) (digest : Word)
  | twinSkewTimeout (k : Nat)
  | twinDisable (o : Origin) (k : Nat)
  | watchdogArm (o : Origin) (n : Nat)
  | watchdogKick (o : Origin) (n : Nat) (v : Word)
  | watchdogExpire (n : Nat)
  | estopDemand (a b : Bool)
  | estopDiscrepancy
  -- resets and power
  | perstLow
  | perstHigh
  | flr
  | regionReset (o : Origin) (v : Word)
  | coreReset (o : Origin) (core : Nat)
  | coreRelease (o : Origin) (core : Nat)
  | coreResetRelease (o : Origin) (core : Nat)
  | coreResetComplete (core : Nat)
  | blockRun (o : Origin) (b : Nat)
  | blockNap (o : Origin) (b : Nat)
  | blockDoze (o : Origin) (b : Nat)
  | blockOff (o : Origin) (b : Nat)
  | blockPowerTransitionEnd (b : Nat)
  | d3hotEntry
  | slumberExit
  | hostPortLinkUp
  | ethBlockLock (p : Nat) (up : Bool)
  | csiLanesStopState (r : Nat)
  | canBusIntegration (c : Nat)
  | canBusOffRecovery (c : Nat)
  deriving DecidableEq, Repr

end Sys2Proof
end

