-- ==== Sys2Proof/Decode.lean ====
section
/-! DEFINITION. The words of instructions: the table's rows give no bits, so no table word spells a command; the part's
own 32-bit instruction words are decoded for INSTRUCTION_FETCH and encoded for EVAL (R15, R90, R151). -/

namespace Sys2Proof

/-- The command a table word spells: no row of the table gives bits, so none (log entry 3). -/
def decodeTableWord (_nbits _w : Nat) : Option Instr := none

/-- Format Reg of R90. -/
def encReg (maj rd rs1 rs2 : BitVec 5) (fn : BitVec 12) : Word := maj ++ rd ++ rs1 ++ rs2 ++ fn

/-- Format Imm of R90. -/
def encImm (maj rd rs1 : BitVec 5) (fn : BitVec 3) (imm : BitVec 14) : Word := maj ++ rd ++ rs1 ++ fn ++ imm

/-- Formats Upper and Loop of R90. -/
def encUpper (maj rd : BitVec 5) (imm : BitVec 22) : Word := maj ++ rd ++ imm

/-- Format Mem of R90, which R127 shares. -/
def encMem (maj rd rb : BitVec 5) (sz : BitVec 3) (v : Bool) (off : BitVec 13) : Word :=
  maj ++ rd ++ rb ++ sz ++ BitVec.ofBool v ++ off

/-- Format Branch of R90. -/
def encBranch (cond : BitVec 3) (ht : Bool) (rs1 rs2 : BitVec 5) (disp : BitVec 13) : Word :=
  (0x07 : BitVec 5) ++ cond ++ BitVec.ofBool ht ++ rs1 ++ rs2 ++ disp

/-- Format Jump of R90. -/
def encJump (kind : BitVec 2) (disp : BitVec 25) : Word := (0x08 : BitVec 5) ++ kind ++ disp

/-- Format Sys of R90. -/
def encSys (rd rs1 op : BitVec 5) (imm : BitVec 12) : Word := (0x0E : BitVec 5) ++ rd ++ rs1 ++ op ++ imm

/-- Format Long of R90. -/
def encLong (ra rb rc rn : BitVec 5) (op : BitVec 3) (sub : BitVec 4) : Word :=
  (0x0C : BitVec 5) ++ ra ++ rb ++ rc ++ rn ++ op ++ sub

/-- The vector class of R126. -/
def encVec (d s1 s2 : BitVec 5) (et : BitVec 2) (fn : BitVec 10) : Word :=
  (0x18 : BitVec 5) ++ d ++ s1 ++ s2 ++ et ++ fn

/-- The tile class of R128. -/
def encTile (t : BitVec 3) (rs1 rs2 : BitVec 5) (ts : BitVec 3) (fn : BitVec 5) : Word :=
  (0x1A : BitVec 5) ++ t ++ (0 : BitVec 2) ++ rs1 ++ rs2 ++ ts ++ (0 : BitVec 4) ++ fn

/-- The matrix class of R129. -/
def encMat (a : BitVec 2) (ta tb : BitVec 3) (k rs : BitVec 5) (fn : BitVec 4) : Word :=
  (0x1B : BitVec 5) ++ a ++ ta ++ tb ++ (0 : BitVec 2) ++ k ++ rs ++ (0 : BitVec 3) ++ fn

/-- A vector register in a 5-bit field (R126). -/
def ext5 (v : BitVec 4) : BitVec 5 := (0 : BitVec 1) ++ v

/-- The ET field (R98). -/
def etCode : ElemType → BitVec 2
  | .b8 => 0
  | .b16 => 1
  | .b32 => 2

/-- The element type of an ET field; 0b11 is reserved (R98). -/
def etOf (c : BitVec 2) : Option ElemType :=
  if c = 0 then some .b8 else if c = 1 then some .b16 else if c = 2 then some .b32 else none

/-- The SUB field of SCANV (R83). -/
def scanCode : ScanType → BitVec 4
  | .wrap32 => 0
  | .sat32 => 1
  | .satQ15 => 2

/-- The word of an instruction (R90 to R93, R126 to R129, R158, R184); none for a command that is no instruction. -/
def encode (i : Instr) : Option Word :=
  match i with
  | .add _ rd rs1 rs2 => some (encReg 0x00 rd rs1 rs2 0x001)
  | .sub _ rd rs1 rs2 => some (encReg 0x00 rd rs1 rs2 0x002)
  | .and _ rd rs1 rs2 => some (encReg 0x00 rd rs1 rs2 0x003)
  | .or _ rd rs1 rs2 => some (encReg 0x00 rd rs1 rs2 0x004)
  | .xor _ rd rs1 rs2 => some (encReg 0x00 rd rs1 rs2 0x005)
  | .sll _ rd rs1 rs2 => some (encReg 0x00 rd rs1 rs2 0x006)
  | .srl _ rd rs1 rs2 => some (encReg 0x00 rd rs1 rs2 0x007)
  | .sra _ rd rs1 rs2 => some (encReg 0x00 rd rs1 rs2 0x008)
  | .slt _ rd rs1 rs2 => some (encReg 0x00 rd rs1 rs2 0x009)
  | .sltu _ rd rs1 rs2 => some (encReg 0x00 rd rs1 rs2 0x00A)
  | .min _ rd rs1 rs2 => some (encReg 0x00 rd rs1 rs2 0x00B)
  | .max _ rd rs1 rs2 => some (encReg 0x00 rd rs1 rs2 0x00C)
  | .minu _ rd rs1 rs2 => some (encReg 0x00 rd rs1 rs2 0x00D)
  | .maxu _ rd rs1 rs2 => some (encReg 0x00 rd rs1 rs2 0x00E)
  | .mul _ rd rs1 rs2 => some (encReg 0x00 rd rs1 rs2 0x010)
  | .mulh _ rd rs1 rs2 => some (encReg 0x00 rd rs1 rs2 0x011)
  | .mulhu _ rd rs1 rs2 => some (encReg 0x00 rd rs1 rs2 0x012)
  | .clz _ rd rs1 => some (encReg 0x00 rd rs1 0 0x018)
  | .popc _ rd rs1 => some (encReg 0x00 rd rs1 0 0x019)
  | .addi _ rd rs1 imm => some (encImm 0x01 rd rs1 0 imm)
  | .slti _ rd rs1 imm => some (encImm 0x01 rd rs1 1 imm)
  | .sltiu _ rd rs1 imm => some (encImm 0x01 rd rs1 2 imm)
  | .andi _ rd rs1 imm => some (encImm 0x01 rd rs1 3 imm)
  | .ori _ rd rs1 imm => some (encImm 0x01 rd rs1 4 imm)
  | .xori _ rd rs1 imm => some (encImm 0x01 rd rs1 5 imm)
  | .slli _ rd rs1 sh => some (encImm 0x01 rd rs1 6 ((0 : BitVec 9) ++ sh))
  | .sri _ rd rs1 arith sh => some (encImm 0x01 rd rs1 7 ((0 : BitVec 8) ++ BitVec.ofBool arith ++ sh))
  | .lui _ rd imm => some (encUpper 0x02 rd imm)
  | .auipc _ rd imm => some (encUpper 0x03 rd imm)
  | .ldB _ rd rb v off => some (encMem 0x04 rd rb 0 v off)
  | .ldBu _ rd rb v off => some (encMem 0x04 rd rb 1 v off)
  | .ldH _ rd rb v off => some (encMem 0x04 rd rb 2 v off)
  | .ldHu _ rd rb v off => some (encMem 0x04 rd rb 3 v off)
  | .ldW _ rd rb v off => some (encMem 0x04 rd rb 4 v off)
  | .pfh _ kind rb off => some (encMem 0x04 kind rb 5 false off)
  | .stB _ rs rb off => some (encMem 0x05 rs rb 0 false off)
  | .stH _ rs rb off => some (encMem 0x05 rs rb 2 false off)
  | .stW _ rs rb off => some (encMem 0x05 rs rb 4 false off)
  | .amoswapW _ rd rs1 rs2 => some (encReg 0x06 rd rs1 rs2 0x001)
  | .amoaddW _ rd rs1 rs2 => some (encReg 0x06 rd rs1 rs2 0x002)
  | .amoandW _ rd rs1 rs2 => some (encReg 0x06 rd rs1 rs2 0x003)
  | .amoorW _ rd rs1 rs2 => some (encReg 0x06 rd rs1 rs2 0x004)
  | .amocasW _ rd rs1 rs2 => some (encReg 0x06 rd rs1 rs2 0x005)
  | .beq _ ht rs1 rs2 disp => some (encBranch 0 ht rs1 rs2 disp)
  | .bne _ ht rs1 rs2 disp => some (encBranch 1 ht rs1 rs2 disp)
  | .blt _ ht rs1 rs2 disp => some (encBranch 2 ht rs1 rs2 disp)
  | .bge _ ht rs1 rs2 disp => some (encBranch 3 ht rs1 rs2 disp)
  | .bltu _ ht rs1 rs2 disp => some (encBranch 4 ht rs1 rs2 disp)
  | .bgeu _ ht rs1 rs2 disp => some (encBranch 5 ht rs1 rs2 disp)
  | .jmp _ disp => some (encJump 0 disp)
  | .call _ disp => some (encJump 1 disp)
  | .callw _ disp => some (encJump 2 disp)
  | .dbnz _ rc disp => some (encUpper 0x09 rc disp)
  | .jr _ rs1 => some (encReg 0x0A 0 rs1 0 0x001)
  | .callr _ rs1 => some (encReg 0x0A 0 rs1 0 0x002)
  | .callwr _ rs1 => some (encReg 0x0A 0 rs1 0 0x003)
  | .retw _ => some (encReg 0x0A 0 0 0 0x004)
  | .wspill _ rs1 => some (encReg 0x0F 0 rs1 0 0x001)
  | .wfill _ rs1 => some (encReg 0x0F 0 rs1 0 0x002)
  | .addsH _ rd rs1 rs2 => some (encReg 0x0B rd rs1 rs2 0x001)
  | .subsH _ rd rs1 rs2 => some (encReg 0x0B rd rs1 rs2 0x002)
  | .addsB _ rd rs1 rs2 => some (encReg 0x0B rd rs1 rs2 0x003)
  | .subsB _ rd rs1 rs2 => some (encReg 0x0B rd rs1 rs2 0x004)
  | .addsW _ rd rs1 rs2 => some (encReg 0x0B rd rs1 rs2 0x005)
  | .subsW _ rd rs1 rs2 => some (encReg 0x0B rd rs1 rs2 0x006)
  | .mulqH _ rd rs1 rs2 => some (encReg 0x0B rd rs1 rs2 0x008)
  | .mulqB _ rd rs1 rs2 => some (encReg 0x0B rd rs1 rs2 0x009)
  | .macH _ rs1 rs2 => some (encReg 0x0B 0 rs1 rs2 0x010)
  | .macB _ rs1 rs2 => some (encReg 0x0B 0 rs1 rs2 0x011)
  | .msuH _ rs1 rs2 => some (encReg 0x0B 0 rs1 rs2 0x012)
  | .msuB _ rs1 rs2 => some (encReg 0x0B 0 rs1 rs2 0x013)
  | .amovw _ rs1 rs2 => some (encReg 0x0B 0 rs1 rs2 0x01B)
  | .aclr _ => some (encReg 0x0B 0 0 0 0x018)
  | .amovlo _ rd => some (encReg 0x0B rd 0 0 0x019)
  | .amovhi _ rd => some (encReg 0x0B rd 0 0 0x01A)
  | .anarrowH _ rd sh => some (encReg 0x0B rd 0 0 ((0x02 : BitVec 8) ++ sh))
  | .anarrowB _ rd sh => some (encReg 0x0B rd 0 0 ((0x03 : BitVec 8) ++ sh))
  | .cvtHb _ rd rs1 => some (encReg 0x0B rd rs1 0 0x040)
  | .cvtBh _ rd rs1 => some (encReg 0x0B rd rs1 0 0x041)
  | .memcpyv _ ra rb rn => some (encLong ra rb 0 rn 0 0)
  | .gatherv _ ra rb rc rn k => some (encLong ra rb rc rn 1 ((0 : BitVec 1) ++ k))
  | .scanv _ ra rb rc rn ty => some (encLong ra rb rc rn 2 (scanCode ty))
  | .csrr _ rd n => some (encImm 0x0D rd 0 0 ((0 : BitVec 2) ++ n))
  | .csrw _ rd rs1 n => some (encImm 0x0D rd rs1 1 ((0 : BitVec 2) ++ n))
  | .csrs _ rd rs1 n => some (encImm 0x0D rd rs1 2 ((0 : BitVec 2) ++ n))
  | .csrc _ rd rs1 n => some (encImm 0x0D rd rs1 3 ((0 : BitVec 2) ++ n))
  | .trap _ imm => some (encSys 0 0 0x00 imm)
  | .eret _ => some (encSys 0 0 0x01 0)
  | .wgate _ n => some (encSys 0 0 0x02 ((0 : BitVec 8) ++ n))
  | .hold _ n => some (encSys 0 0 0x03 n)
  | .wfe _ rd rs1 mask idle => some (encSys rd rs1 0x04 ((0 : BitVec 3) ++ BitVec.ofBool idle ++ mask))
  | .trel _ rs1 => some (encSys 0 rs1 0x05 0)
  | .fence _ rd ll fv fin => some (encSys rd 0 0x06 ((0 : BitVec 9) ++ BitVec.ofBool fin ++ BitVec.ofBool fv ++ BitVec.ofBool ll))
  | .twait _ rs1 => some (encSys 0 rs1 0x07 0)
  | .iflush _ => some (encSys 0 0 0x08 0)
  | .vadd _ et vd vs1 vs2 => some (encVec (ext5 vd) (ext5 vs1) (ext5 vs2) (etCode et) 0x001)
  | .vsub _ et vd vs1 vs2 => some (encVec (ext5 vd) (ext5 vs1) (ext5 vs2) (etCode et) 0x002)
  | .vadds _ et vd vs1 vs2 => some (encVec (ext5 vd) (ext5 vs1) (ext5 vs2) (etCode et) 0x003)
  | .vsubs _ et vd vs1 vs2 => some (encVec (ext5 vd) (ext5 vs1) (ext5 vs2) (etCode et) 0x004)
  | .vand _ et vd vs1 vs2 => some (encVec (ext5 vd) (ext5 vs1) (ext5 vs2) (etCode et) 0x005)
  | .vor _ et vd vs1 vs2 => some (encVec (ext5 vd) (ext5 vs1) (ext5 vs2) (etCode et) 0x006)
  | .vxor _ et vd vs1 vs2 => some (encVec (ext5 vd) (ext5 vs1) (ext5 vs2) (etCode et) 0x007)
  | .vmin _ et vd vs1 vs2 => some (encVec (ext5 vd) (ext5 vs1) (ext5 vs2) (etCode et) 0x008)
  | .vmax _ et vd vs1 vs2 => some (encVec (ext5 vd) (ext5 vs1) (ext5 vs2) (etCode et) 0x009)
  | .vmulq _ et vd vs1 vs2 => some (encVec (ext5 vd) (ext5 vs1) (ext5 vs2) (etCode et) 0x00D)
  | .vmul _ et vd vs1 vs2 => some (encVec (ext5 vd) (ext5 vs1) (ext5 vs2) (etCode et) 0x00E)
  | .vcmpeq _ et vd vs1 vs2 => some (encVec (ext5 vd) (ext5 vs1) (ext5 vs2) (etCode et) 0x010)
  | .vcmplt _ et vd vs1 vs2 => some (encVec (ext5 vd) (ext5 vs1) (ext5 vs2) (etCode et) 0x011)
  | .vsll _ et vd vs1 rs2 => some (encVec (ext5 vd) (ext5 vs1) rs2 (etCode et) 0x00A)
  | .vsrl _ et vd vs1 rs2 => some (encVec (ext5 vd) (ext5 vs1) rs2 (etCode et) 0x00B)
  | .vsra _ et vd vs1 rs2 => some (encVec (ext5 vd) (ext5 vs1) rs2 (etCode et) 0x00C)
  | .vsel _ vd vs1 vs2 => some (encVec (ext5 vd) (ext5 vs1) (ext5 vs2) 0 0x012)
  | .vbcast _ et vd rs2 => some (encVec (ext5 vd) 0 rs2 (etCode et) 0x018)
  | .vext _ et rd vs1 rs2 => some (encVec rd (ext5 vs1) rs2 (etCode et) 0x019)
  | .vcvtHb _ vd vs1 => some (encVec (ext5 vd) (ext5 vs1) 0 1 0x020)
  | .vcvtBh _ vd vs1 => some (encVec (ext5 vd) (ext5 vs1) 0 0 0x021)
  | .vld _ vd rb off => some (encMem 0x19 (ext5 vd) rb 0 false off)
  | .vst _ vs rb off => some (encMem 0x19 (ext5 vs) rb 1 false off)
  | .stencil _ t rs1 => some (encTile t rs1 0 0 0x01)
  | .tld _ t rs1 rs2 => some (encTile t rs1 rs2 0 0x02)
  | .tst _ t rs1 rs2 => some (encTile t rs1 rs2 0 0x03)
  | .tzero _ t => some (encTile t 0 0 0 0x04)
  | .tmov _ t ts => some (encTile t 0 0 ts 0x05)
  | .texps _ t rs1 => some (encTile t rs1 0 0 0x06)
  | .texpld _ t rs1 => some (encTile t rs1 0 0 0x07)
  | .texpst _ t rs1 => some (encTile t rs1 0 0 0x08)
  | .trdsh _ t rd => some (encTile t 0 rd 0 0x09)
  | .trv _ t rs1 vd => some (encTile t rs1 (ext5 vd) 0 0x0A)
  | .vtr _ t rs1 vs => some (encTile t rs1 (ext5 vs) 0 0x0B)
  | .mma _ a ta tb => some (encMat a ta tb 0 0 0x1)
  | .mms _ a ta tb => some (encMat a ta tb 0 0 0x2)
  | .azero _ a rs => some (encMat a 0 0 0 rs 0x3)
  | .mnarrow _ td a none => some (encMat a td 0 0x10 0 0x4)
  | .mnarrow _ td a (some k) => some (encMat a td 0 ((0 : BitVec 1) ++ k) 0 0x4)
  | .ast _ a rs => some (encMat a 0 0 0 rs 0x5)
  | .ald _ a rs => some (encMat a 0 0 0 rs 0x6)
  | .cvmma _ a ta tb => some (encMat a ta tb 0 0 0x8)
  | .cvmms _ a ta tb => some (encMat a ta tb 0 0 0x9)
  | .cvsync _ => some (encMat 0 0 0 0 0 0xA)
  | .cvquery _ rd => some (encMat 0 0 0 0 rd 0xB)
  | _ => none

/-- The instruction word that EVAL reports (R151). -/
def insnWord (i : Instr) : Word := (encode i).getD 0

/-- Major opcode 0x00 (R92, R93). -/
def decAlu (h : Hart) (w : Word) : Option Instr :=
  let rd := w.extractLsb' 22 5
  let rs1 := w.extractLsb' 17 5
  let rs2 := w.extractLsb' 12 5
  let fn := w.extractLsb' 0 12
  if fn = 0x001 then some (.add h rd rs1 rs2)
  else if fn = 0x002 then some (.sub h rd rs1 rs2)
  else if fn = 0x003 then some (.and h rd rs1 rs2)
  else if fn = 0x004 then some (.or h rd rs1 rs2)
  else if fn = 0x005 then some (.xor h rd rs1 rs2)
  else if fn = 0x006 then some (.sll h rd rs1 rs2)
  else if fn = 0x007 then some (.srl h rd rs1 rs2)
  else if fn = 0x008 then some (.sra h rd rs1 rs2)
  else if fn = 0x009 then some (.slt h rd rs1 rs2)
  else if fn = 0x00A then some (.sltu h rd rs1 rs2)
  else if fn = 0x00B then some (.min h rd rs1 rs2)
  else if fn = 0x00C then some (.max h rd rs1 rs2)
  else if fn = 0x00D then some (.minu h rd rs1 rs2)
  else if fn = 0x00E then some (.maxu h rd rs1 rs2)
  else if fn = 0x010 then some (.mul h rd rs1 rs2)
  else if fn = 0x011 then some (.mulh h rd rs1 rs2)
  else if fn = 0x012 then some (.mulhu h rd rs1 rs2)
  else if fn = 0x018 ∧ rs2 = 0 then some (.clz h rd rs1)
  else if fn = 0x019 ∧ rs2 = 0 then some (.popc h rd rs1)
  else none

/-- Major opcode 0x01 (R92, R93). -/
def decImm (h : Hart) (w : Word) : Option Instr :=
  let rd := w.extractLsb' 22 5
  let rs1 := w.extractLsb' 17 5
  let fn := w.extractLsb' 14 3
  let imm := w.extractLsb' 0 14
  if fn = 0 then some (.addi h rd rs1 imm)
  else if fn = 1 then some (.slti h rd rs1 imm)
  else if fn = 2 then some (.sltiu h rd rs1 imm)
  else if fn = 3 then some (.andi h rd rs1 imm)
  else if fn = 4 then some (.ori h rd rs1 imm)
  else if fn = 5 then some (.xori h rd rs1 imm)
  else if fn = 6 ∧ w.extractLsb' 5 9 = 0 then some (.slli h rd rs1 (w.extractLsb' 0 5))
  else if fn = 7 ∧ w.extractLsb' 6 8 = 0 then some (.sri h rd rs1 (w.getLsbD 5) (w.extractLsb' 0 5))
  else none

/-- Major opcode 0x04 (R92, R93). -/
def decLoad (h : Hart) (w : Word) : Option Instr :=
  let rd := w.extractLsb' 22 5
  let rb := w.extractLsb' 17 5
  let sz := w.extractLsb' 14 3
  let v := w.getLsbD 13
  let off := w.extractLsb' 0 13
  if sz = 0 then some (.ldB h rd rb v off)
  else if sz = 1 then some (.ldBu h rd rb v off)
  else if sz = 2 then some (.ldH h rd rb v off)
  else if sz = 3 then some (.ldHu h rd rb v off)
  else if sz = 4 then some (.ldW h rd rb v off)
  else if sz = 5 ∧ v = false then some (.pfh h rd rb off)
  else none

/-- Major opcode 0x05 (R92, R93). -/
def decStore (h : Hart) (w : Word) : Option Instr :=
  let rd := w.extractLsb' 22 5
  let rb := w.extractLsb' 17 5
  let sz := w.extractLsb' 14 3
  let v := w.getLsbD 13
  let off := w.extractLsb' 0 13
  if sz = 0 ∧ v = false then some (.stB h rd rb off)
  else if sz = 2 ∧ v = false then some (.stH h rd rb off)
  else if sz = 4 ∧ v = false then some (.stW h rd rb off)
  else none

/-- Major opcode 0x06 (R92, R94). -/
def decAtomic (h : Hart) (w : Word) : Option Instr :=
  let rd := w.extractLsb' 22 5
  let rs1 := w.extractLsb' 17 5
  let rs2 := w.extractLsb' 12 5
  let fn := w.extractLsb' 0 12
  if fn = 0x001 then some (.amoswapW h rd rs1 rs2)
  else if fn = 0x002 then some (.amoaddW h rd rs1 rs2)
  else if fn = 0x003 then some (.amoandW h rd rs1 rs2)
  else if fn = 0x004 then some (.amoorW h rd rs1 rs2)
  else if fn = 0x005 then some (.amocasW h rd rs1 rs2)
  else none

/-- Major opcode 0x07 (R90, R92). -/
def decBranch (h : Hart) (w : Word) : Option Instr :=
  let cond := w.extractLsb' 24 3
  let ht := w.getLsbD 23
  let rs1 := w.extractLsb' 18 5
  let rs2 := w.extractLsb' 13 5
  let disp := w.extractLsb' 0 13
  if cond = 0 then some (.beq h ht rs1 rs2 disp)
  else if cond = 1 then some (.bne h ht rs1 rs2 disp)
  else if cond = 2 then some (.blt h ht rs1 rs2 disp)
  else if cond = 3 then some (.bge h ht rs1 rs2 disp)
  else if cond = 4 then some (.bltu h ht rs1 rs2 disp)
  else if cond = 5 then some (.bgeu h ht rs1 rs2 disp)
  else none

/-- Major opcode 0x08 (R90, R92). -/
def decJump (h : Hart) (w : Word) : Option Instr :=
  let kind := w.extractLsb' 25 2
  let disp := w.extractLsb' 0 25
  if kind = 0 then some (.jmp h disp)
  else if kind = 1 then some (.call h disp)
  else if kind = 2 then some (.callw h disp)
  else none

/-- Major opcode 0x0A (R92). -/
def decRegJump (h : Hart) (w : Word) : Option Instr :=
  let rd := w.extractLsb' 22 5
  let rs1 := w.extractLsb' 17 5
  let rs2 := w.extractLsb' 12 5
  let fn := w.extractLsb' 0 12
  if fn = 0x001 ∧ rd = 0 ∧ rs2 = 0 then some (.jr h rs1)
  else if fn = 0x002 ∧ rd = 0 ∧ rs2 = 0 then some (.callr h rs1)
  else if fn = 0x003 ∧ rd = 0 ∧ rs2 = 0 then some (.callwr h rs1)
  else if fn = 0x004 ∧ rd = 0 ∧ rs1 = 0 ∧ rs2 = 0 then some (.retw h)
  else none

/-- Major opcode 0x0B (R82, R92). -/
def decFixed (h : Hart) (w : Word) : Option Instr :=
  let rd := w.extractLsb' 22 5
  let rs1 := w.extractLsb' 17 5
  let rs2 := w.extractLsb' 12 5
  let fn := w.extractLsb' 0 12
  if fn = 0x001 then some (.addsH h rd rs1 rs2)
  else if fn = 0x002 then some (.subsH h rd rs1 rs2)
  else if fn = 0x003 then some (.addsB h rd rs1 rs2)
  else if fn = 0x004 then some (.subsB h rd rs1 rs2)
  else if fn = 0x005 then some (.addsW h rd rs1 rs2)
  else if fn = 0x006 then some (.subsW h rd rs1 rs2)
  else if fn = 0x008 then some (.mulqH h rd rs1 rs2)
  else if fn = 0x009 then some (.mulqB h rd rs1 rs2)
  else if fn = 0x010 ∧ rd = 0 then some (.macH h rs1 rs2)
  else if fn = 0x011 ∧ rd = 0 then some (.macB h rs1 rs2)
  else if fn = 0x012 ∧ rd = 0 then some (.msuH h rs1 rs2)
  else if fn = 0x013 ∧ rd = 0 then some (.msuB h rs1 rs2)
  else if fn = 0x01B ∧ rd = 0 then some (.amovw h rs1 rs2)
  else if fn = 0x018 ∧ rd = 0 ∧ rs1 = 0 ∧ rs2 = 0 then some (.aclr h)
  else if fn = 0x019 ∧ rs1 = 0 ∧ rs2 = 0 then some (.amovlo h rd)
  else if fn = 0x01A ∧ rs1 = 0 ∧ rs2 = 0 then some (.amovhi h rd)
  else if w.extractLsb' 4 8 = 0x02 ∧ rs1 = 0 ∧ rs2 = 0 then some (.anarrowH h rd (w.extractLsb' 0 4))
  else if w.extractLsb' 4 8 = 0x03 ∧ rs1 = 0 ∧ rs2 = 0 then some (.anarrowB h rd (w.extractLsb' 0 4))
  else if fn = 0x040 ∧ rs2 = 0 then some (.cvtHb h rd rs1)
  else if fn = 0x041 ∧ rs2 = 0 then some (.cvtBh h rd rs1)
  else none

/-- Major opcode 0x0C (R83, R90, R92). -/
def decLong (h : Hart) (w : Word) : Option Instr :=
  let ra := w.extractLsb' 22 5
  let rb := w.extractLsb' 17 5
  let rc := w.extractLsb' 12 5
  let rn := w.extractLsb' 7 5
  let op := w.extractLsb' 4 3
  let sub := w.extractLsb' 0 4
  if op = 0 ∧ rc = 0 ∧ sub = 0 then some (.memcpyv h ra rb rn)
  else if op = 1 ∧ w.getLsbD 3 = false then some (.gatherv h ra rb rc rn (w.extractLsb' 0 3))
  else if op = 2 ∧ sub = 0 then some (.scanv h ra rb rc rn .wrap32)
  else if op = 2 ∧ sub = 1 then some (.scanv h ra rb rc rn .sat32)
  else if op = 2 ∧ sub = 2 then some (.scanv h ra rb rc rn .satQ15)
  else none

/-- Major opcode 0x0D (R92). -/
def decCsr (h : Hart) (w : Word) : Option Instr :=
  let rd := w.extractLsb' 22 5
  let rs1 := w.extractLsb' 17 5
  let fn := w.extractLsb' 14 3
  let n := w.extractLsb' 0 12
  if w.extractLsb' 12 2 ≠ 0 then none
  else if fn = 0 ∧ rs1 = 0 then some (.csrr h rd n)
  else if fn = 1 then some (.csrw h rd rs1 n)
  else if fn = 2 then some (.csrs h rd rs1 n)
  else if fn = 3 then some (.csrc h rd rs1 n)
  else none

/-- Major opcode 0x0E (R92, R141, R145, R155, R158, R226). -/
def decSys (h : Hart) (w : Word) : Option Instr :=
  let rd := w.extractLsb' 22 5
  let rs1 := w.extractLsb' 17 5
  let op := w.extractLsb' 12 5
  let imm := w.extractLsb' 0 12
  if op = 0x00 ∧ rd = 0 ∧ rs1 = 0 then some (.trap h imm)
  else if op = 0x01 ∧ rd = 0 ∧ rs1 = 0 ∧ imm = 0 then some (.eret h)
  else if op = 0x02 ∧ rd = 0 ∧ rs1 = 0 ∧ w.extractLsb' 4 8 = 0 then some (.wgate h (w.extractLsb' 0 4))
  else if op = 0x03 ∧ rd = 0 ∧ rs1 = 0 ∧ 1 ≤ imm.toNat ∧ imm.toNat ≤ 512 then some (.hold h imm)
  else if op = 0x04 ∧ w.extractLsb' 9 3 = 0 then some (.wfe h rd rs1 (w.extractLsb' 0 8) (w.getLsbD 8))
  else if op = 0x05 ∧ rd = 0 ∧ imm = 0 then some (.trel h rs1)
  else if op = 0x06 ∧ rs1 = 0 ∧ w.extractLsb' 3 9 = 0 ∧ imm ≠ 0 then some (.fence h rd (w.getLsbD 0) (w.getLsbD 1) (w.getLsbD 2))
  else if op = 0x07 ∧ rd = 0 ∧ imm = 0 then some (.twait h rs1)
  else if op = 0x08 ∧ rd = 0 ∧ rs1 = 0 ∧ imm = 0 then some (.iflush h)
  else none

/-- Major opcode 0x0F (R92). -/
def decWindow (h : Hart) (w : Word) : Option Instr :=
  let rd := w.extractLsb' 22 5
  let rs1 := w.extractLsb' 17 5
  let rs2 := w.extractLsb' 12 5
  let fn := w.extractLsb' 0 12
  if fn = 0x001 ∧ rd = 0 ∧ rs2 = 0 then some (.wspill h rs1)
  else if fn = 0x002 ∧ rd = 0 ∧ rs2 = 0 then some (.wfill h rs1)
  else none

/-- Major opcode 0x18 (R99, R126). -/
def decVec (h : Hart) (w : Word) : Option Instr :=
  let fn := w.extractLsb' 0 10
  let et := etOf (w.extractLsb' 10 2)
  let vd := w.extractLsb' 22 4
  let vs1 := w.extractLsb' 17 4
  let vs2 := w.extractLsb' 12 4
  let rs2 := w.extractLsb' 12 5
  let dOk := w.getLsbD 26 = false
  let s1Ok := w.getLsbD 21 = false
  let s2Ok := w.getLsbD 16 = false
  if fn = 0x001 ∧ dOk ∧ s1Ok ∧ s2Ok then et.map fun e => .vadd h e vd vs1 vs2
  else if fn = 0x002 ∧ dOk ∧ s1Ok ∧ s2Ok then et.map fun e => .vsub h e vd vs1 vs2
  else if fn = 0x003 ∧ dOk ∧ s1Ok ∧ s2Ok then et.map fun e => .vadds h e vd vs1 vs2
  else if fn = 0x004 ∧ dOk ∧ s1Ok ∧ s2Ok then et.map fun e => .vsubs h e vd vs1 vs2
  else if fn = 0x005 ∧ dOk ∧ s1Ok ∧ s2Ok then et.map fun e => .vand h e vd vs1 vs2
  else if fn = 0x006 ∧ dOk ∧ s1Ok ∧ s2Ok then et.map fun e => .vor h e vd vs1 vs2
  else if fn = 0x007 ∧ dOk ∧ s1Ok ∧ s2Ok then et.map fun e => .vxor h e vd vs1 vs2
  else if fn = 0x008 ∧ dOk ∧ s1Ok ∧ s2Ok then et.map fun e => .vmin h e vd vs1 vs2
  else if fn = 0x009 ∧ dOk ∧ s1Ok ∧ s2Ok then et.map fun e => .vmax h e vd vs1 vs2
  else if fn = 0x00D ∧ dOk ∧ s1Ok ∧ s2Ok ∧ w.extractLsb' 10 2 ≠ 2 then et.map fun e => .vmulq h e vd vs1 vs2
  else if fn = 0x00E ∧ dOk ∧ s1Ok ∧ s2Ok then et.map fun e => .vmul h e vd vs1 vs2
  else if fn = 0x010 ∧ dOk ∧ s1Ok ∧ s2Ok then et.map fun e => .vcmpeq h e vd vs1 vs2
  else if fn = 0x011 ∧ dOk ∧ s1Ok ∧ s2Ok then et.map fun e => .vcmplt h e vd vs1 vs2
  else if fn = 0x00A ∧ dOk ∧ s1Ok then et.map fun e => .vsll h e vd vs1 rs2
  else if fn = 0x00B ∧ dOk ∧ s1Ok then et.map fun e => .vsrl h e vd vs1 rs2
  else if fn = 0x00C ∧ dOk ∧ s1Ok then et.map fun e => .vsra h e vd vs1 rs2
  else if fn = 0x012 ∧ dOk ∧ s1Ok ∧ s2Ok ∧ w.extractLsb' 10 2 = 0 then some (.vsel h vd vs1 vs2)
  else if fn = 0x018 ∧ dOk ∧ w.extractLsb' 17 5 = 0 then et.map fun e => .vbcast h e vd rs2
  else if fn = 0x019 ∧ s1Ok then et.map fun e => .vext h e (w.extractLsb' 22 5) vs1 rs2
  else if fn = 0x020 ∧ dOk ∧ s1Ok ∧ rs2 = 0 ∧ w.extractLsb' 10 2 = 1 then some (.vcvtHb h vd vs1)
  else if fn = 0x021 ∧ dOk ∧ s1Ok ∧ rs2 = 0 ∧ w.extractLsb' 10 2 = 0 then some (.vcvtBh h vd vs1)
  else none

/-- Major opcode 0x19 (R127). -/
def decVecMem (h : Hart) (w : Word) : Option Instr :=
  let v := w.extractLsb' 22 4
  let rb := w.extractLsb' 17 5
  let op := w.extractLsb' 14 3
  let ok := w.getLsbD 26 = false ∧ w.getLsbD 13 = false
  let off := w.extractLsb' 0 13
  if op = 0 ∧ ok then some (.vld h v rb off)
  else if op = 1 ∧ ok then some (.vst h v rb off)
  else none

/-- Major opcode 0x1A (R128). -/
def decTile (h : Hart) (w : Word) : Option Instr :=
  let t := w.extractLsb' 24 3
  let rs1 := w.extractLsb' 17 5
  let rs2 := w.extractLsb' 12 5
  let v := w.extractLsb' 12 4
  let ts := w.extractLsb' 9 3
  let fn := w.extractLsb' 0 5
  let ok := w.extractLsb' 22 2 = 0 ∧ w.extractLsb' 5 4 = 0
  let n1 := rs1 = 0
  let n2 := rs2 = 0
  let ns := ts = 0
  let vOk := w.getLsbD 16 = false
  if fn = 0x01 ∧ ok ∧ n2 ∧ ns then some (.stencil h t rs1)
  else if fn = 0x02 ∧ ok ∧ ns then some (.tld h t rs1 rs2)
  else if fn = 0x03 ∧ ok ∧ ns then some (.tst h t rs1 rs2)
  else if fn = 0x04 ∧ ok ∧ n1 ∧ n2 ∧ ns then some (.tzero h t)
  else if fn = 0x05 ∧ ok ∧ n1 ∧ n2 then some (.tmov h t ts)
  else if fn = 0x06 ∧ ok ∧ n2 ∧ ns then some (.texps h t rs1)
  else if fn = 0x07 ∧ ok ∧ n2 ∧ ns then some (.texpld h t rs1)
  else if fn = 0x08 ∧ ok ∧ n2 ∧ ns then some (.texpst h t rs1)
  else if fn = 0x09 ∧ ok ∧ n1 ∧ ns then some (.trdsh h t rs2)
  else if fn = 0x0A ∧ ok ∧ vOk ∧ ns then some (.trv h t rs1 v)
  else if fn = 0x0B ∧ ok ∧ vOk ∧ ns then some (.vtr h t rs1 v)
  else none

/-- Major opcode 0x1B (R129, R184). -/
def decMat (h : Hart) (w : Word) : Option Instr :=
  let a := w.extractLsb' 25 2
  let ta := w.extractLsb' 22 3
  let tb := w.extractLsb' 19 3
  let k := w.extractLsb' 12 5
  let rs := w.extractLsb' 7 5
  let fn := w.extractLsb' 0 4
  let ok := w.extractLsb' 17 2 = 0 ∧ w.extractLsb' 4 3 = 0
  let a0 := a = 0
  let ta0 := ta = 0
  let tb0 := tb = 0
  let k0 := k = 0
  let rs0 := rs = 0
  if fn = 0x1 ∧ ok ∧ k0 ∧ rs0 then some (.mma h a ta tb)
  else if fn = 0x2 ∧ ok ∧ k0 ∧ rs0 then some (.mms h a ta tb)
  else if fn = 0x3 ∧ ok ∧ ta0 ∧ tb0 ∧ k0 then some (.azero h a rs)
  else if fn = 0x4 ∧ ok ∧ tb0 ∧ rs0 ∧ k = 0x10 then some (.mnarrow h ta a none)
  else if fn = 0x4 ∧ ok ∧ tb0 ∧ rs0 ∧ w.getLsbD 16 = false then some (.mnarrow h ta a (some (w.extractLsb' 12 4)))
  else if fn = 0x5 ∧ ok ∧ ta0 ∧ tb0 ∧ k0 then some (.ast h a rs)
  else if fn = 0x6 ∧ ok ∧ ta0 ∧ tb0 ∧ k0 then some (.ald h a rs)
  else if fn = 0x8 ∧ ok ∧ k0 ∧ rs0 then some (.cvmma h a ta tb)
  else if fn = 0x9 ∧ ok ∧ k0 ∧ rs0 then some (.cvmms h a ta tb)
  else if fn = 0xA ∧ ok ∧ a0 ∧ ta0 ∧ tb0 ∧ k0 ∧ rs0 then some (.cvsync h)
  else if fn = 0xB ∧ ok ∧ a0 ∧ ta0 ∧ tb0 ∧ k0 then some (.cvquery h rs)
  else none

/-- The instruction a word spells for a thread; none where the word is illegal: a reserved value, a nonzero unused field
(R15, R90, R91), or a wide class on a Drover core (R371). -/
def decode (h : Hart) (w : Word) : Option Instr :=
  let maj := w.extractLsb' 27 5
  if maj = 0x00 then decAlu h w
  else if maj = 0x01 then decImm h w
  else if maj = 0x02 then some (.lui h (w.extractLsb' 22 5) (w.extractLsb' 0 22))
  else if maj = 0x03 then some (.auipc h (w.extractLsb' 22 5) (w.extractLsb' 0 22))
  else if maj = 0x04 then decLoad h w
  else if maj = 0x05 then decStore h w
  else if maj = 0x06 then decAtomic h w
  else if maj = 0x07 then decBranch h w
  else if maj = 0x08 then decJump h w
  else if maj = 0x09 then if w.extractLsb' 22 5 = 0 then none else some (.dbnz h (w.extractLsb' 22 5) (w.extractLsb' 0 22))
  else if maj = 0x0A then decRegJump h w
  else if maj = 0x0B then decFixed h w
  else if maj = 0x0C then decLong h w
  else if maj = 0x0D then decCsr h w
  else if maj = 0x0E then decSys h w
  else if maj = 0x0F then decWindow h w
  else if h.core = Config.drvPair ∨ h.core = Config.drvHk then none
  else if maj = 0x18 then decVec h w
  else if maj = 0x19 then decVecMem h w
  else if maj = 0x1A then decTile h w
  else if maj = 0x1B then decMat h w
  else none

end Sys2Proof
end

