-- ==== Sys2Proof/Machine/State.lean ====
section
/-! DEFINITION. The state of the block as plain data, the reasons a step can stop, and the state after reset. -/

namespace Sys2Proof.Machine

/-- The three variants of the family (R4). -/
inductive Variant where
  | bm768 | bm768n | bm384g
  deriving DecidableEq, Repr

/-- The four modes of a thread (R143), in the encoding order of ESTAT.PMODE (R160). -/
inductive Mode where
  | pu | ps | gu | gs
  deriving DecidableEq, Repr

/-- Whether a thread has been started (R131, R133). -/
inductive ThreadStatus where
  | idle | unreleased | started
  deriving DecidableEq, Repr

/-- What a started thread waits on (R136). A long instruction holds the operands it was issued with; `rc` of SCANV is its
running sum (R83). -/
inductive Wait where
  | none
  | start
  | farLoad (id : Nat)
  | fence (rd : GReg)
  | twait (cmp : Word)
  | wfe (rd : GReg) (mask : BitVec 8) (idle : Bool) (deadline : Nat)
  | tile
  | long (ra rb rc rn : Word)
  | convoy
  deriving DecidableEq, Repr

/-- A synchronous trap: CAUSE, STATUS, EVAL and the vector number (R151). -/
structure Trap where
  cause  : Nat
  status : Nat
  eval   : Word
  vec    : Nat
  deriving DecidableEq, Repr

/-- What an issued instruction that has not committed holds: a result forwarded to younger instructions, the far-view load
that it awaits, the trap its answer brought, or the bytes it stores in local memory at its commit (R69, R70, R74). -/
inductive Held where
  | ready (v : Word)
  | load (id : Nat)
  | trap (t : Trap)
  | store (off : Nat) (bytes : List Byte)
  deriving DecidableEq, Repr

/-- An issued instruction that has not committed: its address, and the register that its result is for (R69 to R71). -/
structure Issued where
  pc   : Word
  rd   : GReg
  held : Held
  deriving DecidableEq, Repr

/-- An open HOLD window, in core cycles of the island (R155). -/
structure HoldWindow where
  opened  : Nat
  ends    : Nat
  clipped : Bool
  deriving DecidableEq, Repr

/-- A failed far-view store not yet reported (R227). -/
structure PendingFailure where
  status : Byte
  addr   : Nat
  deriving DecidableEq, Repr

/-- How far the courier node is with a thread's outbox message (R208). -/
inductive OutboxPhase where
  | go
  | waiting (tag : Byte) (sentAt : Nat)
  deriving DecidableEq, Repr

/-- The courier node's copy of one thread's outbox message; its presence is the thread's busy bit (R208). -/
structure Outbox where
  words    : List Word
  poisoned : Bool
  mode     : Mode
  phase    : OutboxPhase
  deriving DecidableEq, Repr

/-- One thread of a core (R49, R130 to R160). `window` holds the issued instructions that have not committed, the oldest
first (R69); `tileWait` is a tile or matrix instruction that is ready and may not issue yet, with the core cycle in which it
became ready (R120); `curAt` is the core cycle in which such an instruction issued and `rowsDone` how many rows or lines its
mover has done (R121 to R123); `hovr` names the lines that became takeable as a clipped HOLD window ended (R155); `latFrom` is the
core cycle of an interrupt entry whose handler has issued nothing yet, with the cycles the entry took (R149, R162). -/
structure Thread where
  status   : ThreadStatus
  pc       : Word
  level    : BitVec 2
  mode     : Mode
  prio     : BitVec 4
  g        : Sparse Word
  win      : Sparse Word
  shadow   : Sparse Word
  v        : Sparse Line
  acc      : BitVec 40
  csr      : Sparse Word
  wait     : Wait
  cur      : Option Instr
  evf      : BitVec 8
  timer    : Word
  window   : List Issued
  tileWait : Option (Instr × Nat)
  curAt    : Nat
  rowsDone : Nat
  latFrom  : Option (Nat × Nat)
  hold     : Option HoldWindow
  hovr     : Word
  pendFail : Option PendingFailure
  finArmed : BitVec 4
  fetched  : Option Word
  outbox   : Option Outbox
  deriving DecidableEq, Repr

/-- One tile register (R103). `row` is absent where it is 0. -/
structure Tile where
  rows   : Nat
  bpr    : Nat
  etype  : BitVec 2
  exps   : Sparse (BitVec 6)
  poison : BitVec 32
  data   : Sparse Line
  deriving DecidableEq, Repr

/-- One accumulator tile (R111): element (i, j) under key 32 i + j. -/
structure AccTile where
  vals : Sparse (BitVec 40)
  exps : Sparse (BitVec 6)
  deriving DecidableEq, Repr

/-- What the lane port is asked to do (R203, R225, R258). -/
inductive AccessKind where
  | load (rd : GReg) (size : Nat) (signed : Bool)
  | store (bytes : List Byte)
  | window
  | fetch
  | longStep (size : Nat)
  deriving DecidableEq, Repr

/-- What came of an access at its target: its bytes and, for the read line buffer, the whole line they came from, or a
status (R203, R223, R225). -/
inductive AccessResult where
  | ok (data line : List Byte)
  | fail (status : Byte)
  deriving DecidableEq, Repr

/-- One access of a core's lane port: a far-view load, store or fetch (R202, R203). `laid` holds the bytes that the port's
own stores wrote to the line of a load while it was in flight (R223). -/
structure LaneAccess where
  id     : Nat
  tid    : BitVec 2
  kind   : AccessKind
  vaddr  : Word
  addr   : Nat
  volat  : Bool
  issued : Nat
  sent   : Bool
  finish : Bool
  covers : List Nat
  covFail : Option Byte
  itag   : Option (BitVec 12)
  laid   : List (Nat × List Byte)
  result : Option AccessResult
  deriving DecidableEq, Repr

/-- A beat of the compute plane (R164). -/
structure Beat where
  payload : Line
  exp     : BitVec 6
  poison  : Bool
  header  : Option (BitVec 8 × BitVec 12)
  deriving DecidableEq, Repr

/-- One side of a core's links to its neighbour in one direction (R164, R167, R173, R438). -/
structure NbrLink where
  inWire     : List Beat
  landing    : List Beat
  credits    : Nat
  creditBack : Nat
  hsBack     : Nat
  dropped    : Nat
  droppedOff : Nat
  deriving DecidableEq, Repr

/-- The waybill engine's progress (R167 to R179); its registers stand in the register file. -/
structure Waybill where
  store    : Sparse DWord
  started  : Option Nat
  blocked  : Bool
  done     : Nat
  received : Nat
  awaitHs  : Bool
  offset   : Int
  loopLeft : Option (Nat × Nat)
  load     : Nat × Nat
  deriving DecidableEq, Repr

/-- Where a descriptor stands in its life (R268, R284): `drain` once its last piece has issued, `record` while its
completion record awaits an acknowledgement from another chip. -/
inductive DescStage where
  | fetched
  | trigger
  | issuing
  | drain
  | record
  deriving DecidableEq, Repr

/-- One gather row that has had its turn, waiting for an entry or held by one (R276, R278). `turn` is when it had its turn
and, once it is sent, when it was; `data` and `faults` are the bytes and the status of each line its engine has read, and
`reached` is when the line in progress reached the CXL device (R279). -/
structure GatherRow where
  row    : Nat
  src    : Nat
  dst    : Nat
  tag    : Nat
  engine : GatherEngine
  pooled : Bool
  sent   : Bool
  read   : Bool
  turn   : Nat
  data   : List Byte
  faults : List Nat
  reached : Option Nat
  deriving DecidableEq, Repr

/-- What an access of an engine does; coded blocks are header and bytes (R270 to R276, R299 to R304). -/
inductive EngineOp where
  | read (hinted : Bool)
  | readCoded (rate : Nat) (hinted : Bool)
  | cread (rate : Nat)
  | write (bytes : List Byte) (poisoned : Bool)
  | writeCoded (rate : Nat) (blocks : List (BitVec 16 × List Byte)) (poisoned : Bool)
  deriving DecidableEq, Repr

/-- A read or write of a descriptor that has no answer (R225, R284): the piece or row it belongs to, its place among the
piece's accesses, when the piece issued, and what a read brought; a write of a piece that has failed already has an answer
too. `op` is what it still has to do while it waits for service: for a slot of its tag, a unit that drains, a place in its
core's lane port, a transaction tag, or the CXL device, which it reached at `reached` (R194, R202, R256, R279, R363). -/
structure EngineWait where
  piece  : Nat
  slot   : Nat
  addr   : Nat
  len    : Nat
  issued : Nat
  write  : Bool
  got    : Option (List Byte × Byte)
  op     : Option EngineOp
  reached : Option Nat
  deriving DecidableEq, Repr

/-- The first failure of a descriptor: its place in issue order or its row, STATUS, WHERE and WHO (R285, R290). -/
structure DescFail where
  key    : Nat
  status : Byte
  wher   : Nat
  who    : Nat
  deriving DecidableEq, Repr

/-- One descriptor of a channel (R268 to R292). `words` are its eight 64-bit words, or the four of a format-1 entry (R322),
`next` the position or row that issues next, `pages` the translations of its check, `table` those a GATHER's rows may use:
virtual address, size and physical address of each entry (R317); `eb` is the error bound read when issue began (R308). -/
structure Desc where
  serial : Nat
  words  : List DWord
  fetchedAt : Nat
  queue  : Option Nat
  stage  : DescStage
  fail   : Option DescFail
  failed : Nat
  wfail  : Option (Nat × Byte)
  mism   : Option Nat
  skipped : Bool
  aborted : Bool
  paceUsed : Nat
  paceAt : Nat
  eb     : Nat
  next   : Nat
  rows   : List GatherRow
  waits  : List EngineWait
  pages  : List (Nat × Nat)
  table  : List (Nat × Nat × Nat)
  deriving DecidableEq, Repr

/-- A DMA channel beside its enable bit (R268, R291, R295). -/
structure DmaChan where
  descs    : List Desc
  serial   : Nat
  barFail  : Option Byte
  ringLine : Nat
  logN     : Nat
  dl       : Nat
  tail     : Nat
  head     : Nat
  ccount   : Word
  okcount  : Word
  last     : Byte
  faulted  : Bool
  aborting : Bool
  deriving DecidableEq, Repr

/-- Whether a core runs (R131, R157, R332). -/
inductive RunState where
  | parked | running | halted
  deriving DecidableEq, Repr

/-- What a core reset in progress still has to do; `busy` for the one CMP_CORE_RST shows (R433, R434, R437, R445). -/
structure CoreResetJob where
  zeroMemory : Bool
  release    : Bool
  busy       : Bool
  deriving DecidableEq, Repr

/-- One core (R17, R49, R97 to R118, R157 to R162). `clkWait` is set while a change of CLKSEL.STEP waits for its links
(R24), `stormAt` is the number of the storm window that `stormCnt` counts in (R154), `scrubFrom` is when the next local line
may be scrubbed (R260). -/
structure Core where
  run       : RunState
  resident  : Bool
  kernel    : Bool
  kernCyc   : Nat
  resetJob  : Option CoreResetJob
  threads   : Sparse Thread
  csr       : Sparse Word
  thslotNow : Word
  weaveNow  : Bool
  stepNow   : BitVec 6
  clkWait   : Bool
  cycBase   : Nat
  cycStamp  : Nat
  tiles     : Sparse Tile
  accs      : Sparse AccTile
  latch     : Option TReg
  iflush    : Bool
  icache    : Sparse (Nat × Line)
  icFills   : Nat
  lineEval  : Sparse Word
  stormCnt  : Sparse Nat
  stormAt   : Nat
  lane      : List LaneAccess
  laneNext  : Nat
  readBuf   : List (Nat × List Byte)
  outTag    : Byte
  wb        : Waybill
  links     : Sparse NbrLink
  tdma      : Sparse DmaChan
  armed     : Bool
  armedAt   : Nat
  scrubAt   : Nat
  scrubFrom : Nat
  deriving DecidableEq, Repr

/-- A convoy beside its registers (R182 to R188). `form` is the configuration word under which it was formed, kept while it
dissolves. -/
structure Convoy where
  form      : Word
  firstArm  : Option Nat
  launched  : Bool
  disabling : Bool
  deriving DecidableEq, Repr

/-- A courier message in flight (R205). -/
structure Msg where
  dest : Nat
  kind : BitVec 4
  g    : Bool
  src  : Nat
  p1   : Word
  p2   : Word
  deriving DecidableEq, Repr

/-- One way of one set of a buffer cache; `bad` where its array holds an uncorrectable error that nothing has read yet
(R250, R262). -/
structure CacheWay where
  line  : Nat
  dirty : Bool
  bad   : Bool
  deriving DecidableEq, Repr

/-- A near-tier unit beside its registers; `scrubFrom` is when its next line may be scrubbed (R241 to R260). -/
structure Unit where
  trained   : Bool
  selfRef   : Bool
  refNow    : Sparse DWord
  gearNow   : Sparse DWord
  stepNext  : BitVec 2
  gearNext  : BitVec 2
  missing   : Nat
  ways      : Sparse CacheWay
  plru      : Sparse (BitVec 16)
  pfQueue   : List Nat
  preNext   : Nat
  scrubAt   : Nat
  scrubFrom : Nat
  deriving DecidableEq, Repr

/-- A latent memory error that no read has met yet (R261). -/
inductive Ecc where
  | single | uncorrectable
  deriving DecidableEq, Repr

/-- A change on its way to an event object (R335). -/
inductive EvChange where
  | signal (e : Nat) (err : Option Byte)
  | reset (e : Nat) (clrErr : Bool)
  deriving DecidableEq, Repr

/-- An error record on its way to a ring; `ctx` is none for the device ring, `scrub` names the unit (or 8 for the local
memories) and the scrub-log entry it reports, `held` says that the alert it reports holds a place of the alert log (R338,
R339, R344). -/
structure ErrRec where
  ctx    : Option Nat
  status : Byte
  source : BitVec 4
  who    : BitVec 12
  thread : BitVec 2
  addr   : Nat
  info   : Word
  time   : Nat
  scrub  : Option (Nat × Nat)
  held   : Bool
  deriving DecidableEq, Repr

/-- A line of a ledger snapshot on its way: where the entry and the machine put it, its bytes, whether it has left, when it
came to a CXL device that has not answered, and the status of its end (R325). -/
structure LedgerLine where
  addr    : Nat
  phys    : Nat
  bytes   : List Byte
  sent    : Bool
  reached : Option Nat
  status  : Option Byte
  deriving DecidableEq, Repr

/-- A control entry in progress: an EVWAIT that waits, or whose event has been signalled, a DISPATCH, or a LEDGER with the
lines of its snapshot (R325, R332). -/
inductive CtlPhase where
  | ready
  | waiting (deadline : Nat)
  | met (status : Byte)
  | kernel
  | ledger (lines : List LedgerLine)
  deriving DecidableEq, Repr

/-- A host queue beside its registers; the first `old` of its entries were fetched before it last started (R322 to R331). -/
structure Queue where
  prod     : BitVec 16
  reading  : Nat
  readAt   : Nat
  entries  : List (List DWord)
  inChan   : Nat
  ctl      : CtlPhase
  old      : Nat
  deriving DecidableEq, Repr

/-- A kernel started by DISPATCH; `late` names the lowest core that had not reported by the deadline (R332 to R334). -/
structure Kernel where
  queue    : Nat
  ctx      : Nat
  started  : Bool
  reported : List Nat
  parked   : Bool
  late     : Option Nat
  deadline : Nat
  deriving DecidableEq, Repr

/-- A sweep read in flight: its line of the doorbell block and when it was issued (R328). -/
structure SweepRead where
  line   : Nat
  issued : Nat
  deriving DecidableEq, Repr

/-- A link beside its registers (R352, R356, R359). `stuckAt` is when its training, or its retraining attempt, began. Its frames
begin at `phase` and at whole frame times after it, and it can begin the next one at `freeAt`; both are sevenths of a nanosecond
of the time base, in which a frame time is 288 or 144 (R350). `out` holds the frame it was last given. -/
structure LinkSt where
  attempt  : Nat
  lastGen  : BitVec 2
  crcTimes : List Nat
  stuckAt  : Nat
  phase    : Nat
  freeAt   : Nat
  out      : List Byte
  deriving DecidableEq, Repr

/-- Who waits for a response on a bundle (R354, R363); `queue` for a line of a queue's LEDGER entry, `serai` for a report of
the Serai itself. -/
inductive Requester where
  | lane (core id : Nat)
  | dma (ch : Chan) (serial piece slot : Nat)
  | drover (id : Nat)
  | queue (q line : Nat)
  | serai
  deriving DecidableEq, Repr

/-- A frame of a replay buffer: when it was last sent, and on which link (R356, R358). -/
structure SentFrame where
  seq   : BitVec 16
  sentAt : Nat
  units : List LinkUnit
  link  : Nat
  deriving DecidableEq, Repr

/-- A bundle beside its registers (R356 to R363). `replayRq` is set while it owes its peer a REPLAY frame (R358). -/
structure Bundle where
  seqNext  : BitVec 16
  expect   : BitVec 16
  replay   : List SentFrame
  reorder  : List (BitVec 16 × List LinkUnit)
  inbox    : List LinkUnit
  outbox   : List LinkUnit
  itags    : List (BitVec 12 × Requester × Nat)
  itagNext : BitVec 12
  gapAt    : Option Nat
  replayRq : Bool
  syncSent : Bool
  syncGot  : Bool
  deadAt   : Option Nat
  deriving DecidableEq, Repr

/-- What a memory-port access of the Drover is for (R374, R383, R386, R396, R408, R411, R413). -/
inductive DrvJob where
  | csiLine | csiRecord | primerWrite | primerRead | ethRx | ethTx | ethBack | canRead | adc
  deriving DecidableEq, Repr

/-- A memory-port access of the Drover within one line: a write without its acknowledgement, or a read whose bytes and
status its unit has not taken yet. `index` is the unit's number, `slot` the frame, ring or mailbox, `reached` when the access
came to a CXL device that has not answered (R279, R374). -/
structure DrvAccess where
  id     : Nat
  job    : DrvJob
  index  : Nat
  slot   : Nat
  addr   : Nat
  len    : Nat
  write  : Option (List Byte × Bool)
  sent   : Bool
  issued : Nat
  reached : Option Nat
  result : Option (List Byte × Byte)
  deriving DecidableEq, Repr

/-- A frame of a CSI-2 receiver that is open or awaits its record (R380 to R383); `flags` are SHORT, LONG, LENERR and
ECC2. -/
structure CsiRec where
  n        : Nat
  arrived  : Nat
  lines    : Nat
  flags    : BitVec 4
  ecc1     : Nat
  crcFails : Nat
  tfs      : DWord
  tfe      : DWord
  memFail  : Byte
  deriving DecidableEq, Repr

/-- A primer line that has been injected and not yet checked: the receiver's ECC and CRC outcome for its packet, whether a
write of it failed, and what its readback brought, line by line (R409 to R413). -/
structure Primer where
  n    : Nat
  addr : Nat
  len  : Nat
  ecc  : HeaderEcc
  crcOk : Bool
  mem  : Bool
  read : Option (List (List Byte × Byte))
  deriving DecidableEq, Repr

/-- A CSI-2 receiver beside its registers: the number of the next frame, the open frame or that a dropped one is open, the
frames that await their records (R380 to R384, R414). -/
structure Csi where
  frame    : Nat
  cur      : Option CsiRec
  dropping : Bool
  closed   : List CsiRec
  lastFs   : Nat
  primers  : List Primer
  primRes  : BitVec 2
  deriving DecidableEq, Repr

/-- A write-back of an Ethernet descriptor that waits for its buffer writes (R386). -/
structure EthBack where
  ring   : Nat
  desc   : List Byte
  status : Byte
  len    : Nat
  pcp    : Nat
  stamp  : Option DWord
  deriving DecidableEq, Repr

/-- An Ethernet port beside its registers: received frames that wait for the memory port, the write-back of the one in
work, and the gate control list's place (R386, R387, R407). -/
structure Eth where
  rx      : List EthFrame
  back    : Option EthBack
  running : Bool
  cycleAt : Nat
  entry   : Nat
  edgeAt  : Nat
  deriving DecidableEq, Repr

/-- A CAN transmit mailbox in progress (R388, R408): `payload` once its buffer is read, `offered` once it has been the
one its port offers to the bus. -/
structure CanMb where
  reqAt    : Nat
  payload  : Option (List Byte)
  launched : Bool
  offered  : Bool
  deriving DecidableEq, Repr

/-- A CAN port beside its registers: its mailboxes in progress, and its receive FIFO with the filter each frame matched. -/
structure Can where
  mbs  : Sparse CanMb
  fifo : List (CanFrame × Nat)
  deriving DecidableEq, Repr

/-- An entry of the input event FIFO (R392). -/
structure DinEvent where
  input : Nat
  value : Bool
  stamp : DWord
  deriving DecidableEq, Repr

/-- An ADC channel beside its registers; `shuntOff` is when its shunt was disconnected, while it is (R396, R397). -/
structure Adc where
  samples  : List (BitVec 16)
  first    : DWord
  shuntOff : Option Nat
  deriving DecidableEq, Repr

/-- A safe output beside its registers: switched off by a trip, or by a failed test pulse, when it last tripped or tried
again, and when its last test pulse was (R398, R400). -/
structure Dout where
  tripped : Bool
  failed  : Bool
  triedAt : Nat
  pulseAt : Nat
  deriving DecidableEq, Repr

/-- A twin pair beside its registers: digests with their senders, and since when one FIFO alone holds some (R415 to
R417). -/
structure Twin where
  fifoA : List (Word × Nat)
  fifoB : List (Word × Nat)
  since : Nat
  deriving DecidableEq, Repr

/-- A watchdog beside its registers (R418). -/
structure Wdog where
  lastKick : Nat
  first    : Bool
  running  : Bool
  deriving DecidableEq, Repr

/-- The Drover die beside its registers and cores (R371 to R426): Drover POR and watchdog reset in progress, the routes
with a message to send and its world, the memory port's accesses, the time unit, and the units. Of the digital inputs: the
levels that have held, the number of the storm window that `dinCnt` counts in, since when each has been on, and the start of
its last run; of the encoders, when each edge was last accepted; of the e-stop path, its filtered levels, since when its
channels disagree, and that it has acted on the present demand. -/
structure Drover where
  por       : Bool
  resetting : Bool
  routes    : Sparse Bool
  access    : List DrvAccess
  accessNext : Nat
  ptpGood   : Nat
  ptpLast   : Option DWord
  csi       : Sparse Csi
  eth       : Sparse Eth
  can       : Sparse Can
  okSince   : Option Nat
  dinRaw    : BitVec 16
  dinCnt    : Sparse Nat
  dinWin    : Nat
  dinOnAt   : Sparse Nat
  dinRun    : Sparse Nat
  dinFifo   : List DinEvent
  dinOvf    : Word
  encA      : BitVec 4
  encB      : BitVec 4
  encZ      : Sparse DWord
  encAt     : Sparse Nat
  adc       : Sparse Adc
  adcK      : Nat
  dout      : Sparse Dout
  twins     : Sparse Twin
  wdogs     : Sparse Wdog
  stopLevels : BitVec 2
  stopApart : Option Nat
  stopSeen  : Bool
  deriving DecidableEq, Repr

/-- Pins, straps and power of the package (R32, R39 to R43, R428 to R446). -/
structure Package where
  variant  : Variant
  host1    : Bool
  chipStrap : BitVec 6
  hbm3     : BitVec 8
  pwrok    : Bool
  perst    : Bool
  hostUp   : Bool
  d3hot    : Bool
  slumber  : Bool
  fromPor  : Bool
  memStart : Bool
  resetAt  : Nat
  deriving DecidableEq, Repr

/-- The state of the block. -/
structure State where
  pending  : List Instr
  pkg      : Package
  tb       : Nat
  regs     : Sparse Word
  staged   : Sparse Word
  barData  : Word
  tapOut   : Word
  tapCount : Nat
  mem      : List Host.Cell
  poison   : List Nat
  latent   : Sparse Ecc
  side     : Sparse (BitVec 16)
  cores    : Sparse Core
  convoys  : Sparse Convoy
  slotNow  : Sparse Word
  courier  : List Msg
  units    : Sparse Unit
  sdma     : Sparse DmaChan
  events   : Sparse Word
  evq      : List EvChange
  errq     : List ErrRec
  errOvf   : List Nat
  errCons  : Sparse (BitVec 16)
  rowBeats : Sparse Nat
  alerts   : List (Msg × Nat)
  msix     : Sparse Nat
  queues   : Sparse Queue
  kernels  : Sparse Kernel
  ledger   : Sparse Nat
  sweeps   : List SweepRead
  sweepAt  : Nat
  links    : Sparse LinkSt
  bundles  : Sparse Bundle
  drv      : Drover
  deriving DecidableEq, Repr

/-- The reasons a step stops with a fault. -/
inductive Fault where
  /-- Raised by no meaning: the part reports every fault in its own state (R448). Safe. -/
  | none
  deriving DecidableEq, Repr

/-- The reasons a step is refused. -/
inductive Refusal where
  /-- An arm of `exec` that has no meaning yet. Safe: nothing can be proved to run. -/
  | notModelled (mnemonic : String)
  deriving DecidableEq, Repr

/-- A thread after reset (R59, R61, R97, R131, R143, R160). Values the manual does not give are 0 (log entry 5). -/
def Thread.reset : Thread where
  status := .idle
  pc := 0
  level := 0
  mode := .pu
  prio := 0
  g := []
  win := []
  shadow := []
  v := []
  acc := 0
  csr := []
  wait := .none
  cur := none
  evf := 0
  timer := 0
  window := []
  tileWait := none
  curAt := 0
  rowsDone := 0
  latFrom := none
  hold := none
  hovr := 0
  pendFail := none
  finArmed := 0
  fetched := none
  outbox := none

/-- A tile after reset (R103). -/
def Tile.reset : Tile := ⟨32, 64, 0, [], 0, []⟩

/-- An accumulator tile after reset (R111). -/
def AccTile.reset : AccTile := ⟨[], []⟩

/-- A link of the compute plane after reset: 32 credits, nothing in flight (R164). -/
def NbrLink.reset : NbrLink := ⟨[], [], 32, 0, 0, 0, 0⟩

/-- A waybill engine after reset (R179, R180). -/
def Waybill.reset : Waybill where
  store := []
  started := none
  blocked := false
  done := 0
  received := 0
  awaitHs := false
  offset := 0
  loopLeft := none
  load := (0, 0)

/-- A DMA channel after reset (R291, R295). -/
def DmaChan.reset : DmaChan where
  descs := []
  serial := 0
  barFail := none
  ringLine := 0
  logN := 0
  dl := 0
  tail := 0
  head := 0
  ccount := 0
  okcount := 0
  last := 0
  faulted := false
  aborting := false

/-- A core after reset: parked (R131, R433). -/
def Core.reset : Core where
  run := .parked
  resident := false
  kernel := false
  kernCyc := 0
  resetJob := none
  threads := []
  csr := []
  thslotNow := 0xE4E4E4E4
  weaveNow := false
  stepNow := 28
  clkWait := false
  cycBase := 0
  cycStamp := 0
  tiles := []
  accs := []
  latch := none
  iflush := false
  icache := []
  icFills := 0
  lineEval := []
  stormCnt := []
  stormAt := 0
  lane := []
  laneNext := 0
  readBuf := []
  outTag := 0
  wb := Waybill.reset
  links := []
  tdma := []
  armed := false
  armedAt := 0
  scrubAt := 0
  scrubFrom := 0

/-- A convoy after reset (R181). -/
def Convoy.reset : Convoy := ⟨0, none, false, false⟩

/-- A near-tier unit after reset (R243, R246, R250). The masks in force have the reset masks of R244 and R245. -/
def Unit.reset : Unit where
  trained := false
  selfRef := false
  refNow := []
  gearNow := []
  stepNext := 0
  gearNext := 0
  missing := 0
  ways := []
  plru := []
  pfQueue := []
  preNext := 0
  scrubAt := 0
  scrubFrom := 0

/-- A queue after reset (R322, R325). -/
def Queue.reset : Queue where
  prod := 0
  reading := 0
  readAt := 0
  entries := []
  inChan := 0
  ctl := .ready
  old := 0

/-- A link after reset (R352). -/
def LinkSt.reset : LinkSt := ⟨0, 0, [], 0, 0, 0, []⟩

/-- A bundle after reset (R356, R369). -/
def Bundle.reset : Bundle where
  seqNext := 0
  expect := 0
  replay := []
  reorder := []
  inbox := []
  outbox := []
  itags := []
  itagNext := 0
  gapAt := none
  replayRq := false
  syncSent := false
  syncGot := false
  deadAt := none

/-- A CSI-2 receiver after reset (R381, R403). -/
def Csi.reset : Csi := ⟨0, none, false, [], 0, [], 0⟩

/-- An Ethernet port after reset (R407). -/
def Eth.reset : Eth := ⟨[], none, false, 0, 0, 0⟩

/-- A CAN port after reset (R408). -/
def Can.reset : Can := ⟨[], []⟩

/-- An ADC channel after reset (R406). -/
def Adc.reset : Adc := ⟨[], 0, none⟩

/-- A safe output after reset (R399). -/
def Dout.reset : Dout := ⟨false, false, 0, 0⟩

/-- A twin pair after reset (R415). -/
def Twin.reset : Twin := ⟨[], [], 0⟩

/-- A watchdog after reset (R418). -/
def Wdog.reset : Wdog := ⟨0, false, false⟩

/-- The Drover in Drover POR (R399, R402, R432). -/
def Drover.reset : Drover where
  por := true
  resetting := false
  routes := []
  access := []
  accessNext := 0
  ptpGood := 0
  ptpLast := none
  csi := []
  eth := []
  can := []
  okSince := none
  dinRaw := 0
  dinCnt := []
  dinWin := 0
  dinOnAt := []
  dinRun := []
  dinFifo := []
  dinOvf := 0
  encA := 0
  encB := 0
  encZ := []
  encAt := []
  adc := []
  adcK := 0
  dout := []
  twins := []
  wdogs := []
  stopLevels := 0
  stopApart := none
  stopSeen := false

/-- The package before power is good: PWROK low, no host link (R32, R432; log entries 3 and 7). -/
def Package.reset : Package where
  variant := .bm768
  host1 := false
  chipStrap := 0
  hbm3 := 0
  pwrok := false
  perst := true
  hostUp := false
  d3hot := false
  slumber := false
  fromPor := true
  memStart := false
  resetAt := 0

/-- The block in package POR and Drover POR: no command waits, the time base is 0 (R29), every register has its reset
value (an empty sparse map), memory holds nothing (R429, R430; log entries 3, 5, 6 and 7). -/
def State.reset : State where
  pending := []
  pkg := Package.reset
  tb := 0
  regs := []
  staged := []
  barData := 0
  tapOut := 0
  tapCount := 0
  mem := []
  poison := []
  latent := []
  side := []
  cores := []
  convoys := []
  slotNow := []
  courier := []
  units := []
  sdma := []
  events := []
  evq := []
  errq := []
  errOvf := []
  errCons := []
  rowBeats := []
  alerts := []
  msix := []
  queues := []
  kernels := []
  ledger := []
  sweeps := []
  sweepAt := 0
  links := []
  bundles := []
  drv := Drover.reset

end Sys2Proof.Machine
end

