-- ==== Sys2Proof/Machine/Sparse.lean ====
section
/-! DEFINITION. Reading and writing sparse maps, bit fields of a word, and little-endian byte strings. -/

namespace Sys2Proof.Machine

/-- What key `k` of a sparse map reads as, `d` where it is not listed. -/
def sget {α : Type} (m : Sparse α) (k : Nat) (d : α) : α :=
  match m with
  | [] => d
  | (k', v) :: r => if k = k' then v else if k < k' then d else sget r k d

/-- A sparse map with key `k` set to `v`; the keys stay strictly rising. -/
def sput {α : Type} (m : Sparse α) (k : Nat) (v : α) : Sparse α :=
  match m with
  | [] => [(k, v)]
  | (k', v') :: r =>
    if k < k' then (k, v) :: (k', v') :: r
    else if k = k' then (k, v) :: r
    else (k', v') :: sput r k v

/-- A sparse map without the keys for which `p` holds: those read as their default again. -/
def sdrop {α : Type} (m : Sparse α) (p : Nat → Bool) : Sparse α :=
  m.filter fun e => !p e.1

/-- A sorted set of numbers with `k` added. -/
def addKey (l : List Nat) (k : Nat) : List Nat :=
  match l with
  | [] => [k]
  | x :: r => if k < x then k :: x :: r else if k = x then x :: r else x :: addKey r k

/-- A list of numbers without `k`. -/
def delKey (l : List Nat) (k : Nat) : List Nat := l.filter fun x => x != k

/-- Bits [hi:lo] of a word as a number. -/
def bits {n : Nat} (w : BitVec n) (hi lo : Nat) : Nat := (w.toNat >>> lo) % 2 ^ (hi + 1 - lo)

/-- Bit `i` of a word. -/
def bit {n : Nat} (w : BitVec n) (i : Nat) : Bool := w.toNat.testBit i

/-- A word with bits [hi:lo] replaced by the low bits of `v`. -/
def putBits (w : Word) (hi lo : Nat) (v : Nat) : Word :=
  let m : Word := BitVec.ofNat 32 ((2 ^ (hi + 1 - lo) - 1) <<< lo)
  (w &&& ~~~m) ||| (BitVec.ofNat 32 (v <<< lo) &&& m)

/-- A word with one bit replaced. -/
def putBit (w : Word) (i : Nat) (v : Bool) : Word := putBits w i i v.toNat

/-- The number a little-endian byte string spells (R11). -/
def leNat : List Byte → Nat
  | [] => 0
  | b :: r => b.toNat + 256 * leNat r

/-- The `n` bytes of a number, little-endian (R11). -/
def leBytes : Nat → Nat → List Byte
  | 0, _ => []
  | n + 1, v => BitVec.ofNat 8 v :: leBytes n (v / 256)

/-- `n` numbers from `a` upward. -/
def upFrom (a n : Nat) : List Nat := (List.range n).map (a + ·)

/-- A saturating 32-bit count plus one. -/
def satInc (w : Word) : Word := if w = BitVec.allOnes 32 then w else w + 1

/-- Element `i` of a list, `d` beyond its end. -/
def nth {α : Type} (l : List α) (i : Nat) (d : α) : α := l.getD i d

/-- The mask of the low `n` bits of a word. -/
def lowMask (n : Nat) : Word := BitVec.ofNat 32 (2 ^ n - 1)

end Sys2Proof.Machine
end

