-- ==== Sys2Proof/Machine/Codec.lean ====
section
/-! DEFINITION. The fixed-rate block codec: encoding and decoding of one block and its header (R296 to R307). Rate 1 is 2:1
and rate 2 is 4:1, as the CODEC field spells them. -/

namespace Sys2Proof.Machine

/-- Mantissa bits (R302). -/
def codecBits (rate : Nat) : Nat := if rate = 1 then 7 else 3

/-- The largest shift (R302). -/
def codecTmax (rate : Nat) : Nat := if rate = 1 then 9 else 13

/-- Bytes of a share (R297). -/
def shareSize (rate : Nat) : Nat := if rate = 1 then 64 else 32

/-- Bytes of payload in a share (R307). -/
def payloadSize (rate : Nat) : Nat := if rate = 1 then 56 else 24

/-- Blocks of a group (R300). -/
def groupBlocks (rate : Nat) : Nat := if rate = 1 then 2 else 4

/-- Round half to even by `s` bits (R302). -/
def codecRne (v : Int) (s : Nat) : Int :=
  if s = 0 then v
  else
    let q := v / 2 ^ s
    let f := v % 2 ^ s
    let h : Int := 2 ^ (s - 1)
    if h < f ∨ (f = h ∧ q % 2 = 1) then q + 1 else q

/-- The largest and the smallest mantissa (R302). -/
def codecHi (rate : Nat) : Int := 2 ^ (codecBits rate - 1) - 1

/-- The smallest mantissa (R302). -/
def codecLo (rate : Nat) : Int := -2 ^ (codecBits rate - 1)

/-- The smallest shift under which a sub-block fits, by floor (R302). -/
def codecShift (rate : Nat) (xs : List Int) : Nat :=
  ((List.range (codecTmax rate + 1)).find? fun t =>
    xs.all fun x => decide (codecLo rate ≤ x / 2 ^ t) && decide (x / 2 ^ t ≤ codecHi rate)).getD (codecTmax rate)

/-- The 64 elements of a raw block (R296). -/
def blockElems (bs : List Byte) : List Int :=
  (List.range 64).map fun i => (BitVec.ofNat 16 (leNat ((bs.drop (2 * i)).take 2))).toInt

/-- A block as the encoder leaves it: its header and the bytes it writes at the start of its slot (R297, R303). -/
structure CodedBlock where
  header : BitVec 16
  bytes  : List Byte
  deriving DecidableEq, Repr

/-- The header says RAW (R305). -/
def headerRaw (h : BitVec 16) : Bool := bit h 2

/-- A block stored raw (R303). -/
def rawBlock (rate : Nat) (bs : List Byte) : CodedBlock := ⟨BitVec.ofNat 16 (rate + 4), bs⟩

/-- The mantissas of a list of elements, each with its shift (R302). -/
def codecMantissas (rate : Nat) (l : List (Int × Nat)) : List Int :=
  l.map fun e => max (codecLo rate) (min (codecHi rate) (codecRne e.1 e.2))

/-- A block encoded under an error bound (R302, R303, R307). -/
def encodeBlock (rate eb : Nat) (bs : List Byte) : CodedBlock :=
  let x := blockElems bs
  let t := (List.range 4).map fun j => codecShift rate ((x.drop (16 * j)).take 16)
  let e := t.foldl Nat.max 0
  let d := t.map fun v => Nat.min 3 (e - v)
  let l := x.mapIdx fun i v => (v, e - nth d (i / 16) 0)
  let q := codecMantissas rate l
  let bad := (l.zip q).any fun p => decide ((eb : Int) < (p.1.1 - p.2 * 2 ^ p.1.2).natAbs)
  if bad then rawBlock rate bs
  else
    let m := codecBits rate
    let v := (q.mapIdx fun i z => (z % 2 ^ m).toNat * 2 ^ (m * i)).sum
    let dd := (d.mapIdx fun j z => z * 4 ^ j).sum
    ⟨BitVec.ofNat 16 (rate + 16 * e + 256 * dd), leBytes (shareSize rate) v⟩

/-- A header that a decode under a rate refuses (R306). -/
def headerInvalid (rate : Nat) (h : BitVec 16) : Bool :=
  let e := bits h 7 4
  decide (bits h 1 0 ≠ rate) || decide (rate = 0) || decide (rate = 3) || bit h 3 ||
    (headerRaw h && (decide (e ≠ 0) || decide (bits h 15 8 ≠ 0))) || decide (codecTmax rate < e) ||
    (List.range 4).any fun j => decide (e < bits h (9 + 2 * j) (8 + 2 * j))

/-- A block decoded from the bytes of its slot; none where its header is invalid (R304). -/
def decodeBlock (rate : Nat) (h : BitVec 16) (slot : List Byte) : Option (List Byte) :=
  if headerInvalid rate h then none
  else if headerRaw h then some (slot.take 128)
  else
    let m := codecBits rate
    let v := leNat (slot.take (payloadSize rate))
    some ((List.range 64).flatMap fun i =>
      let q := (BitVec.ofNat m (v >>> (m * i))).toInt
      leBytes 2 ((q * 2 ^ (bits h 7 4 - bits h (9 + 2 * (i / 16)) (8 + 2 * (i / 16)))) % 65536).toNat)

/-- The unit bytes of a group of shares on a link: each share at its place, its header in the first two padding bytes (R355). -/
def shareBytes (rate : Nat) (l : List CodedBlock) : List Byte :=
  l.flatMap fun b =>
    b.bytes.take (payloadSize rate) ++ leBytes 2 b.header.toNat ++ b.bytes.drop (payloadSize rate + 2)

/-- The blocks of a share unit: header taken out, padding zero (R355). -/
def shareBlocks (rate : Nat) (bs : List Byte) : List CodedBlock :=
  (List.range (groupBlocks rate)).map fun j =>
    let sh := (bs.drop (shareSize rate * j)).take (shareSize rate)
    let p := payloadSize rate
    ⟨BitVec.ofNat 16 (leNat ((sh.drop p).take 2)), sh.take p ++ leBytes (shareSize rate - p) 0⟩

/-- The bytes a coded block writes at the start of its slot, with its header (R297, R303). -/
def codedLen (rate : Nat) (h : BitVec 16) : Nat := if headerRaw h then 128 else shareSize rate

end Sys2Proof.Machine
end

