-- ==== Sys2Proof/Machine/Frame.lean ====
section
/-! DEFINITION. The frame of the chip-to-chip links as bytes: its header, the unit descriptors, the unit bytes and the CRC (R353,
R354). -/

namespace Sys2Proof.Machine

/-! ### CRC (R353) -/

/-- One bit of the CRC-32 with the IEEE 802.3 polynomial 0x04C1_1DB7, lowest bit first, as 802.3 sends it (R353; PRESUMED, log
entry 61). -/
def crcBit (c : Nat) : Nat := if c % 2 = 1 then (c / 2) ^^^ 0xEDB88320 else c / 2

/-- The CRC register after one byte. -/
def crcByte (c : Nat) (b : Byte) : Nat :=
  crcBit (crcBit (crcBit (crcBit (crcBit (crcBit (crcBit (crcBit (c ^^^ b.toNat))))))))

/-- A function of a number that is evaluated before the function is entered. -/
def strictly (n : Nat) (f : Nat → Nat) : Nat :=
  match n with
  | 0 => f 0
  | k + 1 => f (k + 1)

/-- The CRC register after a byte string. Each byte's register is formed before the next byte is taken, so that Lean's kernel
can evaluate the CRC of a whole frame. -/
def crcOver (c : Nat) : List Byte → Nat
  | [] => c
  | b :: r => strictly (crcByte c b) fun x => crcOver x r

/-- The CRC-32 of a byte string, from a register of ones and complemented, as IEEE 802.3 forms it (R353; PRESUMED, log entry
61). -/
def crc32 (bs : List Byte) : Nat := crcOver 0xFFFFFFFF bs ^^^ 0xFFFFFFFF

/-- The CRC of a frame, over its bytes 0 to 27 and 32 to 287 (R353). -/
def frameCrc (f : List Byte) : Nat := crc32 (f.take 28 ++ (f.drop 32).take 256)

/-! ### Units (R354, R355) -/

/-- Bytes of a unit at their places in the 128-byte line, the others zero (R354). -/
def placeBytes (first : Nat) (bs : List Byte) : List Byte :=
  leBytes first 0 ++ bs ++ leBytes (128 - first - bs.length) 0

/-- A 64-bit unit descriptor from OP, LINE, ITAG and the number in the bits from 47 (R354). -/
def unitWord (op line itag high : Nat) : Nat := op + 2 ^ 4 * line + 2 ^ 35 * itag + 2 ^ 47 * high

/-- The descriptor of a unit (R354). -/
def unitDesc (u : LinkUnit) : Nat :=
  match u with
  | .write t l f bs => unitWord 1 l.toNat t.toNat (f.toNat + 2 ^ 7 * (bs.length - 1))
  | .read t l f n => unitWord 2 l.toNat t.toNat (f.toNat + 2 ^ 7 * n.toNat)
  | .rdata t st _ => unitWord 3 0 t.toNat st.toNat
  | .resp rs => unitWord 4 0 0 (rs.length - 1)
  | .share t l r _ => unitWord 5 l.toNat t.toNat r.toNat
  | .rawblk t l h _ => unitWord 6 l.toNat t.toNat h.toNat
  | .cread t l r => unitWord 7 l.toNat t.toNat r.toNat

/-- The 128 bytes of a unit (R353, R354). -/
def unitBytes (u : LinkUnit) : List Byte :=
  match u with
  | .write _ _ f bs => placeBytes f.toNat bs
  | .rdata _ _ bs => placeBytes 0 bs
  | .resp rs => placeBytes 0 (rs.flatMap fun r => leBytes 4 (r.1.toNat + 2 ^ 12 * r.2.toNat))
  | .share _ _ _ bs => placeBytes 0 bs
  | .rawblk _ _ _ bs => placeBytes 0 bs
  | _ => leBytes 128 0

/-- The unit that a descriptor and its 128 bytes spell; none where it carries a reserved value or a bit that must be 0 (R354). -/
def unitOf? (d : DWord) (bs : List Byte) : Option LinkUnit :=
  let t : BitVec 12 := BitVec.ofNat 12 (bits d 46 35)
  let l : BitVec 31 := BitVec.ofNat 31 (bits d 34 4)
  let f := bits d 53 47
  let n := bits d 60 54
  let rate := BitVec.ofNat 2 (bits d 48 47)
  let rateOk := decide (bits d 63 49 = 0) && (decide (rate = 1) || decide (rate = 2))
  match bits d 3 0 with
  | 1 => if decide (bits d 63 61 = 0) && decide (f + n ≤ 127) then some (.write t l (BitVec.ofNat 7 f) ((bs.drop f).take (n + 1))) else none
  | 2 => if decide (bits d 63 61 = 0) && decide (f + n ≤ 127) then some (.read t l (BitVec.ofNat 7 f) (BitVec.ofNat 7 n)) else none
  | 3 => if decide (bits d 63 55 = 0) && decide (l = 0) then some (.rdata t (BitVec.ofNat 8 (bits d 54 47)) bs) else none
  | 4 =>
    if decide (bits d 63 52 = 0) && decide (l = 0) && decide (t = 0) then
      some (.resp ((List.range (bits d 51 47 + 1)).map fun i =>
        let r := leNat ((bs.drop (4 * i)).take 4)
        (BitVec.ofNat 12 r, BitVec.ofNat 8 (r / 2 ^ 12))))
    else none
  | 5 => if rateOk then some (.share t l rate bs) else none
  | 6 => if bit d 63 then none else some (.rawblk t l (BitVec.ofNat 16 (bits d 62 47)) bs)
  | 7 => if rateOk then some (.cread t l rate) else none
  | _ => none

/-! ### Frames (R353) -/

/-- A frame as its header and units say: KIND is 0 DATA, 1 NULL, 2 REPLAY, 3 SYNC, 4 TRAIN (R353). -/
structure Frame where
  seq    : BitVec 16
  ackSeq : BitVec 16
  kind   : Nat
  chip   : BitVec 6
  link   : BitVec 6
  units  : List LinkUnit
  deriving DecidableEq, Repr

/-- Word 0 of a frame's header (R353). -/
def frameHead (f : Frame) : Nat :=
  f.seq.toNat + 2 ^ 16 * f.ackSeq.toNat + 2 ^ 32 * f.kind + 2 ^ 35 * f.units.length + 2 ^ 37 * f.chip.toNat + 2 ^ 43 * f.link.toNat

/-- The 288 bytes of a frame, its CRC in place (R353). -/
def frameBytes (f : Frame) : List Byte :=
  let d := fun i : Nat => match f.units[i]? with
    | some u => unitDesc u
    | none => 0
  let b := fun i : Nat => match f.units[i]? with
    | some u => unitBytes u
    | none => leBytes 128 0
  let front := leBytes 8 (frameHead f) ++ leBytes 8 (d 0) ++ leBytes 8 (d 1) ++ leBytes 4 0
  let back := b 0 ++ b 1
  front ++ leBytes 4 (crc32 (front ++ back)) ++ back

/-- The CRC of 288 received bytes is good (R353). -/
def frameCrcOk (bs : List Byte) : Bool := decide (bs.length = 288) && decide (frameCrc bs = leNat ((bs.drop 28).take 4))

/-- What received bytes spell; none where a header field or a unit carries a reserved value (R353, R354). -/
def frameOf? (bs : List Byte) : Option Frame :=
  let word := fun i : Nat => (BitVec.ofNat 64 (leNat ((bs.drop (8 * i)).take 8)) : DWord)
  let h := word 0
  let kind := bits h 34 32
  let n := bits h 36 35
  let unit := fun i : Nat => if i < n then unitOf? (word (1 + i)) ((bs.drop (32 + 128 * i)).take 128) else none
  let ok := decide (kind ≤ 4) && decide (bits h 63 49 = 0) && decide (bits (word 3) 31 0 = 0) &&
    (if kind = 0 then decide (1 ≤ n) && decide (n ≤ 2) else decide (n = 0)) &&
    (List.range 2).all fun i => if i < n then (unit i).isSome else decide (word (1 + i) = 0)
  if ok then
    some ⟨BitVec.ofNat 16 (bits h 15 0), BitVec.ofNat 16 (bits h 31 16), kind, BitVec.ofNat 6 (bits h 42 37),
      BitVec.ofNat 6 (bits h 48 43), (List.range n).filterMap unit⟩
  else none

end Sys2Proof.Machine
end

