-- ==== Sys2Proof/Machine/Regs.lean ====
section
/-! DEFINITION. The register tables of the manual: where each register lies, which of its bits software may write and
how (R12), the values an enumerated field takes (R15), and its reset value. -/

namespace Sys2Proof.Machine

/-- SRA_CAP (R40). -/
abbrev Reg.sraCap : Nat := 0x0

/-- SRA_BADACC (R45). -/
abbrev Reg.sraBadacc : Nat := 0x8

/-- SRA_ISO (R346). -/
abbrev Reg.sraIso : Nat := 0x100

/-- SRA_HWIN (R346). -/
abbrev Reg.sraHwin : Nat := 0x104

/-- SRA_DB_LO (R346). -/
abbrev Reg.sraDbLo : Nat := 0x108

/-- SRA_DB_HI (R346). -/
abbrev Reg.sraDbHi : Nat := 0x10C

/-- SRA_SWEEP (R346). -/
abbrev Reg.sraSweep : Nat := 0x110

/-- SRA_HOST_DL (R346). -/
abbrev Reg.sraHostDl : Nat := 0x114

/-- SRA_DERR_LO (R346). -/
abbrev Reg.sraDerrLo : Nat := 0x118

/-- SRA_DERR_HI (R346). -/
abbrev Reg.sraDerrHi : Nat := 0x11C

/-- SRA_DERR_CFG (R346). -/
abbrev Reg.sraDerrCfg : Nat := 0x120

/-- SRA_ALERT_OVF (R346). -/
abbrev Reg.sraAlertOvf : Nat := 0x124

/-- SRA_EVSIG (R346). -/
abbrev Reg.sraEvsig : Nat := 0x130

/-- SRA_KDONE (R346). -/
abbrev Reg.sraKdone : Nat := 0x134

/-- SRA_MO_STAT (R346). -/
abbrev Reg.sraMoStat : Nat := 0x140

/-- SRA_PWR (R446). -/
abbrev Reg.sraPwr : Nat := 0x200

/-- SRA_CTX_CFG (R347). -/
abbrev Reg.sraCtxCfg (i0 : Nat) : Nat := 0x1000 + 0x40 * i0

/-- SRA_CTX_RECTS (R347). -/
abbrev Reg.sraCtxRects (i0 : Nat) : Nat := 0x1004 + 0x40 * i0

/-- SRA_CTX_EV (R347). -/
abbrev Reg.sraCtxEv (i0 : Nat) : Nat := 0x1008 + 0x40 * i0

/-- SRA_CTX_ERR_LO (R347). -/
abbrev Reg.sraCtxErrLo (i0 : Nat) : Nat := 0x100C + 0x40 * i0

/-- SRA_CTX_ERR_HI (R347). -/
abbrev Reg.sraCtxErrHi (i0 : Nat) : Nat := 0x1010 + 0x40 * i0

/-- SRA_CTX_ERRCFG (R347). -/
abbrev Reg.sraCtxErrcfg (i0 : Nat) : Nat := 0x1014 + 0x40 * i0

/-- SRA_CTX_ERRLOST (R347). -/
abbrev Reg.sraCtxErrlost (i0 : Nat) : Nat := 0x1018 + 0x40 * i0

/-- MSIX_ADDR_LO (R310). -/
abbrev Reg.msixAddrLo (i0 : Nat) : Nat := 0x20000 + 0x10 * i0

/-- MSIX_ADDR_HI (R310). -/
abbrev Reg.msixAddrHi (i0 : Nat) : Nat := 0x20004 + 0x10 * i0

/-- MSIX_DATA (R310). -/
abbrev Reg.msixData (i0 : Nat) : Nat := 0x20008 + 0x10 * i0

/-- MSIX_CTRL (R310). -/
abbrev Reg.msixCtrl (i0 : Nat) : Nat := 0x2000C + 0x10 * i0

/-- MSIX_PBA (R310). -/
abbrev Reg.msixPba (i0 : Nat) : Nat := 0x20800 + 0x4 * i0

/-- SRA_Q_CFG (R348). -/
abbrev Reg.sraQCfg (i0 : Nat) : Nat := 0x10000 + 0x20 * i0

/-- SRA_Q_RING_LO (R348). -/
abbrev Reg.sraQRingLo (i0 : Nat) : Nat := 0x10004 + 0x20 * i0

/-- SRA_Q_RING_HI (R348). -/
abbrev Reg.sraQRingHi (i0 : Nat) : Nat := 0x10008 + 0x20 * i0

/-- SRA_Q_CONS_LO (R348). -/
abbrev Reg.sraQConsLo (i0 : Nat) : Nat := 0x1000C + 0x20 * i0

/-- SRA_Q_CONS_HI (R348). -/
abbrev Reg.sraQConsHi (i0 : Nat) : Nat := 0x10010 + 0x20 * i0

/-- SRA_Q_STAT (R348). -/
abbrev Reg.sraQStat (i0 : Nat) : Nat := 0x10014 + 0x20 * i0

/-- SRA_Q_START (R348). -/
abbrev Reg.sraQStart (i0 : Nat) : Nat := 0x10018 + 0x20 * i0

/-- SRA_EV (R349). -/
abbrev Reg.sraEv (i0 : Nat) : Nat := 0x100000 + 0x10 * i0

/-- SRA_EV_MIR_LO (R349). -/
abbrev Reg.sraEvMirLo (i0 : Nat) : Nat := 0x100004 + 0x10 * i0

/-- SRA_EV_MIR_HI (R349). -/
abbrev Reg.sraEvMirHi (i0 : Nat) : Nat := 0x100008 + 0x10 * i0

/-- SRA_EV_FLAG (R349). -/
abbrev Reg.sraEvFlag (i0 : Nat) : Nat := 0x10000C + 0x10 * i0

/-- SRA_MO_CFG (R349). -/
abbrev Reg.sraMoCfg (i0 : Nat) : Nat := 0x200000 + 0x20 * i0

/-- SRA_MO_VPN (R349). -/
abbrev Reg.sraMoVpn (i0 : Nat) : Nat := 0x200004 + 0x20 * i0

/-- SRA_MO_PPN (R349). -/
abbrev Reg.sraMoPpn (i0 : Nat) : Nat := 0x200008 + 0x20 * i0

/-- SRA_MO_PAGES (R349). -/
abbrev Reg.sraMoPages (i0 : Nat) : Nat := 0x20000C + 0x20 * i0

/-- SRA_DMA_CTL (R291). -/
abbrev Reg.sraDmaCtl (i0 i1 : Nat) : Nat := 0x40000 + 0x800000 * i0 + 0x20 * i1

/-- SRA_DMA_STAT (R291). -/
abbrev Reg.sraDmaStat (i0 i1 : Nat) : Nat := 0x40004 + 0x800000 * i0 + 0x20 * i1

/-- SRA_DMA_CCOUNT (R291). -/
abbrev Reg.sraDmaCcount (i0 i1 : Nat) : Nat := 0x40008 + 0x800000 * i0 + 0x20 * i1

/-- SRA_DMA_OKCOUNT (R291). -/
abbrev Reg.sraDmaOkcount (i0 i1 : Nat) : Nat := 0x4000C + 0x800000 * i0 + 0x20 * i1

/-- SRA_DMA_DL (R291). -/
abbrev Reg.sraDmaDl (i0 i1 : Nat) : Nat := 0x40010 + 0x800000 * i0 + 0x20 * i1

/-- SRA_GTR_RSV0 (R293). -/
abbrev Reg.sraGtrRsv0 (i0 : Nat) : Nat := 0x41000 + 0x800000 * i0

/-- SRA_GTR_RSV (R293). -/
abbrev Reg.sraGtrRsv (i0 i1 : Nat) : Nat := 0x41004 + 0x800000 * i0 + 0x4 * i1

/-- SRA_GTR_STAT (R293). -/
abbrev Reg.sraGtrStat (i0 : Nat) : Nat := 0x41040 + 0x800000 * i0

/-- SRA_CXL_DL (R293). -/
abbrev Reg.sraCxlDl (i0 : Nat) : Nat := 0x41044 + 0x800000 * i0

/-- SRA_CXL_LATMAX (R293). -/
abbrev Reg.sraCxlLatmax (i0 i1 : Nat) : Nat := 0x41048 + 0x800000 * i0 + 0x4 * i1

/-- LNK_CTL (R368). -/
abbrev Reg.lnkCtl (i0 i1 : Nat) : Nat := 0x500000 + 0x800000 * i0 + 0x40 * i1

/-- LNK_STAT (R368). -/
abbrev Reg.lnkStat (i0 i1 : Nat) : Nat := 0x500004 + 0x800000 * i0 + 0x40 * i1

/-- LNK_LAT (R368). -/
abbrev Reg.lnkLat (i0 i1 : Nat) : Nat := 0x500008 + 0x800000 * i0 + 0x40 * i1

/-- LNK_CRCERR (R368). -/
abbrev Reg.lnkCrcerr (i0 i1 : Nat) : Nat := 0x50000C + 0x800000 * i0 + 0x40 * i1

/-- LNK_RETRAINS (R368). -/
abbrev Reg.lnkRetrains (i0 i1 : Nat) : Nat := 0x500010 + 0x800000 * i0 + 0x40 * i1

/-- LNK_BND_CFG (R369). -/
abbrev Reg.lnkBndCfg (i0 i1 : Nat) : Nat := 0x501000 + 0x800000 * i0 + 0x20 * i1

/-- LNK_BND_STAT (R369). -/
abbrev Reg.lnkBndStat (i0 i1 : Nat) : Nat := 0x501004 + 0x800000 * i0 + 0x20 * i1

/-- LNK_BND_DL (R369). -/
abbrev Reg.lnkBndDl (i0 i1 : Nat) : Nat := 0x501008 + 0x800000 * i0 + 0x20 * i1

/-- LNK_BND_RTMR (R369). -/
abbrev Reg.lnkBndRtmr (i0 i1 : Nat) : Nat := 0x50100C + 0x800000 * i0 + 0x20 * i1

/-- LNK_BND_REPLAYS (R369). -/
abbrev Reg.lnkBndReplays (i0 i1 : Nat) : Nat := 0x501010 + 0x800000 * i0 + 0x20 * i1

/-- LNK_NAKLOG (R369). -/
abbrev Reg.lnkNaklog (i0 i1 : Nat) : Nat := 0x501014 + 0x800000 * i0 + 0x20 * i1

/-- LNK_NAKLINE (R369). -/
abbrev Reg.lnkNakline (i0 i1 : Nat) : Nat := 0x501018 + 0x800000 * i0 + 0x20 * i1

/-- LNK_CHIP (R370). -/
abbrev Reg.lnkChip : Nat := 0x502000

/-- LNK_READY (R370). -/
abbrev Reg.lnkReady (i0 : Nat) : Nat := 0x502080 + 0x800000 * i0

/-- LNK_ROUTE (R370). -/
abbrev Reg.lnkRoute (i0 : Nat) : Nat := 0x502100 + 0x4 * i0

/-- CMP_CAP (R41). -/
abbrev Reg.cmpCap : Nat := 0x1000000

/-- CMP_TIME_LO (R30). -/
abbrev Reg.cmpTimeLo : Nat := 0x1000010

/-- CMP_TIME_HI (R30). -/
abbrev Reg.cmpTimeHi : Nat := 0x1000014

/-- CMP_TIME_RATE (R30). -/
abbrev Reg.cmpTimeRate : Nat := 0x1000018

/-- CMP_READY_LO (R445). -/
abbrev Reg.cmpReadyLo : Nat := 0x1000020

/-- CMP_READY_HI (R445). -/
abbrev Reg.cmpReadyHi : Nat := 0x1000024

/-- CMP_DBG_LOCK (R445). -/
abbrev Reg.cmpDbgLock : Nat := 0x1000028

/-- CMP_MEM_START (R445). -/
abbrev Reg.cmpMemStart : Nat := 0x100002C

/-- CMP_CORE_RST (R445). -/
abbrev Reg.cmpCoreRst : Nat := 0x1000030

/-- CMP_RGN_RST_LO (R445). -/
abbrev Reg.cmpRgnRstLo : Nat := 0x1000034

/-- CMP_RGN_RST_HI (R445). -/
abbrev Reg.cmpRgnRstHi : Nat := 0x1000038

/-- CMP_TIER0_W0 (R265). -/
abbrev Reg.cmpTier0W0 : Nat := 0x1000100

/-- CMP_TIER_W0 (R265). -/
abbrev Reg.cmpTierW0 (i0 : Nat) : Nat := 0x1000110 + 0x10 * i0

/-- CMP_TIER_W1 (R265). -/
abbrev Reg.cmpTierW1 (i0 : Nat) : Nat := 0x1000104 + 0x10 * i0

/-- CMP_TIER_W2 (R265). -/
abbrev Reg.cmpTierW2 (i0 : Nat) : Nat := 0x1000108 + 0x10 * i0

/-- CMP_SCRUB_CTL (R265). -/
abbrev Reg.cmpScrubCtl : Nat := 0x1000200

/-- CMP_ECC_CNT (R265). -/
abbrev Reg.cmpEccCnt : Nat := 0x1000204

/-- CMP_SCRUB_LOST (R265). -/
abbrev Reg.cmpScrubLost : Nat := 0x1000208

/-- CMP_SCRUB_LOG_W0 (R265). -/
abbrev Reg.cmpScrubLogW0 (i0 : Nat) : Nat := 0x1000210 + 0x8 * i0

/-- CMP_SCRUB_LOG_W1 (R265). -/
abbrev Reg.cmpScrubLogW1 (i0 : Nat) : Nat := 0x1000214 + 0x8 * i0

/-- CMP_CODEC_EB0 (R308). -/
abbrev Reg.cmpCodecEb0 : Nat := 0x1000300

/-- CMP_CODEC_EB1 (R308). -/
abbrev Reg.cmpCodecEb1 : Nat := 0x1000304

/-- CMP_BLK_PWR (R445). -/
abbrev Reg.cmpBlkPwr (i0 : Nat) : Nat := 0x1000400 + 0x4 * i0

/-- CMP_TEN_RECT (R216). -/
abbrev Reg.cmpTenRect (i0 : Nat) : Nat := 0x1001000 + 0x4 * i0

/-- CMP_TEN_STAT (R216). -/
abbrev Reg.cmpTenStat : Nat := 0x1001040

/-- CMP_TEN_LOCK (R216). -/
abbrev Reg.cmpTenLock : Nat := 0x1001044

/-- CMP_TEN_WIN_W0 (R216). -/
abbrev Reg.cmpTenWinW0 (i0 i1 : Nat) : Nat := 0x1001100 + 0x20 * i0 + 0x8 * i1

/-- CMP_TEN_WIN_W1 (R216). -/
abbrev Reg.cmpTenWinW1 (i0 i1 : Nat) : Nat := 0x1001104 + 0x20 * i0 + 0x8 * i1

/-- CMP_GMR_W0 (R216). -/
abbrev Reg.cmpGmrW0 (i0 : Nat) : Nat := 0x1001400 + 0x8 * i0

/-- CMP_GMR_W1 (R216). -/
abbrev Reg.cmpGmrW1 (i0 : Nat) : Nat := 0x1001404 + 0x8 * i0

/-- CMP_CV_CFG (R181). -/
abbrev Reg.cmpCvCfg (i0 : Nat) : Nat := 0x1080000 + 0x10 * i0

/-- CMP_CV_STAT (R181). -/
abbrev Reg.cmpCvStat (i0 : Nat) : Nat := 0x1080004 + 0x10 * i0

/-- CMP_CV_DL (R181). -/
abbrev Reg.cmpCvDl (i0 : Nat) : Nat := 0x1080008 + 0x10 * i0

/-- CMP_LANE_SLOT (R216). -/
abbrev Reg.cmpLaneSlot (i0 i1 : Nat) : Nat := 0x1100000 + 0x40 * i0 + 0x4 * i1

/-- CMP_LANE_COMMIT (R216). -/
abbrev Reg.cmpLaneCommit : Nat := 0x1102000

/-- CMP_LANE_POLICE (R216). -/
abbrev Reg.cmpLanePolice : Nat := 0x1102004

/-- CMP_WB_CTL (R180). -/
abbrev Reg.cmpWbCtl (i0 : Nat) : Nat := 0x1400000 + 0x40 * i0

/-- CMP_WB_BASE (R180). -/
abbrev Reg.cmpWbBase (i0 : Nat) : Nat := 0x1400004 + 0x40 * i0

/-- CMP_WB_STAT (R180). -/
abbrev Reg.cmpWbStat (i0 : Nat) : Nat := 0x1400008 + 0x40 * i0

/-- CMP_WB_DL (R180). -/
abbrev Reg.cmpWbDl (i0 : Nat) : Nat := 0x140000C + 0x40 * i0

/-- CMP_WB_FAULT (R180). -/
abbrev Reg.cmpWbFault (i0 : Nat) : Nat := 0x1400010 + 0x40 * i0

/-- CMP_WB_DROP (R180). -/
abbrev Reg.cmpWbDrop (i0 : Nat) : Nat := 0x1400014 + 0x40 * i0

/-- CMP_IC_CTL (R265). -/
abbrev Reg.cmpIcCtl (i0 : Nat) : Nat := 0x1400018 + 0x40 * i0

/-- CMP_TDMA_CFG (R294). -/
abbrev Reg.cmpTdmaCfg (i0 : Nat) : Nat := 0x140001C + 0x40 * i0

/-- CMP_LP_STAT (R217). -/
abbrev Reg.cmpLpStat (i0 : Nat) : Nat := 0x1400020 + 0x40 * i0

/-- CMP_LP_DL (R217). -/
abbrev Reg.cmpLpDl (i0 : Nat) : Nat := 0x1400024 + 0x40 * i0

/-- CMP_LP_FAULT (R217). -/
abbrev Reg.cmpLpFault (i0 : Nat) : Nat := 0x1400028 + 0x40 * i0

/-- CMP_LP_ADDR_LO (R217). -/
abbrev Reg.cmpLpAddrLo (i0 : Nat) : Nat := 0x140002C + 0x40 * i0

/-- CMP_LP_ADDR_HI (R217). -/
abbrev Reg.cmpLpAddrHi (i0 : Nat) : Nat := 0x1400030 + 0x40 * i0

/-- CMP_CR_OUTBOX (R217). -/
abbrev Reg.cmpCrOutbox (i0 : Nat) : Nat := 0x1400034 + 0x40 * i0

/-- CMP_CR_DL (R217). -/
abbrev Reg.cmpCrDl (i0 : Nat) : Nat := 0x1400038 + 0x40 * i0

/-- CMP_CR_DROP (R217). -/
abbrev Reg.cmpCrDrop (i0 : Nat) : Nat := 0x140003C + 0x40 * i0

/-- HBM_STAT (R264). -/
abbrev Reg.hbmStat (i0 : Nat) : Nat := 0x2000000 + 0x100000 * i0

/-- HBM_THERM (R264). -/
abbrev Reg.hbmTherm (i0 : Nat) : Nat := 0x2000004 + 0x100000 * i0

/-- HBM_GEARTHR (R264). -/
abbrev Reg.hbmGearthr (i0 : Nat) : Nat := 0x2000008 + 0x100000 * i0

/-- HBM_REFMASK_LO (R264). -/
abbrev Reg.hbmRefmaskLo (i0 i1 : Nat) : Nat := 0x2000010 + 0x100000 * i0 + 0x8 * i1

/-- HBM_REFMASK_HI (R264). -/
abbrev Reg.hbmRefmaskHi (i0 i1 : Nat) : Nat := 0x2000014 + 0x100000 * i0 + 0x8 * i1

/-- HBM_GEARMASK_LO (R264). -/
abbrev Reg.hbmGearmaskLo (i0 i1 : Nat) : Nat := 0x2000028 + 0x100000 * i0 + 0x8 * i1

/-- HBM_GEARMASK_HI (R264). -/
abbrev Reg.hbmGearmaskHi (i0 i1 : Nat) : Nat := 0x200002C + 0x100000 * i0 + 0x8 * i1

/-- HBM_MASKCOMMIT (R264). -/
abbrev Reg.hbmMaskcommit (i0 : Nat) : Nat := 0x2000040 + 0x100000 * i0

/-- HBM_CTL (R264). -/
abbrev Reg.hbmCtl (i0 : Nat) : Nat := 0x2000044 + 0x100000 * i0

/-- HBM_BC_CTL (R264). -/
abbrev Reg.hbmBcCtl (i0 : Nat) : Nat := 0x2000050 + 0x100000 * i0

/-- HBM_BC_LOCK (R264). -/
abbrev Reg.hbmBcLock (i0 : Nat) : Nat := 0x2000054 + 0x100000 * i0

/-- HBM_BC_FILL (R264). -/
abbrev Reg.hbmBcFill (i0 : Nat) : Nat := 0x2000058 + 0x100000 * i0

/-- HBM_BC_PRE_ADDR (R264). -/
abbrev Reg.hbmBcPreAddr (i0 : Nat) : Nat := 0x2000060 + 0x100000 * i0

/-- HBM_BC_PRE_CTL (R264). -/
abbrev Reg.hbmBcPreCtl (i0 : Nat) : Nat := 0x2000064 + 0x100000 * i0

/-- HBM_BC_PRE_CMD (R264). -/
abbrev Reg.hbmBcPreCmd (i0 : Nat) : Nat := 0x2000068 + 0x100000 * i0

/-- HBM_PF_WIN_W0 (R264). -/
abbrev Reg.hbmPfWinW0 (i0 i1 : Nat) : Nat := 0x2000080 + 0x100000 * i0 + 0x8 * i1

/-- HBM_PF_WIN_W1 (R264). -/
abbrev Reg.hbmPfWinW1 (i0 i1 : Nat) : Nat := 0x2000084 + 0x100000 * i0 + 0x8 * i1

/-- HBM_SCRUB_CTL (R264). -/
abbrev Reg.hbmScrubCtl (i0 : Nat) : Nat := 0x20000C0 + 0x100000 * i0

/-- HBM_SCRUB_PASS (R264). -/
abbrev Reg.hbmScrubPass (i0 : Nat) : Nat := 0x20000C4 + 0x100000 * i0

/-- HBM_ECC_CNT (R264). -/
abbrev Reg.hbmEccCnt (i0 : Nat) : Nat := 0x20000C8 + 0x100000 * i0

/-- HBM_SCRUB_LOST (R264). -/
abbrev Reg.hbmScrubLost (i0 : Nat) : Nat := 0x20000CC + 0x100000 * i0

/-- HBM_SCRUB_LOG_W0 (R264). -/
abbrev Reg.hbmScrubLogW0 (i0 i1 : Nat) : Nat := 0x2000100 + 0x100000 * i0 + 0x8 * i1

/-- HBM_SCRUB_LOG_W1 (R264). -/
abbrev Reg.hbmScrubLogW1 (i0 i1 : Nat) : Nat := 0x2000104 + 0x100000 * i0 + 0x8 * i1

/-- HBM_GTR_RSV (R293). -/
abbrev Reg.hbmGtrRsv (i0 i1 : Nat) : Nat := 0x2000200 + 0x100000 * i0 + 0x4 * i1

/-- HBM_GTR_STAT (R293). -/
abbrev Reg.hbmGtrStat (i0 : Nat) : Nat := 0x2000240 + 0x100000 * i0

/-- DRV_CAP (R42). -/
abbrev Reg.drvCap : Nat := 0x3000000

/-- DRV_READY (R402). -/
abbrev Reg.drvReady : Nat := 0x3000004

/-- DRV_OWN (R402). -/
abbrev Reg.drvOwn : Nat := 0x3000008

/-- DRV_LOCK (R402). -/
abbrev Reg.drvLock : Nat := 0x300000C

/-- DRV_VFIELD (R402). -/
abbrev Reg.drvVfield : Nat := 0x3000010

/-- DRV_MEM (R402). -/
abbrev Reg.drvMem : Nat := 0x3000014

/-- DRV_MEM_DL (R402). -/
abbrev Reg.drvMemDl : Nat := 0x3000018

/-- DRV_LOG_HEAD (R402). -/
abbrev Reg.drvLogHead : Nat := 0x300001C

/-- DRV_LOG_OVF (R402). -/
abbrev Reg.drvLogOvf : Nat := 0x3000020

/-- DRV_PTP_OFS_LO (R402). -/
abbrev Reg.drvPtpOfsLo : Nat := 0x3000024

/-- DRV_PTP_OFS_HI (R402). -/
abbrev Reg.drvPtpOfsHi : Nat := 0x3000028

/-- DRV_LOG_W0 (R402). -/
abbrev Reg.drvLogW0 (i0 : Nat) : Nat := 0x3000100 + 0x10 * i0

/-- DRV_LOG_W1 (R402). -/
abbrev Reg.drvLogW1 (i0 : Nat) : Nat := 0x3000104 + 0x10 * i0

/-- DRV_LOG_W2 (R402). -/
abbrev Reg.drvLogW2 (i0 : Nat) : Nat := 0x3000108 + 0x10 * i0

/-- DRV_LOG_W3 (R402). -/
abbrev Reg.drvLogW3 (i0 : Nat) : Nat := 0x300010C + 0x10 * i0

/-- DRV_ROUTE (R402). -/
abbrev Reg.drvRoute (i0 : Nat) : Nat := 0x3000300 + 0x4 * i0

/-- DRV_CSI_CFG (R403). -/
abbrev Reg.drvCsiCfg (i0 : Nat) : Nat := 0x3001000 + 0x100 * i0

/-- DRV_CSI_GEOM (R403). -/
abbrev Reg.drvCsiGeom (i0 : Nat) : Nat := 0x3001004 + 0x100 * i0

/-- DRV_CSI_RING (R403). -/
abbrev Reg.drvCsiRing (i0 : Nat) : Nat := 0x3001008 + 0x100 * i0

/-- DRV_CSI_BASE_LO (R403). -/
abbrev Reg.drvCsiBaseLo (i0 : Nat) : Nat := 0x300100C + 0x100 * i0

/-- DRV_CSI_BASE_HI (R403). -/
abbrev Reg.drvCsiBaseHi (i0 : Nat) : Nat := 0x3001010 + 0x100 * i0

/-- DRV_CSI_REC_LO (R403). -/
abbrev Reg.drvCsiRecLo (i0 : Nat) : Nat := 0x3001014 + 0x100 * i0

/-- DRV_CSI_REC_HI (R403). -/
abbrev Reg.drvCsiRecHi (i0 : Nat) : Nat := 0x3001018 + 0x100 * i0

/-- DRV_CSI_REL (R403). -/
abbrev Reg.drvCsiRel (i0 : Nat) : Nat := 0x300101C + 0x100 * i0

/-- DRV_CSI_DL (R403). -/
abbrev Reg.drvCsiDl (i0 : Nat) : Nat := 0x3001020 + 0x100 * i0

/-- DRV_CSI_CNT (R403). -/
abbrev Reg.drvCsiCnt (i0 : Nat) : Nat := 0x3001024 + 0x100 * i0

/-- DRV_ETH_CTL (R407). -/
abbrev Reg.drvEthCtl (i0 : Nat) : Nat := 0x3002000 + 0x400 * i0

/-- DRV_ETH_MAC_LO (R407). -/
abbrev Reg.drvEthMacLo (i0 : Nat) : Nat := 0x3002004 + 0x400 * i0

/-- DRV_ETH_MAC_HI (R407). -/
abbrev Reg.drvEthMacHi (i0 : Nat) : Nat := 0x3002008 + 0x400 * i0

/-- DRV_ETH_RXMAP (R407). -/
abbrev Reg.drvEthRxmap (i0 : Nat) : Nat := 0x300200C + 0x400 * i0

/-- DRV_ETH_FCSERR (R407). -/
abbrev Reg.drvEthFcserr (i0 : Nat) : Nat := 0x3002010 + 0x400 * i0

/-- DRV_ETH_RXDROP (R407). -/
abbrev Reg.drvEthRxdrop (i0 : Nat) : Nat := 0x3002014 + 0x400 * i0

/-- DRV_ETH_FILT (R407). -/
abbrev Reg.drvEthFilt (i0 : Nat) : Nat := 0x3002018 + 0x400 * i0

/-- DRV_ETH_RINGBASE (R407). -/
abbrev Reg.drvEthRingbase (i0 i1 : Nat) : Nat := 0x3002100 + 0x400 * i0 + 0x10 * i1

/-- DRV_ETH_RINGCFG (R407). -/
abbrev Reg.drvEthRingcfg (i0 i1 : Nat) : Nat := 0x3002104 + 0x400 * i0 + 0x10 * i1

/-- DRV_ETH_RINGTAIL (R407). -/
abbrev Reg.drvEthRingtail (i0 i1 : Nat) : Nat := 0x3002108 + 0x400 * i0 + 0x10 * i1

/-- DRV_ETH_RINGHEAD (R407). -/
abbrev Reg.drvEthRinghead (i0 i1 : Nat) : Nat := 0x300210C + 0x400 * i0 + 0x10 * i1

/-- DRV_ETH_GCLCTL (R407). -/
abbrev Reg.drvEthGclctl (i0 : Nat) : Nat := 0x30021C0 + 0x400 * i0

/-- DRV_ETH_GCLBASE_LO (R407). -/
abbrev Reg.drvEthGclbaseLo (i0 : Nat) : Nat := 0x30021C4 + 0x400 * i0

/-- DRV_ETH_GCLBASE_HI (R407). -/
abbrev Reg.drvEthGclbaseHi (i0 : Nat) : Nat := 0x30021C8 + 0x400 * i0

/-- DRV_ETH_SWAPT_LO (R407). -/
abbrev Reg.drvEthSwaptLo (i0 : Nat) : Nat := 0x30021CC + 0x400 * i0

/-- DRV_ETH_SWAPT_HI (R407). -/
abbrev Reg.drvEthSwaptHi (i0 : Nat) : Nat := 0x30021D0 + 0x400 * i0

/-- DRV_ETH_GCL (R407). -/
abbrev Reg.drvEthGcl (i0 i1 i2 : Nat) : Nat := 0x3002200 + 0x400 * i0 + 0x100 * i1 + 0x4 * i2

/-- DRV_CAN_CTL (R408). -/
abbrev Reg.drvCanCtl (i0 : Nat) : Nat := 0x3003000 + 0x400 * i0

/-- DRV_CAN_NBT (R408). -/
abbrev Reg.drvCanNbt (i0 : Nat) : Nat := 0x3003004 + 0x400 * i0

/-- DRV_CAN_DBT (R408). -/
abbrev Reg.drvCanDbt (i0 : Nat) : Nat := 0x3003008 + 0x400 * i0

/-- DRV_CAN_TDCO (R408). -/
abbrev Reg.drvCanTdco (i0 : Nat) : Nat := 0x300300C + 0x400 * i0

/-- DRV_CAN_STAT (R408). -/
abbrev Reg.drvCanStat (i0 : Nat) : Nat := 0x3003010 + 0x400 * i0

/-- DRV_CAN_FLT_W0 (R408). -/
abbrev Reg.drvCanFltW0 (i0 i1 : Nat) : Nat := 0x3003040 + 0x400 * i0 + 0x8 * i1

/-- DRV_CAN_FLT_W1 (R408). -/
abbrev Reg.drvCanFltW1 (i0 i1 : Nat) : Nat := 0x3003044 + 0x400 * i0 + 0x8 * i1

/-- DRV_CAN_MB_ID (R408). -/
abbrev Reg.drvCanMbId (i0 i1 : Nat) : Nat := 0x3003140 + 0x400 * i0 + 0x20 * i1

/-- DRV_CAN_MB_CTL (R408). -/
abbrev Reg.drvCanMbCtl (i0 i1 : Nat) : Nat := 0x3003144 + 0x400 * i0 + 0x20 * i1

/-- DRV_CAN_MB_TIME_LO (R408). -/
abbrev Reg.drvCanMbTimeLo (i0 i1 : Nat) : Nat := 0x3003148 + 0x400 * i0 + 0x20 * i1

/-- DRV_CAN_MB_TIME_HI (R408). -/
abbrev Reg.drvCanMbTimeHi (i0 i1 : Nat) : Nat := 0x300314C + 0x400 * i0 + 0x20 * i1

/-- DRV_CAN_MB_DL (R408). -/
abbrev Reg.drvCanMbDl (i0 i1 : Nat) : Nat := 0x3003150 + 0x400 * i0 + 0x20 * i1

/-- DRV_CAN_MB_BUF_LO (R408). -/
abbrev Reg.drvCanMbBufLo (i0 i1 : Nat) : Nat := 0x3003154 + 0x400 * i0 + 0x20 * i1

/-- DRV_CAN_MB_BUF_HI (R408). -/
abbrev Reg.drvCanMbBufHi (i0 i1 : Nat) : Nat := 0x3003158 + 0x400 * i0 + 0x20 * i1

/-- DRV_CAN_RXF_ID (R408). -/
abbrev Reg.drvCanRxfId (i0 : Nat) : Nat := 0x3003340 + 0x400 * i0

/-- DRV_CAN_RXF_INFO (R408). -/
abbrev Reg.drvCanRxfInfo (i0 : Nat) : Nat := 0x3003344 + 0x400 * i0

/-- DRV_CAN_RXF_TIME_LO (R408). -/
abbrev Reg.drvCanRxfTimeLo (i0 : Nat) : Nat := 0x3003348 + 0x400 * i0

/-- DRV_CAN_RXF_TIME_HI (R408). -/
abbrev Reg.drvCanRxfTimeHi (i0 : Nat) : Nat := 0x300334C + 0x400 * i0

/-- DRV_CAN_RXF_DATA (R408). -/
abbrev Reg.drvCanRxfData (i0 i1 : Nat) : Nat := 0x3003350 + 0x400 * i0 + 0x4 * i1

/-- DRV_CAN_RXPOP (R408). -/
abbrev Reg.drvCanRxpop (i0 : Nat) : Nat := 0x3003390 + 0x400 * i0

/-- DRV_CAN_RXSTAT (R408). -/
abbrev Reg.drvCanRxstat (i0 : Nat) : Nat := 0x3003394 + 0x400 * i0

/-- DRV_DIN_CFG (R404). -/
abbrev Reg.drvDinCfg (i0 : Nat) : Nat := 0x3004000 + 0x4 * i0

/-- DRV_DIN_STAT (R404). -/
abbrev Reg.drvDinStat : Nat := 0x3004040

/-- DRV_DIN_STUCK (R404). -/
abbrev Reg.drvDinStuck : Nat := 0x3004044

/-- DRV_DIN_OPEN (R404). -/
abbrev Reg.drvDinOpen : Nat := 0x3004048

/-- DRV_DIN_WIN (R404). -/
abbrev Reg.drvDinWin : Nat := 0x300404C

/-- DRV_DIN_EVT0 (R404). -/
abbrev Reg.drvDinEvt0 : Nat := 0x3004050

/-- DRV_DIN_EVT1 (R404). -/
abbrev Reg.drvDinEvt1 : Nat := 0x3004054

/-- DRV_DIN_EVT2 (R404). -/
abbrev Reg.drvDinEvt2 : Nat := 0x3004058

/-- DRV_ENC_CFG (R405). -/
abbrev Reg.drvEncCfg (i0 : Nat) : Nat := 0x3005000 + 0x40 * i0

/-- DRV_ENC_POS (R405). -/
abbrev Reg.drvEncPos (i0 : Nat) : Nat := 0x3005004 + 0x40 * i0

/-- DRV_ENC_ZPOS (R405). -/
abbrev Reg.drvEncZpos (i0 : Nat) : Nat := 0x3005008 + 0x40 * i0

/-- DRV_ENC_ZTIME_LO (R405). -/
abbrev Reg.drvEncZtimeLo (i0 : Nat) : Nat := 0x300500C + 0x40 * i0

/-- DRV_ENC_ZTIME_HI (R405). -/
abbrev Reg.drvEncZtimeHi (i0 : Nat) : Nat := 0x3005010 + 0x40 * i0

/-- DRV_ENC_STAT (R405). -/
abbrev Reg.drvEncStat (i0 : Nat) : Nat := 0x3005014 + 0x40 * i0

/-- DRV_ENC_ILLEGAL (R405). -/
abbrev Reg.drvEncIllegal (i0 : Nat) : Nat := 0x3005018 + 0x40 * i0

/-- DRV_ENC_SNAPPOS (R405). -/
abbrev Reg.drvEncSnappos (i0 : Nat) : Nat := 0x300501C + 0x40 * i0

/-- DRV_ENC_SNAPT_LO (R405). -/
abbrev Reg.drvEncSnaptLo : Nat := 0x3005100

/-- DRV_ENC_SNAPT_HI (R405). -/
abbrev Reg.drvEncSnaptHi : Nat := 0x3005104

/-- DRV_ENC_SNAPSTAT (R405). -/
abbrev Reg.drvEncSnapstat : Nat := 0x3005108

/-- DRV_ADC_CFG (R406). -/
abbrev Reg.drvAdcCfg (i0 : Nat) : Nat := 0x3006000 + 0x40 * i0

/-- DRV_ADC_BASE_LO (R406). -/
abbrev Reg.drvAdcBaseLo (i0 : Nat) : Nat := 0x3006004 + 0x40 * i0

/-- DRV_ADC_BASE_HI (R406). -/
abbrev Reg.drvAdcBaseHi (i0 : Nat) : Nat := 0x3006008 + 0x40 * i0

/-- DRV_ADC_RING (R406). -/
abbrev Reg.drvAdcRing (i0 : Nat) : Nat := 0x300600C + 0x40 * i0

/-- DRV_ADC_WIDX (R406). -/
abbrev Reg.drvAdcWidx (i0 : Nat) : Nat := 0x3006010 + 0x40 * i0

/-- DRV_ADC_WIN (R406). -/
abbrev Reg.drvAdcWin (i0 : Nat) : Nat := 0x3006014 + 0x40 * i0

/-- DRV_ADC_STAT (R406). -/
abbrev Reg.drvAdcStat (i0 : Nat) : Nat := 0x3006018 + 0x40 * i0

/-- DRV_ADC_T0_LO (R406). -/
abbrev Reg.drvAdcT0Lo : Nat := 0x3006200

/-- DRV_ADC_T0_HI (R406). -/
abbrev Reg.drvAdcT0Hi : Nat := 0x3006204

/-- DRV_ADC_PERIOD (R406). -/
abbrev Reg.drvAdcPeriod : Nat := 0x3006208

/-- DRV_ADC_CTL (R406). -/
abbrev Reg.drvAdcCtl : Nat := 0x300620C

/-- DRV_DOUT_CFG (R404). -/
abbrev Reg.drvDoutCfg (i0 : Nat) : Nat := 0x3007000 + 0x4 * i0

/-- DRV_DOUT_CMD (R404). -/
abbrev Reg.drvDoutCmd : Nat := 0x3007020

/-- DRV_DOUT_CTL (R404). -/
abbrev Reg.drvDoutCtl : Nat := 0x3007024

/-- DRV_DOUT_STAT (R404). -/
abbrev Reg.drvDoutStat (i0 : Nat) : Nat := 0x3007040 + 0x4 * i0

/-- DRV_PRM_CFG (R426). -/
abbrev Reg.drvPrmCfg (i0 : Nat) : Nat := 0x3008000 + 0x20 * i0

/-- DRV_PRM_SEED (R426). -/
abbrev Reg.drvPrmSeed (i0 : Nat) : Nat := 0x3008004 + 0x20 * i0

/-- DRV_PRM_BASE_LO (R426). -/
abbrev Reg.drvPrmBaseLo (i0 : Nat) : Nat := 0x3008008 + 0x20 * i0

/-- DRV_PRM_BASE_HI (R426). -/
abbrev Reg.drvPrmBaseHi (i0 : Nat) : Nat := 0x300800C + 0x20 * i0

/-- DRV_PRM_STAT (R426). -/
abbrev Reg.drvPrmStat (i0 : Nat) : Nat := 0x3008010 + 0x20 * i0

/-- DRV_TWIN_CFG (R426). -/
abbrev Reg.drvTwinCfg (i0 : Nat) : Nat := 0x3008100 + 0x20 * i0

/-- DRV_TWIN_SUBA (R426). -/
abbrev Reg.drvTwinSuba (i0 : Nat) : Nat := 0x3008104 + 0x20 * i0

/-- DRV_TWIN_SUBB (R426). -/
abbrev Reg.drvTwinSubb (i0 : Nat) : Nat := 0x3008108 + 0x20 * i0

/-- DRV_TWIN_SKEW (R426). -/
abbrev Reg.drvTwinSkew (i0 : Nat) : Nat := 0x300810C + 0x20 * i0

/-- DRV_TWIN_STAT (R426). -/
abbrev Reg.drvTwinStat (i0 : Nat) : Nat := 0x3008110 + 0x20 * i0

/-- DRV_TWIN_SRC (R426). -/
abbrev Reg.drvTwinSrc (i0 : Nat) : Nat := 0x3008114 + 0x20 * i0

/-- DRV_WD_CFG (R426). -/
abbrev Reg.drvWdCfg (i0 : Nat) : Nat := 0x3008200 + 0x20 * i0

/-- DRV_WD_PERIOD (R426). -/
abbrev Reg.drvWdPeriod (i0 : Nat) : Nat := 0x3008204 + 0x20 * i0

/-- DRV_WD_OPEN (R426). -/
abbrev Reg.drvWdOpen (i0 : Nat) : Nat := 0x3008208 + 0x20 * i0

/-- DRV_WD_KICK (R426). -/
abbrev Reg.drvWdKick (i0 : Nat) : Nat := 0x300820C + 0x20 * i0

/-- DRV_WD_STAT (R426). -/
abbrev Reg.drvWdStat (i0 : Nat) : Nat := 0x3008210 + 0x20 * i0

/-- DRV_ESTOP_CFG (R426). -/
abbrev Reg.drvEstopCfg : Nat := 0x3008300

/-- DRV_ESTOP_STAT (R426). -/
abbrev Reg.drvEstopStat : Nat := 0x3008304

/-- DRV_SAFE_MAP (R426). -/
abbrev Reg.drvSafeMap (i0 : Nat) : Nat := 0x3008310 + 0x4 * i0

/-- DRV_SAFE_LATCH (R426). -/
abbrev Reg.drvSafeLatch : Nat := 0x3008320

/-- The lock an RW-L field falls under (R444). -/
inductive LockKind where
  | none | own | ilv | hbm | drv
  deriving DecidableEq, Repr

/-- A field that takes only some values (R15): those of `ranges` that are multiples of `mult`. -/
structure FieldLimit where
  hi     : Nat
  lo     : Nat
  ranges : List (Nat × Nat)
  mult   : Nat

/-- One register of the tables: its offset and index strides, the masks of its RW, RW-L, W1C and W1S bits, its reset
value, its limited fields, its lock, and whether it is the upper word of a 64-bit field (R13). -/
structure RegRow where
  base  : Nat
  dims  : List (Nat × Nat)
  rw    : Word
  rwl   : Word
  w1c   : Word
  locks : Word
  rst   : Word
  lims  : List FieldLimit
  lock  : LockKind
  upper : Bool

/-- Register rows, serai block, part 0. -/
def regRows_serai0 : List RegRow := [
  ⟨0x0, [], 0x0, 0x0, 0x0, 0x0, 0x0, [], .none, false⟩,
  ⟨0x8, [], 0x0, 0x0, 0xC0000000, 0x0, 0x0, [], .none, false⟩,
  ⟨0x100, [], 0x1, 0x0, 0x0, 0x0, 0x0, [], .none, false⟩,
  ⟨0x104, [], 0xFFFFF, 0x0, 0x0, 0x0, 0x0, [], .none, false⟩,
  ⟨0x108, [], 0xFFFFFFFF, 0x0, 0x0, 0x0, 0x0, [], .none, false⟩,
  ⟨0x10C, [], 0xFFFF, 0x0, 0x0, 0x0, 0x0, [], .none, true⟩,
  ⟨0x110, [], 0x17F, 0x0, 0x0, 0x0, 0x4, [⟨6, 0, [(1, 64)], 1⟩], .none, false⟩,
  ⟨0x114, [], 0xFFFFFFFF, 0x0, 0x0, 0x0, 0x2710, [⟨31, 0, [(1, 4294967295)], 1⟩], .none, false⟩,
  ⟨0x118, [], 0xFFFFFFFF, 0x0, 0x0, 0x0, 0x0, [], .none, false⟩,
  ⟨0x11C, [], 0xFFFF, 0x0, 0x0, 0x0, 0x0, [], .none, true⟩,
  ⟨0x120, [], 0xFFF, 0x0, 0x0, 0x0, 0x4, [⟨3, 0, [(4, 12)], 1⟩], .none, false⟩,
  ⟨0x124, [], 0x0, 0x0, 0x0, 0x0, 0x0, [], .none, false⟩,
  ⟨0x130, [], 0x0, 0x0, 0x0, 0x0, 0x0, [], .none, false⟩,
  ⟨0x134, [], 0x0, 0x0, 0x0, 0x0, 0x0, [], .none, false⟩,
  ⟨0x140, [], 0x0, 0x0, 0x80000000, 0x0, 0x0, [], .none, false⟩,
  ⟨0x200, [], 0x1, 0x0, 0x300, 0x0, 0x0, [], .none, false⟩,
  ⟨0x1000, [(0x40, 64)], 0xF80, 0x0, 0x0, 0x70, 0x0, [], .none, false⟩,
  ⟨0x1004, [(0x40, 64)], 0xFFFF, 0x0, 0x0, 0x0, 0x0, [], .none, false⟩,
  ⟨0x1008, [(0x40, 64)], 0xFFF0FFF, 0x0, 0x0, 0x0, 0x0, [], .none, false⟩,
  ⟨0x100C, [(0x40, 64)], 0xFFFFFFFF, 0x0, 0x0, 0x0, 0x0, [], .none, false⟩]

/-- Register rows, serai block, part 1. -/
def regRows_serai1 : List RegRow := [
  ⟨0x1010, [(0x40, 64)], 0xFFFF, 0x0, 0x0, 0x0, 0x0, [], .none, true⟩,
  ⟨0x1014, [(0x40, 64)], 0x7FF, 0x0, 0x0, 0x0, 0x0, [⟨3, 0, [(0, 0), (4, 12)], 1⟩], .none, false⟩,
  ⟨0x1018, [(0x40, 64)], 0x0, 0x0, 0x0, 0x0, 0x0, [], .none, false⟩,
  ⟨0x20000, [(0x10, 64)], 0xFFFFFFFC, 0x0, 0x0, 0x0, 0x0, [], .none, false⟩,
  ⟨0x20004, [(0x10, 64)], 0xFFFFFFFF, 0x0, 0x0, 0x0, 0x0, [], .none, false⟩,
  ⟨0x20008, [(0x10, 64)], 0xFFFFFFFF, 0x0, 0x0, 0x0, 0x0, [], .none, false⟩,
  ⟨0x2000C, [(0x10, 64)], 0x1, 0x0, 0x0, 0x0, 0x1, [], .none, false⟩,
  ⟨0x20800, [(0x4, 2)], 0x0, 0x0, 0x0, 0x0, 0x0, [], .none, false⟩,
  ⟨0x10000, [(0x20, 256)], 0xFEFFFFF, 0x0, 0x0, 0x0, 0x10, [⟨5, 2, [(4, 12)], 1⟩], .none, false⟩,
  ⟨0x10004, [(0x20, 256)], 0xFFFFFFFF, 0x0, 0x0, 0x0, 0x0, [], .none, false⟩,
  ⟨0x10008, [(0x20, 256)], 0xFFFF, 0x0, 0x0, 0x0, 0x0, [], .none, true⟩,
  ⟨0x1000C, [(0x20, 256)], 0xFFFFFFFF, 0x0, 0x0, 0x0, 0x0, [], .none, false⟩,
  ⟨0x10010, [(0x20, 256)], 0xFFFF, 0x0, 0x0, 0x0, 0x0, [], .none, true⟩,
  ⟨0x10014, [(0x20, 256)], 0x0, 0x0, 0x0, 0x0, 0x0, [], .none, false⟩,
  ⟨0x10018, [(0x20, 256)], 0xFFFF, 0x0, 0x0, 0x0, 0x0, [], .none, false⟩,
  ⟨0x100000, [(0x10, 4096)], 0x3FC00BF, 0x0, 0x0, 0x4000000, 0x0, [], .none, false⟩,
  ⟨0x100004, [(0x10, 4096)], 0xFFFFFFFF, 0x0, 0x0, 0x0, 0x0, [], .none, false⟩,
  ⟨0x100008, [(0x10, 4096)], 0x8000FFFF, 0x0, 0x0, 0x0, 0x0, [], .none, true⟩,
  ⟨0x10000C, [(0x10, 4096)], 0x7FFF, 0x0, 0x0, 0x0, 0x0, [], .none, false⟩,
  ⟨0x200000, [(0x20, 65536)], 0x800001FF, 0x0, 0x0, 0x0, 0x0, [], .none, false⟩]

/-- Register rows, serai block, part 2. -/
def regRows_serai2 : List RegRow := [
  ⟨0x200004, [(0x20, 65536)], 0x7FFFFFF, 0x0, 0x0, 0x0, 0x0, [], .none, false⟩,
  ⟨0x200008, [(0x20, 65536)], 0x7FFFFFF, 0x0, 0x0, 0x0, 0x0, [], .none, false⟩,
  ⟨0x20000C, [(0x20, 65536)], 0xFFFFF, 0x0, 0x0, 0x0, 0x0, [], .none, false⟩,
  ⟨0x40000, [(0x800000, 2), (0x20, 32)], 0x1, 0x0, 0x0, 0x2, 0x0, [], .none, false⟩,
  ⟨0x40004, [(0x800000, 2), (0x20, 32)], 0x0, 0x0, 0x0, 0x0, 0x0, [], .none, false⟩,
  ⟨0x40008, [(0x800000, 2), (0x20, 32)], 0x0, 0x0, 0x0, 0x0, 0x0, [], .none, false⟩,
  ⟨0x4000C, [(0x800000, 2), (0x20, 32)], 0x0, 0x0, 0x0, 0x0, 0x0, [], .none, false⟩,
  ⟨0x40010, [(0x800000, 2), (0x20, 32)], 0xFFFFFFFF, 0x0, 0x0, 0x0, 0x186A0, [⟨31, 0, [(1, 4294967295)], 1⟩], .none, false⟩,
  ⟨0x41000, [(0x800000, 2)], 0xF0FFF, 0x0, 0x0, 0x0, 0xC0000, [], .none, false⟩,
  ⟨0x41004, [(0x800000, 2), (0x4, 15)], 0xF0FFF, 0x0, 0x0, 0x0, 0x0, [], .none, false⟩,
  ⟨0x41040, [(0x800000, 2)], 0x0, 0x0, 0x0, 0x0, 0x0, [], .none, false⟩,
  ⟨0x41044, [(0x800000, 2)], 0xFFFFFFFF, 0x0, 0x0, 0x0, 0x4E20, [⟨31, 0, [(1, 4294967295)], 1⟩], .none, false⟩,
  ⟨0x41048, [(0x800000, 2), (0x4, 2)], 0x0, 0x0, 0x0, 0x0, 0x0, [], .none, false⟩,
  ⟨0x500000, [(0x800000, 2), (0x40, 32)], 0xFD, 0x0, 0x0, 0x2, 0x8, [⟨3, 2, [(1, 2)], 1⟩], .none, false⟩,
  ⟨0x500004, [(0x800000, 2), (0x40, 32)], 0x0, 0x0, 0x0, 0x0, 0x0, [], .none, false⟩,
  ⟨0x500008, [(0x800000, 2), (0x40, 32)], 0x0, 0x0, 0x0, 0x0, 0x0, [], .none, false⟩,
  ⟨0x50000C, [(0x800000, 2), (0x40, 32)], 0x0, 0x0, 0x0, 0x0, 0x0, [], .none, false⟩,
  ⟨0x500010, [(0x800000, 2), (0x40, 32)], 0x0, 0x0, 0x0, 0x0, 0x0, [], .none, false⟩,
  ⟨0x501000, [(0x800000, 2), (0x20, 16)], 0xFFF, 0x0, 0x0, 0x1000, 0x0, [], .none, false⟩,
  ⟨0x501004, [(0x800000, 2), (0x20, 16)], 0x0, 0x0, 0x0, 0x0, 0x0, [], .none, false⟩]

/-- Register rows, serai block, part 3. -/
def regRows_serai3 : List RegRow := [
  ⟨0x501008, [(0x800000, 2), (0x20, 16)], 0xFFFFFFFF, 0x0, 0x0, 0x0, 0x186A0, [⟨31, 0, [(1, 4294967295)], 1⟩], .none, false⟩,
  ⟨0x50100C, [(0x800000, 2), (0x20, 16)], 0xFFFF, 0x0, 0x0, 0x0, 0x7D0, [⟨15, 0, [(1, 65535)], 1⟩], .none, false⟩,
  ⟨0x501010, [(0x800000, 2), (0x20, 16)], 0x0, 0x0, 0x0, 0x0, 0x0, [], .none, false⟩,
  ⟨0x501014, [(0x800000, 2), (0x20, 16)], 0x0, 0x0, 0x80000000, 0x0, 0x0, [], .none, false⟩,
  ⟨0x501018, [(0x800000, 2), (0x20, 16)], 0x0, 0x0, 0x0, 0x0, 0x0, [], .none, false⟩,
  ⟨0x502000, [], 0x0, 0x3F, 0x0, 0x100, 0x0, [], .own, false⟩,
  ⟨0x502080, [(0x800000, 2)], 0x0, 0x0, 0x0, 0x0, 0x0, [], .none, false⟩,
  ⟨0x502100, [(0x4, 64)], 0x3F, 0x0, 0x0, 0x0, 0x0, [], .none, false⟩]

/-- Register rows of the serai block. -/
def regRows_serai : List RegRow := regRows_serai0 ++ regRows_serai1 ++ regRows_serai2 ++ regRows_serai3

/-- Register rows, global block, part 0. CMP_SCRUB_CTL.INTERVAL takes every value, 0 too: R265 reserves none (DESIGN CHOICE, log
entry 67). -/
def regRows_global0 : List RegRow := [
  ⟨0x1000000, [], 0x0, 0x0, 0x0, 0x0, 0x0, [], .none, false⟩,
  ⟨0x1000010, [], 0x0, 0x0, 0x0, 0x0, 0x0, [], .none, false⟩,
  ⟨0x1000014, [], 0x0, 0x0, 0x0, 0x0, 0x0, [], .none, false⟩,
  ⟨0x1000018, [], 0xFFFF, 0x0, 0x0, 0x0, 0x0, [], .none, false⟩,
  ⟨0x1000020, [], 0x0, 0x0, 0x0, 0x0, 0x0, [], .none, false⟩,
  ⟨0x1000024, [], 0x0, 0x0, 0x0, 0x0, 0x0, [], .none, false⟩,
  ⟨0x1000028, [], 0x0, 0x0, 0x0, 0x1, 0x0, [], .none, false⟩,
  ⟨0x100002C, [], 0x0, 0x0, 0x0, 0x1, 0x0, [], .none, false⟩,
  ⟨0x1000030, [], 0x33FF, 0x0, 0x0, 0x10000, 0x0, [⟨13, 12, [(0, 2)], 1⟩], .none, false⟩,
  ⟨0x1000034, [], 0x0, 0x0, 0x0, 0x0, 0x0, [], .none, false⟩,
  ⟨0x1000038, [], 0x0, 0x0, 0x0, 0x0, 0x0, [], .none, false⟩,
  ⟨0x1000100, [], 0x0, 0x300, 0x0, 0x0, 0x0, [⟨9, 8, [(0, 1)], 1⟩], .ilv, false⟩,
  ⟨0x1000110, [(0x10, 4)], 0x0, 0x0, 0x0, 0x0, 0x0, [], .none, false⟩,
  ⟨0x1000104, [(0x10, 5)], 0x0, 0x0, 0x0, 0x0, 0x0, [], .none, false⟩,
  ⟨0x1000108, [(0x10, 5)], 0x0, 0x0, 0x0, 0x0, 0x0, [], .none, false⟩,
  ⟨0x1000200, [], 0xFFFFFF01, 0x0, 0x0, 0x0, 0x3E801, [], .none, false⟩,
  ⟨0x1000204, [], 0x0, 0x0, 0x0, 0x0, 0x0, [], .none, false⟩,
  ⟨0x1000208, [], 0x0, 0x0, 0x0, 0x0, 0x0, [], .none, false⟩,
  ⟨0x1000210, [(0x8, 16)], 0x0, 0x0, 0x0, 0x0, 0x0, [], .none, false⟩,
  ⟨0x1000214, [(0x8, 16)], 0x0, 0x0, 0x0, 0x0, 0xFE0000, [], .none, false⟩]

/-- Register rows, global block, part 1. -/
def regRows_global1 : List RegRow := [
  ⟨0x1000300, [], 0xFFFFFFFF, 0x0, 0x0, 0x0, 0x800040, [], .none, false⟩,
  ⟨0x1000304, [], 0xFFFF, 0x0, 0x0, 0x0, 0x100, [], .none, false⟩,
  ⟨0x1000400, [(0x4, 48)], 0x3, 0x0, 0x0, 0x0, 0x0, [], .none, false⟩,
  ⟨0x1001000, [(0x4, 16)], 0x80001FFF, 0x0, 0x0, 0x0, 0x0, [], .none, false⟩,
  ⟨0x1001040, [], 0x0, 0x0, 0x80000000, 0x0, 0x0, [], .none, false⟩,
  ⟨0x1001044, [], 0x0, 0x0, 0x0, 0x1, 0x0, [], .none, false⟩,
  ⟨0x1001100, [(0x20, 16), (0x8, 4)], 0x87FFFFFF, 0x0, 0x0, 0x0, 0x0, [], .none, false⟩,
  ⟨0x1001104, [(0x20, 16), (0x8, 4)], 0x7FFFFFF, 0x0, 0x0, 0x0, 0x0, [], .none, false⟩,
  ⟨0x1001400, [(0x8, 8)], 0x87FFFFFF, 0x0, 0x0, 0x0, 0x0, [], .none, false⟩,
  ⟨0x1001404, [(0x8, 8)], 0x7FFFFFF, 0x0, 0x0, 0x0, 0x0, [], .none, false⟩,
  ⟨0x1080000, [(0x10, 16)], 0x8001FFFF, 0x0, 0x0, 0x0, 0x0, [], .none, false⟩,
  ⟨0x1080004, [(0x10, 16)], 0x0, 0x0, 0x0, 0x0, 0x0, [], .none, false⟩,
  ⟨0x1080008, [(0x10, 16)], 0xFFFFFFFF, 0x0, 0x0, 0x0, 0x186A0, [⟨31, 0, [(1, 4294967295)], 1⟩], .none, false⟩,
  ⟨0x1100000, [(0x40, 122), (0x4, 16)], 0xFFFFFFFF, 0x0, 0x0, 0x0, 0x0, [], .none, false⟩,
  ⟨0x1102000, [], 0x0, 0x0, 0x0, 0x1, 0x0, [], .none, false⟩,
  ⟨0x1102004, [], 0x0, 0x0, 0x80000000, 0x0, 0x0, [], .none, false⟩]

/-- Register rows of the global block. -/
def regRows_global : List RegRow := regRows_global0 ++ regRows_global1

/-- Register rows, core block, part 0. -/
def regRows_core0 : List RegRow := [
  ⟨0x1400000, [(0x40, 768)], 0x3FF18, 0x0, 0x0, 0x7, 0x0, [], .none, false⟩,
  ⟨0x1400004, [(0x40, 768)], 0x3FFFFFC0, 0x0, 0x0, 0x0, 0x20000000, [⟨29, 19, [(1, 1024)], 1⟩], .none, false⟩,
  ⟨0x1400008, [(0x40, 768)], 0x0, 0x0, 0x0, 0x0, 0x0, [], .none, false⟩,
  ⟨0x140000C, [(0x40, 768)], 0xFFFFFFFF, 0x0, 0x0, 0x0, 0x186A0, [⟨31, 0, [(1, 4294967295)], 1⟩], .none, false⟩,
  ⟨0x1400010, [(0x40, 768)], 0x0, 0x0, 0x80000000, 0x0, 0x3FF00000, [], .none, false⟩,
  ⟨0x1400014, [(0x40, 768)], 0x0, 0x0, 0x0, 0x0, 0x0, [], .none, false⟩,
  ⟨0x1400018, [(0x40, 768)], 0x1, 0x0, 0x0, 0x0, 0x1, [], .none, false⟩,
  ⟨0x140001C, [(0x40, 768)], 0xF1FFF, 0x0, 0x0, 0x0, 0x0, [⟨12, 0, [(0, 6142)], 2⟩], .none, false⟩,
  ⟨0x1400020, [(0x40, 768)], 0x0, 0x0, 0x0, 0x0, 0x0, [], .none, false⟩,
  ⟨0x1400024, [(0x40, 768)], 0xFFFFFFFF, 0x0, 0x0, 0x0, 0x186A0, [⟨31, 0, [(1, 4294967295)], 1⟩], .none, false⟩,
  ⟨0x1400028, [(0x40, 768)], 0x0, 0x0, 0x80000000, 0x0, 0x0, [], .none, false⟩,
  ⟨0x140002C, [(0x40, 768)], 0x0, 0x0, 0x0, 0x0, 0x0, [], .none, false⟩,
  ⟨0x1400030, [(0x40, 768)], 0x0, 0x0, 0x0, 0x0, 0x0, [], .none, false⟩,
  ⟨0x1400034, [(0x40, 768)], 0x711FFF, 0x0, 0x0, 0x0, 0x700000, [⟨12, 0, [(0, 6140)], 4⟩], .none, false⟩,
  ⟨0x1400038, [(0x40, 768)], 0xFFFFFFFF, 0x0, 0x0, 0x0, 0x2710, [⟨31, 0, [(1, 4294967295)], 1⟩], .none, false⟩,
  ⟨0x140003C, [(0x40, 768)], 0x0, 0x0, 0x0, 0x0, 0x0, [], .none, false⟩]

/-- Register rows of the core block. -/
def regRows_core : List RegRow := regRows_core0

/-- Register rows, unit block, part 0. -/
def regRows_unit0 : List RegRow := [
  ⟨0x2000000, [(0x100000, 8)], 0x0, 0x0, 0x0, 0x0, 0x0, [], .none, false⟩,
  ⟨0x2000004, [(0x100000, 8)], 0x0, 0xFFFFF, 0x0, 0x0, 0x35F55, [], .hbm, false⟩,
  ⟨0x2000008, [(0x100000, 8)], 0x0, 0xFFFFFF, 0x0, 0x0, 0x605C58, [], .hbm, false⟩,
  ⟨0x2000010, [(0x100000, 8), (0x8, 3)], 0x0, 0xFFFFFFFF, 0x0, 0x0, 0x0, [], .hbm, false⟩,
  ⟨0x2000014, [(0x100000, 8), (0x8, 3)], 0x0, 0xFFFFFFFF, 0x0, 0x0, 0x0, [], .hbm, true⟩,
  ⟨0x2000028, [(0x100000, 8), (0x8, 3)], 0x0, 0xFFFFFFFF, 0x0, 0x0, 0x0, [], .hbm, false⟩,
  ⟨0x200002C, [(0x100000, 8), (0x8, 3)], 0x0, 0xFFFFFFFF, 0x0, 0x0, 0x0, [], .hbm, true⟩,
  ⟨0x2000040, [(0x100000, 8)], 0x0, 0x0, 0x0, 0x1, 0x0, [], .none, false⟩,
  ⟨0x2000044, [(0x100000, 8)], 0x0, 0x0, 0x0, 0x1, 0x0, [], .none, false⟩,
  ⟨0x2000050, [(0x100000, 8)], 0x1, 0x0, 0x0, 0x0, 0x1, [], .none, false⟩,
  ⟨0x2000054, [(0x100000, 8)], 0xFFFF, 0x0, 0x0, 0x0, 0x0, [], .none, false⟩,
  ⟨0x2000058, [(0x100000, 8)], 0xFFFF, 0x0, 0x0, 0x0, 0xFFFF, [], .none, false⟩,
  ⟨0x2000060, [(0x100000, 8)], 0xFFFFFFF, 0x0, 0x0, 0x0, 0x0, [], .none, false⟩,
  ⟨0x2000064, [(0x100000, 8)], 0xFFFFFFFF, 0x0, 0x0, 0x0, 0x0, [], .none, false⟩,
  ⟨0x2000068, [(0x100000, 8)], 0x0, 0x0, 0x0, 0x9, 0x0, [], .none, false⟩,
  ⟨0x2000080, [(0x100000, 8), (0x8, 8)], 0xB7FFFFFF, 0x0, 0x0, 0x0, 0x10000000, [⟨29, 28, [(0, 2)], 1⟩], .none, false⟩,
  ⟨0x2000084, [(0x100000, 8), (0x8, 8)], 0x7FFFFFF, 0x0, 0x0, 0x0, 0x0, [], .none, false⟩,
  ⟨0x20000C0, [(0x100000, 8)], 0xFFFFFF01, 0x0, 0x0, 0x0, 0x6401, [⟨31, 8, [(1, 16777215)], 1⟩], .none, false⟩,
  ⟨0x20000C4, [(0x100000, 8)], 0x0, 0x0, 0x0, 0x0, 0x0, [], .none, false⟩,
  ⟨0x20000C8, [(0x100000, 8)], 0x0, 0x0, 0x0, 0x0, 0x0, [], .none, false⟩]

/-- Register rows, unit block, part 1. -/
def regRows_unit1 : List RegRow := [
  ⟨0x20000CC, [(0x100000, 8)], 0x0, 0x0, 0x0, 0x0, 0x0, [], .none, false⟩,
  ⟨0x2000100, [(0x100000, 8), (0x8, 16)], 0x0, 0x0, 0x0, 0x0, 0x0, [], .none, false⟩,
  ⟨0x2000104, [(0x100000, 8), (0x8, 16)], 0x0, 0x0, 0x0, 0x0, 0xFE0000, [], .none, false⟩,
  ⟨0x2000200, [(0x100000, 8), (0x4, 16)], 0xFFF, 0x0, 0x0, 0x0, 0x0, [], .none, false⟩,
  ⟨0x2000240, [(0x100000, 8)], 0x0, 0x0, 0x0, 0x0, 0x0, [], .none, false⟩]

/-- Register rows of the unit block. -/
def regRows_unit : List RegRow := regRows_unit0 ++ regRows_unit1

/-- Register rows, drover block, part 0. -/
def regRows_drover0 : List RegRow := [
  ⟨0x3000000, [], 0x0, 0x0, 0x0, 0x0, 0x7891094, [], .none, false⟩,
  ⟨0x3000004, [], 0x0, 0x0, 0x0, 0x0, 0x0, [], .none, false⟩,
  ⟨0x3000008, [], 0x0, 0x3FF, 0x0, 0x0, 0x3FF, [], .drv, false⟩,
  ⟨0x300000C, [], 0x0, 0x0, 0x0, 0x1, 0x0, [], .none, false⟩,
  ⟨0x3000010, [], 0x0, 0x0, 0x0, 0x0, 0x30000, [], .none, false⟩,
  ⟨0x3000014, [], 0x0, 0xF, 0x0, 0x0, 0x0, [], .drv, false⟩,
  ⟨0x3000018, [], 0xFFFFFFFF, 0x0, 0x0, 0x0, 0x186A0, [⟨31, 0, [(1, 4294967295)], 1⟩], .none, false⟩,
  ⟨0x300001C, [], 0x0, 0x0, 0x0, 0x0, 0x0, [], .none, false⟩,
  ⟨0x3000020, [], 0x0, 0x0, 0x0, 0x0, 0x0, [], .none, false⟩,
  ⟨0x3000024, [], 0x0, 0x0, 0x0, 0x0, 0x0, [], .none, false⟩,
  ⟨0x3000028, [], 0x0, 0x0, 0x0, 0x0, 0x0, [], .none, false⟩,
  ⟨0x3000100, [(0x10, 32)], 0x0, 0x0, 0x80000000, 0x0, 0x0, [], .none, false⟩,
  ⟨0x3000104, [(0x10, 32)], 0x0, 0x0, 0x0, 0x0, 0x0, [], .none, false⟩,
  ⟨0x3000108, [(0x10, 32)], 0x0, 0x0, 0x0, 0x0, 0x0, [], .none, false⟩,
  ⟨0x300010C, [(0x10, 32)], 0x0, 0x0, 0x0, 0x0, 0x0, [], .none, false⟩,
  ⟨0x3000300, [(0x4, 16)], 0x807FFFFF, 0x0, 0x0, 0x0, 0x3FFC0, [⟨4, 0, [(0, 28)], 1⟩], .none, false⟩,
  ⟨0x3001000, [(0x100, 4)], 0x7FF, 0x0, 0x0, 0x0, 0x540, [⟨10, 5, [(30, 30), (36, 36), (42, 44)], 1⟩], .none, false⟩,
  ⟨0x3001004, [(0x100, 4)], 0xFFFFFFFF, 0x0, 0x0, 0x0, 0x0, [], .none, false⟩,
  ⟨0x3001008, [(0x100, 4)], 0xFFFF000F, 0x0, 0x0, 0x0, 0x0, [⟨3, 0, [(0, 8)], 1⟩], .none, false⟩,
  ⟨0x300100C, [(0x100, 4)], 0xFFFFFFFF, 0x0, 0x0, 0x0, 0x0, [], .none, false⟩]

/-- Register rows, drover block, part 1. -/
def regRows_drover1 : List RegRow := [
  ⟨0x3001010, [(0x100, 4)], 0xFFFF, 0x0, 0x0, 0x0, 0x0, [], .none, true⟩,
  ⟨0x3001014, [(0x100, 4)], 0xFFFFFFFF, 0x0, 0x0, 0x0, 0x0, [], .none, false⟩,
  ⟨0x3001018, [(0x100, 4)], 0xFFFF, 0x0, 0x0, 0x0, 0x0, [], .none, true⟩,
  ⟨0x300101C, [(0x100, 4)], 0xFFFFFFFF, 0x0, 0x0, 0x0, 0x0, [], .none, false⟩,
  ⟨0x3001020, [(0x100, 4)], 0xFFFFFFFF, 0x0, 0x0, 0x0, 0x5F5E100, [], .none, false⟩,
  ⟨0x3001024, [(0x100, 4)], 0x0, 0x0, 0x0, 0x0, 0x0, [], .none, false⟩,
  ⟨0x3002000, [(0x400, 2)], 0x3, 0x0, 0x0, 0x0, 0x0, [], .none, false⟩,
  ⟨0x3002004, [(0x400, 2)], 0xFFFFFFFF, 0x0, 0x0, 0x0, 0x0, [], .none, false⟩,
  ⟨0x3002008, [(0x400, 2)], 0xFFFF, 0x0, 0x0, 0x0, 0x0, [], .none, true⟩,
  ⟨0x300200C, [(0x400, 2)], 0xFFFF, 0x0, 0x0, 0x0, 0x0, [], .none, false⟩,
  ⟨0x3002010, [(0x400, 2)], 0x0, 0x0, 0x0, 0x0, 0x0, [], .none, false⟩,
  ⟨0x3002014, [(0x400, 2)], 0x0, 0x0, 0x0, 0x0, 0x0, [], .none, false⟩,
  ⟨0x3002018, [(0x400, 2)], 0x0, 0x0, 0x0, 0x0, 0x0, [], .none, false⟩,
  ⟨0x3002100, [(0x400, 2), (0x10, 12)], 0xFFFFFFFF, 0x0, 0x0, 0x0, 0x0, [], .none, false⟩,
  ⟨0x3002104, [(0x400, 2), (0x10, 12)], 0x800FFFFF, 0x0, 0x0, 0x0, 0x40000, [⟨19, 16, [(4, 12)], 1⟩], .none, false⟩,
  ⟨0x3002108, [(0x400, 2), (0x10, 12)], 0xFFFF, 0x0, 0x0, 0x0, 0x0, [], .none, false⟩,
  ⟨0x300210C, [(0x400, 2), (0x10, 12)], 0x0, 0x0, 0x0, 0x0, 0x0, [], .none, false⟩,
  ⟨0x30021C0, [(0x400, 2)], 0x7F7F01, 0x0, 0x0, 0x2, 0x10100, [⟨14, 8, [(1, 64)], 1⟩, ⟨22, 16, [(1, 64)], 1⟩], .none, false⟩,
  ⟨0x30021C4, [(0x400, 2)], 0xFFFFFFFF, 0x0, 0x0, 0x0, 0x0, [], .none, false⟩,
  ⟨0x30021C8, [(0x400, 2)], 0xFFFFFFFF, 0x0, 0x0, 0x0, 0x0, [], .none, true⟩]

/-- Register rows, drover block, part 2. DRV_ETH_GCL.INTERVAL stores a written 0, which R407 calls reserved and gives a rule for
(DESIGN CHOICE, log entry 68). -/
def regRows_drover2 : List RegRow := [
  ⟨0x30021CC, [(0x400, 2)], 0xFFFFFFFF, 0x0, 0x0, 0x0, 0x0, [], .none, false⟩,
  ⟨0x30021D0, [(0x400, 2)], 0xFFFFFFFF, 0x0, 0x0, 0x0, 0x0, [], .none, true⟩,
  ⟨0x3002200, [(0x400, 2), (0x100, 2), (0x4, 64)], 0xFFFFFFFF, 0x0, 0x0, 0x0, 0x1FF, [], .none, false⟩,
  ⟨0x3003000, [(0x400, 4)], 0x7, 0x0, 0x0, 0x0, 0x4, [], .none, false⟩,
  ⟨0x3003004, [(0x400, 4)], 0x7F7FFFFF, 0x0, 0x0, 0x0, 0x0, [], .none, false⟩,
  ⟨0x3003008, [(0x400, 4)], 0x3F3FFFFF, 0x0, 0x0, 0x0, 0x0, [], .none, false⟩,
  ⟨0x300300C, [(0x400, 4)], 0xFF, 0x0, 0x0, 0x0, 0x0, [], .none, false⟩,
  ⟨0x3003010, [(0x400, 4)], 0x0, 0x0, 0x0, 0x0, 0x3, [], .none, false⟩,
  ⟨0x3003040, [(0x400, 4), (0x8, 32)], 0xBFFFFFFF, 0x0, 0x0, 0x0, 0x0, [], .none, false⟩,
  ⟨0x3003044, [(0x400, 4), (0x8, 32)], 0x1FFFFFFF, 0x0, 0x0, 0x0, 0x0, [], .none, false⟩,
  ⟨0x3003140, [(0x400, 4), (0x20, 16)], 0xFFFFFFFF, 0x0, 0x0, 0x0, 0x0, [], .none, false⟩,
  ⟨0x3003144, [(0x400, 4), (0x20, 16)], 0x17F, 0x0, 0x0, 0x200, 0x0, [], .none, false⟩,
  ⟨0x3003148, [(0x400, 4), (0x20, 16)], 0xFFFFFFFF, 0x0, 0x0, 0x0, 0x0, [], .none, false⟩,
  ⟨0x300314C, [(0x400, 4), (0x20, 16)], 0xFFFFFFFF, 0x0, 0x0, 0x0, 0x0, [], .none, true⟩,
  ⟨0x3003150, [(0x400, 4), (0x20, 16)], 0xFFFFFFFF, 0x0, 0x0, 0x0, 0xF4240, [⟨31, 0, [(1, 4294967295)], 1⟩], .none, false⟩,
  ⟨0x3003154, [(0x400, 4), (0x20, 16)], 0xFFFFFFFF, 0x0, 0x0, 0x0, 0x0, [], .none, false⟩,
  ⟨0x3003158, [(0x400, 4), (0x20, 16)], 0xFFFF, 0x0, 0x0, 0x0, 0x0, [], .none, true⟩,
  ⟨0x3003340, [(0x400, 4)], 0x0, 0x0, 0x0, 0x0, 0x0, [], .none, false⟩,
  ⟨0x3003344, [(0x400, 4)], 0x0, 0x0, 0x0, 0x0, 0x0, [], .none, false⟩,
  ⟨0x3003348, [(0x400, 4)], 0x0, 0x0, 0x0, 0x0, 0x0, [], .none, false⟩]

/-- Register rows, drover block, part 3. -/
def regRows_drover3 : List RegRow := [
  ⟨0x300334C, [(0x400, 4)], 0x0, 0x0, 0x0, 0x0, 0x0, [], .none, false⟩,
  ⟨0x3003350, [(0x400, 4), (0x4, 16)], 0x0, 0x0, 0x0, 0x0, 0x0, [], .none, false⟩,
  ⟨0x3003390, [(0x400, 4)], 0x0, 0x0, 0x0, 0x1, 0x0, [], .none, false⟩,
  ⟨0x3003394, [(0x400, 4)], 0x0, 0x0, 0x0, 0x0, 0x0, [], .none, false⟩,
  ⟨0x3004000, [(0x4, 16)], 0x0, 0xFFFBFFFF, 0x0, 0x0, 0x0, [⟨9, 0, [(0, 1000)], 1⟩], .drv, false⟩,
  ⟨0x3004040, [], 0x0, 0x0, 0x0, 0x0, 0x0, [], .none, false⟩,
  ⟨0x3004044, [], 0x0, 0x0, 0xFFFF, 0x0, 0x0, [], .none, false⟩,
  ⟨0x3004048, [], 0x0, 0x0, 0x0, 0x0, 0x0, [], .none, false⟩,
  ⟨0x300404C, [], 0x0, 0xFFFF, 0x0, 0x0, 0x3E8, [⟨15, 0, [(1, 65535)], 1⟩], .drv, false⟩,
  ⟨0x3004050, [], 0x0, 0x0, 0x0, 0x0, 0x0, [], .none, false⟩,
  ⟨0x3004054, [], 0x0, 0x0, 0x0, 0x0, 0x0, [], .none, false⟩,
  ⟨0x3004058, [], 0x0, 0x0, 0x0, 0x0, 0x0, [], .none, false⟩,
  ⟨0x3005000, [(0x40, 4)], 0x1, 0xF6, 0x0, 0x0, 0x0, [⟨2, 1, [(0, 1)], 1⟩], .drv, false⟩,
  ⟨0x3005004, [(0x40, 4)], 0xFFFFFFFF, 0x0, 0x0, 0x0, 0x0, [], .none, false⟩,
  ⟨0x3005008, [(0x40, 4)], 0x0, 0x0, 0x0, 0x0, 0x0, [], .none, false⟩,
  ⟨0x300500C, [(0x40, 4)], 0x0, 0x0, 0x0, 0x0, 0x0, [], .none, false⟩,
  ⟨0x3005010, [(0x40, 4)], 0x0, 0x0, 0x0, 0x0, 0x0, [], .none, false⟩,
  ⟨0x3005014, [(0x40, 4)], 0x0, 0x0, 0xB, 0x0, 0x4, [], .none, false⟩,
  ⟨0x3005018, [(0x40, 4)], 0x0, 0x0, 0x0, 0x0, 0x0, [], .none, false⟩,
  ⟨0x300501C, [(0x40, 4)], 0x0, 0x0, 0x0, 0x0, 0x0, [], .none, false⟩]

/-- Register rows, drover block, part 4. -/
def regRows_drover4 : List RegRow := [
  ⟨0x3005100, [], 0xFFFFFFFF, 0x0, 0x0, 0x0, 0x0, [], .none, false⟩,
  ⟨0x3005104, [], 0xFFFFFFFF, 0x0, 0x0, 0x0, 0x0, [], .none, true⟩,
  ⟨0x3005108, [], 0x0, 0x0, 0x2, 0x0, 0x0, [], .none, false⟩,
  ⟨0x3006000, [(0x40, 8)], 0x1, 0x6, 0x0, 0x0, 0x0, [], .drv, false⟩,
  ⟨0x3006004, [(0x40, 8)], 0x0, 0xFFFFFFFF, 0x0, 0x0, 0x0, [], .drv, false⟩,
  ⟨0x3006008, [(0x40, 8)], 0x0, 0xFFFF, 0x0, 0x0, 0x0, [], .drv, true⟩,
  ⟨0x300600C, [(0x40, 8)], 0x0, 0xF, 0x0, 0x0, 0x0, [⟨3, 0, [(0, 12)], 1⟩], .drv, false⟩,
  ⟨0x3006010, [(0x40, 8)], 0x0, 0x0, 0x0, 0x0, 0x0, [], .none, false⟩,
  ⟨0x3006014, [(0x40, 8)], 0x0, 0xFFFFFFFF, 0x0, 0x0, 0x7FFF8000, [], .drv, false⟩,
  ⟨0x3006018, [(0x40, 8)], 0x0, 0x0, 0xB, 0x0, 0x4, [], .none, false⟩,
  ⟨0x3006200, [], 0x0, 0xFFFFFFFF, 0x0, 0x0, 0x0, [], .drv, false⟩,
  ⟨0x3006204, [], 0x0, 0xFFFFFFFF, 0x0, 0x0, 0x0, [], .drv, true⟩,
  ⟨0x3006208, [], 0x0, 0xFFFFFFFF, 0x0, 0x0, 0x1388, [⟨31, 0, [(5000, 1000000)], 100⟩], .drv, false⟩,
  ⟨0x300620C, [], 0x1, 0x0, 0x0, 0x0, 0x0, [], .none, false⟩,
  ⟨0x3007000, [(0x4, 8)], 0x0, 0xFF01FF07, 0x0, 0x0, 0xA006400, [], .drv, false⟩,
  ⟨0x3007020, [], 0xFF, 0x0, 0x0, 0x0, 0x0, [], .none, false⟩,
  ⟨0x3007024, [], 0x0, 0x0, 0x0, 0x1, 0x0, [], .none, false⟩,
  ⟨0x3007040, [(0x4, 8)], 0x0, 0x0, 0x3C, 0x0, 0x2, [], .none, false⟩,
  ⟨0x3008000, [(0x20, 4)], 0x0, 0x1, 0x0, 0x0, 0x0, [], .drv, false⟩,
  ⟨0x3008004, [(0x20, 4)], 0x0, 0xFFFFFFFF, 0x0, 0x0, 0x1, [], .drv, false⟩]

/-- Register rows, drover block, part 5. -/
def regRows_drover5 : List RegRow := [
  ⟨0x3008008, [(0x20, 4)], 0x0, 0xFFFFFFFF, 0x0, 0x0, 0x0, [], .drv, false⟩,
  ⟨0x300800C, [(0x20, 4)], 0x0, 0xFFFF, 0x0, 0x0, 0x0, [], .drv, true⟩,
  ⟨0x3008010, [(0x20, 4)], 0x0, 0x0, 0x0, 0x0, 0x0, [], .none, false⟩,
  ⟨0x3008100, [(0x20, 4)], 0x0, 0x1, 0x0, 0x0, 0x0, [], .drv, false⟩,
  ⟨0x3008104, [(0x20, 4)], 0x0, 0x0, 0x0, 0x0, 0x0, [], .none, false⟩,
  ⟨0x3008108, [(0x20, 4)], 0x0, 0x0, 0x0, 0x0, 0x0, [], .none, false⟩,
  ⟨0x300810C, [(0x20, 4)], 0x0, 0xFFFFFFFF, 0x0, 0x0, 0xF4240, [⟨31, 0, [(1, 4294967295)], 1⟩], .drv, false⟩,
  ⟨0x3008110, [(0x20, 4)], 0x0, 0x0, 0x0, 0x0, 0x0, [], .none, false⟩,
  ⟨0x3008114, [(0x20, 4)], 0x0, 0x0, 0x0, 0x0, 0x0, [], .none, false⟩,
  ⟨0x3008200, [(0x20, 8)], 0x1, 0xFFFFFFF0, 0x0, 0x0, 0x3020, [], .drv, false⟩,
  ⟨0x3008204, [(0x20, 8)], 0x0, 0xFFFFFFFF, 0x0, 0x0, 0x989680, [⟨31, 0, [(1000, 4294967295)], 1⟩], .drv, false⟩,
  ⟨0x3008208, [(0x20, 8)], 0x0, 0xFFFFFFFF, 0x0, 0x0, 0x0, [], .drv, false⟩,
  ⟨0x300820C, [(0x20, 8)], 0x0, 0x0, 0x0, 0x0, 0x0, [], .none, false⟩,
  ⟨0x3008210, [(0x20, 8)], 0x0, 0x0, 0x0, 0x0, 0x0, [], .none, false⟩,
  ⟨0x3008300, [], 0x0, 0xFFFF1FFF, 0x0, 0x0, 0x64000000, [⟨12, 10, [(0, 4)], 1⟩, ⟨31, 24, [(1, 255)], 1⟩], .drv, false⟩,
  ⟨0x3008304, [], 0x0, 0x0, 0x6, 0x0, 0x0, [], .none, false⟩,
  ⟨0x3008310, [(0x4, 4)], 0x0, 0xFF, 0x0, 0x0, 0xFF, [], .drv, false⟩,
  ⟨0x3008320, [], 0x0, 0x0, 0xF, 0x0, 0x0, [], .none, false⟩]

/-- Register rows of the drover block. -/
def regRows_drover : List RegRow := regRows_drover0 ++ regRows_drover1 ++ regRows_drover2 ++ regRows_drover3 ++ regRows_drover4 ++ regRows_drover5

/-- Whether offset `d` from a row's base is one of its instances. -/
def dimHit : List (Nat × Nat) → Nat → Bool
  | [], d => d == 0
  | (st, n) :: r, d => decide (d / st < n) && dimHit r (d % st)

/-- Whether a row holds the register at an offset. -/
def RegRow.holds (r : RegRow) (off : Nat) : Bool := decide (r.base ≤ off) && dimHit r.dims (off - r.base)

/-- The row of the register at a BAR0 offset, none where the offset is reserved (R38, R45). -/
def regRow (off : Nat) : Option RegRow :=
  let rows :=
    if off < 0x1000000 then regRows_serai else if off < 0x1400000 then regRows_global
    else if off < 0x2000000 then regRows_core else if off < 0x3000000 then regRows_unit else regRows_drover
  rows.find? fun r => r.holds off

/-- Number of core rows (R4, R17). -/
def Package.rows (p : Package) : Nat := if p.variant = .bm384g then 12 else 24

/-- Number of cores (R44). -/
def Package.nCores (p : Package) : Nat := p.rows * 32

/-- Number of blocks (R18, R44). -/
def Package.nBlocks (p : Package) : Nat := p.rows * 2

/-- Number of memory controllers (R44). -/
def Package.nUnits (p : Package) : Nat := if p.variant = .bm384g then 4 else 8

/-- Number of Serai dies (R4). -/
def Package.nSerai (p : Package) : Nat := if p.variant = .bm384g then 1 else 2

/-- Whether the Drover die is present (R4). -/
def Package.hasDrover (p : Package) : Bool := decide (p.variant ≠ .bm768n)

/-- Whether the context translation unit is present (R40, R44). -/
def Package.hasCtu (p : Package) : Bool := decide (p.variant ≠ .bm384g)

/-- SRA_CAP by variant, with the HOST1 strap on parts with two Serai dies (R40, R43). -/
def Package.sraCap (p : Package) : Word :=
  if p.variant = .bm384g then 0x10102A01 else if p.host1 then 0x10604C0E else 0x10604C06

/-- CMP_CAP by variant (R41, R43). -/
def Package.cmpCap (p : Package) : Word :=
  match p.variant with
  | .bm768 => 0x01221C18
  | .bm768n => 0x00221C18
  | .bm384g => 0x01521C0C

/-- HBM_STAT.KIND of a unit (R264): GDDR7, or HBM3 where the board fits it, else HBM3E. -/
def Package.unitKind (p : Package) (u : Nat) : Nat :=
  if p.variant = .bm384g then 2 else if bit p.hbm3 u then 1 else 0

/-- Word 0 of CMP_TIER0 (R236, R265): RATE is the lowest unit rate. -/
def Package.tier0 (p : Package) : Word :=
  if p.variant = .bm384g then 0x02000042 else if p.hbm3 = 0 then 0x04CC0081 else 0x03330081

/-- The reset value that a variant, a unit or a strap sets in place of the table's (R40 to R43, R236, R244, R245,
R264, R265, R346, R365). -/
def Package.specialReset (p : Package) (off : Nat) : Option Word :=
  if off = Reg.sraCap then some p.sraCap
  else if off = Reg.cmpCap then some p.cmpCap
  else if off = Reg.cmpTimeRate then some (if p.hasDrover then 0x10000 else 0)
  else if off = Reg.sraIso then some (if p.hasCtu then 1 else 0)
  else if off = Reg.lnkChip then some (p.chipStrap.setWidth 32)
  else if off = Reg.cmpTier0W0 then some p.tier0
  else if off = Reg.cmpTierW2 0 then some (if p.variant = .bm384g then 16 else 24)
  else if 0x1000110 ≤ off && off < 0x1000150 then
    let n := (off - 0x1000110) / 0x10
    if off % 0x10 = 4 then some (BitVec.ofNat 32 (0x1000 + 0x100 * n))
    else if off % 0x10 = 0 && decide (n < 2 * p.nSerai) then some 0x10 else none
  else if 0x2000000 ≤ off && off < 0x2800000 then
    let u := (off - 0x2000000) / 0x100000
    let o := off % 0x100000
    if o = 0 then some (BitVec.ofNat 32 (2 * p.unitKind u))
    else if o = 0x14 then some 0x80000000
    else if o = 0x18 ∨ o = 0x1C then some 0x80000000
    else if o = 0x20 ∨ o = 0x24 then some 0x80008000
    else if o = 0x28 ∨ o = 0x2C then some 0x88888888
    else if o = 0x30 ∨ o = 0x34 then some 0xAAAAAAAA
    else if o = 0x38 ∨ o = 0x3C then some 0xEEEEEEEE
    else none
  else none

/-- The reset value of the register at an offset; 0 where there is none. -/
def Package.resetWord (p : Package) (off : Nat) : Word :=
  match p.specialReset off with
  | some w => w
  | none => match regRow off with
    | some r => r.rst
    | none => 0

/-- The stored value of a register. -/
def reg (s : State) (off : Nat) : Word := sget s.regs off (s.pkg.resetWord off)

/-- A register set to a value, whatever its access codes: what the hardware itself writes. -/
def setReg (s : State) (off : Nat) (v : Word) : State := { s with regs := sput s.regs off v }

/-- A field of a register as a number. -/
def fld (s : State) (off hi lo : Nat) : Nat := bits (reg s off) hi lo

/-- One bit of a register. -/
def flag (s : State) (off i : Nat) : Bool := bit (reg s off) i

/-- A field of a register set to the low bits of a number. -/
def setFld (s : State) (off hi lo v : Nat) : State := setReg s off (putBits (reg s off) hi lo v)

/-- One bit of a register set. -/
def setFlag (s : State) (off i : Nat) (v : Bool) : State := setReg s off (putBit (reg s off) i v)

/-- A two-word register as a number, lower word first (R13). -/
def reg64 (s : State) (off : Nat) : Nat := (reg s off).toNat + 2 ^ 32 * (reg s (off + 4)).toNat

/-- A two-word register set. -/
def setReg64 (s : State) (off v : Nat) : State :=
  setReg (setReg s off (BitVec.ofNat 32 v)) (off + 4) (BitVec.ofNat 32 (v / 2 ^ 32))

/-- A 48-bit address held in a two-word register. -/
def regAddr (s : State) (off : Nat) : Nat := (reg s off).toNat + 2 ^ 32 * bits (reg s (off + 4)) 15 0

/-- A count of 32 bits plus one, staying at its largest value. -/
def countSat (s : State) (off : Nat) : State := setReg s off (satInc (reg s off))

/-- A count of 32 bits plus one, wrapping. -/
def countWrap (s : State) (off : Nat) : State := setReg s off (reg s off + 1)

/-- A count held in a field plus one, staying at its largest value. -/
def countFld (s : State) (off hi lo : Nat) : State :=
  setFld s off hi lo (Nat.min (fld s off hi lo + 1) (2 ^ (hi + 1 - lo) - 1))

end Sys2Proof.Machine
end

