-- ==== Sys2Proof/Machine/Ops.lean ====
section
/-! DEFINITION. The named operations every meaning is built from: time, the memories with their poison, tenancy, threads
and their registers, alerts and interrupt lines, taking a trap and returning from one. -/

namespace Sys2Proof.Machine

/-! ### Time -/

/-- The device time base in nanoseconds (R29). -/
def now (s : State) : Nat := s.tb / 2 ^ 32

/-- The rate trim after its limit (R30). -/
def trimAdj (s : State) : Int :=
  let a := (BitVec.ofNat 16 (fld s Reg.cmpTimeRate 15 0)).toInt
  max (-5000) (min 5000 a)

/-- What the master adds in one courier cycle, in units of 2^-32 ns: N is ADJ × 2^32 / 10^7 rounded to the nearest
integer (R30). -/
def timeIncrement (s : State) : Nat := (2 ^ 32 + (trimAdj s * 2 ^ 32 + 5000000) / 10000000).toNat

/-- One cycle of the courier clock: the time base counts unless package POR holds it at 0 (R29, R32; log entry 2). -/
def tick (s : State) : State :=
  if s.pkg.pwrok then { s with tb := (s.tb + timeIncrement s) % 2 ^ 96 } else s

/-! ### Presence -/

/-- The housekeeping core or the lockstep pair of the Drover (R371). -/
def isDrvCore (c : Nat) : Bool := c == Config.drvPair || c == Config.drvHk

/-- Whether the part has core `c` (R44, R371). -/
def coreExists (s : State) (c : Nat) : Bool := decide (c < s.pkg.nCores) || (isDrvCore c && s.pkg.hasDrover)

/-- The package is out of POR and out of PACKAGE reset (R32, R431). -/
def partUp (s : State) : Bool := s.pkg.pwrok && s.pkg.perst

/-- The Drover runs (R432, R436). -/
def drvUp (s : State) : Bool := s.pkg.hasDrover && !s.drv.por && !s.drv.resetting

/-- The die of a core is out of reset. -/
def dieUp (s : State) (c : Nat) : Bool := if isDrvCore c then drvUp s else partUp s && !s.pkg.slumber

/-- The block of a core (R18). -/
def blockOf (c : Nat) : Nat := c / 128 * 8 + c % 32 / 4

/-- The power state of a block: 0 RUN, 1 NAP, 2 DOZE, 3 OFF (R445). -/
def blockState (s : State) (b : Nat) : Nat := fld s (Reg.cmpBlkPwr b) 5 4

/-- A block in NAP wakes: a DISPATCH or a convoy formation names it (R439). -/
def wakeBlock (s : State) (b : Nat) : State :=
  if blockState s b = 1 then setReg s (Reg.cmpBlkPwr b) (reg s (Reg.cmpBlkPwr b) &&& 0xFF00) else s

/-- Whether a block's READY bit is set (R427). -/
def blockReady (s : State) (b : Nat) : Bool :=
  if b < 32 then flag s Reg.cmpReadyLo b else flag s Reg.cmpReadyHi (b - 32)

/-- A block's READY bit set to a value. -/
def setBlockReady (s : State) (b : Nat) (v : Bool) : State :=
  if b < 32 then setFlag s Reg.cmpReadyLo b v else setFlag s Reg.cmpReadyHi (b - 32) v

/-! ### Cores and threads -/

/-- A core. -/
def core (s : State) (c : Nat) : Core := sget s.cores c Core.reset

/-- A core replaced. -/
def setCore (s : State) (c : Nat) (k : Core) : State := { s with cores := sput s.cores c k }

/-- A core changed. -/
def modCore (s : State) (c : Nat) (f : Core → Core) : State := setCore s c (f (core s c))

/-- A thread. -/
def thr (s : State) (h : Hart) : Thread := sget (core s h.core).threads h.tid.toNat Thread.reset

/-- A thread replaced. -/
def setThr (s : State) (h : Hart) (t : Thread) : State :=
  modCore s h.core fun k => { k with threads := sput k.threads h.tid.toNat t }

/-- A thread changed. -/
def modThr (s : State) (h : Hart) (f : Thread → Thread) : State := setThr s h (f (thr s h))

/-- A mode of the Guarded world (R143). -/
def Mode.guarded : Mode → Bool
  | .pu | .ps => false
  | .gu | .gs => true

/-- A supervisor mode (R143). -/
def Mode.super : Mode → Bool
  | .pu | .gu => false
  | .ps | .gs => true

/-- The encoding of ESTAT.PMODE (R160). -/
def Mode.code : Mode → Nat
  | .pu => 0
  | .ps => 1
  | .gu => 2
  | .gs => 3

/-- The mode of an encoding (R160). -/
def Mode.ofCode (n : Nat) : Mode :=
  if n % 4 = 0 then .pu else if n % 4 = 1 then .ps else if n % 4 = 2 then .gu else .gs

/-- The reset value of a per-core CSR (R61, R159, R161). -/
def coreCsrReset (c n : Nat) : Word :=
  if n = 0x004 then 0x5EED0000 + BitVec.ofNat 32 (c % 1024)
  else if n = 0x401 then 0x1000
  else if n = 0x402 then 64
  else if n = 0x403 then 0xE4E4E4E4
  else if n = 0x404 then 28
  else if n = 0x800 then 0x2000
  else if n = 0x803 then 0x3E800
  else 0

/-- A per-core CSR as stored. -/
def coreCsr (s : State) (c n : Nat) : Word := sget (core s c).csr n (coreCsrReset c n)

/-- A per-core CSR set. -/
def setCoreCsr (s : State) (c n : Nat) (v : Word) : State := modCore s c fun k => { k with csr := sput k.csr n v }

/-- A per-core counter advanced by a number of cycles or events (R125, R162). -/
def countCore (s : State) (c n d : Nat) : State := setCoreCsr s c n (coreCsr s c n + BitVec.ofNat 32 d)

/-- The reset value of a per-thread CSR; save registers of level m stand at 0x414 + 4(m − 1) (R61, R160, R161). -/
def thrCsrReset (n : Nat) : Word :=
  if n = 0x000 then 2
  else if n = 0x400 then 0x10
  else if n = 0x415 then 0x200
  else if n = 0x419 then 0x400
  else if n = 0x41D then 0x600
  else if 0x808 ≤ n && n ≤ 0x80F then 0xFFF
  else 0

/-- A per-thread CSR as stored. -/
def Thread.getCsr (t : Thread) (n : Nat) : Word := sget t.csr n (thrCsrReset n)

/-- A per-thread CSR set. -/
def Thread.putCsr (t : Thread) (n : Nat) (v : Word) : Thread := { t with csr := sput t.csr n v }

/-- A per-thread CSR as stored. -/
def thrCsr (s : State) (h : Hart) (n : Nat) : Word := (thr s h).getCsr n

/-- A per-thread CSR set. -/
def setThrCsr (s : State) (h : Hart) (n : Nat) (v : Word) : State := modThr s h fun t => t.putCsr n v

/-- SATF bits set (R62, R70). -/
def setSatf (s : State) (h : Hart) (m : Word) : State := setThrCsr s h 0x001 (thrCsr s h 0x001 ||| m)

/-- The thread's current window and the number of resident windows (R61). -/
def Thread.cwp (t : Thread) : Nat := bits (t.getCsr 0x400) 2 0

/-- The number of resident windows (R61). -/
def Thread.resident (t : Thread) : Nat := bits (t.getCsr 0x400) 7 4

/-- WSTAT set. -/
def Thread.setWstat (t : Thread) (cwp resident : Nat) : Thread :=
  t.putCsr 0x400 (BitVec.ofNat 32 (cwp % 8 + 16 * (resident % 16)))

/-- Entry `j` of window `k` (R52). -/
def Thread.winReg (t : Thread) (k j : Nat) : Word := sget t.win (16 * (k % 8) + j) 0

/-- Entry `j` of window `k` set (R52). -/
def Thread.setWinReg (t : Thread) (k j : Nat) (v : Word) : Thread :=
  { t with win := sput t.win (16 * (k % 8) + j) v }

/-- The register a specifier selects, as committed (R50, R51). -/
def Thread.fileRd (t : Thread) (r : GReg) : Word :=
  let n := r.toNat
  if n = 0 then 0
  else if n < 16 then sget t.g n 0
  else if n < 24 ∨ t.level = 0 then t.winReg t.cwp (n - 16)
  else sget t.shadow (8 * (t.level.toNat - 1) + (n - 24)) 0

/-- The youngest issued instruction that writes a register and has not committed (R70). -/
def Thread.writer (t : Thread) (r : GReg) : Option Issued := t.window.reverse.find? fun e => e.rd == r

/-- A register is at hand: no load that is to write it awaits its answer (R74, R75). -/
def Thread.ready (t : Thread) (r : GReg) : Bool :=
  decide (r = 0) ||
    match t.writer r with
    | some e =>
      match e.held with
      | .load _ | .trap _ => false
      | _ => true
    | none => true

/-- The register a specifier selects, as a younger instruction reads it: results are forwarded before their commit (R50,
R51, R70). -/
def Thread.rd (t : Thread) (r : GReg) : Word :=
  if r = 0 then 0
  else
    match t.writer r with
    | some e =>
      match e.held with
      | .ready v => v
      | _ => t.fileRd r
    | none => t.fileRd r

/-- The register a specifier selects, written; a write to g0 is discarded (R50, R51). -/
def Thread.wr (t : Thread) (r : GReg) (v : Word) : Thread :=
  let n := r.toNat
  if n = 0 then t
  else if n < 16 then { t with g := sput t.g n v }
  else if n < 24 ∨ t.level = 0 then t.setWinReg t.cwp (n - 16) v
  else { t with shadow := sput t.shadow (8 * (t.level.toNat - 1) + (n - 24)) v }

/-- A scalar register of a thread. -/
def greg (s : State) (h : Hart) (r : GReg) : Word := (thr s h).rd r

/-- A scalar register of a thread written. -/
def setGreg (s : State) (h : Hart) (r : GReg) (v : Word) : State := modThr s h fun t => t.wr r v

/-! ### Tenancy (R211 to R215) -/

/-- Whether rectangle `n`, enabled or not, holds core `c` (R211, R216). -/
def rectCovers (w : Word) (c : Nat) : Bool :=
  let br := c / 128
  let bc := c % 32 / 4
  decide (bits w 2 0 ≤ br) && decide (br ≤ bits w 2 0 + bits w 5 3) &&
    decide (bits w 8 6 ≤ bc) && decide (bc ≤ bits w 8 6 + bits w 11 9)

/-- Rectangle `n` is enabled. -/
def rectOn (s : State) (n : Nat) : Bool := flag s (Reg.cmpTenRect n) 31

/-- Rectangle `n` has GUARDED = 1. -/
def rectGuarded (s : State) (n : Nat) : Bool := flag s (Reg.cmpTenRect n) 12

/-- The enabled rectangle that holds a core; no Drover core is in one (R211). -/
def rectOf (s : State) (c : Nat) : Option Nat :=
  if isDrvCore c then none
  else (List.range 16).find? fun n => rectOn s n && rectCovers (reg s (Reg.cmpTenRect n)) c

/-- The core lies in an enabled rectangle with GUARDED = 1 (R144). -/
def coreGuarded (s : State) (c : Nat) : Bool :=
  match rectOf s c with
  | some n => rectGuarded s n
  | none => false

/-- Some enabled rectangle has GUARDED = 1 (R263, R308). -/
def anyGuarded (s : State) : Bool := (List.range 16).any fun n => rectOn s n && rectGuarded s n

/-- A window or range of two words, EN and BASE then LIMIT, covers an address (R214). -/
def rangeCovers (w0 w1 : Word) (a : Nat) : Bool :=
  bit w0 31 && decide (bits w0 26 0 ≤ a / 2 ^ 21) && decide (a / 2 ^ 21 ≤ bits w1 26 0)

/-- A tenant window of rectangle `n` covers an address (R214). -/
def inWindow (s : State) (n a : Nat) : Bool :=
  (List.range 4).any fun k => rangeCovers (reg s (Reg.cmpTenWinW0 n k)) (reg s (Reg.cmpTenWinW1 n k)) a

/-- A guarded memory range covers an address (R214). -/
def inGuardedRange (s : State) (a : Nat) : Bool :=
  (List.range 8).any fun m => rangeCovers (reg s (Reg.cmpGmrW0 m)) (reg s (Reg.cmpGmrW1 m)) a

/-- The core's guarded local region covers a local offset (R144, R161). -/
def inGlmem (s : State) (c off : Nat) : Bool :=
  let w := coreCsr s c 0x802
  decide (4096 * bits w 6 0 ≤ off) && decide (off < 4096 * (bits w 6 0 + bits w 14 8))

/-- The access is Guarded: a courier node with G = 1 (R205). -/
def guardedOrigin : Origin → Bool
  | .host => false
  | .node _ g => g

/-- The courier node of a core (R204, R371). -/
def nodeOf (c : Nat) : Nat := if isDrvCore c then 0x302 else c

/-! ### Addresses (R35 to R37, R64) -/

/-- Where a device address leads (R35). -/
inductive Target where
  | hole
  | near (unit : Nat)
  | far (port : Nat)
  | host
  | peer (chip : Nat) (off : Nat)
  | localMem (core off : Nat)
  deriving DecidableEq, Repr

/-- Bytes of one near-tier unit (R236). -/
def unitSize (s : State) : Nat := if s.pkg.variant = .bm384g then 0x400000000 else 0x600000000

/-- Bytes of the near tier. -/
def nearSize (s : State) : Nat := s.pkg.nUnits * unitSize s

/-- The unit and the stack-local address of a near-tier address (R237). -/
def unitOf (s : State) (a : Nat) : Nat × Nat :=
  let u := s.pkg.nUnits
  if fld s Reg.cmpTier0W0 9 8 = 1 then (a / unitSize s, a % unitSize s)
  else (a / 4096 % u, a / (4096 * u) * 4096 + a % 4096)

/-- The device address of a stack-local address (R237). -/
def unitAddr (s : State) (u a : Nat) : Nat :=
  if fld s Reg.cmpTier0W0 9 8 = 1 then u * unitSize s + a
  else a / 4096 * (4096 * s.pkg.nUnits) + u * 4096 + a % 4096

/-- A unit is trained and usable (R239, R264). -/
def unitReady (s : State) (u : Nat) : Bool := flag s (Reg.hbmStat u) 0

/-- Bytes of local memory of a core (R17, R371). -/
def localSize (c : Nat) : Nat := if isDrvCore c then 0x40000 else 0x60000

/-- Where a core's local memory lies: in the device map for a core of the mesh (R35), above the 48-bit map for a
Drover core, which no device address reaches (log entry 4). -/
def localBase (c : Nat) : Nat := if isDrvCore c then 2 ^ 48 + c * 0x80000 else 0x400000000000 + c * 0x80000

/-- Where a device address leads; holes are R35 to R37, R46, R240 and R365. -/
def target (s : State) (a : Nat) : Target :=
  if a < nearSize s then .near (unitOf s a).1
  else if 0x100000000000 ≤ a && a < 0x140000000000 then
    let p := (a - 0x100000000000) / 2 ^ 40
    if decide (p < 2 * s.pkg.nSerai) && decide (fld s (Reg.cmpTierW0 p) 3 0 = 3) &&
        decide ((a - 0x100000000000) % 2 ^ 40 < fld s (Reg.cmpTierW2 (p + 1)) 15 0 * 2 ^ 30) then .far p else .hole
  else if 0x200000000000 ≤ a && a < 0x300000000000 then .host
  else if 0x300000000000 ≤ a && a < 0x400000000000 then
    let k := (a - 0x300000000000) / 2 ^ 38
    if decide (k = fld s Reg.lnkChip 5 0) || !flag s (Reg.lnkRoute k) 0 ||
        decide (s.pkg.nSerai ≤ fld s (Reg.lnkRoute k) 1 1) then .hole
    else .peer k ((a - 0x300000000000) % 2 ^ 38)
  else if 0x400000000000 ≤ a then
    let c := (a - 0x400000000000) / 0x80000
    let o := (a - 0x400000000000) % 0x80000
    if decide (c < s.pkg.nCores) && decide (o < 0x60000) then .localMem c o else .hole
  else .hole

/-- A target that an access may not reach now: a hole, or a unit that is not ready (R36, R239). -/
def unreachable (s : State) (a : Nat) : Bool :=
  match target s a with
  | .hole => true
  | .near u => !unitReady s u
  | _ => false

/-- Where a core-view address leads (R64, R66, R371). -/
inductive CoreLoc where
  | hole
  | own (off : Nat)
  | drvReg (off : Nat)
  | far (dev : Nat)
  deriving DecidableEq, Repr

/-- The core's view of an address; its own window reached through the far view acts as the core's view of it does, with the
hole above its local memory (R64, R66, R371). -/
def coreView (s : State) (h : Hart) (va : Word) : CoreLoc :=
  let a := va.toNat
  if a < localSize h.core then .own a
  else if isDrvCore h.core && decide (0x4000000 ≤ a) && decide (a < 0x5000000) then .drvReg (a - 0x4000000 + 0x3000000)
  else if a < 0x80000000 then .hole
  else
    let d := bits (thrCsr s h 0x003) 16 0 * 2 ^ 31 + (a - 0x80000000)
    if isDrvCore h.core || decide (d < localBase h.core) || decide (localBase h.core + 0x80000 ≤ d) then .far d
    else if d - localBase h.core < localSize h.core then .own (d - localBase h.core)
    else .hole

/-! ### Memory: bytes, poison and latent errors -/

/-- The byte an address holds; an unlisted byte reads 0 (R429, R430; log entry 6). -/
def memGet (m : List Host.Cell) (a : Nat) : Byte :=
  match m with
  | [] => 0
  | (a', b) :: r => if a = a' then b else if a < a' then 0 else memGet r a

/-- A byte written: the list stays strictly rising and lists no 0 (log entry 6). -/
def memPut (m : List Host.Cell) (a : Nat) (b : Byte) : List Host.Cell :=
  match m with
  | [] => if b = 0 then [] else [(a, b)]
  | (a', b') :: r =>
    if a < a' then if b = 0 then (a', b') :: r else (a, b) :: (a', b') :: r
    else if a = a' then if b = 0 then r else (a, b) :: r
    else (a', b') :: memPut r a b

/-- Bytes written one after another. -/
def memPutAll (m : List Host.Cell) (a : Nat) : List Byte → List Host.Cell
  | [] => m
  | b :: r => memPutAll (memPut m a b) (a + 1) r

/-- The canonical form of a memory: addresses strictly rising and no listed byte 0. -/
def Memory.wf : List Host.Cell → Bool
  | [] => true
  | [(_, b)] => b != 0
  | (a, b) :: (a', b') :: r => b != 0 && decide (a < a') && Memory.wf ((a', b') :: r)

/-- Where the model's memory holds the byte that a host-window address reaches: window offset h is host physical address
BASE × 2⁴⁴ + h, kept at the window's own addresses for BASE = 0 and above every other key for another BASE (R311; log entry
58). -/
def hostCell (s : State) (a : Nat) : Nat :=
  let b := fld s Reg.sraHwin 19 0
  if b = 0 then a else 2 ^ 64 + b * 2 ^ 44 + (a - 0x200000000000)

/-- `n` bytes from an address. -/
def readMem (s : State) (a n : Nat) : List Byte := (List.range n).map fun i => memGet s.mem (a + i)

/-- A memory whose protected lines are those of local memory: 64 bytes, against 128 of the near tier (R261). -/
def isLocalAddr (a : Nat) : Bool := decide (0x400000000000 ≤ a)

/-- Whether latent errors are kept for an address: the near tier and local memories (R261). Poison is kept wherever poisoned
lines are written, the far tier and the host window too (R276, R304; log entry 25). -/
def hasEcc (a : Nat) : Bool := decide (a < 0x100000000000) || isLocalAddr a

/-- Bytes of the line an error is found in (R261). -/
def eccLine (a : Nat) : Nat := if isLocalAddr a then 64 else 128

/-- The 32-byte sectors that hold the poison of a byte range: those of its sectors, or of its whole 64-byte lines in a
local memory (R261). -/
def sectorsOf (a n : Nat) : List Nat :=
  if n = 0 then []
  else if isLocalAddr a then upFrom (a / 64 * 2) (2 * ((a + n - 1) / 64 + 1 - a / 64))
  else upFrom (a / 32) ((a + n - 1) / 32 + 1 - a / 32)

/-- Some sector of a byte range holds poison (R262). -/
def isPoisoned (s : State) (a n : Nat) : Bool := (sectorsOf a n).any fun k => s.poison.contains k

/-- Sectors marked poisoned. -/
def poisonSectors (s : State) (ks : List Nat) : State := { s with poison := ks.foldl addKey s.poison }

/-- Sectors with poison and latent errors removed: whole sectors written (R261, R262). -/
def cleanSectors (s : State) (ks : List Nat) : State :=
  { s with poison := s.poison.filter fun k => !ks.contains k, latent := sdrop s.latent fun k => ks.contains k }

/-- The latent errors in a list of sectors. -/
def latentOf (s : State) (ks : List Nat) : List Ecc := ks.filterMap fun k => (s.latent.find? fun e => e.1 == k).map Prod.snd

/-! ### Contexts, error records, the ledger (R312, R338, R340) -/

/-- The context, not free, that owns a rectangle (R312, R313). -/
def ctxOfRect (s : State) (n : Nat) : Option Nat :=
  (List.range 64).find? fun c => decide (fld s (Reg.sraCtxCfg c) 1 0 ≠ 0) && flag s (Reg.sraCtxRects c) n

/-- The context of a core (R313). -/
def ctxOfCore (s : State) (c : Nat) : Option Nat :=
  match rectOf s c with
  | some n => ctxOfRect s n
  | none => none

/-- An error record sent on its way to a ring (R338). -/
def logError (s : State) (r : ErrRec) : State := { s with errq := s.errq ++ [r] }

/-- A ledger counter of a context, by its word of the snapshot, advanced (R340, R345). -/
def ledgerAdd (s : State) (ctx k n : Nat) : State :=
  { s with ledger := sput s.ledger (16 * ctx + k) ((sget s.ledger (16 * ctx + k) 0 + n) % 2 ^ 64) }

/-- A ledger counter of a core's context advanced; a core of no context counts nowhere. -/
def ledgerCore (s : State) (c k n : Nat) : State :=
  match ctxOfCore s c with
  | some x => ledgerAdd s x k n
  | none => s

/-! ### Alerts and courier sending -/

/-- Whether the unit at a courier node lies in a guarded rectangle: only cores lie in rectangles (R207). -/
def nodeGuarded (s : State) (node : Nat) : Bool := decide (node < 0x300) && coreGuarded s node

/-- A message put on the courier net. -/
def sendMsg (s : State) (m : Msg) : State := { s with courier := s.courier ++ [m] }

/-- A message that a node sends, counted for its context where the node is a core of one (R340). -/
def sendFrom (s : State) (m : Msg) : State :=
  if m.src < 0x300 then ledgerCore (sendMsg s m) m.src 13 1 else sendMsg s m

/-- An alert from a node to Serai 0, with a second copy to the Drover from a guarded rectangle (R205, R207, R340). -/
def sendAlert (s : State) (node : Nat) (status : Nat) (thread : Nat) (info : Nat) : State :=
  let g := nodeGuarded s node
  let p : Word := BitVec.ofNat 32 (status % 256 + 256 * (thread % 4) + 1024 * (info % 256))
  let s := sendFrom s ⟨0x300, 5, g, node, p, 0⟩
  if g && s.pkg.hasDrover then sendFrom s ⟨0x302, 5, g, node, p, 0⟩ else s

/-! ### Errors found in memory (R261) -/

/-- Word 0 of entry `i` of the scrub log of a unit, or of the compute die for none (R264, R265). -/
def scrubLogW0 (u : Option Nat) (i : Nat) : Nat :=
  match u with
  | some u => Reg.hbmScrubLogW0 u i
  | none => Reg.cmpScrubLogW0 i

/-- The lowest entry of a scrub log that holds no record. -/
def scrubFree (s : State) (u : Option Nat) : Option Nat :=
  (List.range 16).find? fun i => !flag s (scrubLogW0 u i + 4) 31

/-- The unit whose log takes a finding at an address; none for local memory. -/
def logUnit (s : State) (a : Nat) : Option Nat := if isLocalAddr a then none else some (unitOf s a).1

/-- The node that finds an error at an address: the controller, or the core (R204, R261). -/
def finderNode (s : State) (a : Nat) : Nat :=
  if isLocalAddr a then (a - 0x400000000000) / 0x80000 else 0x310 + (unitOf s a).1

/-- Steps 2 and 3 of R261 for the line at `a`: a log entry and an alert, or, for a demand read that finds the log full,
one count in SCRUB_LOST. A Drover core's own memory has no log (log entry 4). -/
def reportPoison (s : State) (a : Nat) (demand : Bool) : State :=
  if 2 ^ 48 ≤ a then s
  else
    let u := logUnit s a
    match scrubFree s u with
    | some i =>
      let s := setReg s (scrubLogW0 u i) (BitVec.ofNat 32 a)
      let s := setReg s (scrubLogW0 u i + 4)
        (BitVec.ofNat 32 (a / 2 ^ 32 % 65536 + 0xFE * 65536 + demand.toNat * 2 ^ 24 + 2 ^ 31))
      sendAlert s (finderNode s a) 0x02 0 0
    | none =>
      if demand then
        match u with
        | some u => countSat s (Reg.hbmScrubLost u)
        | none => countSat s Reg.cmpScrubLost
      else s

/-- Corrected errors counted (R261). -/
def countCorr (s : State) (a : Nat) : Nat → State
  | 0 => s
  | n + 1 =>
    match logUnit s a with
    | some u => countSat (countCorr s a n) (Reg.hbmEccCnt u)
    | none => countSat (countCorr s a n) Reg.cmpEccCnt

/-- What a read of the protected line at `line` finds (R261): a single-bit error is corrected and counted, an
uncorrectable one poisons the line and is reported. -/
def findLine (s : State) (line : Nat) (demand : Bool) : State :=
  let ks := sectorsOf line (eccLine line)
  let es := latentOf s ks
  if es.isEmpty then s
  else
    let s := countCorr { s with latent := sdrop s.latent fun k => ks.contains k } line (es.count .single)
    if es.contains .uncorrectable then reportPoison (poisonSectors s ks) line demand else s

/-- The protected lines of a byte range. -/
def eccLines (a n : Nat) : List Nat :=
  let w := eccLine a
  if n = 0 then [] else (upFrom (a / w) ((a + n - 1) / w + 1 - a / w)).map (· * w)

/-- A demand read of a byte range (R261). -/
def demandRead (s : State) (a n : Nat) : State :=
  if hasEcc a then (eccLines a n).foldl (fun s l => findLine s l true) s else s

/-- Bytes of the granule whose check bits a whole write renews: a sector, or a local line (R261). -/
def eccGranule (a : Nat) : Nat := if isLocalAddr a then 64 else 32

/-- The granules a byte range covers only in part. -/
def partGranules (a n : Nat) : List Nat :=
  let w := eccGranule a
  (if a % w = 0 && decide (w ≤ n) then [] else [a / w * w]) ++
    (if (a + n) % w = 0 then [] else [(a + n - 1) / w * w])

/-- The sectors a byte range covers in whole granules. -/
def wholeSectors (a n : Nat) : List Nat :=
  let w := eccGranule a
  let lo := (a + w - 1) / w * w
  let hi := (a + n) / w * w
  if lo < hi then sectorsOf lo (hi - lo) else []

/-- What a write of `n` bytes finds and renews: the granules it covers whole get new check bits, so that an error in them is
not found, and the merge read of those it covers in part is a demand read (R261, R262). -/
def renewChecks (s : State) (a n : Nat) : State :=
  let ks := wholeSectors a n
  let s := cleanSectors s ks
  if hasEcc a then cleanSectors ((partGranules a n).foldl (fun s g => demandRead s g 1) s) ks else s

/-- A write of bytes at a device address (R261, R262). -/
def writeMem (s : State) (a : Nat) (bs : List Byte) : State :=
  if bs.isEmpty then s else { renewChecks s a bs.length with mem := memPutAll s.mem a bs }

/-- A write of poisoned data: the bytes are stored and every sector touched is poisoned (R262). -/
def writePoison (s : State) (a : Nat) (bs : List Byte) : State :=
  poisonSectors (writeMem s a bs) (sectorsOf a bs.length)

/-- A write that is poisoned or not. -/
def writeData (s : State) (a : Nat) (bs : List Byte) (pz : Bool) : State :=
  if pz then writePoison s a bs else writeMem s a bs

/-- A range of memory zeroed with valid check bits (R429, R430). -/
def zeroMem (s : State) (a n : Nat) : State :=
  let hit := fun k : Nat => decide (a / 32 ≤ k) && decide (k < (a + n) / 32)
  { s with
    mem := s.mem.filter fun e => !(decide (a ≤ e.1) && decide (e.1 < a + n))
    poison := s.poison.filter fun k => !hit k
    latent := sdrop s.latent hit }

/-- The lowest 64-byte line of a byte range that holds poison. -/
def firstPoison (s : State) (a n : Nat) : Option Nat :=
  if n = 0 then none
  else ((upFrom (a / 64) ((a + n - 1) / 64 + 1 - a / 64)).find? fun l => isPoisoned s (l * 64) 64).map (· * 64)

/-- `n` bytes of a core's local memory. -/
def readLocal (s : State) (c off n : Nat) : List Byte := readMem s (localBase c + off) n

/-- Bytes written to a core's local memory. -/
def writeLocal (s : State) (c off : Nat) (bs : List Byte) : State := writeMem s (localBase c + off) bs

/-- A word of a core's local memory. -/
def localWord (s : State) (c off : Nat) : Word := BitVec.ofNat 32 (leNat (readLocal s c off 4))

/-! ### Interrupt lines (R151 to R154) -/

/-- The storm window of a core, in nanoseconds of the time base (R154, R161). -/
def stormWin (s : State) (c : Nat) : Nat := 1000 * Nat.max 1 (bits (coreCsr s c 0x803) 19 8)

/-- A line made pending; the first value is kept while it is (R151, R153). -/
def pendLine (s : State) (c l : Nat) (v : Word) : State :=
  let p := coreCsr s c 0x804
  if bit p l then s
  else modCore (setCoreCsr s c 0x804 (putBit p l true)) c fun k => { k with lineEval := sput k.lineEval l v }

/-- The number of the storm window of a core that the time base is in (R154). -/
def stormNow (s : State) (c : Nat) : Nat := now s / stormWin s c

/-- An event on a line: the storm limiter counts it in the window of the time base, then the line is pending (R153, R154).
Where software clears STUCK within the window, counting goes on from S, so that the line is masked again in a later window
at the earliest (DESIGN CHOICE, log entry 36). -/
def raiseLine (s : State) (c l : Nat) (v : Word) : State :=
  let cfg := coreCsr s c (0x820 + l)
  let lim := bits cfg 11 6
  let s :=
    if l ≠ 31 ∧ lim ≠ 0 ∧ bit cfg 15 = false then
      let cnt := if (core s c).stormAt = stormNow s c then (core s c).stormCnt else []
      let n := sget cnt l 0 + 1
      let s := modCore s c fun k => { k with stormCnt := sput cnt l n, stormAt := stormNow s c }
      if n = lim then
        pendLine (countCore (setCoreCsr s c (0x820 + l) (putBit cfg 15 true)) c 0x11B 1) c 31 (Config.lineEval s.tb 31)
      else s
    else s
  pendLine s c l v

/-- Whether line `l` is takeable for a thread (R152). -/
def takeable (s : State) (h : Hart) (l : Nat) : Bool :=
  let t := thr s h
  let cfg := coreCsr s h.core (0x820 + l)
  let pr := bits cfg 3 0
  bit (coreCsr s h.core 0x804) l && !bit cfg 15 && decide (pr ≠ 0) && decide (bits cfg 5 4 = h.tid.toNat) &&
    decide (t.status = .started) && decide ((core s h.core).run = .running) && decide (t.prio.toNat < pr) &&
    decide (t.level ≠ 3) && t.hold.isNone && (decide (8 ≤ pr) || !t.mode.guarded)

/-- The lines that are takeable for a thread, one bit a line (R152). -/
def takeableSet (s : State) (h : Hart) : Word := (List.range 32).foldl (fun w l => putBit w l (takeable s h l)) 0

/-- The line that is taken: the highest PRIO, then the lowest number (R152). -/
def takeableLine (s : State) (h : Hart) : Option Nat :=
  (List.range 32).foldl (fun best l =>
    if takeable s h l then
      match best with
      | none => some l
      | some b => if bits (coreCsr s h.core (0x820 + b)) 3 0 < bits (coreCsr s h.core (0x820 + l)) 3 0 then some l else best
    else best) none

/-! ### Core cycles (R22) -/

/-- Core cycles counted by an island, from the time base and the step in force (R22). -/
def coreCycle (s : State) (c : Nat) : Nat :=
  let k := core s c
  k.cycBase + (now s - k.cycStamp) * (if isDrvCore c then 500 else 800 + 25 * k.stepNow.toNat) / 1000

/-- The step of an island changed, with its cycle count carried on. -/
def setIslandStep (s : State) (c : Nat) (st : BitVec 6) : State :=
  let n := coreCycle s c
  modCore s c fun k => { k with stepNow := st, cycBase := n, cycStamp := now s }

/-! ### The mesh links of a core, and the change of its clock (R24, R164) -/

/-- The neighbour of a core: 0 north, 1 east, 2 south, 3 west (R47, R178). -/
def neighbour (s : State) (c d : Nat) : Option Nat :=
  if d = 0 then if 32 ≤ c then some (c - 32) else none
  else if d = 1 then if c % 32 < 31 then some (c + 1) else none
  else if d = 2 then if c + 32 < s.pkg.nCores then some (c + 32) else none
  else if 0 < c % 32 then some (c - 1) else none

/-- The opposite direction. -/
def opposite (d : Nat) : Nat := (d + 2) % 4

/-- The links between a core and its neighbour in a direction, as the core's side holds them (R164). -/
def link (s : State) (c d : Nat) : NbrLink := sget (core s c).links d NbrLink.reset

/-- A core's side of its links in a direction changed. -/
def modLink (s : State) (c d : Nat) (f : NbrLink → NbrLink) : State :=
  modCore s c fun k => { k with links := sput k.links d (f (sget k.links d NbrLink.reset)) }

/-- Nothing is on its way to this side of a link: no beat, no credit, no completion handshake. -/
def NbrLink.quiet (l : NbrLink) : Bool := l.inWire.isEmpty && decide (l.creditBack = 0) && decide (l.hsBack = 0)

/-- No compute-plane handshake is in progress on the four links of a core: no beat, credit or completion handshake is on
its way in either direction (R24; DEDUCED, log entry 40). -/
def linksQuiet (s : State) (c : Nat) : Bool :=
  (List.range 4).all fun d =>
    match neighbour s c d with
    | some n => (link s c d).quiet && (link s n (opposite d)).quiet
    | none => true

/-- The wait of a changed STEP ends: the island relocks to it, if it differs from the frequency it runs at (R24). -/
def beginRelock (s : State) (c : Nat) : State :=
  let w := coreCsr s c 0x404
  let s := modCore s c fun k => { k with clkWait := false }
  if bits w 5 0 = (core s c).stepNow.toNat then s
  else setIslandStep (setCoreCsr s c 0x404 (putBit w 9 true)) c (BitVec.ofNat 6 (bits w 5 0))

/-- A changed STEP takes effect once no compute-plane handshake is in progress on the island's links; until then the island
goes on as before (R24). -/
def startRelock (s : State) (c : Nat) : State :=
  if linksQuiet s c then beginRelock s c else modCore s c fun k => { k with clkWait := true }

/-- What was on a link of a core has arrived: a change of STEP that waits for it goes on (R24). -/
def relockIfQuiet (s : State) (c : Nat) : State := if (core s c).clkWait && linksQuiet s c then beginRelock s c else s

/-- Something has left the links between a core and its neighbour: either may wait for it (R24). -/
def linkSettled (s : State) (c d : Nat) : State :=
  let s := relockIfQuiet s c
  match neighbour s c d with
  | some n => relockIfQuiet s n
  | none => s

/-! ### Issue, traps and their return -/

/-- Illegal instruction (R151). -/
def trapIllegal (w : Word) : Trap := ⟨0x01, 0, w, 0⟩
/-- Privilege (R151). -/
def trapPrivilege (w : Word) : Trap := ⟨0x02, 0, w, 0⟩
/-- Misaligned (R151). -/
def trapMisaligned (a : Word) : Trap := ⟨0x03, 0, a, 0⟩
/-- Illegal operand (R151). -/
def trapOperand (w : Word) : Trap := ⟨0x04, 0, w, 0⟩
/-- Bus error, with the status the access met (R151, R203, R364). -/
def trapBus (a : Word) (status : Nat) : Trap := ⟨0x05, status, a, 0⟩
/-- Poison in memory: EVAL is the core-view address of the 64-byte line (R151). -/
def trapPoison (a : Word) : Trap := ⟨0x06, 0x02, a &&& ~~~(63 : Word), 0⟩
/-- Poison in a tile row (R151). -/
def trapTilePoison (v : Word) : Trap := ⟨0x07, 0x02, v, 0⟩
/-- Stencil (R107, R151). -/
def trapStencil (v : Word) : Trap := ⟨0x08, 0x0C, v, 0⟩
/-- Tenancy (R151). -/
def trapTenancy (a : Word) : Trap := ⟨0x09, 0x07, a, 0⟩
/-- Window overflow (R53). -/
def trapWinOver : Trap := ⟨0x0A, 0, 0, 2⟩
/-- Window underflow (R54). -/
def trapWinUnder : Trap := ⟨0x0B, 0, 0, 3⟩
/-- Double overflow: EVAL 0 for a call, 1 for a return (R57). -/
def trapDouble (v : Word) : Trap := ⟨0x0C, 0x0E, v, 4⟩
/-- The TRAP instruction (R151). -/
def trapCall (imm : Word) : Trap := ⟨0x0D, 0, imm, 1⟩
/-- Gate refused (R145). -/
def trapGate (imm : Word) : Trap := ⟨0x0E, 0, imm, 0⟩
/-- Wait timeout: EVAL holds MASK and the expected sender (R142, R151). -/
def trapWait (mask sender : Nat) : Trap := ⟨0x0F, 0x05, BitVec.ofNat 32 (mask % 256 + 256 * (sender % 4096)), 0⟩

/-- The weave table in force names a thread (R135); the one thread of a Drover core needs no table (R371). -/
def threadNamed (s : State) (h : Hart) : Bool :=
  isDrvCore h.core || (List.range 16).any fun k => decide (bits (core s h.core).thslotNow (2 * k + 1) (2 * k) = h.tid.toNat)

/-- Whether a core runs: out of reset and powered, not halted (R136, R433, R439). -/
def coreLive (s : State) (c : Nat) : Bool :=
  coreExists s c && dieUp s c && decide ((core s c).run = .running) && (core s c).resetJob.isNone &&
    (isDrvCore c || decide (blockState s (blockOf c) = 0))

/-- An island relocks: it issues nothing, and its lane slots pass unused (R24). -/
def relocking (s : State) (c : Nat) : Bool := bit (coreCsr s c 0x404) 9

/-- Whether a core can issue at all: it runs and does not relock (R24, R136). -/
def coreRuns (s : State) (c : Nat) : Bool := coreLive s c && !relocking s c

/-- A thread is started, waits for nothing, is named by the weave table and has no interrupt to take first (R135, R136,
R149). -/
def threadFree (s : State) (h : Hart) : Bool :=
  (!isDrvCore h.core || decide (h.tid = 0)) && decide ((thr s h).status = .started) &&
    decide ((thr s h).wait = .none) && threadNamed s h && (takeableLine s h).isNone

/-- Whether a thread issues an instruction that commits in the same step: it is free, and every older instruction of it has
committed (R69, R135, R136, R149). -/
def canIssue (s : State) (h : Hart) : Bool := coreRuns s h.core && threadFree s h && (thr s h).window.isEmpty

/-- Whether a thread issues an instruction behind older ones that have not committed: at most 16 are held (R69). -/
def canFollow (s : State) (h : Hart) : Bool :=
  coreRuns s h.core && threadFree s h && !(thr s h).window.isEmpty && decide ((thr s h).window.length < 16)

/-- An open HOLD window ended: a clipped one sets HOLDMAX.OVR and counts (R155). -/
def endHold (s : State) (h : Hart) : State :=
  match (thr s h).hold with
  | none => s
  | some w =>
    let s := modThr s h fun t => { t with hold := none }
    if w.clipped then
      countCore (setCoreCsr s h.core 0x402 (putBit (coreCsr s h.core 0x402) (16 + h.tid.toNat) true)) h.core 0x119 1
    else s

/-- The register offsets a Drover watchdog reset keeps: the log, the RW-L fields' registers, DRV_LOCK, DRV_SAFE_LATCH and
the e-stop registers (R436). DRV_READY and mixed registers are treated by `drvWatchdogReset`. -/
def drvResetKeeps (off : Nat) : Bool :=
  decide (off = Reg.drvLock) || decide (off = Reg.drvLogHead) || decide (off = Reg.drvLogOvf) ||
    (decide (0x3000100 ≤ off) && decide (off < 0x3000300)) || decide (off = Reg.drvSafeLatch) ||
    decide (off = Reg.drvEstopStat) ||
    match regRow off with
    | some r => decide (r.rwl ≠ 0) && decide (r.rw = 0) && decide (r.w1c = 0)
    | none => false

/-- A Drover register after the watchdog reset: RW-L bits kept, the others at their reset values (R436). -/
def drvResetWord (off : Nat) (v : Word) : Word :=
  match regRow off with
  | some r => (v &&& r.rwl) ||| (r.rst &&& ~~~r.rwl)
  | none => v

/-- The Drover's own watchdog reset (R436): every output is forced (R399), the log, the RW-L fields, DRV_LOCK,
DRV_SAFE_LATCH and the e-stop path are kept, every other register and unit returns to its reset value, and the three
cores wait for DROVER_BOOT (R432). -/
def drvWatchdogReset (s : State) : State :=
  { s with
    regs := (s.regs.filterMap fun e =>
      if e.1 < 0x3000000 || drvResetKeeps e.1 then some e
      else if drvResetWord e.1 e.2 = s.pkg.resetWord e.1 then none else some (e.1, drvResetWord e.1 e.2))
    staged := sdrop s.staged fun k => decide (0x3000000 ≤ k)
    cores := sdrop s.cores isDrvCore
    drv := { Drover.reset with
      por := false
      resetting := true
      dinRaw := s.drv.dinRaw
      encA := s.drv.encA
      encB := s.drv.encB
      stopLevels := s.drv.stopLevels
      stopApart := s.drv.stopApart
      stopSeen := s.drv.stopSeen } }

/-- A trap at level 3 halts the core, counts it and alerts (R157). The lockstep pair halting takes the Drover's watchdog
reset; the housekeeping core halting resets that core alone (R431, R436). -/
def haltCore (s : State) (h : Hart) (cause : Nat) : State :=
  if h.core = Config.drvPair then sendAlert (drvWatchdogReset s) 0x302 0x0E h.tid.toNat cause
  else if h.core = Config.drvHk then
    sendAlert (setFlag { s with cores := sdrop s.cores (· == Config.drvHk) } Reg.drvReady 1 false) 0x302 0x0E h.tid.toNat cause
  else
    let s := modCore s h.core fun k => { k with run := .halted }
    sendAlert (countCore s h.core 0x11D 1) h.core 0x0E h.tid.toNat cause

/-- A ready tile or matrix instruction of a thread stops waiting to issue: its cycles go to TILE_WAIT (R120, R125). -/
def endTileWait (s : State) (h : Hart) : State :=
  match (thr s h).tileWait with
  | none => s
  | some (_, n) => countCore (modThr s h fun t => { t with tileWait := none }) h.core 0x105 (coreCycle s h.core - n)

/-- Entry into the next trap level (R146): the save registers of level n + 1, the mode and priority, the program counter
at the vector (R151). The caller gives the world of the handler, the new priority and HOVR. -/
def enterTrap (s : State) (h : Hart) (tr : Trap) (epc : Word) (guarded : Bool) (prio : BitVec 4) (hovr : Bool) : State :=
  let clip := match (thr s h).hold with
    | some w => w.clipped
    | none => false
  let s := endTileWait (endHold s h) h
  let t := thr s h
  let n := t.level.toNat
  let k := 0x414 + 4 * n
  let est := t.mode.code + 4 * t.prio.toNat + 64 * guarded.toNat + 128 * hovr.toNat + 512 * (n + 1)
  let base := if guarded then coreCsr s h.core 0x800 else coreCsr s h.core 0x401
  let t := ((t.putCsr k (epc &&& ~~~(3 : Word))).putCsr (k + 1) (BitVec.ofNat 32 est)).putCsr (k + 2)
    (BitVec.ofNat 32 (tr.cause % 256 + 256 * (tr.status % 256)))
  let t := { t.putCsr (k + 3) tr.eval with
    level := BitVec.ofNat 2 (n + 1)
    mode := if guarded then .gs else .ps
    prio := prio
    hovr := 0
    window := []
    wait := .none
    cur := none
    fetched := none
    pc := (base &&& ~~~(0xFFF : Word)) + BitVec.ofNat 32 (64 * tr.vec) }
  let s := countCore (setThr s h t) h.core (0x114 + h.tid.toNat) 1
  let s := if tr.cause = 0x0F then countCore s h.core 0x11A 1 else s
  if clip then modThr s h fun t => { t with hovr := takeableSet s h } else s

/-- An interrupt line taken (R146, R151, R152). -/
def takeInterrupt (s : State) (h : Hart) (l : Nat) (epc : Word) : State :=
  let cfg := coreCsr s h.core (0x820 + l)
  let ev := sget (core s h.core).lineEval l 0
  let hov := bit (thr s h).hovr l
  let s := setCoreCsr s h.core 0x804 (putBit (coreCsr s h.core 0x804) l false)
  let s := countCore s h.core 0x118 1
  enterTrap s h ⟨0x40 + l, 0, ev, 16 + l⟩ epc (decide (8 ≤ bits cfg 3 0)) (BitVec.ofNat 4 (bits cfg 3 0)) hov

/-- The return from a trap at level n ≥ 1 (R147). -/
def returnTrap (s : State) (h : Hart) : State :=
  let t := thr s h
  let n := t.level.toNat - 1
  let est := t.getCsr (0x415 + 4 * n)
  let m := Mode.ofCode (bits est 1 0)
  modThr s h fun t => { t with
    pc := t.getCsr (0x414 + 4 * n)
    mode := m
    prio := BitVec.ofNat 4 (bits est 5 2)
    level := BitVec.ofNat 2 n
    fetched := none
    shadow := if bit est 6 && !m.guarded then sdrop t.shadow fun k => decide (8 * n ≤ k) && decide (k < 8 * n + 8)
      else t.shadow }

/-- INT_LAT_MAX among the CSRs of a core as the first instruction of an interrupt handler issues in core cycle `n`: the cycles
since its line became takeable, at least 4 more than the entry took, unless it holds more (R149, R162). -/
def latencyCsrs (entry : Option (Nat × Nat)) (n : Nat) (m : Sparse Word) : Sparse Word :=
  match entry with
  | none => m
  | some (c, d) =>
    let v := BitVec.ofNat 32 (d + Nat.max 4 (n - c))
    if (sget m 0x11C 0).toNat < v.toNat then sput m 0x11C v else m

/-- The first instruction of an interrupt handler issues: INT_LAT_MAX takes the latency of its entry (R149, R162). -/
def noteHandlerIssue (s : State) (h : Hart) : State :=
  let n := coreCycle s h.core
  let e := (thr s h).latFrom
  modCore (modThr s h fun t => { t with latFrom := none }) h.core fun k => { k with csr := latencyCsrs e n k.csr }

/-- A synchronous trap taken: into the supervisor of the thread's world, or, at level 3, the halt (R146, R157). The
instruction that raises it has issued, the first of a handler too (R162). -/
def takeTrap (s : State) (h : Hart) (tr : Trap) (epc : Word) : State :=
  if (thr s h).level = 3 then haltCore s h tr.cause
  else enterTrap (noteHandlerIssue s h) h tr epc (thr s h).mode.guarded (thr s h).prio false

/-- An instruction committed: it is counted and the program counter goes to `pc` (R69, R162). -/
def retireTo (s : State) (h : Hart) (pc : Word) : State :=
  noteHandlerIssue (countCore (modThr s h fun t => { t with pc := pc, fetched := none, hovr := 0, tileWait := none }) h.core
    (0x108 + h.tid.toNat) 1) h

/-- An instruction committed, the next one following it. -/
def retire (s : State) (h : Hart) : State := retireTo s h ((thr s h).pc + 4)

/-- What an instruction does when it issues: it goes on to a state, or raises one synchronous trap (R453). -/
inductive Res where
  | ok (s : State)
  | trap (s : State) (t : Trap)

/-- An instruction of a thread: nothing happens where the thread cannot issue it (log entry 1); a trap is taken with
EPC at the instruction (R146). -/
def issue (s : State) (h : Hart) (r : Res) : Host.Outcome State Fault Refusal :=
  if canIssue s h then
    match r with
    | .ok s' => .next s'
    | .trap s' t => .next (takeTrap s' h t (thr s h).pc)
  else .next s

/-- The first trap whose condition holds, in the order given (R453). -/
def firstTrap (s : State) (l : List (Bool × Trap)) (k : Res) : Res :=
  match l.find? fun e => e.1 with
  | some e => .trap s e.2
  | none => k

/-- An instruction issues behind older ones that have not committed: it is held, and the program counter goes to `pc` (R69,
R70). -/
def holdIssued (s : State) (h : Hart) (rd : GReg) (v : Held) (pc : Word) : State :=
  modThr s h fun t => { t with window := t.window ++ [⟨t.pc, rd, v⟩], pc := pc, fetched := none, hovr := 0 }

/-- An instruction with one register result, and no other effect but the program counter, that reads `srcs`: behind older
instructions it issues once its operands are at hand, and is held; else it does `k` (R69, R70, R75). -/
def follow (s : State) (h : Hart) (srcs : List GReg) (rd : GReg) (v pc : Word)
    (k : Host.Outcome State Fault Refusal) : Host.Outcome State Fault Refusal :=
  if canFollow s h then
    if srcs.all (thr s h).ready then .next (holdIssued s h rd (.ready v) pc) else .next s
  else k

/-- A command of a unit: it acts where its condition holds, and changes nothing elsewhere (log entry 1). -/
def when (s : State) (c : Bool) (s' : State) : Host.Outcome State Fault Refusal := if c then .next s' else .next s

end Sys2Proof.Machine
end

