-- ==== Sys2Proof/Machine/Access.lean ====
section
/-! DEFINITION. What every register access meets: absent blocks, access codes, reserved values, locks, the worlds. -/

namespace Sys2Proof.Machine

/-- Where a BAR0 offset leads (R38, R45). -/
inductive Presence where
  | present | absent | reserved
  deriving DecidableEq, Repr

/-- The part has a lane segment (R189, R191). -/
def laneExists (s : State) (l : Nat) : Bool :=
  if s.pkg.variant = .bm384g then decide (l < 32) || (decide (64 ≤ l) && decide (l < 76)) || (decide (112 ≤ l) && decide (l < 116))
  else decide (l < 122)

/-- Where a BAR0 offset leads; the registers of cores and blocks the variant lacks count as reserved offsets of the
present global block, and R38's reserved range 0x280_0000 to 0x2FF_FFFF, which lies in no block, as reserved offsets too (R38,
R44, R45; DESIGN CHOICE, log entry 66). -/
def presence (s : State) (off : Nat) : Presence :=
  if decide (0x800000 ≤ off) && decide (off < 0x1000000) && decide (s.pkg.nSerai = 1) then .absent
  else if decide (0x2000000 ≤ off) && decide (off < 0x2800000) && decide (s.pkg.nUnits ≤ (off - 0x2000000) / 0x100000) then .absent
  else if decide (0x3000000 ≤ off) && !s.pkg.hasDrover then .absent
  else match regRow off with
    | none => .reserved
    | some _ =>
      if decide (0x1400000 ≤ off) && decide (off < 0x2000000) && decide (s.pkg.nCores ≤ (off - 0x1400000) / 0x40) then .reserved
      else if decide (0x1000400 ≤ off) && decide (off < 0x10004C0) && decide (s.pkg.nBlocks ≤ (off - 0x1000400) / 4) then .reserved
      else if decide (0x1100000 ≤ off) && decide (off < 0x1102000) && !laneExists s ((off - 0x1100000) / 0x40) then .reserved
      else .present

/-- A bad BAR0 access recorded in SRA_BADACC: the first is kept, a further one sets OVF (R45). -/
def recordBadAccess (s : State) (off kind : Nat) : State :=
  if flag s Reg.sraBadacc 31 then setFlag s Reg.sraBadacc 30 true
  else setReg s Reg.sraBadacc
    (BitVec.ofNat 32 (off % 2 ^ 26 + 2 ^ 26 * kind + 2 ^ 31) ||| (reg s Reg.sraBadacc &&& 0x40000000))

/-- The host can reach the part: link up, D0, not in a reset that holds Serai 0 (R310, R427, R442). -/
def hostReaches (s : State) : Bool := partUp s && s.pkg.hostUp && !s.pkg.d3hot && !s.pkg.slumber

/-- The access reaches the block that owns the offset. -/
def reaches (s : State) (o : Origin) (off : Nat) : Bool :=
  (match o with
    | .host => hostReaches s
    | .node .. => if off < 0x3000000 then partUp s else true) &&
    (decide (off < 0x3000000) || !s.pkg.hasDrover || drvUp s)

/-! ### Access codes, reserved values and locks (R12 to R15, R444) -/

/-- The value of a limited field is not reserved (R15). -/
def limitOk (l : FieldLimit) (v : Word) : Bool :=
  let x := bits v l.hi l.lo
  l.ranges.any (fun r => decide (r.1 ≤ x) && decide (x ≤ r.2)) && decide (x % l.mult = 0)

/-- The mask of a field. -/
def fieldMask (hi lo : Nat) : Word := BitVec.ofNat 32 ((2 ^ (hi + 1 - lo) - 1) <<< lo)

/-- A register word after a write: each field takes the write as its access code states, and a field that would take a
reserved value keeps its own (R12, R14, R15). -/
def rowWrite (r : RegRow) (locked : Bool) (old v : Word) : Word :=
  let wr := if locked then r.rw else r.rw ||| r.rwl
  let wr := r.lims.foldl (fun m l => if limitOk l v then m else m &&& ~~~fieldMask l.hi l.lo) wr
  (((old &&& ~~~wr) ||| (v &&& wr)) &&& ~~~(v &&& r.w1c)) ||| (v &&& r.locks)

/-- The lock of a register's RW-L fields is set (R444). -/
def lockSet (s : State) (r : RegRow) (off : Nat) : Bool :=
  match r.lock with
  | .none => false
  | .own => flag s off 8
  | .ilv => s.pkg.memStart
  | .hbm => flag s (Reg.hbmCtl ((off - 0x2000000) / 0x100000)) 0
  | .drv => flag s Reg.drvLock 0

/-- The fields of one register word take a write. -/
def storeFields (s : State) (off : Nat) (v : Word) : State :=
  match regRow off with
  | none => s
  | some r => setReg s off (rowWrite r (lockSet s r off) (reg s off) v)

/-- A write of one word: the upper half of a 64-bit field waits for its lower half (R13). -/
def plainWrite (s : State) (off : Nat) (v : Word) : State :=
  match regRow off with
  | none => s
  | some r =>
    if r.upper then { s with staged := sput s.staged off v }
    else
      match s.staged.find? fun e => e.1 == off + 4 with
      | some u => storeFields (storeFields { s with staged := sdrop s.staged (· == off + 4) } (off + 4) u.2) off v
      | none => storeFields s off v

/-! ### Whose access a register takes -/

/-- A context is Guarded (R347). -/
def ctxGuarded (s : State) (c : Nat) : Bool := flag s (Reg.sraCtxCfg c) 7

/-- The core at a row and column. -/
def coreAt (r c : Nat) : Nat := 32 * r + c

/-- The cores of a convoy with a configuration word (R181). -/
def convoyCores (w : Word) : List Nat :=
  (List.range (bits w 12 10 + 1)).flatMap fun i =>
    (List.range (bits w 16 13 + 1)).map fun j => coreAt (bits w 4 0 + i) (bits w 9 5 + j)

/-- A convoy exists: it is enabled, or it has yet to unlock (R181, R182). -/
def convoyAlive (s : State) (n : Nat) : Bool := flag s (Reg.cmpCvCfg n) 31 || decide (fld s (Reg.cmpCvStat n) 1 0 ≠ 0)

/-- The configuration word that names the members of a convoy: while it dissolves, the one it was formed under, whatever is
written meanwhile (R181, R182). -/
def convoyWord (s : State) (n : Nat) : Word :=
  if flag s (Reg.cmpCvCfg n) 31 then reg s (Reg.cmpCvCfg n) else (sget s.convoys n Convoy.reset).form

/-- Some core of a block lies in a guarded rectangle: rectangles hold whole blocks (R211). -/
def blockGuarded (s : State) (b : Nat) : Bool := coreGuarded s (b / 8 * 128 + b % 8 * 4)

/-- The context that owns the queue, event or memory object whose registers hold an offset of Serai 0 (R346). -/
def ownerAt (s : State) (off : Nat) : Option Nat :=
  if decide (0x1000 ≤ off) && decide (off < 0x2000) then some ((off - 0x1000) / 0x40)
  else if decide (0x10000 ≤ off) && decide (off < 0x12000) then
    some (fld s (Reg.sraQCfg ((off - 0x10000) / 0x20)) 11 6)
  else if decide (0x100000 ≤ off) && decide (off < 0x110000) then
    some (fld s (Reg.sraEv ((off - 0x100000) / 0x10)) 5 0)
  else if decide (0x200000 ≤ off) && decide (off < 0x400000) then
    some (fld s (Reg.sraMoCfg ((off - 0x200000) / 0x20)) 5 0)
  else none

/-- The owner that a write of a queue's, event's or memory object's own word would give it: the rule of R346 counts it as it
counts the present one; any other write keeps the owner. -/
def writtenOwner (s : State) (off : Nat) (v : Word) : Nat :=
  if decide (0x10000 ≤ off) && decide (off < 0x12000) && decide (off % 0x20 = 0) && !flag s off 0 then bits v 11 6
  else if decide (0x100000 ≤ off) && decide (off < 0x110000) && decide (off % 0x10 = 0) && !flag s off 7 then bits v 5 0
  else if decide (0x200000 ≤ off) && decide (off < 0x400000) && decide (off % 0x20 = 0) then bits v 5 0
  else (ownerAt s off).getD 0

/-- A Drover register of a Guarded function (R373). -/
def drvGuardedReg (s : State) (off : Nat) : Bool :=
  if decide (0x3001000 ≤ off) && decide (off < 0x3002000) then flag s Reg.drvOwn ((off - 0x3001000) / 0x100)
  else if decide (0x3002000 ≤ off) && decide (off < 0x3003000) then flag s Reg.drvOwn (4 + (off - 0x3002000) / 0x400)
  else if decide (0x3003000 ≤ off) && decide (off < 0x3004000) then flag s Reg.drvOwn (6 + (off - 0x3003000) / 0x400)
  else true

/-- A Plain write to the register is discarded: R180, R181, R215, R263, R293, R309, R346, R367, R373. Slot tables, the
region reset and CMP_CORE_RST refuse bit by bit in their own effects (R197, R445). -/
def worldDenies (s : State) (off : Nat) (v : Word) : Bool :=
  if 0x3000000 ≤ off then drvGuardedReg s off
  else if 0x2000000 ≤ off then
    let o := off % 0x100000
    let u := (off - 0x2000000) / 0x100000
    if decide (o = 4) || decide (o = 8) || (decide (0x10 ≤ o) && decide (o ≤ 0x40)) then anyGuarded s
    else if decide (0x200 ≤ o) && decide (o < 0x240) then
      let k := (off - Reg.hbmGtrRsv u 0) / 4
      rectGuarded s k
    else false
  else if 0x1400000 ≤ off then coreGuarded s ((off - 0x1400000) / 0x40)
  else if decide (0x1080000 ≤ off) && decide (off < 0x1100000) then
    let n := (off - 0x1080000) / 0x10
    (convoyAlive s n && (convoyCores (convoyWord s n)).any (coreGuarded s)) ||
      (decide (off % 0x10 = 0) && bit v 31 && !flag s off 31 && (convoyCores v).any (coreGuarded s))
  else if decide (0x1001000 ≤ off) && decide (off < 0x1001040) then
    rectGuarded s ((off - 0x1001000) / 4) || bit v 12
  else if decide (0x1001100 ≤ off) && decide (off < 0x1001300) then rectGuarded s ((off - 0x1001100) / 0x20)
  else if decide (0x1001400 ≤ off) && decide (off < 0x1001440) then true
  else if decide (off = Reg.cmpCodecEb0) || decide (off = Reg.cmpCodecEb1) then anyGuarded s
  else if decide (0x1000400 ≤ off) && decide (off < 0x10004C0) then blockGuarded s ((off - 0x1000400) / 4)
  else if decide (off % 0x800000 < 0x41040) && decide (0x41000 ≤ off % 0x800000) then
    let k := (off % 0x800000 - 0x41000) / 4
    rectGuarded s k
  else if decide (0x500000 ≤ off % 0x800000) && decide (off % 0x800000 < 0x501000) then
    let i := off / 0x800000
    let l := (off % 0x800000 - 0x500000) / 0x40
    decide ((off % 0x40) = 0) && flag s (Reg.lnkBndCfg i (fld s (Reg.lnkCtl i l) 7 4)) 11
  else if decide (0x501000 ≤ off % 0x800000) && decide (off % 0x800000 < 0x502000) then
    flag s (Reg.lnkBndCfg (off / 0x800000) ((off % 0x800000 - 0x501000) / 0x20)) 11
  else if decide (0x502100 ≤ off) && decide (off < 0x502200) then
    let w := reg s off
    flag s (Reg.lnkBndCfg (bits w 1 1) (bits w 5 2)) 11
  else match ownerAt s off with
    | some c => ctxGuarded s c || ctxGuarded s (writtenOwner s off v)
    | none => false

/-- A Guarded access of the Drover from a core of the mesh outside every guarded rectangle (R144). -/
def drvDenies (s : State) (o : Origin) (off : Nat) : Bool :=
  match o with
  | .node n g => decide (0x3000000 ≤ off) && g && decide (n < s.pkg.nCores) && !coreGuarded s n
  | .host => false

/-- The W1S bits of a register that a write writes 1 to are set, and stay so: no rule clears them but a reset (R12). -/
def setW1s (s : State) (off : Nat) (v : Word) : State :=
  match regRow off with
  | some r => if v &&& r.locks = 0 then s else setReg s off (reg s off ||| (v &&& r.locks))
  | none => s

/-- A register write up to the register's own effect, which `k` gives as the state after it and the status a courier
response carries: absent and reserved offsets, then the rule of the worlds (R45, R206). -/
def writeAt (s : State) (o : Origin) (off : Nat) (v : Word) (k : State × Nat) : State × Nat :=
  if !reaches s o off then (s, 1)
  else
    match presence s off with
    | .absent => (if o = .host then recordBadAccess s off 0 else s, 0)
    | .reserved => (if o = .host then recordBadAccess s off 2 else s, 0)
    | .present => if (!guardedOrigin o && worldDenies s off v) || drvDenies s o off then (s, 0x07) else k

end Sys2Proof.Machine
end

