-- ==== Sys2Proof/Machine/Flags.lean ====
section
/-! DEFINITION. Saturation, rounding and the stochastic generator, with the SATF bits they set (R77 to R81). -/

namespace Sys2Proof.Machine

/-- SATF.ADD (R61). -/
def satfAdd : Word := 0x01
/-- SATF.ACC (R61). -/
def satfAcc : Word := 0x02
/-- SATF.NARROW (R61). -/
def satfNarrow : Word := 0x04
/-- SATF.VEC (R61). -/
def satfVec : Word := 0x08
/-- SATF.MACC (R61). -/
def satfMacc : Word := 0x10
/-- SATF.MNARROW (R61). -/
def satfMnarrow : Word := 0x20

/-- The largest signed value of `w` bits. -/
def maxSigned (w : Nat) : Int := 2 ^ (w - 1) - 1

/-- The smallest signed value of `w` bits. -/
def minSigned (w : Nat) : Int := -2 ^ (w - 1)

/-- A value saturated to `w` signed bits. -/
def satTo (w : Nat) (v : Int) : Int := if maxSigned w < v then maxSigned w else if v < minSigned w then minSigned w else v

/-- Whether saturation to `w` signed bits changes a value. -/
def saturates (w : Nat) (v : Int) : Bool := decide (maxSigned w < v) || decide (v < minSigned w)

/-- The next state of the generator (R80). -/
def nextRandom (x : Word) : Word :=
  let x := x ^^^ (x <<< 13)
  let x := x ^^^ (x >>> 17)
  x ^^^ (x <<< 5)

/-- The 16 bits a draw returns from the new state (R80). -/
def drawBits (x : Word) : Nat := x.toNat / 65536

/-- The rounded quotient of R79, before saturation: `d` bits are discarded under the mode, `r` is the draw. -/
def roundShift (v : Int) (d mode r : Nat) : Int :=
  let frac := v % 2 ^ d
  let half : Int := 2 ^ (d - 1)
  let q := v / 2 ^ d
  match mode with
  | 0 => q
  | 1 => if half ≤ frac then q + 1 else q
  | 2 => if half < frac ∨ (frac = half ∧ q % 2 = 1) then q + 1 else q
  | _ =>
    let add : Nat := if d ≤ 16 then r >>> (16 - d) else r <<< (d - 16)
    if (2 : Int) ^ d ≤ frac + add then q + 1 else q

/-- What a run of narrowings carries along: the generator, and whether one of them saturated. -/
structure Narrowing where
  seed : Word
  sat  : Bool
  deriving DecidableEq, Repr

/-- One narrowing (R79): one draw under STOCH and only there (R81). -/
def narrow (n : Narrowing) (mode : Nat) (v : Int) (d w : Nat) : Int × Narrowing :=
  let seed := if mode = 3 then nextRandom n.seed else n.seed
  let q := roundShift v d mode (drawBits seed)
  (satTo w q, ⟨seed, n.sat || saturates w q⟩)

/-- Narrowings of a list in ascending order (R81). -/
def narrowAll (n : Narrowing) (mode d w : Nat) : List Int → List Int × Narrowing
  | [] => ([], n)
  | v :: r =>
    let (q, n) := narrow n mode v d w
    let (qs, n) := narrowAll n mode d w r
    (q :: qs, n)

/-- The rounding mode of a thread (R61, R63). -/
def rmode (s : State) (h : Hart) : Nat := bits (thrCsr s h 0x000) 1 0

/-- The core's generator, with nothing saturated yet (R61). -/
def startNarrow (s : State) (h : Hart) : Narrowing := ⟨coreCsr s h.core 0x004, false⟩

/-- The generator and one SATF bit as a run of narrowings left them (R70, R81). -/
def endNarrow (s : State) (h : Hart) (n : Narrowing) (flag : Word) : State :=
  let s := if n.seed = coreCsr s h.core 0x004 then s else setCoreCsr s h.core 0x004 n.seed
  if n.sat then setSatf s h flag else s

/-- One SATF bit set where a condition holds. -/
def flagIf (s : State) (h : Hart) (c : Bool) (flag : Word) : State := if c then setSatf s h flag else s

end Sys2Proof.Machine
end

