-- ==== Sys2Proof/Machine/Operands.lean ====
section
/-! DEFINITION. The operand forms of instructions: immediates, targets, fixed-point halves and bytes, vector elements. -/

namespace Sys2Proof.Machine

/-- A sign-extended immediate (R93). -/
def sext {n : Nat} (v : BitVec n) : Word := v.signExtend 32

/-- A zero-extended immediate (R93). -/
def zext {n : Nat} (v : BitVec n) : Word := v.setWidth 32

/-- A branch, jump or loop target: the instruction's own address plus the displacement in words (R90). -/
def branchTarget {n : Nat} (pc : Word) (disp : BitVec n) : Word := pc + 4 * sext disp

/-- The low `w` bits of a register as a signed number (R77, R82). -/
def lowInt (w : Nat) (v : Word) : Int := (v.setWidth w).toInt

/-- A signed number as a register value. -/
def wordOf (v : Int) : Word := BitVec.ofInt 32 v

/-- The number of leading zeros (R93). -/
def leadingZeros (v : Word) : Nat := if v = 0 then 32 else 31 - Nat.log2 v.toNat

/-- The number of set bits (R93). -/
def popCount (v : Word) : Nat := (List.range 32).countP fun i => v.getLsbD i

/-- Element width in bits (R98). -/
def elemWidth : ElemType → Nat
  | .b8 => 8
  | .b16 => 16
  | .b32 => 32

/-- Number of elements of a vector register (R98). -/
def elemCount : ElemType → Nat
  | .b8 => 64
  | .b16 => 32
  | .b32 => 16

/-- Element `i` of a 512-bit register, unsigned (R98). -/
def elemU (et : ElemType) (v : Line) (i : Nat) : Nat := v.toNat >>> (i * elemWidth et) % 2 ^ elemWidth et

/-- Element `i` of a 512-bit register, signed (R98, R99). -/
def elemS (et : ElemType) (v : Line) (i : Nat) : Int := (BitVec.ofNat (elemWidth et) (elemU et v i)).toInt

/-- The number that elements of `w` bits spell, element 0 lowest. -/
def packBits (w : Nat) : List Int → Nat
  | [] => 0
  | x :: r => (x % 2 ^ w).toNat + 2 ^ w * packBits w r

/-- A 512-bit register built from its elements (R98). -/
def packElems (et : ElemType) (xs : List Int) : Line := BitVec.ofNat 512 (packBits (elemWidth et) xs)

/-- A vector register of a thread (R97). -/
def vreg (s : State) (h : Hart) (r : VReg) : Line := sget (thr s h).v r.toNat 0

/-- A vector register of a thread written. -/
def setVreg (s : State) (h : Hart) (r : VReg) (v : Line) : State :=
  modThr s h fun t => { t with v := sput t.v r.toNat v }

/-- The 64 bytes of a line. -/
def lineBytes (v : Line) : List Byte := leBytes 64 v.toNat

/-- A line from its bytes. -/
def bytesLine (bs : List Byte) : Line := BitVec.ofNat 512 (leNat bs)

/-! ### What tile and matrix instructions use (R120) -/

/-- The tiles and accumulators an instruction reads and writes, and whether it needs the matrix unit (R120). -/
structure TileUse where
  rdT : List TReg
  wrT : List TReg
  rdA : List AReg
  wrA : List AReg
  matrix : Bool
  deriving DecidableEq, Repr

/-- The use of a tile or matrix instruction; none for every other command. -/
def tileUse (i : Instr) : Option TileUse :=
  match i with
  | .stencil _ t _ | .tzero _ t | .texps _ t _ | .texpld _ t _ | .tld _ t _ _ | .vtr _ t _ _ => some ⟨[], [t], [], [], false⟩
  | .tst _ t _ _ | .texpst _ t _ | .trdsh _ t _ | .trv _ t _ _ => some ⟨[t], [], [], [], false⟩
  | .tmov _ t ts => some ⟨[ts], [t], [], [], false⟩
  | .mma _ a ta tb | .mms _ a ta tb | .cvmma _ a ta tb | .cvmms _ a ta tb => some ⟨[ta, tb], [], [a], [a], true⟩
  | .azero _ a _ => some ⟨[], [], [], [a], true⟩
  | .mnarrow _ td a _ => some ⟨[], [td], [a], [], true⟩
  | .ast _ a _ => some ⟨[], [], [a], [], false⟩
  | .ald _ a _ => some ⟨[], [], [], [a], false⟩
  | _ => none

end Sys2Proof.Machine
end

