-- ==== Sys2Proof/Machine/Lane.lean ====
section
/-! DEFINITION. The core's access paths: the checks at issue, local memory as a thread sees it, the lane port with its
line buffer, finish writes and failed stores, the outbox, event flags (R64 to R68, R140, R144, R202 to R211, R220 to R229). -/

namespace Sys2Proof.Machine

/-! ### Event flags (R140, R141) -/

/-- A waiting instruction of a thread ends and commits. -/
def endWait (s : State) (h : Hart) : State := retire (modThr s h fun t => { t with wait := .none, cur := none }) h

/-- An event flag set; a WFE that waits for it takes it in the same step, unless its core is halted (R140, R141, R157). -/
def setEvf (s : State) (h : Hart) (f : Nat) : State :=
  let t := thr s h
  let e := t.evf ||| BitVec.ofNat 8 (2 ^ (f % 8))
  match t.wait with
  | .wfe rd mask _ _ =>
    if e &&& mask = 0 ∨ (core s h.core).run ≠ .running then setThr s h { t with evf := e }
    else endWait (setGreg (setThr s h { t with evf := e &&& ~~~mask }) h rd ((e &&& mask).setWidth 32)) h
  | _ => setThr s h { t with evf := e }

/-! ### The checks of an access at issue (R64 to R67, R144, R203, R211) -/

/-- How an address of the core's view fares. -/
inductive ViewClass where
  | ok | tenancy | bus
  deriving DecidableEq, Repr

/-- The memory port refuses a device address: outside the tenant windows of the rectangle DRV_MEM.TAG names, a local memory
of no core of it, or a guarded range where that rectangle is not guarded (R269, R374). -/
def drvRefuses (s : State) (dev : Nat) : Bool :=
  let n := fld s Reg.drvMem 3 0
  !rectOn s n ||
    match target s dev with
    | .localMem c _ => decide (rectOf s c ≠ some n)
    | _ => !inWindow s n dev || (inGuardedRange s dev && !rectGuarded s n)

/-- The lane port refuses a device address for a thread: no rectangle, outside its windows, another core's local memory,
or against the worlds (R144, R211). A Drover core reaches device memory over the memory port (R371, R374). -/
def laneRefuses (s : State) (h : Hart) (dev : Nat) : Bool :=
  if isDrvCore h.core then drvRefuses s dev
  else
    match rectOf s h.core with
    | none => true
    | some n =>
      let g := (thr s h).mode.guarded
      let other := match target s dev with
        | .localMem c _ => decide (c ≠ h.core)
        | _ => false
      !inWindow s n dev || other || (inGuardedRange s dev && (!g || !rectGuarded s n))

/-- How one byte of the core's view fares: tenancy before a hole (R453). -/
def viewClass (s : State) (h : Hart) (va : Word) : ViewClass :=
  match coreView s h va with
  | .hole => .bus
  | .drvReg _ => .ok
  | .own off => if inGlmem s h.core off && !(thr s h).mode.guarded then .tenancy else .ok
  | .far d => if laneRefuses s h d then .tenancy else if unreachable s d then .bus else .ok

/-- The lowest byte of a range with a given class. -/
def firstOfClass (s : State) (h : Hart) (va : Word) (n : Nat) (c : ViewClass) : Option Word :=
  ((List.range n).map fun i => va + BitVec.ofNat 32 i).find? fun a => viewClass s h a = c

/-- The tenancy or bus-error trap of an access of `n` bytes (R65, R144, R151, R203). -/
def viewTrap (s : State) (h : Hart) (va : Word) (n : Nat) : Option Trap :=
  match firstOfClass s h va n .tenancy with
  | some a => some (trapTenancy a)
  | none => (firstOfClass s h va n .bus).map fun a => trapBus a 0x01

/-- An access of `n` bytes that is not aligned to `n` (R67). -/
def misaligned (va : Word) (n : Nat) : Bool := decide (va.toNat % n ≠ 0)

/-! ### The outbox (R208) -/

/-- The first outbox line of a core (R217; log entry 16). -/
def outboxLine (s : State) (c : Nat) : Nat :=
  if isDrvCore c then Config.drvOutboxLine c % 4096 else fld s (Reg.cmpCrOutbox c) 12 0

/-- The outbox is in use (R217; log entry 16). -/
def outboxOn (s : State) (c : Nat) : Bool := isDrvCore c || flag s (Reg.cmpCrOutbox c) 16

/-- The event flag a configuration response sets (R217; log entry 16). -/
def rspFlag (s : State) (c : Nat) : Nat := if isDrvCore c then 7 else fld s (Reg.cmpCrOutbox c) 22 20

/-- The response deadline (R217; log entry 16). -/
def crDeadline (s : State) (c : Nat) : Nat := if isDrvCore c then 10000 else (reg s (Reg.cmpCrDl c)).toNat

/-- Local offset of a thread's outbox line (R208). -/
def outboxOff (s : State) (h : Hart) : Nat := 64 * (outboxLine s h.core + h.tid.toNat)

/-- The node takes a GO store of a thread: words 0 to 3 copied, word 5 cleared, the busy bit set (R208). -/
def takeGo (s : State) (h : Hart) : State :=
  if !outboxOn s h.core || (thr s h).outbox.isSome then s
  else
    let off := outboxOff s h
    let a := localBase h.core + off
    let s := demandRead s a 64
    let ws := (List.range 4).map fun i => localWord s h.core (off + 4 * i)
    let pz := isPoisoned s a 64
    let m := (thr s h).mode
    let s := writeLocal s h.core (off + 20) (leBytes 4 0)
    modThr s h fun t => { t with outbox := some ⟨ws, pz, m, .go⟩ }

/-- A committed store of a thread into its own core's local memory; one that writes byte 3 of word 0 of its own outbox
line with bit 7 set sends (R70, R208). -/
def storeLocal (s : State) (h : Hart) (off : Nat) (bs : List Byte) : State :=
  let goOff := outboxOff s h + 3
  let s' := writeLocal s h.core off bs
  if decide (off ≤ goOff) && decide (goOff < off + bs.length) && bit (nth bs (goOff - off) 0) 7 then takeGo s' h else s'

/-! ### The lane port (R202, R203, R220 to R223) -/

/-- The lane accesses of a core's tile channels that are in flight: those that have started and have no answer (R287). -/
def tileInFlight (s : State) (c : Nat) : Nat :=
  ((core s c).tdma.map fun p => (p.2.descs.map fun d => d.waits.countP fun w =>
    (w.op.isNone || w.reached.isSome) && (w.write || w.got.isNone)).sum).sum

/-- The outstanding accesses of a core's lane port: its own and those of its tile channels (R202, R287). -/
def laneUsed (s : State) (c : Nat) : Nat := (core s c).lane.length + tileInFlight s c

/-- The port holds its 16 accesses (R202). -/
def laneFull (s : State) (c : Nat) : Bool := decide (16 ≤ laneUsed s c)

/-- An access of a core's port. -/
def laneFind (s : State) (c id : Nat) : Option LaneAccess := (core s c).lane.find? fun a => a.id == id

/-- An access of a core's port changed. -/
def laneMod (s : State) (c id : Nat) (f : LaneAccess → LaneAccess) : State :=
  modCore s c fun k => { k with lane := k.lane.map fun a => if a.id = id then f a else a }

/-- An access that stores. -/
def LaneAccess.isStore (a : LaneAccess) : Bool :=
  match a.kind with
  | .store _ => true
  | _ => false

/-- The access is a read of a step of a long instruction (R83). -/
def AccessKind.isLongStep : AccessKind → Bool
  | .longStep _ => true
  | _ => false

/-- The bytes an access asks for. -/
def LaneAccess.size (a : LaneAccess) : Nat :=
  match a.kind with
  | .load _ n _ => n
  | .store bs => bs.length
  | .window => 64
  | .fetch => 64
  | .longStep n => n

/-- The point of coherence of a far-view address: the far tier's and the host window's are Serais, by number (R218). -/
def pocOf (s : State) (a : Nat) : Nat × Nat :=
  match target s a with
  | .near u => (0, u)
  | .far p => (1, p / 2)
  | .peer k _ => (2, k)
  | .localMem c _ => (3, c)
  | _ => (1, 0)

/-- The bytes of two accesses meet. -/
def LaneAccess.meets (a b : LaneAccess) : Bool := decide (b.addr < a.addr + a.size) && decide (a.addr < b.addr + b.size)

/-- An older access of the same thread that has not performed keeps an access from performing: one to the same bytes, or,
for a store, a store to the same point of coherence (R220, R222). -/
def laneBlocked (s : State) (c : Nat) (a : LaneAccess) : Bool :=
  (core s c).lane.any fun b => decide (b.id < a.id) && decide (b.tid = a.tid) && b.result.isNone &&
    ((a.isStore && b.isStore && decide (pocOf s b.addr = pocOf s a.addr)) ||
      (a.kind != .fetch && b.kind != .fetch && a.meets b))

/-- The bytes of `old`, at address `base`, with those of a store laid over them. -/
def overlay (base : Nat) (old : List Byte) (a : Nat) (bs : List Byte) : List Byte :=
  old.mapIdx fun i b => if a ≤ base + i ∧ base + i < a + bs.length then nth bs (base + i - a) b else b

/-- The port's own store has written bytes of a line: a line that its buffer holds is updated, and so is one that a load in
flight will bring (R223). -/
def bufferStore (s : State) (c a : Nat) (bs : List Byte) : State :=
  modCore s c fun k => { k with
    readBuf := k.readBuf.map fun l => (l.1, overlay (128 * l.1) l.2 a bs)
    lane := k.lane.map fun b => if b.addr / 128 = a / 128 then { b with laid := b.laid ++ [(a, bs)] } else b }

/-- A store of the thread itself to some of these bytes has not ended: the buffer may not serve them yet (R220). -/
def ownStoreOpen (s : State) (h : Hart) (a n : Nat) : Bool :=
  (core s h.core).lane.any fun b => decide (b.tid = h.tid) && b.isStore && decide (b.addr < a + n) &&
    decide (a < b.addr + b.size)

/-- The line of an address that the buffer holds (R223). -/
def bufferLine (s : State) (c a : Nat) : Option (List Byte) :=
  ((core s c).readBuf.find? fun l => l.1 == a / 128).map Prod.snd

/-- The buffer emptied (R223). -/
def bufferEmpty (s : State) (c : Nat) : State := modCore s c fun k => { k with readBuf := [] }

/-- A line taken into the buffer of 4; which one it displaces is free (R223; log entry 14). -/
def bufferFill (s : State) (c a : Nat) (line : List Byte) : State :=
  let k := core s c
  if line.length < 128 then s else
  let rest := k.readBuf.filter fun l => l.1 != a / 128
  let v := (Config.bufferVictim k.laneNext).toNat
  let rest := if rest.length < 4 then rest else rest.eraseIdx v
  setCore s c { k with readBuf := rest ++ [(a / 128, line)], laneNext := k.laneNext + 1 }

/-- An access put in the port (R202, R203). A store under an arming of the thread's level is a finish write: it is held,
covering every older far-view store of the thread (R228, R229). -/
def laneSend (s : State) (h : Hart) (kind : AccessKind) (va : Word) (dev : Nat) (volat : Bool) : State :=
  let k := core s h.core
  let t := thr s h
  let a : LaneAccess := ⟨k.laneNext, h.tid, kind, va, dev, volat, now s, true, false, [], none, none, [], none⟩
  let armed := a.isStore && bit t.finArmed t.level.toNat
  let cov := (k.lane.filter fun b => decide (b.tid = h.tid) && b.isStore).map LaneAccess.id
  let a := if armed then { a with sent := false, finish := true, covers := cov } else a
  let s := setCore s h.core { k with lane := k.lane ++ [a], laneNext := k.laneNext + 1 }
  if armed then modThr s h fun t => { t with finArmed := t.finArmed &&& ~~~BitVec.ofNat 4 (2 ^ t.level.toNat) } else s

/-- The number the next access of a port gets. -/
def laneId (s : State) (c : Nat) : Nat := (core s c).laneNext

/-- The courier node of the router an access goes to: the expected sender of a timeout (R203, R204, R374). -/
def targetNode (s : State) (c dev : Nat) : Nat :=
  if isDrvCore c then 0x300
  else match target s dev with
    | .near u => 0x310 + u
    | .far p => 0x300 + p / 2
    | .peer k _ => 0x300 + fld s (Reg.lnkRoute k) 1 1
    | _ => 0x300

/-- The deadline of a port's accesses in nanoseconds (R217, R374). -/
def laneDeadline (s : State) (c : Nat) : Nat :=
  if isDrvCore c then (reg s Reg.drvMemDl).toNat else (reg s (Reg.cmpLpDl c)).toNat

/-- The first store fault of a port recorded: the record is frozen while VALID is set (R203, R217). -/
def recordLaneFault (s : State) (c status addr : Nat) : State :=
  if isDrvCore c || flag s (Reg.cmpLpFault c) 31 then s
  else
    let s := setReg s (Reg.cmpLpFault c) (BitVec.ofNat 32 (status % 256 + 2 ^ 31))
    setReg s (Reg.cmpLpAddrHi c) (BitVec.ofNat 32 (addr / 2 ^ 32)) |> fun s => setReg s (Reg.cmpLpAddrLo c) (BitVec.ofNat 32 addr)

/-- An error record of a store of a thread that nothing consumed (R227, R344). -/
def logStoreFailure (s : State) (h : Hart) (status addr : Nat) : State :=
  match ctxOfCore s h.core with
  | some x => logError s ⟨some x, BitVec.ofNat 8 status, 1, BitVec.ofNat 12 (h.core % 4096), h.tid, addr, 0, now s, none, false⟩
  | none => s

/-- What a held finish write learns when a store it may cover fails (R229). -/
def coverFailed (id status : Nat) (a : LaneAccess) : LaneAccess :=
  if a.covers.any (· == id) then
    { a with covers := a.covers.filter (· != id), covFail := some (a.covFail.getD (BitVec.ofNat 8 status)) }
  else a

/-- A store that failed: line 30, CMP_LP_FAULT, and the pending failure, or the error ring where that is taken; held
finish writes that cover it learn of it (R203, R225, R227, R229). -/
def storeFailed (s : State) (h : Hart) (id status addr : Nat) : State :=
  let s := raiseLine (recordLaneFault s h.core status addr) h.core 30 (BitVec.ofNat 32 status)
  let s := match (thr s h).pendFail with
    | none => modThr s h fun t => { t with pendFail := some ⟨BitVec.ofNat 8 status, addr⟩ }
    | some _ => logStoreFailure s h status addr
  modCore s h.core fun k => { k with lane := k.lane.map (coverFailed id status) }

/-- A store that is acknowledged with OK: the finish writes that cover it stop waiting for it (R229). -/
def storeAcked (s : State) (h : Hart) (id : Nat) : State :=
  modCore s h.core fun k => { k with lane := k.lane.map fun a => { a with covers := a.covers.filter (· != id) } }

/-- An access leaves the port. -/
def laneDrop (s : State) (c id : Nat) : State :=
  modCore s c fun k => { k with lane := k.lane.filter fun a => a.id != id }

/-- A thread of a core has no far-view access left (R226). -/
def laneClear (s : State) (h : Hart) : Bool := (core s h.core).lane.all fun a => decide (a.tid ≠ h.tid)

/-- The commit of a FENCE with FV: the buffer is emptied, rd takes the pending failure, which is consumed (R226,
R227). -/
def commitFence (s : State) (h : Hart) (rd : GReg) : State :=
  let st : Byte := match (thr s h).pendFail with
    | some f => f.status
    | none => 0
  endWait (setGreg (modThr (bufferEmpty s h.core) h fun t => { t with pendFail := none }) h rd (st.setWidth 32)) h

/-- A FENCE that waits commits once every far-view access of its thread has ended, unless its core is halted (R157,
R226). -/
def wakeFence (s : State) (h : Hart) : State :=
  match (thr s h).wait with
  | .fence rd => if laneClear s h && decide ((core s h.core).run = .running) then commitFence s h rd else s
  | _ => s

/-- A thread of a core by number. -/
def hartOf (c : Nat) (t : BitVec 2) : Hart := ⟨c, t⟩

/-! ### Commit in program order (R69 to R71) -/

/-- A fill of the reuse latch in progress is void where its MMA or MMS is squashed or abandoned (R118, R122, R123). -/
def voidFill (s : State) (h : Hart) (i : Option Instr) : State :=
  match i with
  | some (.mma _ _ _ tb) | some (.mms _ _ _ tb) =>
    if (core s h.core).latch = some tb then s else modCore s h.core fun k => { k with latch := none }
  | _ => s

/-- A trap squashes what the thread has issued behind it: a tile or matrix instruction leaves no effect, and the cycles it
ran, at most 2, are waste in which its unit ran (R71, R122, R125). -/
def squashYounger (s : State) (h : Hart) : State :=
  let t := thr s h
  let n := Nat.min 2 (coreCycle s h.core - t.curAt)
  let s := match t.cur.bind tileUse with
    | some u =>
      if t.wait = .tile then countCore (countCore s h.core 0x103 n) h.core (if u.matrix then 0x100 else 0x106) n else s
    | none => s
  voidFill (modThr s h fun t => { t with window := [], wait := .none, cur := none }) h t.cur

/-- The issued instructions of a thread commit, oldest first, up to one that still awaits its answer; a trap is taken with
EPC at its instruction (R69 to R71, R146). -/
def commitWindow (h : Hart) : List Issued → State → State
  | [], s => modThr s h fun t => { t with window := [] }
  | e :: r, s =>
    match e.held with
    | .load _ => modThr s h fun t => { t with window := e :: r }
    | .trap tr => takeTrap (squashYounger s h) h tr e.pc
    | .ready v => commitWindow h r (noteHandlerIssue (countCore (setGreg s h e.rd v) h.core (0x108 + h.tid.toNat) 1) h)
    | .store off bs => commitWindow h r (noteHandlerIssue (countCore (storeLocal s h off bs) h.core (0x108 + h.tid.toNat) 1) h)

/-- The answer of an issued load: the load commits with it, once every older instruction has, and so do those behind it that
are done; the answer of a load that was squashed, or whose core has halted, is discarded (R69, R71, R74, R157). -/
def answerLoad (s : State) (h : Hart) (id : Nat) (v : Held) : State :=
  if (core s h.core).run ≠ .running then s
  else
    let w := (thr s h).window.map fun e => if e.held = .load id then { e with held := v } else e
    if w = (thr s h).window then s else commitWindow h w s

/-- A load that is still awaited by its thread (R74). -/
def loadIssued (s : State) (h : Hart) (id : Nat) : Bool := (thr s h).window.any fun e => e.held == .load id

/-- A store in the thread's window, not committed, writes some of these bytes of local memory (R70, R220). -/
def storeHeld (s : State) (h : Hart) (off n : Nat) : Bool :=
  (thr s h).window.any fun e =>
    match e.held with
    | .store o bs => decide (o < off + n) && decide (off < o + bs.length)
    | _ => false

end Sys2Proof.Machine
end

