-- ==== Sys2Proof/Machine/LinkPort.lean ====
section
/-! DEFINITION. The sending side of the chip-to-chip links: bundles, transaction tags, the replay buffer (R350 to R364). -/

namespace Sys2Proof.Machine

/-- A bundle of a Serai beside its registers. -/
def bundle (s : State) (i b : Nat) : Bundle := sget s.bundles (16 * i + b) Bundle.reset

/-- A bundle changed. -/
def modBundle (s : State) (i b : Nat) (f : Bundle → Bundle) : State :=
  { s with bundles := sput s.bundles (16 * i + b) (f (bundle s i b)) }

/-- LNK_STAT.STATE: 0 down, 1 training, 2 ready, 3 retraining, 4 failed (R368). -/
def linkState (s : State) (i l : Nat) : Nat := fld s (Reg.lnkStat i l) 2 0

/-- The bundle of a link (R368). -/
def linkBundle (s : State) (i l : Nat) : Nat := fld s (Reg.lnkCtl i l) 7 4

/-- The live links of a bundle (R356). -/
def liveLinks (s : State) (i b : Nat) : List Nat :=
  (List.range 32).filter fun l => decide (linkState s i l = 2) && decide (linkBundle s i l = b)

/-- LNK_BND_STAT.STATE: 0 idle, 1 up, 2 lost, 3 syncing (R369). -/
def bundleState (s : State) (i b : Nat) : Nat := fld s (Reg.lnkBndStat i b) 1 0

/-- The state of a bundle set. -/
def setBundleState (s : State) (i b st : Nat) : State := setFld s (Reg.lnkBndStat i b) 1 0 st

/-- A link beside its registers. -/
def linkSt (s : State) (i l : Nat) : LinkSt := sget s.links (32 * i + l) LinkSt.reset

/-- A link changed. -/
def modLinkSt (s : State) (i l : Nat) (f : LinkSt → LinkSt) : State :=
  { s with links := sput s.links (32 * i + l) (f (linkSt s i l)) }

/-- The frame time of a link at its generation, in sevenths of a nanosecond (R350). -/
def frameTime (s : State) (i l : Nat) : Nat := if fld s (Reg.lnkStat i l) 4 3 = 1 then 288 else 144

/-- When a link can begin its next frame: at a frame boundary, once it has sent what it was given (R350, R356). -/
def linkBegins (s : State) (i l : Nat) : Nat :=
  let x := linkSt s i l
  let t := frameTime s i l
  x.phase + (Nat.max (7 * now s) x.freeAt - x.phase + t - 1) / t * t

/-- The live link of a bundle that can begin a frame soonest, the lowest number on a tie (R356). -/
def nextLink (s : State) (i b : Nat) : Option Nat :=
  (liveLinks s i b).foldl (fun best l =>
    match best with
    | none => some l
    | some k => if linkBegins s i l < linkBegins s i k then some l else best) none

/-- A frame given to a link: it carries the number its bundle expects next, the part's chip_id and the link's global number
(R353, R358). -/
def giveFrame (s : State) (i b l kind : Nat) (seq : BitVec 16) (units : List LinkUnit) : State :=
  let f : Frame := ⟨seq, (bundle s i b).expect, kind, BitVec.ofNat 6 (fld s Reg.lnkChip 5 0), BitVec.ofNat 6 (32 * i + l), units⟩
  let free := linkBegins s i l + frameTime s i l
  modLinkSt s i l fun x => { x with freeAt := free, out := frameBytes f }

/-- Units waiting to be sent go out in DATA frames of up to two, as far as the replay buffer of 128 frames allows (R353,
R356). -/
def pumpFrames (i b : Nat) : Nat → State → State
  | 0, s => s
  | n + 1, s =>
    let x := bundle s i b
    if x.outbox.isEmpty || decide (128 ≤ x.replay.length) then s
    else
      match nextLink s i b with
      | none => s
      | some l =>
        pumpFrames i b n (modBundle (giveFrame s i b l 0 x.seqNext (x.outbox.take 2)) i b fun x => { x with
          replay := x.replay ++ [⟨x.seqNext, now s, x.outbox.take 2, l⟩]
          seqNext := x.seqNext + 1
          outbox := x.outbox.drop 2 })

/-- The REPLAY frame that a bundle owes its peer goes out on the next frame boundary of a live link; its SEQ is sent as 0 (R358;
log entry 61). -/
def sendReplay (s : State) (i b : Nat) : State :=
  match (bundle s i b).replayRq, nextLink s i b with
  | true, some l => modBundle (giveFrame s i b l 2 0 []) i b fun x => { x with replayRq := false }
  | _, _ => s

/-- A bundle that is up and has a live link sends what it holds, a REPLAY frame first (R356, R358, R361). -/
def pumpBundle (s : State) (i b : Nat) : State :=
  if decide (bundleState s i b = 1) && !(liveLinks s i b).isEmpty then
    pumpFrames i b (bundle s i b).outbox.length (sendReplay s i b)
  else s

/-- A unit handed to a bundle. -/
def sendUnit (s : State) (i b : Nat) (u : LinkUnit) : State :=
  pumpBundle (modBundle s i b fun x => { x with outbox := x.outbox ++ [u] }) i b

/-- A transaction tag that no outstanding access holds (R354, R363). -/
def freeItag (x : Bundle) : Option (BitVec 12) :=
  ((List.range 4096).map fun n => x.itagNext + BitVec.ofNat 12 n).find? fun t => x.itags.all fun e => e.1 != t

/-- The Serai and bundle that serve chip k (R365). -/
def routeOf (s : State) (k : Nat) : Nat × Nat := (fld s (Reg.lnkRoute k) 1 1, fld s (Reg.lnkRoute k) 5 2)

/-- How a request to another chip fares at its bundle (R360, R361, R363). -/
inductive LinkSend where
  | sent (s : State)
  | lost
  | waits

/-- A request to chip k for line `line` of its window: it takes a tag and waits for its answer; a lost bundle fails it at
once (R354, R360, R363). -/
def linkIssue (s : State) (k line : Nat) (rq : Requester) (mk : BitVec 12 → LinkUnit) : LinkSend :=
  let (i, b) := routeOf s k
  let x := bundle s i b
  if bundleState s i b = 2 then .lost
  else
    match freeItag x with
    | none => .waits
    | some t =>
      let s := modBundle s i b fun x => { x with itags := x.itags ++ [(t, rq, line)], itagNext := t + 1 }
      .sent (sendUnit s i b (mk t))

/-- The tag of a unit, as its descriptor carries it (R354). -/
def unitTag (u : LinkUnit) : Option (BitVec 12) :=
  match u with
  | .write t .. => some t
  | .read t .. => some t
  | .share t .. => some t
  | .rawblk t .. => some t
  | .cread t .. => some t
  | _ => none

/-- An access that ended at its agent's deadline while it waited at its bundle is sent no more: its unit leaves the outbox and
its tag is free. A unit that has been sent keeps its tag until its answer (R225, R361, R363). -/
def forgetIn (rq : Requester) (x : Bundle) : Bundle :=
  let open' := (x.itags.filter fun e => decide (e.2.1 = rq)).map Prod.fst
  let mine := fun u : LinkUnit => match unitTag u with
    | some t => open'.contains t
    | none => false
  let gone := (x.outbox.filter mine).filterMap unitTag
  { x with
    outbox := x.outbox.filter fun u => !mine u
    itags := x.itags.filter fun e => !gone.contains e.1 }

/-- The access of a requester ended at its deadline: no bundle sends it any more (R225, R361). -/
def linkForget (s : State) (rq : Requester) : State :=
  { s with bundles := s.bundles.map fun e => (e.1, forgetIn rq e.2) }

/-- The LINE field of a peer-window offset (R354). -/
def lineField (off : Nat) : BitVec 31 := BitVec.ofNat 31 (off / 128)

/-- A WRITE of bytes within one line (R354). -/
def writeUnit (off : Nat) (bs : List Byte) (t : BitVec 12) : LinkUnit := .write t (lineField off) (BitVec.ofNat 7 (off % 128)) bs

/-- A READ of `n` bytes within one line (R354). -/
def readUnit (off n : Nat) (t : BitVec 12) : LinkUnit :=
  .read t (lineField off) (BitVec.ofNat 7 (off % 128)) (BitVec.ofNat 7 (n - 1))

/-- A bundle waits for the answer to an access of a lane port. -/
def laneOnLink (s : State) (i b c id : Nat) : Bool := (bundle s i b).itags.any fun e => decide (e.2.1 = .lane c id)

/-- A lane access to a peer window is handed to its bundle, after the older stores of its thread to that chip (R222,
R363). -/
def laneToLink (s : State) (c : Nat) (a : LaneAccess) : State :=
  match target s a.addr with
  | .peer k off =>
    let (i, b) := routeOf s k
    let older := (core s c).lane.any fun x => decide (x.id < a.id) && decide (x.tid = a.tid) && x.isStore && x.result.isNone &&
      decide (pocOf s x.addr = pocOf s a.addr) && !laneOnLink s i b c x.id
    if !a.sent || a.result.isSome || laneOnLink s i b c a.id || older then s
    else
      let mk := match a.kind with
        | .store bs => writeUnit off bs
        | _ => readUnit off a.size
      match linkIssue s k (off / 128) (.lane c a.id) mk with
      | .sent s => s
      | .lost => laneMod s c a.id fun x => { x with result := some (.fail 0x08) }
      | .waits => s
  | _ => s

end Sys2Proof.Machine
end

