-- ==== Sys2Proof/Machine/LanePort.lean ====
section
/-! DEFINITION. The events of a core's lane port, its instruction fetch and cache, and FENCE (R96, R195, R203, R225 to R229,
R258, R455). -/

namespace Sys2Proof.Machine

/-! ### The instruction cache (R258) -/

/-- The way of a line's set that holds it; a line is named by its device address over 64. -/
def icWay (s : State) (c line : Nat) : Option Nat :=
  ((core s c).icache.find? fun e => decide (e.1 / 4 = line % 64) && decide (e.2.1 = line)).map Prod.fst

/-- The cached copy of a line. -/
def icLine (s : State) (c line : Nat) : Option Line :=
  ((core s c).icache.find? fun e => decide (e.1 / 4 = line % 64) && decide (e.2.1 = line)).map fun e => e.2.2

/-- The cached copy that a fetch meets: a line whose parity is wrong is given up and fetched again (R258; a free choice, log
entry 54). -/
def icMeet (s : State) (c line : Nat) : State × Option Line :=
  match icLine s c line with
  | none => (s, none)
  | some l =>
    if Config.icParity s.tb line then
      (modCore s c fun k => { k with icache := k.icache.filter fun e => decide (e.2.1 ≠ line) }, none)
    else (s, some l)

/-- The instruction cache is enabled (R258, R265); the Drover's cores have no such register. -/
def icOn (s : State) (c : Nat) : Bool := isDrvCore c || flag s (Reg.cmpIcCtl c) 0

/-- A line put in the cache: in a way that holds nothing, or in a free choice of way (R258; log entry 9). -/
def icFill (s : State) (c line : Nat) (v : Line) : State :=
  if !icOn s c || (icWay s c line).isSome then s
  else
    let k := core s c
    let set := line % 64
    let free := (List.range 4).find? fun w => (k.icache.find? fun e => e.1 == 4 * set + w).isNone
    let w := free.getD (Config.icVictim k.icFills).toNat
    setCore s c { k with icache := sput k.icache (4 * set + w) (line, v), icFills := k.icFills + 1 }

/-- Word of a 64-byte line at a byte offset. -/
def lineWord (v : Line) (off : Nat) : Word := BitVec.ofNat 32 (v.toNat >>> (8 * (off % 64)))

/-- The instruction word a fetch brings: a word that is no instruction raises the illegal-instruction trap at its issue,
and so does a vector, tile or matrix word on a Drover core (R91, R371, R455). -/
def fetchWord (s : State) (h : Hart) (w : Word) : State :=
  if (Sys2Proof.decode h w).isNone || (isDrvCore h.core && decide (24 ≤ bits w 31 27)) then
    if (thr s h).window.isEmpty then takeTrap s h (trapIllegal w) (thr s h).pc
    else modThr s h fun t => { t with wait := .none }
  else modThr s h fun t => { t with fetched := some w, wait := .none }

/-- A fetch that fails traps at its instruction's turn: once every older instruction has committed (R455). -/
def fetchTrap (s : State) (h : Hart) (tr : Trap) : State :=
  if (thr s h).window.isEmpty then takeTrap s h tr (thr s h).pc else s

/-- The cached copy of a line, if the cache is enabled and serves it (R258). -/
def icServe (s : State) (c line : Nat) : State × Option Line := if icOn s c then icMeet s c line else (s, none)

/-- INSTRUCTION_FETCH: one fetch at the thread's program counter (R64, R144, R203, R258, R455). -/
def execInstructionFetch (h : Hart) (s : State) : Host.Outcome State Fault Refusal :=
  let t := thr s h
  let pc := t.pc
  if !(canIssue s h || canFollow s h) || t.fetched.isSome || (core s h.core).iflush then .next s
  else
    match viewTrap s h pc 4 with
    | some tr => .next (fetchTrap s h tr)
    | none =>
      match coreView s h pc with
      | .hole => .next s
      | .drvReg off => .next (fetchWord s h (reg s off))
      | .own off =>
        let a := localBase h.core + off
        match icServe s h.core (a / 64) with
        | (s, some l) => .next (fetchWord s h (lineWord l off))
        | (s, none) =>
          let s := demandRead s (a / 64 * 64) 64
          if isPoisoned s (a / 64 * 64) 64 then .next (fetchTrap s h (trapPoison pc))
          else
            let l := bytesLine (readMem s (a / 64 * 64) 64)
            .next (fetchWord (icFill s h.core (a / 64) l) h (lineWord l off))
      | .far d =>
        match icServe s h.core (d / 64) with
        | (s, some l) => .next (fetchWord s h (lineWord l d))
        | (s, none) =>
          if laneFull s h.core then .next s
          else
            let id := laneId s h.core
            let s := laneSend s h .fetch pc (d / 64 * 64) false
            .next (modThr s h fun t => { t with wait := .farLoad id })

/-- IFLUSH: the core starts to invalidate its instruction cache (R96). -/
def execIflush (h : Hart) (s : State) : Host.Outcome State Fault Refusal :=
  issue s h (.ok (retire (modCore s h.core fun k => { k with iflush := true }) h))

/-- IFLUSH_DONE: the cache is empty and fetches complete again (R96). -/
def execIflushDone (core : Nat) (s : State) : Host.Outcome State Fault Refusal :=
  when s (Machine.core s core).iflush (modCore s core fun k => { k with iflush := false, icache := [] })

/-! ### Slots and paths (R189 to R194, R198, R244 to R248) -/

/-- The entry of a slot table in force (R193). -/
def slotEntry (s : State) (lane index : Nat) : Nat :=
  let w := sget s.slotNow (16 * lane + index / 4) 0
  bits w (8 * (index % 4) + 7) (8 * (index % 4))

/-- A near-tier unit. -/
def memUnit (s : State) (u : Nat) : Unit := sget s.units u Unit.reset

/-- The refresh mask of step `n` in force (R244). -/
def refMask (s : State) (u n : Nat) : DWord :=
  sget (memUnit s u).refNow n (BitVec.ofNat 64 (if n = 0 then 0x8000000000000000 else if n = 1 then 0x8000000080000000 else 0x8000800080008000))

/-- The mask of gear `g` in force; gear 0 removes nothing (R245). -/
def gearMask (s : State) (u g : Nat) : DWord :=
  if g = 0 then 0
  else sget (memUnit s u).gearNow g
    (BitVec.ofNat 64 (if g = 1 then 0x8888888888888888 else if g = 2 then 0xAAAAAAAAAAAAAAAA else 0xEEEEEEEEEEEEEEEE))

/-- Index k is usable at the unit's port (R247). -/
def indexUsable (s : State) (u k : Nat) : Bool :=
  !bit (refMask s u (fld s (Reg.hbmStat u) 4 3)) k && !bit (gearMask s u (fld s (Reg.hbmStat u) 6 5)) k

/-- The TARGET of a place on its rim: place 0 is Serai 0, 1 to 4 are the stacks, 5 is Serai 1; rim segment i of an edge joins
the places i and i + 1 (R189, R193). -/
def placeCode (p : Nat) : Nat := if p = 0 then 4 else if p = 5 then 5 else p - 1

/-- Where a beat to a device address leaves the lanes: the near-tier unit, if it is one, else the Serai (R198). -/
def exitOf (s : State) (dev : Nat) : Option Nat × Nat :=
  match target s dev with
  | .near u => (some u, 0)
  | .far p => (none, p / 2)
  | .peer k _ => (none, fld s (Reg.lnkRoute k) 1 1)
  | _ => (none, 0)

/-- A segment of a path outward: its lane, the TARGETs its slots may have, and how many segments follow it. -/
structure Hop where
  lane    : Nat
  targets : List Nat
  after   : Nat
  deriving DecidableEq, Repr

/-- The rim segments of an edge from one place to another, in the order a beat takes them (R189, R193, R194). -/
def rimHops (south : Bool) (a b : Nat) : List Hop :=
  let segs := if a ≤ b then (List.range (b - a)).map (a + ·) else (List.range (a - b)).map (a - 1 - ·)
  segs.zipIdx.map fun x =>
    let last := decide (x.2 + 1 = segs.length)
    ⟨(if south then 117 else 112) + x.1, if last then [placeCode b] else [placeCode b, 6], segs.length - 1 - x.2⟩

/-- The Serai a core's row half-lane reaches (R189, R191). -/
def rowSerai (s : State) (c : Nat) : Nat := if s.pkg.nSerai = 1 || decide (c % 32 < 16) then 0 else 1

/-- The place of a Serai on a rim (R189). -/
def seraiPlace (i : Nat) : Nat := if i = 0 then 0 else 5

/-- The column half-lane of core `c`, for slots of TARGET `t`, with `n` segments after it (R189). -/
def columnHop (c t n : Nat) : Hop := ⟨if 12 ≤ c / 32 then 32 + c % 32 else c % 32, [t], n⟩

/-- The row half-lane of core `c`, for slots of TARGET `t`, with `n` segments after it (R189, R191). -/
def rowHop (s : State) (c t n : Nat) : Hop := ⟨if rowSerai s c = 0 then 64 + c / 32 else 88 + c / 32, [t], n⟩

/-- A half-lane and the rim segments after it: its beats cross the router at its end where there are some (R193). -/
def hopThen (h : Nat → Nat → Hop) (r : List Hop) : List Hop := h (if r.isEmpty then 0 else 6) r.length :: r

/-- The path of core `c` to a near-tier unit, outward (R198). -/
def coreToUnit (s : State) (c u : Nat) : List Hop :=
  if decide (4 ≤ u) = decide (12 ≤ c / 32) then hopThen (columnHop c) (rimHops (decide (4 ≤ u)) (c % 32 / 8 + 1) (u % 4 + 1))
  else hopThen (rowHop s c) (rimHops (decide (4 ≤ u)) (seraiPlace (rowSerai s c)) (u % 4 + 1))

/-- The path of core `c` to a Serai, outward (R198). -/
def coreToSerai (s : State) (c e : Nat) : List Hop :=
  hopThen (rowHop s c) (if e = rowSerai s c then [] else rimHops false (seraiPlace (rowSerai s c)) (seraiPlace e))

/-- The path of core `c` to a device address, outward (R198). -/
def pathHops (s : State) (c dev : Nat) : List Hop :=
  match exitOf s dev with
  | (some u, _) => coreToUnit s c u
  | (none, e) => coreToSerai s c e

/-- The TARGET values a beat of core `c` to a device address may find in a slot of a lane on its path; none where the
lane is not on the path (R194, R198). -/
def pathTargets (s : State) (c dev lane : Nat) : List Nat :=
  match (pathHops s c dev).find? fun h => h.lane == lane with
  | some h => h.targets
  | none => []

/-- The slot of index k of a segment names the router whose port the beat enters or leaves there (R193). -/
def namesPort (u lane e : Nat) : Bool := if 112 ≤ lane then decide (e / 32 = u % 4) else decide (e / 32 = 0)

/-- The index at which a beat in slot k of a segment enters or leaves the port of its unit (R192, R247). -/
def portIndex (h : Hop) (out : Bool) (k : Nat) : Nat :=
  if h.lane < 112 then k else if out then (k + 4 + 6 * h.after) % 64 else (k + 64 - 6 * h.after) % 64

/-- A slot of a segment is usable for the beats of a tag on a path: it is theirs, it matches the path, and the masks in
force at the unit, if any, leave its index (R194, R247). -/
def slotUsable (s : State) (exit : Option Nat) (tag : Nat) (out : Bool) (h : Hop) (k : Nat) : Bool :=
  let e := slotEntry s h.lane k
  decide (e % 16 = tag) && decide (e / 16 % 2 = 1) && h.targets.contains (e / 32) &&
    match exit with
    | some u => !namesPort u h.lane e || indexUsable s u (portIndex h out k)
    | none => true

/-- The beats of a tag have service on a path: every segment of it has a usable slot (R194, R248). -/
def hopsServed (s : State) (exit : Option Nat) (tag : Nat) (out : Bool) (hs : List Hop) : Bool :=
  hs.all fun h => (List.range 64).any (slotUsable s exit tag out h)

/-- Beats between core `c` and a device address have service, outward or inward (R194, R248). The slots of a relocking island
pass unused (R24). The Drover's cores do not use the lanes (R374). -/
def beatServed (s : State) (c dev : Nat) (out : Bool) : Bool :=
  isDrvCore c || !relocking s c &&
    match rectOf s c with
    | none => false
    | some tag => hopsServed s (exitOf s dev).1 tag out (pathHops s c dev)

/-- The ledger word of the tier a lane beat goes to; beats to a local memory count in none (R340, R345). -/
def slotsWord (s : State) (dev : Nat) : Option Nat :=
  match target s dev with
  | .near _ => some 3
  | .far _ => some 4
  | .peer .. => some 6
  | .host => some 5
  | _ => none

/-- Lane beats of a tag to a tier, counted for the context that owns its rectangle (R340). -/
def countBeats (s : State) (tag dev n : Nat) : State :=
  match slotsWord s dev, ctxOfRect s tag with
  | some k, some x => ledgerAdd s x k n
  | _, _ => s

/-- The beats of one crossing of the path between a core and a device address, counted (R340). -/
def countLaneBeats (s : State) (c dev : Nat) : State :=
  match rectOf s c with
  | some tag => if isDrvCore c then s else countBeats s tag dev (pathHops s c dev).length
  | none => s

/-! ### Engines on the lanes (R194, R198) -/

/-- Where an engine sits (R198, R267). -/
inductive Place where
  | core (c : Nat)
  | serai (i : Nat)
  | unit (u : Nat)
  deriving DecidableEq, Repr

/-- An engine as the lanes see it: where it sits and its tenant tag, 16 for none (R194). -/
structure Agent where
  place : Place
  tag   : Nat
  deriving DecidableEq, Repr

/-- The path of a Serai engine to a near-tier unit: rim segments (R198). -/
def seraiToUnit (i u : Nat) : List Hop := rimHops (decide (4 ≤ u)) (seraiPlace i) (u % 4 + 1)

/-- The path of a near-tier unit or its gather engine to another unit: along its edge, or through the Serai with the fewer
segments and along the other edge (R198). -/
def unitToUnit (u v : Nat) : List Hop :=
  let p := u % 4
  let q := v % 4
  if decide (4 ≤ u) = decide (4 ≤ v) then rimHops (decide (4 ≤ u)) (p + 1) (q + 1)
  else
    let e := if p + q + 2 ≤ 8 - p - q then 0 else 1
    let second := seraiToUnit e v
    ((rimHops (decide (4 ≤ u)) (p + 1) (seraiPlace e)).map fun h => { h with targets := [6], after := h.after + second.length }) ++
      second

/-- The path of an engine to a device address; to a local memory it is the core's path in reverse, and Serai 1 reaches the host
window by its own port where it has one (R198, R278, R311). -/
def agentHops (s : State) (ag : Agent) (dev : Nat) : List Hop :=
  match ag.place, target s dev with
  | .core c, .localMem d _ => if c = d then [] else pathHops s c dev
  | .core c, _ => pathHops s c dev
  | .serai i, .localMem d _ => coreToSerai s d i
  | .unit u, .localMem d _ => coreToUnit s d u
  | .serai 1, .host => if s.pkg.host1 then [] else rimHops false (seraiPlace 1) (seraiPlace 0)
  | .serai i, _ =>
    match exitOf s dev with
    | (some u, _) => seraiToUnit i u
    | (none, e) => if e = i then [] else rimHops false (seraiPlace i) (seraiPlace e)
  | .unit u, _ =>
    match exitOf s dev with
    | (some v, _) => unitToUnit u v
    | (none, e) => rimHops (decide (4 ≤ u)) (u % 4 + 1) (seraiPlace e)

/-- The near-tier unit whose port the beats of an engine enter or leave, the masks of which they meet (R247). -/
def agentExit (s : State) (ag : Agent) (dev : Nat) : Option Nat :=
  match ag.place, target s dev with
  | .unit u, .localMem .. => some u
  | _, .near u => some u
  | _, _ => none

/-- The island whose half-lane an access crosses relocks, so that its slots pass unused (R24). -/
def agentRelocks (s : State) (ag : Agent) (dev : Nat) : Bool :=
  match ag.place, target s dev with
  | .core c, .localMem d _ => decide (c ≠ d) && relocking s c
  | .core c, _ => relocking s c
  | _, .localMem d _ => relocking s d
  | _, _ => false

/-- An access of an engine has service on its path, there and back (R194, R247, R248). -/
def agentServed (s : State) (ag : Agent) (dev : Nat) : Bool :=
  let hs := agentHops s ag dev
  hs.isEmpty || (!agentRelocks s ag dev && hopsServed s (agentExit s ag dev) ag.tag true hs &&
    hopsServed s (agentExit s ag dev) ag.tag false hs)

/-- The beats of one crossing of the path between an engine and a device address, counted (R340). -/
def countAgent (s : State) (ag : Agent) (dev : Nat) : State := countBeats s ag.tag dev (agentHops s ag dev).length

/-! ### Answers and deadlines (R203, R225) -/

/-- PROG of the thread's current level (R61, R63). -/
def progKey (t : Thread) : Nat := 0x1000 + t.level.toNat

/-- A long instruction stopped at a step boundary: PROG.ACTIVE is set, and its reads in flight are forgotten (R86). -/
def stopLong (s : State) (h : Hart) : State :=
  let s := modThr s h fun t => { t.putCsr (progKey t) (putBit (t.getCsr (progKey t)) 31 true) with wait := .none, cur := none }
  modCore s h.core fun k => { k with lane := k.lane.filter fun a => decide (a.tid ≠ h.tid) || !a.kind.isLongStep }

/-- A load, fetch or long step of the far view traps at its answer: a load at its turn to commit, a fetch at its
instruction's turn to issue; one that its thread has left, or whose core has halted, raises nothing (R71, R86, R157, R203,
R455). -/
def answerTrap (s : State) (h : Hart) (a : LaneAccess) (tr : Trap) : State :=
  let awaited := decide ((thr s h).wait = .farLoad a.id)
  if (core s h.core).run ≠ .running then s
  else
    match a.kind with
    | .load .. => answerLoad s h a.id (.trap tr)
    | .longStep _ => takeTrap (stopLong s h) h tr (thr s h).pc
    | .fetch => if awaited then fetchTrap (modThr s h fun t => { t with wait := .none }) h tr else s
    | _ => if awaited then takeTrap s h tr (thr s h).pc else s

/-- The trap of a load's answer that is not OK; `node` is the expected sender of one that never came (R203, R279, R364,
R455). -/
def statusTrap (va : Word) (status : Byte) (node : Nat) : Trap :=
  if status = 0x02 then trapPoison va
  else if status = 0x05 then trapWait 0 node
  else if status = 0x07 then trapTenancy va
  else trapBus va status.toNat

/-- Bytes extended to a register (R92). -/
def extendBytes (bs : List Byte) (signed : Bool) : Word :=
  if signed then BitVec.ofInt 32 (BitVec.ofNat (8 * bs.length) (leNat bs)).toInt else BitVec.ofNat 32 (leNat bs)

/-- Window `k` of a thread filled from 64 bytes, entry 0 lowest (R58). -/
def fillWindow (t : Thread) (k : Nat) (bs : List Byte) : Thread :=
  (List.range 16).foldl (fun t j => t.setWinReg k j (BitVec.ofNat 32 (leNat ((bs.drop (4 * j)).take 4)))) t

/-- The 64 bytes of window `k` (R58). -/
def windowBytes (t : Thread) (k : Nat) : List Byte := (List.range 16).flatMap fun j => leBytes 4 (t.winReg k j).toNat

/-- WFILL takes 64 bytes: window (CWP − RESIDENT) mod 8 is filled, and RESIDENT grows by 1 (R58). -/
def commitFill (t : Thread) (bs : List Byte) : Thread :=
  (fillWindow t ((t.cwp + 8 - t.resident) % 8) bs).setWstat t.cwp (t.resident + 1)

/-- The line a load brings, with what the port's own stores wrote to it meanwhile (R223). -/
def freshLine (a : LaneAccess) (line : List Byte) : List Byte :=
  a.laid.foldl (fun l w => overlay (a.addr / 128 * 128) l w.1 w.2) line

/-- What a load's data does at its answer (R69, R74, R203, R223, R258). -/
def takeAnswer (s : State) (h : Hart) (a : LaneAccess) (data line : List Byte) : State :=
  match a.kind with
  | .load _ _ sg =>
    if loadIssued s h a.id then
      let s := if a.volat then s else bufferFill s h.core a.addr (freshLine a line)
      answerLoad s h a.id (.ready (extendBytes data sg))
    else s
  | .window =>
    if (thr s h).wait = .farLoad a.id then endWait (modThr s h fun t => commitFill t data) h else s
  | .fetch =>
    let l := bytesLine data
    let s := icFill s h.core (a.addr / 64) l
    if (thr s h).wait = .farLoad a.id then fetchWord s h (lineWord l (thr s h).pc.toNat) else s
  | _ => s

/-- An access of the host window performs as its answer is formed: its contents beyond the window are what the model's
memory holds there (R218; log entry 6). -/
def hostPerforms (s : State) (c : Nat) (a : LaneAccess) : Bool :=
  decide (target s a.addr = .host) && a.sent && a.result.isNone && decide (laneFind s c a.id = some a) && !laneBlocked s c a &&
    beatServed s c a.addr true

/-- The 128 bytes around an address, for the line buffer; none where some of them are poisoned. -/
def lineAround (s : State) (a : Nat) : List Byte :=
  if isPoisoned s (a / 128 * 128) 128 then [] else readMem s (a / 128 * 128) 128

/-- What a read of the host window brings (R262, R311). -/
def hostAnswer (s : State) (a : LaneAccess) : AccessResult :=
  let k := hostCell s a.addr
  if isPoisoned s k a.size then .fail 0x02 else .ok (readMem s k a.size) (lineAround s k)

/-- FAR_LOAD_ANSWER: a load, fetch or fill ends with its data or its trap (R69, R203). A read of a long step keeps its
data for the step, and no fetch completes while the core invalidates its instruction cache (R96). -/
def execFarLoadAnswer (core id : Nat) (s : State) : Host.Outcome State Fault Refusal :=
  match laneFind s core id with
  | none => .next s
  | some a =>
    let h := hartOf core a.tid
    let r := if hostPerforms s core a then some (hostAnswer s a) else a.result
    if a.isStore || !beatServed s core a.addr false || (a.kind == .fetch && (Machine.core s core).iflush) then .next s
    else
      let s := if r.isSome then countLaneBeats s core a.addr else s
      match r with
      | none => .next s
      | some (.ok data line) =>
        if a.kind.isLongStep then .next (laneMod s core id fun b => { b with result := r })
        else .next (takeAnswer (laneDrop s core id) h a data line)
      | some (.fail st) => .next (answerTrap (laneDrop s core id) h a (statusTrap a.vaddr st (targetNode s core a.addr)))

/-- A store ends well: its port updates the lines it holds, and the finish writes and the FENCE that wait for it go on (R223,
R225, R226, R229). -/
def storeDone (s : State) (h : Hart) (a : LaneAccess) (bs : List Byte) : State :=
  wakeFence (storeAcked (bufferStore (laneDrop s h.core a.id) h.core a.addr bs) h a.id) h

/-- FAR_STORE_ACK: a store ends, acknowledged or failed (R203, R225, R227). -/
def execFarStoreAck (core id : Nat) (s : State) : Host.Outcome State Fault Refusal :=
  match laneFind s core id with
  | none => .next s
  | some a =>
    let h := hartOf core a.tid
    match a.kind with
    | .store bs =>
      if !beatServed s core a.addr false then .next s
      else if hostPerforms s core a then
        .next (storeDone (writeMem (countLaneBeats s core a.addr) (hostCell s a.addr) bs) h a bs)
      else
        match a.result with
        | none => .next s
        | some (.ok _ _) => .next (storeDone (countLaneBeats s core a.addr) h a bs)
        | some (.fail st) =>
          let s := countLaneBeats s core a.addr
          .next (wakeFence (storeFailed (laneDrop s core id) h id st.toNat a.addr) h)
    | _ => .next s

/-- LANE_ACCESS_DEADLINE: an access that has had no answer within CMP_LP_DL, or DRV_MEM_DL, ends with WAIT_TIMEOUT
(R203, R374). -/
def execLaneAccessDeadline (core id : Nat) (s : State) : Host.Outcome State Fault Refusal :=
  match laneFind s core id with
  | none => .next s
  | some a =>
    let h := hartOf core a.tid
    if !a.sent || decide (now s < a.issued + laneDeadline s core) then .next s
    else
      let s' := laneDrop (linkForget s (.lane core id)) core id
      if a.isStore then .next (wakeFence (storeFailed s' h id 0x05 a.addr) h)
      else .next (answerTrap s' h a (trapWait 0 (targetNode s core a.addr)))

/-! ### Policing (R195) -/

/-- The lane's router is the one where a beat to a device address leaves the lanes: its slots name it alone (R193). -/
def pathEnds (s : State) (c dev lane : Nat) : Bool :=
  match pathTargets s c dev lane with
  | [t] => decide (t ≠ 6)
  | _ => false

/-- LANE_BEAT_ARRIVAL: the router at the end of a segment polices the beat of an access in a slot: a beat whose slot is
not owned by its tag, or whose path does not match, is discarded, recorded and refused (R195). At its Serai an access of a peer window goes on to its bundle (R365). -/
def execLaneBeatArrival (core id lane index : Nat) (s : State) : Host.Outcome State Fault Refusal :=
  match laneFind s core id with
  | none => .next s
  | some a =>
    if !a.sent || a.result.isSome || isDrvCore core || decide (122 ≤ lane) || decide (64 ≤ index) then .next s
    else
      let e := slotEntry s lane index
      let tag := (rectOf s core).getD 16
      if decide (e % 16 = tag) && decide (e / 16 % 2 = 1) && (pathTargets s core a.addr lane).contains (e / 32) then
        let s := countBeats s tag a.addr 1
        .next (if pathEnds s core a.addr lane then laneToLink s core a else s)
      else
        let s := if flag s Reg.cmpLanePolice 31 then s
          else setReg s Reg.cmpLanePolice (BitVec.ofNat 32 (lane + 256 * index + 65536 * (tag % 16) + 2 ^ 31))
        .next (laneMod s core id fun b => { b with result := some (.fail 0x07) })

/-! ### Finish writes and FENCE (R226 to R229) -/

/-- FINISH_WRITE_RELEASE: the oldest held finish write of a thread whose covered writes have all ended is sent, or is
discarded with its failure reported (R229). -/
def execFinishWriteRelease (h : Hart) (s : State) : Host.Outcome State Fault Refusal :=
  match (core s h.core).lane.find? fun a => decide (a.tid = h.tid) && a.finish && !a.sent with
  | none => .next s
  | some a =>
    if !a.covers.isEmpty then .next s
    else
      let f := (thr s h).pendFail
      if f.isNone && a.covFail.isNone then
        .next (laneMod s h.core a.id fun b => { b with sent := true, issued := now s })
      else
        let (st, ad) : Byte × Nat := match f with
          | some p => (p.status, p.addr)
          | none => (a.covFail.getD 0, a.addr)
        let s := raiseLine (recordLaneFault (laneDrop s h.core a.id) h.core st.toNat ad) h.core 30 (st.setWidth 32)
        let s := modThr s h fun t => { t with pendFail := none }
        let s := modCore s h.core fun k => { k with lane := k.lane.map (coverFailed a.id st.toNat) }
        .next (wakeFence s h)

/-- FENCE: it issues once every older instruction has committed, so that every older local store has performed before a
younger local load does; FV waits, empties the line buffer and reports; FIN arms (R221, R226, R227, R229). -/
def execFence (h : Hart) (rd : GReg) (ll fv fin : Bool) (s : State) : Host.Outcome State Fault Refusal :=
  let s' := if fin then modThr s h fun t => { t with finArmed := t.finArmed ||| BitVec.ofNat 4 (2 ^ t.level.toNat) } else s
  issue s h (firstTrap s [(!ll && !fv && !fin, trapIllegal (insnWord (.fence h rd ll fv fin)))]
    (.ok (if fv then wakeFence (modThr s' h fun t => { t with wait := .fence rd }) h
      else retire (setGreg s' h rd 0) h)))

end Sys2Proof.Machine
end

