-- ==== Sys2Proof/Machine/System.lean ====
section
/-! DEFINITION. Control and status registers, traps and their return, gates, HOLD, waits, thread release (R60 to R63, R95,
R125, R130 to R162). -/

namespace Sys2Proof.Machine

/-! ### Control and status registers -/

/-- The numbers of the table of R60 (R125, R160, R161). -/
def csrListed (n : Nat) : Bool :=
  decide (n ≤ 5) || decide (n = 8) || decide (n = 9) || (decide (0x100 ≤ n) && decide (n < 0x140)) ||
    (decide (0x400 ≤ n) && decide (n ≤ 0x404)) || (decide (0x410 ≤ n) && decide (n < 0x420)) ||
    (decide (0x800 ≤ n) && decide (n < 0x840))

/-- The modes that may access a number (R60). -/
def csrAllowed (m : Mode) (n : Nat) : Bool :=
  if n / 1024 = 0 then true else if n / 1024 = 1 then m.super else decide (m = .gs)

/-- A write that only GS may make in a core of a guarded rectangle (R23, R138). -/
def csrGuardedWrite (s : State) (h : Hart) (n : Nat) : Bool :=
  coreGuarded s h.core && (decide (0x401 ≤ n) && decide (n ≤ 0x404)) && decide ((thr s h).mode ≠ .gs)

/-- The save register that a number reaches: the key of level m, or none at level 0 (R160). -/
def saveKey (t : Thread) (n : Nat) : Option Nat :=
  if 0x414 ≤ n then some n else if t.level = 0 then none else some (n + 4 * t.level.toNat)

/-- A Plain mode meets a save register of a Guarded handler (R148). -/
def saveHidden (t : Thread) (k : Nat) : Bool := !t.mode.guarded && bit (t.getCsr ((k - 0x414) / 4 * 4 + 0x415)) 6

/-- A CSR as the thread reads it (R50, R60 to R63, R148, R159 to R162). The cycles of IDLE and LENT since they were written are
free (log entry 37). -/
def csrValue (s : State) (h : Hart) (n : Nat) : Word :=
  let t := thr s h
  if n = 0x002 then t.getCsr (progKey t)
  else if n = 0x005 then BitVec.ofNat 32 (h.core % 1024 + 4096 * h.tid.toNat)
  else if n = 0x008 then BitVec.ofNat 32 (now s)
  else if n ≤ 0x003 ∨ n = 0x400 then t.getCsr n
  else if 0x11E ≤ n ∧ n < 0x140 then 0
  else if 0x410 ≤ n ∧ n < 0x420 then
    match saveKey t n with
    | none => 0
    | some k => if saveHidden t k then (if k % 4 = 1 then t.getCsr k &&& 0x640 else 0) else t.getCsr k
  else if 0x808 ≤ n ∧ n ≤ 0x80F then t.getCsr n
  else if n = 0x805 ∨ n = 0x806 ∨ n = 0x807 then 0
  else if 0x10C ≤ n ∧ n ≤ 0x113 then coreCsr s h.core n + Config.weaveCycles s.tb h.core n
  else coreCsr s h.core n

/-- Reading 0x008 latches the upper half of the time base into 0x009 (R60). -/
def csrLatch (s : State) (h : Hart) (n : Nat) : State :=
  if n = 0x008 then setCoreCsr s h.core 0x009 (BitVec.ofNat 32 (now s / 2 ^ 32)) else s

/-- Whether a number is a write-only CSR, whose named bits CSRS and CSRC leave unchanged (R95, R161). -/
def csrWriteOnly (n : Nat) : Bool := n == 0x806

/-- The RW bits `rw` of a word after a write of the bits of `m` (R12, R95). -/
def rwBits (old rw m v : Word) : Word := (old &&& ~~~(rw &&& m)) ||| (v &&& rw &&& m)

/-- The W1C bits `wc` of a word after a write of the bits of `m` (R12, R95). -/
def w1cBits (old wc m v : Word) : Word := old &&& ~~~(wc &&& m &&& v)

/-- A field that would take a value outside a range keeps its own (R15). -/
def keepField (old new : Word) (hi lo min max : Nat) : Word :=
  if min ≤ bits new hi lo ∧ bits new hi lo ≤ max then new else putBits new hi lo (bits old hi lo)

/-- The masks of a lockable Guarded CSR: its RW-L bits (R161). -/
def guardedRw (n : Nat) : Word :=
  if n = 0x800 then 0xFFFFF000
  else if n = 0x801 then 0x1
  else if n = 0x802 then 0x7F7F
  else if n = 0x803 then 0xFFF00
  else if 0x808 ≤ n ∧ n ≤ 0x80F then 0xFFF
  else if 0x810 ≤ n ∧ n ≤ 0x81F then 0xFFFFFFFF
  else if 0x820 ≤ n ∧ n ≤ 0x83F then 0xFFF
  else 0

/-- A write of CLKSEL: a STEP outside 0 to 32 is reserved; a changed STEP waits for the links and starts a relock, but for a
write during a relock or in a locked convoy, which is recorded (R22, R24, R25, R27). A Drover core's clock is fixed, and the
manual does not say what the write does there: STEP is recorded, and no relock follows (DESIGN CHOICE, log entry 40). -/
def writeClksel (s : State) (c : Nat) (m v : Word) : State :=
  let old := coreCsr s c 0x404
  let new := keepField old (rwBits old 0x3F m v) 5 0 0 32
  let s' := setCoreCsr s c 0x404 new
  if isDrvCore c ∨ bits new 5 0 = bits old 5 0 ∨ bit old 8 ∨ bit old 9 then s' else startRelock s' c

/-- A write of ISET: each line named becomes pending (R161). -/
def writeIset (s : State) (c : Nat) (v : Word) : State :=
  (List.range 32).foldl (fun s l => if bit v l then raiseLine s c l (Config.lineEval s.tb l) else s) s

/-- A Guarded CSR written (R161). -/
def writeGuardedCsr (s : State) (h : Hart) (n : Nat) (m v : Word) : State :=
  let c := h.core
  let lk := bit (coreCsr s c 0x803) 0
  let rw := if lk then 0 else guardedRw n
  if n = 0x806 then writeIset s c (v &&& m)
  else if 0x808 ≤ n ∧ n ≤ 0x80F then setThrCsr s h n (rwBits (thrCsr s h n) rw m v)
  else if n = 0x802 then
    let new := rwBits (coreCsr s c n) rw m v
    if 96 < bits new 6 0 + bits new 14 8 then s else setCoreCsr s c n new
  else if n = 0x803 then
    let old := coreCsr s c n
    setCoreCsr s c n (keepField old (rwBits old rw m v) 19 8 1 4095 ||| (v &&& m &&& 1))
  else if 0x820 ≤ n then setCoreCsr s c n (w1cBits (rwBits (coreCsr s c n) rw m v) 0x8000 m v)
  else if n ≤ 0x801 ∨ (0x810 ≤ n ∧ n ≤ 0x81F) then setCoreCsr s c n (rwBits (coreCsr s c n) rw m v)
  else s

/-- A save register written: EPC, and at level 1 ESTAT.PMODE (R148, R160). -/
def writeSave (t : Thread) (k : Nat) (m v : Word) : Thread :=
  if saveHidden t k then t
  else if k % 4 = 0 then t.putCsr k (rwBits (t.getCsr k) 0xFFFFFFFC m v)
  else if k = 0x415 then
    let new := rwBits (t.getCsr k) 0x3 m v
    if !t.mode.guarded && decide (2 ≤ bits new 1 0) then t else t.putCsr k new
  else t

/-- The bits of `m` of a CSR take a write of `v`, each field as its access code states (R12, R14, R15, R95). -/
def csrWrite (s : State) (h : Hart) (n : Nat) (m v : Word) : State :=
  let t := thr s h
  let c := h.core
  if n = 0x000 then setThrCsr s h n (rwBits (t.getCsr n) 0x3 m v)
  else if n = 0x001 then setThrCsr s h n (w1cBits (t.getCsr n) 0x3F m v)
  else if n = 0x002 then setThrCsr s h (progKey t) (rwBits (t.getCsr (progKey t)) 0x87FFFFFF m v)
  else if n = 0x003 then setThrCsr s h n (rwBits (t.getCsr n) 0x1FFFF m v)
  else if n = 0x004 then
    let new := rwBits (coreCsr s c n) 0xFFFFFFFF m v
    setCoreCsr s c n (if new = 0 then 1 else new)
  else if n = 0x11C then if v &&& m = 0 then s else setCoreCsr s c n 0
  else if 0x100 ≤ n ∧ n ≤ 0x11D then setCoreCsr s c n (rwBits (coreCsr s c n) 0xFFFFFFFF m v)
  else if n = 0x400 then
    let old := t.getCsr n
    setThrCsr s h n (keepField old (rwBits old 0xF7 m v) 7 4 1 8)
  else if n = 0x401 then setCoreCsr s c n (rwBits (coreCsr s c n) 0xFFFFF000 m v)
  else if n = 0x402 then
    let old := coreCsr s c n
    setCoreCsr s c n (w1cBits (keepField old (rwBits old 0x3FF m v) 9 0 1 512) 0xF0000 m v)
  else if n = 0x403 then setCoreCsr s c n (rwBits (coreCsr s c n) 0xFFFFFFFF m v)
  else if n = 0x404 then writeClksel s c m v
  else if 0x410 ≤ n ∧ n < 0x420 then
    match saveKey t n with
    | none => s
    | some k => setThr s h (writeSave t k m v)
  else if 0x800 ≤ n then writeGuardedCsr s h n m v
  else s

/-- The traps of a CSR access (R23, R60, R138, R453). -/
def csrTraps (s : State) (h : Hart) (n : Nat) (write : Bool) (w : Word) : List (Bool × Trap) :=
  [(!csrListed n, trapIllegal w),
    (!csrAllowed (thr s h).mode n || (write && csrGuardedWrite s h n), trapPrivilege w)]

/-- A CSR access that writes the bits of `m` with `v` and returns the old value in rd (R95). Where the write changes
WSTAT.CWP, rd is named through the window that the write leaves, as R70 says of the instructions that move the window
(DEDUCED, log entry 40). -/
def csrAccess (s : State) (h : Hart) (rd : GReg) (n : Nat) (m v w : Word) : Host.Outcome State Fault Refusal :=
  issue s h (firstTrap s (csrTraps s h n true w)
    (.ok (retire (setGreg (csrWrite (csrLatch s h n) h n m v) h rd (csrValue s h n)) h)))

/-- CSRR (R60, R95). -/
def execCsrr (h : Hart) (rd : GReg) (n : BitVec 12) (s : State) : Host.Outcome State Fault Refusal :=
  issue s h (firstTrap s (csrTraps s h n.toNat false (insnWord (.csrr h rd n)))
    (.ok (retire (setGreg (csrLatch s h n.toNat) h rd (csrValue s h n.toNat)) h)))

/-- CSRW: every bit takes the operand (R95). -/
def execCsrw (h : Hart) (rd rs1 : GReg) (n : BitVec 12) (s : State) : Host.Outcome State Fault Refusal :=
  csrAccess s h rd n.toNat 0xFFFFFFFF (greg s h rs1) (insnWord (.csrw h rd rs1 n))

/-- The bits that CSRS and CSRC name: none of a write-only CSR (R95). -/
def namedBits (n : Nat) (v : Word) : Word := if csrWriteOnly n then 0 else v

/-- CSRS: the bits named in the operand take a 1 (R95). -/
def execCsrs (h : Hart) (rd rs1 : GReg) (n : BitVec 12) (s : State) : Host.Outcome State Fault Refusal :=
  csrAccess s h rd n.toNat (namedBits n.toNat (greg s h rs1)) 0xFFFFFFFF (insnWord (.csrs h rd rs1 n))

/-- CSRC: the bits named in the operand take a 0 (R95). -/
def execCsrc (h : Hart) (rd rs1 : GReg) (n : BitVec 12) (s : State) : Host.Outcome State Fault Refusal :=
  csrAccess s h rd n.toNat (namedBits n.toNat (greg s h rs1)) 0 (insnWord (.csrc h rd rs1 n))

/-- A thread's write of CLKSEL that issued before its island stopped may still reach the register while it relocks (R25). -/
def relockWrite (s : State) (h : Hart) : Bool :=
  coreLive s h.core && relocking s h.core && threadFree s h && (thr s h).window.isEmpty &&
    csrAllowed (thr s h).mode 0x404 && !csrGuardedWrite s h 0x404

/-- CLKSEL_WRITE: a thread's write of CLKSEL; during a relock it is recorded (R22 to R25, R27). The row names no word: EVAL is
that of CSRW from g0. -/
def execClkselWrite (h : Hart) (v : Word) (s : State) : Host.Outcome State Fault Refusal :=
  if relockWrite s h then .next (retire (csrWrite s h 0x404 0xFFFFFFFF v) h)
  else csrAccess s h 0 0x404 0xFFFFFFFF v (insnWord (.csrw h 0 0 0x404))

/-- ISET_WRITE: a thread's write of ISET (R153, R161). -/
def execIsetWrite (h : Hart) (v : Word) (s : State) : Host.Outcome State Fault Refusal :=
  csrAccess s h 0 0x806 0xFFFFFFFF v (insnWord (.csrw h 0 0 0x806))

/-- RELOCK_COMPLETE: the island runs at the new step; a different recorded STEP starts a second relock (R24, R25). -/
def execRelockComplete (core : Nat) (s : State) : Host.Outcome State Fault Refusal :=
  let w := coreCsr s core 0x404
  when s (coreExists s core && dieUp s core && bit w 9)
    (if bits w 5 0 = (Machine.core s core).stepNow.toNat then setCoreCsr s core 0x404 (putBit w 9 false)
      else setIslandStep s core (BitVec.ofNat 6 (bits w 5 0)))

/-- WEAVE_TABLE_UPDATE: at entry 0 the weave table and mode written last take effect (R137). -/
def execWeaveTableUpdate (core : Nat) (s : State) : Host.Outcome State Fault Refusal :=
  when s (coreExists s core && dieUp s core)
    (modCore s core fun k => { k with thslotNow := coreCsr s core 0x403, weaveNow := bit (coreCsr s core 0x801) 0 })

/-- STORM_WINDOW_END: the time base has passed the end of the window of the counts, which start again; the windows are
aligned to multiples of STORM_WIN µs (R154). -/
def execStormWindowEnd (core : Nat) (s : State) : Host.Outcome State Fault Refusal :=
  when s (coreExists s core && dieUp s core && decide ((Machine.core s core).stormAt ≠ stormNow s core))
    (modCore s core fun k => { k with stormCnt := [], stormAt := stormNow s core })

/-! ### Traps and gates -/

/-- TRAP: cause 0x0D with EPC after the TRAP (R146, R151, R157). -/
def execTrap (h : Hart) (imm : BitVec 12) (s : State) : Host.Outcome State Fault Refusal :=
  if canIssue s h then
    .next (takeTrap (countCore s h.core (0x108 + h.tid.toNat) 1) h (trapCall (zext imm)) ((thr s h).pc + 4))
  else .next s

/-- ERET: the return from a trap; at level 0 it is illegal (R147). -/
def execEret (h : Hart) (s : State) : Host.Outcome State Fault Refusal :=
  issue s h (firstTrap s [(decide ((thr s h).level = 0), trapIllegal (insnWord (.eret h)))]
    (.ok (retireTo (returnTrap s h) h (thr (returnTrap s h) h).pc)))

/-- The world across a gate at the same privilege (R145). -/
def Mode.across : Mode → Mode
  | .pu => .gu
  | .ps => .gs
  | .gu => .pu
  | .gs => .ps

/-- WGATE: at level 0 only; a gate that is not valid or names the own world refuses (R145). -/
def execWgate (h : Hart) (n : BitVec 4) (s : State) : Host.Outcome State Fault Refusal :=
  let t := thr s h
  let g := coreCsr s h.core (0x810 + n.toNat)
  issue s h (firstTrap s
    [(decide (t.level ≠ 0), trapIllegal (insnWord (.wgate h n))),
      (!bit g 0 || decide (bit g 1 ≠ t.mode.guarded), trapGate (zext n))]
    (.ok (retireTo (modThr s h fun t => { t with mode := t.mode.across }) h (g &&& ~~~(3 : Word)))))

/-! ### HOLD (R155, R156) -/

/-- HOLD: a window opens, or an open one is extended within HOLDMAX.MAX of its opening; it is clipped where the newest
request is for more than HOLDMAX.MAX (R155; log entry 18). -/
def execHold (h : Hart) (n : BitVec 12) (s : State) : Host.Outcome State Fault Refusal :=
  let mx := bits (coreCsr s h.core 0x402) 9 0
  let c := coreCycle s h.core
  let open' := match (thr s h).hold with
    | some w => w.opened
    | none => c
  let w : HoldWindow := ⟨open', Nat.min (c + n.toNat) (open' + mx), decide (mx < n.toNat)⟩
  issue s h (firstTrap s [(decide (n.toNat = 0) || decide (512 < n.toNat), trapIllegal (insnWord (.hold h n)))]
    (.ok (retire (modThr s h fun t => { t with hold := some w }) h)))

/-- HOLD_WINDOW_END: the window ends; a clipped one sets OVR and counts, and an interrupt that is takeable then is
entered with HOVR (R155). -/
def execHoldWindowEnd (h : Hart) (s : State) : Host.Outcome State Fault Refusal :=
  match (thr s h).hold with
  | none => .next s
  | some w =>
    if coreCycle s h.core < w.ends then .next s
    else
      let s' := endHold s h
      .next (if w.clipped then modThr s' h fun t => { t with hovr := takeableSet s' h } else s')

/-! ### Waits (R139 to R142) -/

/-- The expected sender of a wait: EVSRC of the lowest flag in the mask (R142). -/
def waitSender (s : State) (h : Hart) (mask : BitVec 8) : Nat :=
  match (List.range 8).find? fun f => bit mask f with
  | some f => bits (thrCsr s h (0x808 + f)) 11 0
  | none => 0xFFF

/-- A WFE whose timeout has passed: rd takes 0, or the wait times out (R141, R142). -/
def wfeExpired (s : State) (h : Hart) (rd : GReg) (mask : BitVec 8) (idle : Bool) : Res :=
  if idle then .ok (endWait (setGreg s h rd 0) h) else .trap s (trapWait mask.toNat (waitSender s h mask))

/-- WFE (R141). -/
def execWfe (h : Hart) (rd rs1 : GReg) (mask : BitVec 8) (idle : Bool) (s : State) : Host.Outcome State Fault Refusal :=
  let t := thr s h
  let f := t.evf &&& mask
  issue s h (firstTrap s [(decide (mask = 0) && !idle, trapOperand (insnWord (.wfe h rd rs1 mask idle)))]
    (if f ≠ 0 then .ok (retire (setGreg (modThr s h fun t => { t with evf := t.evf &&& ~~~mask }) h rd (f.setWidth 32)) h)
      else if greg s h rs1 = 0 then wfeExpired s h rd mask idle
      else .ok (modThr s h fun t => { t with wait := .wfe rd mask idle (now s + (greg s h rs1).toNat) })))

/-- WFE_TIMEOUT: the timeout of a WFE passes, with no flag and no takeable interrupt before it; a halted core's threads wait
on (R141, R157). -/
def execWfeTimeout (h : Hart) (s : State) : Host.Outcome State Fault Refusal :=
  match (thr s h).wait with
  | .wfe rd mask idle dl =>
    if decide ((core s h.core).run ≠ .running) || decide (now s < dl) || (takeableLine s h).isSome then .next s
    else
      match wfeExpired s h rd mask idle with
      | .ok s' => .next s'
      | .trap s' t => .next (takeTrap s' h t (thr s h).pc)
  | _ => .next s

/-- The time base has reached a compare value (R139). -/
def timeReached (s : State) (cmp : Word) : Bool := decide (0 ≤ (BitVec.ofNat 32 (now s) - cmp).toInt)

/-- TWAIT (R139). -/
def execTwait (h : Hart) (rs1 : GReg) (s : State) : Host.Outcome State Fault Refusal :=
  let cmp := greg s h rs1
  let s' := modThr s h fun t => { t with timer := cmp }
  issue s h (.ok (if timeReached s cmp then retire s' h else modThr s' h fun t => { t with wait := .twait cmp }))

/-- TWAIT_DONE: the condition of a TWAIT holds; a halted core's threads wait on (R139, R157). -/
def execTwaitDone (h : Hart) (s : State) : Host.Outcome State Fault Refusal :=
  match (thr s h).wait with
  | .twait cmp =>
    when s (decide ((core s h.core).run = .running) && timeReached s cmp && (takeableLine s h).isNone) (endWait s h)
  | _ => .next s

/-! ### Threads (R131 to R134) -/

/-- A thread as a start leaves it: level 0, empty windows but one, priority 0, no finish write armed (R131, R229). Its other
registers keep their values. -/
def Thread.start (t : Thread) (pc : Word) (m : Mode) : Thread :=
  { t.setWstat 0 1 with
    status := .started, pc := pc, level := 0, mode := m, prio := 0, window := [], wait := .none, cur := none, finArmed := 0,
    fetched := none }

/-- The word of a start block (R133). -/
def blockWord (s : State) (h : Hart) (off i : Nat) : Word := localWord s h.core (off + 4 * i)

/-- TREL: one thread is released from its start block (R133, R134, R453). The conditions that read the block apply where
it can be read. -/
def execTrel (h : Hart) (rs1 : GReg) (s : State) : Host.Outcome State Fault Refusal :=
  let w := insnWord (.trel h rs1)
  let v := greg s h rs1
  let t := thr s h
  let a := v &&& ~~~(63 : Word)
  let off := a.toNat
  let tgt : Hart := ⟨h.core, BitVec.ofNat 2 v.toNat⟩
  let inLocal := decide (off + 64 ≤ localSize h.core)
  let refused := inLocal && !t.mode.guarded && (inGlmem s h.core off || inGlmem s h.core (off + 63))
  let s1 := if inLocal && !refused then demandRead s (localBase h.core + off) 64 else s
  let pz := inLocal && isPoisoned s1 (localBase h.core + off) 64
  let readable := inLocal && !refused && !pz
  let start := blockWord s1 h off 0
  let mode := blockWord s1 h off 1
  let pre : List (Bool × Trap) := [(decide (h.tid ≠ 0), trapIllegal w), (!t.mode.super, trapPrivilege w)]
  let post : List (Bool × Trap) :=
    [(readable && !t.mode.guarded && decide (2 ≤ bits mode 1 0), trapPrivilege w),
      (decide (tgt.tid = 0) || decide ((thr s tgt).status ≠ .unreleased) || decide (bits v 5 2 ≠ 0), trapOperand w),
      (readable && (decide (bits mode 31 2 ≠ 0) || decide (start &&& 3 ≠ 0)), trapOperand w),
      (refused, trapTenancy a), (!inLocal, trapBus a 0x01), (pz, trapPoison a)]
  issue s h (firstTrap s pre (firstTrap s1 post (.ok (
    let regs := (List.range 14).foldl (fun (t : Thread) i => t.wr (BitVec.ofNat 5 (i + 1)) (blockWord s1 h off (i + 2))) (thr s1 tgt)
    let t' := { (regs.wr 15 0).start start (Mode.ofCode (bits mode 1 0)) with wait := .start }
    retire (setThr s1 tgt t') h))))

/-- THREAD_START: a released thread may issue (R133). -/
def execThreadStart (h : Hart) (s : State) : Host.Outcome State Fault Refusal :=
  when s (decide ((thr s h).wait = .start)) (modThr s h fun t => { t with wait := .none })

end Sys2Proof.Machine
end

