-- ==== Sys2Proof/Machine/Tile.lean ====
section
/-! DEFINITION. Tile registers, accumulators, the tile mover and the matrix unit (R103 to R125, R128, R129). -/

namespace Sys2Proof.Machine

/-! ### Tiles and accumulators as stored -/

/-- A tile of a core (R103). -/
def tile (s : State) (c : Nat) (t : TReg) : Tile := sget (core s c).tiles t.toNat Tile.reset

/-- A tile written: the reuse latch forgets it (R118). -/
def setTile (s : State) (c : Nat) (t : TReg) (x : Tile) : State :=
  modCore s c fun k => { k with
    tiles := sput k.tiles t.toNat x
    latch := if k.latch = some t then none else k.latch }

/-- An accumulator tile of a core (R111). -/
def accTile (s : State) (c : Nat) (a : AReg) : AccTile := sget (core s c).accs a.toNat AccTile.reset

/-- An accumulator tile written. -/
def setAccTile (s : State) (c : Nat) (a : AReg) (x : AccTile) : State :=
  modCore s c fun k => { k with accs := sput k.accs a.toNat x }

/-- Bytes of one element (R104). -/
def Tile.size (t : Tile) : Nat := if t.etype = 1 then 2 else 1

/-- Elements of one row (R104). -/
def Tile.cols (t : Tile) : Nat := t.bpr / t.size

/-- The 64 storage bytes of a row. -/
def Tile.row (t : Tile) (i : Nat) : Line := sget t.data i 0

/-- A row within the shape: bytes from BPR on read as 0 (R104). -/
def Tile.shown (t : Tile) (i : Nat) : Line := BitVec.ofNat 512 ((t.row i).toNat % 2 ^ (8 * t.bpr))

/-- Bytes [0, BPR) of a row replaced, the storage beyond kept (R104). -/
def Tile.setRow (t : Tile) (i : Nat) (v : Line) : Tile :=
  let m := 2 ^ (8 * t.bpr)
  { t with data := sput t.data i (BitVec.ofNat 512 ((t.row i).toNat / m * m + v.toNat % m)) }

/-- The exponent of a row (R103). -/
def Tile.exp (t : Tile) (i : Nat) : BitVec 6 := sget t.exps i 0

/-- The exponent of a row set. -/
def Tile.setExp (t : Tile) (i : Nat) (e : BitVec 6) : Tile := { t with exps := sput t.exps i e }

/-- The poison bit of a row (R103). -/
def Tile.bad (t : Tile) (i : Nat) : Bool := bit t.poison i

/-- The poison bit of a row set. -/
def Tile.setBad (t : Tile) (i : Nat) (b : Bool) : Tile := { t with poison := putBit t.poison i b }

/-- Element `j` of row `i` as a signed integer (R104). -/
def Tile.elem (t : Tile) (i j : Nat) : Int :=
  let w := 8 * t.size
  (BitVec.ofNat w ((t.row i).toNat >>> (w * j))).toInt

/-- A row with its elements replaced by the low bits of a list. -/
def Tile.setElems (t : Tile) (i : Nat) (xs : List Int) : Tile := t.setRow i (BitVec.ofNat 512 (packBits (8 * t.size) xs))

/-- The rows of a tile. -/
def Tile.rowList (t : Tile) : List Nat := List.range t.rows

/-- The shape word of a tile (R106). -/
def Tile.shape (t : Tile) : Word := BitVec.ofNat 32 (t.rows + 64 * t.bpr + 8192 * t.etype.toNat)

/-- A shape word is consistent (R106). -/
def shapeOk (w : Word) : Bool :=
  decide (1 ≤ bits w 5 0) && decide (bits w 5 0 ≤ 32) && decide (1 ≤ bits w 12 6) && decide (bits w 12 6 ≤ 64) &&
    decide (bits w 14 13 ≠ 3) && (decide (bits w 14 13 ≠ 1) || decide (bits w 12 6 % 2 = 0)) && decide (bits w 31 15 = 0)

/-- The tile that a consistent shape word makes (R106). -/
def shapedTile (w : Word) : Tile := ⟨bits w 5 0, bits w 12 6, BitVec.ofNat 2 (bits w 14 13), [], 0, []⟩

/-- Element (i, j) of an accumulator (R111). -/
def AccTile.get (a : AccTile) (i j : Nat) : Int := (sget a.vals (32 * i + j) 0).toInt

/-- Element (i, j) of an accumulator set. -/
def AccTile.put (a : AccTile) (i j : Nat) (v : Int) : AccTile := { a with vals := sput a.vals (32 * i + j) (BitVec.ofInt 40 v) }

/-- The exponent of an accumulator row (R111). -/
def AccTile.exp (a : AccTile) (i : Nat) : BitVec 6 := sget a.exps i 0

/-! ### What an instruction uses, and what keeps it from issuing (R120, R170) -/

/-- Two lists share an element. -/
def meet {α : Type} [DecidableEq α] (a b : List α) : Bool := a.any fun x => b.contains x

/-- An executing instruction keeps another from issuing (R120). -/
def usesClash (run new : TileUse) : Bool :=
  (run.matrix == new.matrix) || meet run.wrT (new.rdT ++ new.wrT) || meet run.wrA (new.rdA ++ new.wrA) ||
    meet run.rdT new.wrT || meet run.rdA new.wrA

/-- The convoy that a core belongs to: one with ENABLE set, or one whose operation ends before it unlocks (R181,
R182). -/
def convoyOf (s : State) (c : Nat) : Option Nat :=
  (List.range 16).find? fun n => (flag s (Reg.cmpCvCfg n) 31 || (sget s.convoys n Convoy.reset).launched) &&
    (convoyCores (convoyWord s n)).contains c

/-- A member of the west column of a convoy (R184). -/
def westMember (w : Word) (c : Nat) : Bool := decide (c % 32 = bits w 9 5)

/-- A member of the bottom row of a convoy (R184). -/
def bottomMember (w : Word) (c : Nat) : Bool := decide (c / 32 = bits w 4 0 + bits w 12 10)

/-- The use of a tile or matrix instruction on a core: of a convoy instruction, only a west member reads tA, and only a member
of the bottom row writes its accumulator (R184). -/
def tileUseAt (s : State) (c : Nat) (i : Instr) : Option TileUse :=
  match i, convoyOf s c with
  | .cvmma _ a ta tb, some n | .cvmms _ a ta tb, some n =>
    let w := convoyWord s n
    let as := if bottomMember w c then [a] else []
    some ⟨if westMember w c then [ta, tb] else [tb], [], as, as, true⟩
  | _, _ => tileUse i

/-- The tile and matrix instructions that execute on a core. A convoy instruction executes once it has launched
(R183). -/
def executing (s : State) (c : Nat) (launched : Bool) : List TileUse :=
  (List.range 4).filterMap fun t =>
    let x := thr s ⟨c, BitVec.ofNat 2 t⟩
    if decide (x.wait = .tile) || (launched && decide (x.wait = .convoy)) then x.cur.bind (tileUseAt s c) else none

/-- A core's convoy executes an operation (R186). -/
def convoyRuns (s : State) (c : Nat) : Bool :=
  match convoyOf s c with
  | some n => (sget s.convoys n Convoy.reset).launched
  | none => false

/-- The state of a waybill engine: 0 IDLE, 1 LOADING, 2 RUNNING, 3 FAULTED (R180). -/
def wbState (s : State) (c : Nat) : Nat := fld s (Reg.cmpWbStat c) 1 0

/-- The current entry of a waybill engine (R178, R180). -/
def wbEntry (s : State) (c : Nat) : DWord := sget (core s c).wb.store (fld s (Reg.cmpWbStat c) 25 16) 0

/-- The tile a running waybill entry uses, and whether it writes it: SEND reads, RECV writes (R170). -/
def wbTile (s : State) (c : Nat) : Option (TReg × Bool) :=
  let e := wbEntry s c
  let op := bits e 63 60
  if decide (wbState s c = 2) && (core s c).wb.started.isSome && !(core s c).wb.blocked && bit e 55 && (op == 1 || op == 2) then
    some (BitVec.ofNat 3 (bits e 54 52), op == 2)
  else none

/-- A running waybill entry keeps an instruction from issuing (R170). -/
def wbClash (s : State) (c : Nat) (u : TileUse) : Bool :=
  match wbTile s c with
  | none => false
  | some (t, w) => u.wrT.contains t || (w && u.rdT.contains t)

/-- The core cycle in which a thread's instruction became ready: now, unless it waits already (R120). -/
def readySince (s : State) (h : Hart) (i : Instr) : Nat :=
  match (thr s h).tileWait with
  | some (j, n) => if j = i then n else coreCycle s h.core
  | none => coreCycle s h.core

/-- Another thread waits with an instruction that competes and became ready earlier; those that became ready in one cycle
issue in weave order, which is the order of the commands (R120; log entry 1). -/
def tileQueued (s : State) (h : Hart) (i : Instr) (u : TileUse) : Bool :=
  (List.range 4).any fun n =>
    let t := thr s ⟨h.core, BitVec.ofNat 2 n⟩
    match t.tileWait with
    | some (j, c) => decide (n ≠ h.tid.toNat) && decide (c < readySince s h i) && (tileUseAt s h.core j).any (usesClash u)
    | none => false

/-- A tile or matrix instruction may issue now (R120, R170). -/
def tileFree (s : State) (h : Hart) (i : Instr) : Bool :=
  match tileUseAt s h.core i with
  | none => true
  | some u =>
    (executing s h.core (convoyRuns s h.core)).all (fun r => !usesClash r u) && !wbClash s h.core u && !tileQueued s h i u

/-- A ready instruction that may not issue waits from now on (R120). -/
def waitTile (s : State) (h : Hart) (i : Instr) : State :=
  modThr s h fun t => { t with tileWait := some (i, readySince s h i) }

/-- The issue of a tile or matrix instruction: its thread waits for it to complete (R119). -/
def startTile (s : State) (h : Hart) (i : Instr) : State :=
  modThr (endTileWait s h) h fun t => { t with wait := .tile, cur := some i, curAt := coreCycle s h.core, rowsDone := 0 }

/-- A tile or matrix instruction that reads `srcs` issues after its checks, or waits under R120 and R170. Behind older
instructions that have not committed it may issue where no check fails (R69, R119 to R122). -/
def tileIssue (s : State) (h : Hart) (i : Instr) (srcs : List GReg) (checks : List (Bool × Trap)) :
    Host.Outcome State Fault Refusal :=
  let behind := canFollow s h && srcs.all (thr s h).ready
  if tileFree s h i then
    let checks := (isDrvCore h.core, trapIllegal (insnWord i)) :: checks
    if behind && checks.all fun e => !e.1 then .next (startTile s h i)
    else issue s h (firstTrap s checks (.ok (startTile s h i)))
  else when s (behind || canIssue s h) (waitTile s h i)

/-! ### The checks at issue (R107, R108, R110) -/

/-- The stencil trap of a check and a tile (R107). -/
def stencilTrap (check : Nat) (t : TReg) : Trap := trapStencil (BitVec.ofNat 32 (check + 16 * t.toNat))

/-- The poison trap of a tile row (R151). -/
def rowPoisonTrap (t : TReg) (i : Nat) : Trap := trapTilePoison (BitVec.ofNat 32 (t.toNat + 8 * i))

/-- The lowest of the addresses of `[a, a + n)`, reduced to 32 bits, that lie in `[lo, hi)`. -/
def lowestIn (lo hi a n : Nat) : Option Nat :=
  let a := a % 2 ^ 32
  let x := Nat.max a lo
  if x < Nat.min (a + n) hi then some x else none

/-- The lowest of the addresses of a list of ranges that lie in `[lo, hi)`. -/
def lowestOf (lo hi : Nat) (rs : List (Nat × Nat)) : Option Nat := (rs.filterMap fun r => lowestIn lo hi r.1 r.2).min?

/-- The traps of a footprint in local memory: the guarded local region, then a byte outside (R110, R144, R453). -/
def footprintTraps (s : State) (h : Hart) (rs : List (Nat × Nat)) : List (Bool × Trap) :=
  let w := coreCsr s h.core 0x802
  let g := if (thr s h).mode.guarded then none
    else lowestOf (4096 * bits w 6 0) (4096 * (bits w 6 0 + bits w 14 8)) rs
  let b := lowestOf 0x60000 (2 ^ 32) rs
  [(g.isSome, trapTenancy (BitVec.ofNat 32 (g.getD 0))), (b.isSome, trapBus (BitVec.ofNat 32 (b.getD 0)) 0x01)]

/-- The core-view address of row `i` of a strided footprint (R109). -/
def rowAddr (base stride : Word) (i : Nat) : Nat := (base + BitVec.ofNat 32 i * stride).toNat

/-- The rows of a TLD or TST: address and length (R109, R110). -/
def rowRanges (t : Tile) (base stride : Word) : List (Nat × Nat) := t.rowList.map fun i => (rowAddr base stride i, t.bpr)

/-- The traps of TLD and TST (R109, R110). -/
def rowTraps (s : State) (h : Hart) (t : TReg) (rs1 rs2 : GReg) : List (Bool × Trap) :=
  let x := tile s h.core t
  let b := greg s h rs1
  let st := greg s h rs2
  let rs := rowRanges x b st
  (decide (b.toNat % x.size ≠ 0) || decide (st.toNat % x.size ≠ 0),
    trapMisaligned (BitVec.ofNat 32 (((rs.map Prod.fst).min?).getD b.toNat))) :: footprintTraps s h rs

/-- The traps of an aligned block of local memory (R109, R110, R112). -/
def blockTraps (s : State) (h : Hart) (r : GReg) (align n : Nat) : List (Bool × Trap) :=
  let b := greg s h r
  (misaligned b align, trapMisaligned b) :: footprintTraps s h [(b.toNat, n)]

/-- The lowest poisoned row of a tile. -/
def badRow (t : Tile) : Option Nat := t.rowList.find? fun i => t.bad i

/-- The checks of MMA and MMS (R107, R108). -/
def mmaTraps (s : State) (h : Hart) (ta tb : TReg) : List (Bool × Trap) :=
  let x := tile s h.core ta
  let y := tile s h.core tb
  let raw := if x.etype = 2 then ta else tb
  [(decide (x.etype = 2) || decide (y.etype = 2) || decide (x.etype ≠ y.etype), stencilTrap 2 raw),
    (decide (x.bpr ≠ y.bpr), stencilTrap 3 tb),
    ((badRow x).isSome, rowPoisonTrap ta ((badRow x).getD 0)),
    ((badRow y).isSome, rowPoisonTrap tb ((badRow y).getD 0))]

/-- STENCIL (R106, R107). -/
def execStencil (h : Hart) (t : TReg) (rs1 : GReg) (s : State) : Host.Outcome State Fault Refusal :=
  tileIssue s h (.stencil h t rs1) [rs1] [(!shapeOk (greg s h rs1), stencilTrap 1 t)]

/-- TLD (R109, R110). -/
def execTld (h : Hart) (t : TReg) (rs1 rs2 : GReg) (s : State) : Host.Outcome State Fault Refusal :=
  tileIssue s h (.tld h t rs1 rs2) [rs1, rs2] (rowTraps s h t rs1 rs2)

/-- TST (R109, R110). -/
def execTst (h : Hart) (t : TReg) (rs1 rs2 : GReg) (s : State) : Host.Outcome State Fault Refusal :=
  tileIssue s h (.tst h t rs1 rs2) [rs1, rs2] (rowTraps s h t rs1 rs2)

/-- TZERO (R109). -/
def execTzero (h : Hart) (t : TReg) (s : State) : Host.Outcome State Fault Refusal := tileIssue s h (.tzero h t) [] []

/-- TMOV (R109). -/
def execTmov (h : Hart) (t ts : TReg) (s : State) : Host.Outcome State Fault Refusal := tileIssue s h (.tmov h t ts) [] []

/-- TEXPS (R109). -/
def execTexps (h : Hart) (t : TReg) (rs1 : GReg) (s : State) : Host.Outcome State Fault Refusal :=
  tileIssue s h (.texps h t rs1) [rs1] []

/-- TEXPLD (R109, R110). -/
def execTexpld (h : Hart) (t : TReg) (rs1 : GReg) (s : State) : Host.Outcome State Fault Refusal :=
  tileIssue s h (.texpld h t rs1) [rs1] (blockTraps s h rs1 32 (tile s h.core t).rows)

/-- TEXPST (R109, R110). -/
def execTexpst (h : Hart) (t : TReg) (rs1 : GReg) (s : State) : Host.Outcome State Fault Refusal :=
  tileIssue s h (.texpst h t rs1) [rs1] (blockTraps s h rs1 32 (tile s h.core t).rows)

/-- TRDSH (R109). -/
def execTrdsh (h : Hart) (t : TReg) (rd : GReg) (s : State) : Host.Outcome State Fault Refusal :=
  tileIssue s h (.trdsh h t rd) [] []

/-- The row a scalar names (R109). -/
def rowOf (s : State) (h : Hart) (r : GReg) : Nat := (greg s h r).toNat % 32

/-- TRV (R107 to R109). -/
def execTrv (h : Hart) (t : TReg) (rs1 : GReg) (vd : VReg) (s : State) : Host.Outcome State Fault Refusal :=
  let x := tile s h.core t
  let i := rowOf s h rs1
  tileIssue s h (.trv h t rs1 vd) [rs1] [(decide (x.rows ≤ i), stencilTrap 5 t), (x.bad i, rowPoisonTrap t i)]

/-- VTR (R107 to R109). -/
def execVtr (h : Hart) (t : TReg) (rs1 : GReg) (vs : VReg) (s : State) : Host.Outcome State Fault Refusal :=
  tileIssue s h (.vtr h t rs1 vs) [rs1] [(decide ((tile s h.core t).rows ≤ rowOf s h rs1), stencilTrap 5 t)]

/-- MMA (R107, R108, R113). -/
def execMma (h : Hart) (a : AReg) (ta tb : TReg) (s : State) : Host.Outcome State Fault Refusal :=
  tileIssue s h (.mma h a ta tb) [] (mmaTraps s h ta tb)

/-- MMS (R107, R108, R113). -/
def execMms (h : Hart) (a : AReg) (ta tb : TReg) (s : State) : Host.Outcome State Fault Refusal :=
  tileIssue s h (.mms h a ta tb) [] (mmaTraps s h ta tb)

/-- AZERO (R112). -/
def execAzero (h : Hart) (a : AReg) (rs : GReg) (s : State) : Host.Outcome State Fault Refusal :=
  tileIssue s h (.azero h a rs) [rs] []

/-- MNARROW (R107, R115). -/
def execMnarrow (h : Hart) (td : TReg) (a : AReg) (k : Option (BitVec 4)) (s : State) :
    Host.Outcome State Fault Refusal :=
  let x := tile s h.core td
  tileIssue s h (.mnarrow h td a k) [] [(decide (x.etype = 2) || decide (32 < x.cols), stencilTrap 4 td)]

/-- AST (R110, R112). -/
def execAst (h : Hart) (a : AReg) (rs : GReg) (s : State) : Host.Outcome State Fault Refusal :=
  tileIssue s h (.ast h a rs) [rs] (blockTraps s h rs 64 8224)

/-- ALD (R110, R112). -/
def execAld (h : Hart) (a : AReg) (rs : GReg) (s : State) : Host.Outcome State Fault Refusal :=
  tileIssue s h (.ald h a rs) [rs] (blockTraps s h rs 64 8224)

/-! ### The matrix arithmetic (R113 to R115) -/

/-- The exact product in the accumulator format of two elements of `t`'s type (R77, R113); of RAW elements, which only a
convoy can read, it is free (log entry 19). -/
def elemProduct (t : Tile) (x y : Int) : Int :=
  if t.etype = 0 then x * y * 2 ^ 16 else if t.etype = 1 then x * y else Config.rawProduct x y

/-- The exact dot product of row `i` of one tile and row `j` of another (R113). -/
def dot (x y : Tile) (i j : Nat) : Int := ((List.range x.cols).map fun k => elemProduct x (x.elem i k) (y.elem j k)).sum

/-- Alignment by a shift (R114). -/
def align (v sh : Int) : Int :=
  if v = 0 then 0
  else if 24 < sh then if 0 < v then 2 ^ 61 else -2 ^ 61
  else if 0 ≤ sh then v * 2 ^ sh.toNat
  else if sh ≤ -40 then if v < 0 then -1 else 0
  else v / 2 ^ (-sh).toNat

/-- An accumulator tile in the making, and whether an element saturated. -/
structure AccRun where
  acc : AccTile
  sat : Bool
  deriving DecidableEq, Repr

/-- One element of MMA or MMS: the aligned term added or subtracted, saturated once (R113, R114). -/
def accStep (sub : Bool) (term : Nat → Nat → Int) (r : AccRun) (i j : Nat) : AccRun :=
  let v := r.acc.get i j + (if sub then -term i j else term i j)
  ⟨r.acc.put i j (satTo 40 v), r.sat || saturates 40 v⟩

/-- Every element of rows below `m` and columns below `n` (R113). -/
def accAll (sub : Bool) (term : Nat → Nat → Int) (m n : Nat) (a : AccTile) : AccRun :=
  (List.range m).foldl (fun r i => (List.range n).foldl (fun r j => accStep sub term r i j) r) ⟨a, false⟩

/-- The aligned term of an element of MMA (R113). -/
def mmaTerm (x y : Tile) (a : AccTile) (i j : Nat) : Int :=
  align (dot x y i j) ((x.exp i).toInt + (y.exp j).toInt - (a.exp i).toInt)

/-- MMA or MMS completes: the accumulator, SATF.MACC, the reuse latch and its hits are written in one step (R113, R118,
R121, R125). -/
def doMma (s : State) (h : Hart) (sub : Bool) (a : AReg) (ta tb : TReg) : State :=
  let c := h.core
  let x := tile s c ta
  let y := tile s c tb
  let r := accAll sub (mmaTerm x y (accTile s c a)) x.rows y.rows (accTile s c a)
  let s := if (core s c).latch = some tb then countCore s c 0x102 1 else s
  let s := flagIf (setAccTile s c a r.acc) h r.sat satfMacc
  modCore s c fun k => { k with latch := some tb }

/-- The multiply-accumulate cycles C of an operation (R116). -/
def macCycles (x : Tile) : Nat := x.rows * (if x.etype = 1 then (x.cols + 7) / 8 else (x.cols + 31) / 32)

/-- The shift of a row of MNARROW: k, or under AUTO the smallest that fits every element, or 15 (R115). -/
def rowShift (a : AccTile) (i cols d0 w : Nat) (k : Option (BitVec 4)) : Nat :=
  match k with
  | some k => k.toNat
  | none => ((List.range 16).find? fun k => (List.range cols).all fun j =>
      !saturates w (a.get i j / 2 ^ (d0 + k))).getD 15

/-- MNARROW in progress: the tile, and the generator with its saturation. -/
structure NarrowRun where
  tile : Tile
  run  : Narrowing
  deriving DecidableEq, Repr

/-- One row of MNARROW (R115). -/
def narrowRow (a : AccTile) (mode : Nat) (k : Option (BitVec 4)) (r : NarrowRun) (i : Nat) : NarrowRun :=
  let w := 8 * r.tile.size
  let d0 := if r.tile.etype = 1 then 15 else 23
  let ki := rowShift a i r.tile.cols d0 w k
  let e := min ((a.exp i).toInt + ki) 31
  let d := ((d0 : Int) + e - (a.exp i).toInt).toNat
  let q := narrowAll r.run mode d w ((List.range r.tile.cols).map fun j => a.get i j)
  ⟨((r.tile.setElems i q.1).setExp i (BitVec.ofInt 6 e)).setBad i false, q.2⟩

/-- MNARROW completes (R115, R121). -/
def doMnarrow (s : State) (h : Hart) (td : TReg) (a : AReg) (k : Option (BitVec 4)) : State :=
  let x := tile s h.core td
  let r := x.rowList.foldl (narrowRow (accTile s h.core a) (rmode s h) k) ⟨x, startNarrow s h⟩
  endNarrow (setTile s h.core td r.tile) h r.run satfMnarrow

/-! ### The tile mover (R108 to R112) -/

/-- The device address of an offset of a thread's own local memory. -/
def localAddr (h : Hart) (off : Nat) : Nat := localBase h.core + off

/-- TLD of one row: a demand read; poison of a line marks the row (R108, R109). -/
def loadRow (h : Hart) (t : TReg) (base stride : Word) (s : State) (i : Nat) : State :=
  let x := tile s h.core t
  let a := localAddr h (rowAddr base stride i)
  let s := demandRead s a x.bpr
  setTile s h.core t ((x.setRow i (bytesLine (readMem s a x.bpr))).setBad i (isPoisoned s a x.bpr))

/-- The bytes of a stored row (R109). -/
def rowBytes (x : Tile) (i : Nat) : List Byte := (lineBytes (x.row i)).take x.bpr

/-- A thread's tile store of bytes: as poisoned lines where `pz` (R108, R208). -/
def storeTileBytes (s : State) (h : Hart) (off : Nat) (bs : List Byte) (pz : Bool) : State :=
  if pz then writePoison s (localAddr h off) bs else writeLocal s h.core off bs

/-- TST of one row (R108, R109). -/
def storeRow (h : Hart) (t : TReg) (base stride : Word) (s : State) (i : Nat) : State :=
  let x := tile s h.core t
  storeTileBytes s h (rowAddr base stride i) (rowBytes x i) (x.bad i)

/-- The 64-byte lines that the first `n` rows of a TST write, in the order in which it comes to them (R109, R123). -/
def rowLines (x : Tile) (base stride : Word) (n : Nat) : List Nat :=
  ((List.range n).flatMap fun i =>
    let a := rowAddr base stride i
    [a / 64, (a + x.bpr - 1) / 64]).eraseDups

/-- The lines of a TST that an abandonment leaves new: those that its mover has begun to write, and of the others those that
`kept` names by their place (R123). -/
def linesKept (x : Tile) (base stride : Word) (done kept : Nat) : List Nat :=
  rowLines x base stride done ++
    ((rowLines x base stride x.rows).zipIdx.filter fun e => kept.testBit e.2).map Prod.fst

/-- The parts of a TST row that lie in given lines (R123). -/
def storeRowIn (h : Hart) (t : TReg) (base stride : Word) (lines : List Nat) (s : State) (i : Nat) : State :=
  let x := tile s h.core t
  let a := rowAddr base stride i
  let n := Nat.min x.bpr (64 - a % 64)
  let bs := rowBytes x i
  let s := if lines.contains (a / 64) then storeTileBytes s h a (bs.take n) (x.bad i) else s
  if lines.contains ((a + n) / 64) then storeTileBytes s h (a + n) (bs.drop n) (x.bad i) else s

/-- TEXPLD: exponents from bytes; a poisoned line marks its rows (R108, R109). -/
def loadExps (s : State) (h : Hart) (t : TReg) (a : Nat) : State :=
  let x := tile s h.core t
  let d := localAddr h a
  let s := demandRead s d x.rows
  let x := x.rowList.foldl (fun (x : Tile) i =>
    let x := x.setExp i (BitVec.ofNat 6 (memGet s.mem (d + i)).toNat)
    if isPoisoned s (d + i) 1 then x.setBad i true else x) x
  setTile s h.core t x

/-- The 8,224 bytes of an accumulator as AST stores them (R112). -/
def accBytes (a : AccTile) : List Byte :=
  ((List.range 32).flatMap fun i => (List.range 32).flatMap fun j =>
    leBytes 8 (BitVec.ofInt 64 (a.get i j)).toNat) ++
  (List.range 32).map fun i => (a.exp i).signExtend 8

/-- AST stores line `k` of an accumulator (R112). -/
def storeAccLine (h : Hart) (a : AReg) (base : Nat) (s : State) (k : Nat) : State :=
  writeLocal s h.core (base + 64 * k) (((accBytes (accTile s h.core a)).drop (64 * k)).take 64)

/-- The accumulator that 8,224 bytes of memory hold (R112). -/
def accOfMem (s : State) (a : Nat) : AccTile :=
  let vals : AccTile := (List.range 32).foldl (fun r i => (List.range 32).foldl (fun (r : AccTile) j =>
    r.put i j (BitVec.ofNat 40 (leNat (readMem s (a + 256 * i + 8 * j) 5))).toInt) r) AccTile.reset
  { vals with exps := (List.range 32).foldl (fun e i =>
      sput e i (BitVec.ofNat 6 (memGet s.mem (a + 8192 + i)).toNat)) [] }

/-- ALD reads its lines in order up to the first that is poisoned (R112). -/
def aldLines (s : State) (a : Nat) : List Nat → State × Option Nat
  | [] => (s, none)
  | i :: r =>
    let s := demandRead s (a + 64 * i) 64
    if isPoisoned s (a + 64 * i) 64 then (s, some i) else aldLines s a r

/-- The rows that TLD and TST, or the lines that AST, go through from one place to another (R109, R112, R121). -/
def tileRows (s : State) (h : Hart) (i : Instr) (lo hi : Nat) : State :=
  match i with
  | .tld _ t rs1 rs2 =>
    (((tile s h.core t).rowList.take hi).drop lo).foldl (loadRow h t (greg s h rs1) (greg s h rs2)) s
  | .tst _ t rs1 rs2 =>
    (((tile s h.core t).rowList.take hi).drop lo).foldl (storeRow h t (greg s h rs1) (greg s h rs2)) s
  | .ast _ a rs => (((List.range 129).take hi).drop lo).foldl (storeAccLine h a (greg s h rs).toNat) s
  | _ => s

/-- What a tile or matrix instruction does at its completion: its effect, or what is left of it, or the poison trap of ALD
(R112, R121). -/
def tileEffect (s : State) (h : Hart) (i : Instr) : Res :=
  let c := h.core
  match i with
  | .stencil _ t rs1 => .ok (setTile s c t (shapedTile (greg s h rs1)))
  | .tzero _ t => .ok (setTile s c t { tile s c t with exps := [], poison := 0, data := [] })
  | .tmov _ t ts => .ok (setTile s c t (tile s c ts))
  | .texps _ t rs1 =>
    let e := BitVec.ofNat 6 (greg s h rs1).toNat
    .ok (setTile s c t { tile s c t with exps := (List.range 32).map fun i => (i, e) })
  | .tld .. | .tst .. | .ast .. => .ok (tileRows s h i (thr s h).rowsDone 129)
  | .texpld _ t rs1 => .ok (loadExps s h t (greg s h rs1).toNat)
  | .texpst _ t rs1 =>
    let x := tile s c t
    .ok (writeLocal s c (greg s h rs1).toNat (x.rowList.map fun i => (x.exp i).signExtend 8))
  | .trdsh _ t rd => .ok (setGreg s h rd (tile s c t).shape)
  | .trv _ t rs1 vd => .ok (setVreg s h vd ((tile s c t).shown (rowOf s h rs1)))
  | .vtr _ t rs1 vs =>
    let i := rowOf s h rs1
    .ok (setTile s c t (((tile s c t).setRow i (vreg s h vs)).setBad i false))
  | .mma _ a ta tb => .ok (doMma s h false a ta tb)
  | .mms _ a ta tb => .ok (doMma s h true a ta tb)
  | .azero _ a rs =>
    let e := BitVec.ofNat 6 (greg s h rs).toNat
    .ok (setAccTile s c a ⟨[], (List.range 32).map fun i => (i, e)⟩)
  | .mnarrow _ td a k => .ok (doMnarrow s h td a k)
  | .ald _ a rs =>
    let va := greg s h rs
    let (s, bad) := aldLines s (localAddr h va.toNat) (List.range 129)
    match bad with
    | some k => .trap s (trapPoison (va + BitVec.ofNat 32 (64 * k)))
    | none => .ok (setAccTile s c a (accOfMem s (localAddr h va.toNat)))
  | _ => .ok s

/-- The multiply-accumulate cycles among the first `ran` of an MMA or MMS: they follow the load of the stationary operand
(R116, R118). -/
def macRan (s : State) (c : Nat) (ta tb : TReg) (ran : Nat) : Nat :=
  Nat.min (macCycles (tile s c ta)) (ran - if (core s c).latch = some tb then 0 else (tile s c tb).rows)

/-- The unit cycles of an instruction that has run to its end, or for `ran` cycles (R116, R125). -/
def countTile (s : State) (h : Hart) (i : Instr) (cycles : Nat) (whole : Bool) : State :=
  match tileUse i with
  | none => s
  | some u =>
    let s := countCore s h.core (if u.matrix then 0x100 else 0x106) cycles
    match i with
    | .mma _ _ ta tb | .mms _ _ ta tb =>
      let n := if whole then macCycles (tile s h.core ta) else macRan s h.core ta tb cycles
      let s := countCore s h.core 0x101 n
      if (core s h.core).kernel then ledgerCore s h.core 2 n else s
    | _ => s

/-- A thread's tile or matrix instruction takes its effect, or the trap that its data raises. -/
def completeTile (s : State) (h : Hart) (cycles : Nat) : State :=
  let t := thr s h
  match t.cur with
  | none => s
  | some i =>
    if t.wait ≠ .tile then s
    else
      match tileEffect (countTile s h i cycles true) h i with
      | .ok s' => endWait s' h
      | .trap s' tr => takeTrap s' h tr t.pc

/-- A TLD or TST has gone through its rows, or an AST through its lines, up to row or line `k` (R121, R231). -/
def tileProgress (s : State) (h : Hart) (k : Nat) : State :=
  let t := thr s h
  match t.cur with
  | none => s
  | some i =>
    if t.wait ≠ .tile ∨ k ≤ t.rowsDone then s
    else modThr (tileRows s h i t.rowsDone k) h fun t => { t with rowsDone := k }

/-- TILE_INSTRUCTION_COMPLETE: the instruction's results are written in one step, or ALD traps; TLD, TST and AST go on row by
row before they complete, up to the row or line `rows` where it is given. Nothing is written before the instruction commits,
and a halted core's waits (R69, R112, R119, R121, R157). `cycles` is the time it took. -/
def execTileInstructionComplete (h : Hart) (cycles : Nat) (rows : Option Nat) (s : State) : Host.Outcome State Fault Refusal :=
  when s ((thr s h).window.isEmpty && decide ((core s h.core).run = .running))
    (match rows with
      | none => completeTile s h cycles
      | some k => tileProgress s h k)

/-! ### Abandonment (R123) -/

/-- The effect that an abandoned instruction leaves: `kept` names the rows or lines that are written beside those that its
mover has done, and for the instructions that either complete or leave nothing, whether they completed (R123). -/
def abandonEffect (s : State) (h : Hart) (i : Instr) (kept : Nat) : State :=
  let c := h.core
  let done := (thr s h).rowsDone
  match i with
  | .tld _ t rs1 rs2 =>
    ((tile s c t).rowList.filter fun k => decide (done ≤ k) && kept.testBit k).foldl
      (loadRow h t (greg s h rs1) (greg s h rs2)) s
  | .tst _ t rs1 rs2 =>
    let x := tile s c t
    let lines := linesKept x (greg s h rs1) (greg s h rs2) done kept
    x.rowList.foldl (storeRowIn h t (greg s h rs1) (greg s h rs2) lines) s
  | .ast _ a rs =>
    ((List.range 129).filter fun k => decide (done ≤ k) && kept.testBit k).foldl (storeAccLine h a (greg s h rs).toNat) s
  | .stencil .. | .tzero .. | .texps .. | .texpld .. | .texpst .. | .trdsh .. | .trv .. | .vtr .. =>
    if kept = 0 then s
    else
      match tileEffect s h i with
      | .ok s' => s'
      | .trap s' _ => s'
  | _ => s

/-- A tile or matrix instruction abandoned: what it leaves, its waste and its unit's cycles counted; a fill of the reuse latch
in progress is void (R118, R123, R125). -/
def abandonTile (s : State) (h : Hart) (kept ran : Nat) : State :=
  match (thr s h).cur with
  | none => s
  | some i =>
    let s := countTile (countCore (abandonEffect s h i kept) h.core 0x104 ran) h i ran false
    voidFill (modThr s h fun t => { t with wait := .none, cur := none }) h (some i)

end Sys2Proof.Machine
end

