-- ==== Sys2Proof/Machine/Convoy.lean ====
section
/-! DEFINITION. Convoys: forming, arming, launching, completing and dissolving (R27, R181 to R188). -/

namespace Sys2Proof.Machine

/-- A convoy beside its registers. -/
def convoy (s : State) (n : Nat) : Convoy := sget s.convoys n Convoy.reset

/-- A convoy changed. -/
def modConvoy (s : State) (n : Nat) (f : Convoy → Convoy) : State := { s with convoys := sput s.convoys n (f (convoy s n)) }

/-- The member cores of convoy `n`, row by row (R181). -/
def members (s : State) (n : Nat) : List Nat := convoyCores (convoyWord s n)

/-- The convoy's STATE field: 0 unlocked, 1 locking, 2 locked, 3 unlocking (R181). -/
def convoyState (s : State) (n : Nat) : Nat := fld s (Reg.cmpCvStat n) 1 0

/-- H − 1 and W − 1 of a convoy (R181). -/
def convoyHm1 (s : State) (n : Nat) : Nat := bits (convoyWord s n) 12 10

/-- W − 1 of a convoy (R181). -/
def convoyWm1 (s : State) (n : Nat) : Nat := bits (convoyWord s n) 16 13

/-- Member (r, c) of a convoy (R181). -/
def memberAt (s : State) (n r c : Nat) : Nat :=
  coreAt (bits (convoyWord s n) 4 0 + r) (bits (convoyWord s n) 9 5 + c)

/-- The thread of a core whose convoy instruction has armed; a core that has halted holds none (R157, R185). -/
def armedHart (s : State) (c : Nat) : Option Hart :=
  if (core s c).run = .halted then none
  else ((List.range 4).map fun t => (⟨c, BitVec.ofNat 2 t⟩ : Hart)).find? fun h => decide ((thr s h).wait = .convoy)

/-- The armed threads of a convoy. -/
def armedHarts (s : State) (n : Nat) : List Hart := (members s n).filterMap (armedHart s)

/-- A list of cores lies within one enabled rectangle (R182). -/
def inOneRect (s : State) (cs : List Nat) : Bool :=
  match cs with
  | [] => false
  | c :: _ => (rectOf s c).isSome && cs.all fun d => decide (rectOf s d = rectOf s c)

/-- The first failing check of a formation with configuration word `w` (R182). -/
def formationStatus (s : State) (n : Nat) (w : Word) : Option Nat :=
  let h := bits w 12 10 + 1
  let wd := bits w 16 13 + 1
  let cs := convoyCores w
  let other := (List.range 16).any fun m => decide (m ≠ n) && flag s (Reg.cmpCvCfg m) 31 && meet (members s m) cs
  if decide (wd * h < 2) || decide (s.pkg.rows < bits w 4 0 + h) || decide (32 < bits w 9 5 + wd) then some 0x0B
  else if other then some 0x0B
  else if !inOneRect s cs then some 0x07
  else if cs.any fun c => decide (2 ≤ blockState s (blockOf c)) || decide ((core s c).run = .halted) || !blockReady s (blockOf c) then
    some 0x0B
  else none

/-- The convoy instruction that a thread had armed ends with an illegal-operand trap (R183). -/
def disarmTrap (s : State) (h : Hart) : State :=
  match (thr s h).cur with
  | some i => takeTrap s h (trapOperand (insnWord i)) (thr s h).pc
  | none => s

/-- Unlocking begins: every armed member traps first (R183). -/
def beginUnlock (s : State) (n : Nat) : State :=
  let s := (armedHarts s n).foldl disarmTrap s
  setFld (modConvoy s n fun x => { Convoy.reset with form := x.form }) (Reg.cmpCvStat n) 1 0 3

/-- A member's island joins the convoy clock (R27). -/
def joinClock (st : BitVec 6) (s : State) (c : Nat) : State :=
  modCore (setIslandStep (setCoreCsr s c 0x404 (putBit (coreCsr s c 0x404) 8 true)) c st) c fun k => { k with clkWait := false }

/-- A member's island leaves the convoy clock; a recorded STEP that differs takes effect (R24, R27). -/
def leaveClock (s : State) (c : Nat) : State :=
  startRelock (setCoreCsr s c 0x404 (putBit (coreCsr s c 0x404) 8 false)) c

/-- The unlocking of a convoy ends: its islands leave the convoy clock (R27, R182). -/
def endUnlock (s : State) (n : Nat) : State :=
  setFld ((members s n).foldl (fun s c => if bit (coreCsr s c 0x404) 8 then leaveClock s c else s) s) (Reg.cmpCvStat n) 1 0 0

/-- A write of CMP_CV_CFGn: ENABLE = 1 forms the convoy, 0 dissolves it; while ENABLE is 1 the other fields keep, and while
the convoy dissolves they take effect with the members it was formed of kept (R181 to R183). The manual does not say what
ENABLE = 1 does meanwhile: while an operation runs the formation fails with VALIDATION, while the convoy unlocks the unlocking
ends first (DESIGN CHOICE, log entry 55). -/
def convoyCfgWrite (s : State) (n : Nat) (v : Word) : State × Nat :=
  let off := Reg.cmpCvCfg n
  if flag s off 31 then
    if bit v 31 then (s, 0)
    else
      let s := modConvoy s n fun x => { x with form := reg s off }
      let s := setFlag s off 31 false
      if (convoy s n).launched then (modConvoy s n fun x => { x with disabling := true }, 0) else (beginUnlock s n, 0)
  else
    let s := plainWrite s off (putBit v 31 false)
    if !bit v 31 then (s, 0)
    else if (convoy s n).launched then (setFld s (Reg.cmpCvStat n) 15 8 0x0B, 0)
    else
      let s := if convoyState s n = 3 then endUnlock s n else s
      match formationStatus s n (reg s off) with
      | some st => (setFld s (Reg.cmpCvStat n) 15 8 st, 0)
      | none =>
        let s := (members s n).foldl (fun s c => wakeBlock s (blockOf c)) s
        (setFld (setFlag s off 31 true) (Reg.cmpCvStat n) 1 0 1, 0)

/-- CONVOY_ENABLE: a write with ENABLE = 1 (R182). -/
def execConvoyEnable (o : Origin) (n : Nat) (v : Word) (s : State) : Host.Outcome State Fault Refusal :=
  let v := putBit v 31 true
  .next (writeAt s o (Reg.cmpCvCfg n) v (convoyCfgWrite s n v)).1

/-- CONVOY_DISABLE: a write with ENABLE = 0 (R182, R183). -/
def execConvoyDisable (o : Origin) (n : Nat) (s : State) : Host.Outcome State Fault Refusal :=
  let v := putBit (reg s (Reg.cmpCvCfg n)) 31 false
  .next (writeAt s o (Reg.cmpCvCfg n) v (convoyCfgWrite s n v)).1

/-- No member's matrix unit executes an instruction of its own (R182). -/
def matrixIdle (s : State) (n : Nat) : Bool := (members s n).all fun c => (executing s c false).all fun u => !u.matrix

/-- CONVOY_LOCKED: the islands run on the convoy clock at the step of the north-west core (R27, R182). -/
def execConvoyLocked (n : Nat) (s : State) : Host.Outcome State Fault Refusal :=
  let nw := memberAt s n 0 0
  let free := (members s n).all fun c => !bit (coreCsr s c 0x404) 9
  let s' := (members s n).foldl (joinClock (BitVec.ofNat 6 (bits (coreCsr s nw 0x404) 5 0))) s
  when s (decide (convoyState s n = 1) && matrixIdle s n && free)
    (setFld (setFld s' (Reg.cmpCvStat n) 1 0 2) (Reg.cmpCvStat n) 15 8 0)

/-- CONVOY_UNLOCKED (R27, R182). -/
def execConvoyUnlocked (n : Nat) (s : State) : Host.Outcome State Fault Refusal :=
  when s (decide (convoyState s n = 3)) (endUnlock s n)

/-- A core lies in a locked convoy that is not being dissolved (R183, R184). -/
def lockedConvoy (s : State) (c : Nat) : Option Nat :=
  match convoyOf s c with
  | some n => if flag s (Reg.cmpCvCfg n) 31 && decide (convoyState s n = 2) then some n else none
  | none => none

/-- A convoy instruction arms as it commits; a member holds one at a time (R184, R185). -/
def arm (s : State) (h : Hart) (i : Instr) : Host.Outcome State Fault Refusal :=
  let w := insnWord i
  if !tileFree s h i || (armedHart s h.core).isSome then .next s
  else
    issue s h (firstTrap s [(isDrvCore h.core, trapIllegal w), ((lockedConvoy s h.core).isNone, trapOperand w)]
      (match lockedConvoy s h.core with
        | none => .ok s
        | some n =>
          let s := modThr s h fun t => { t with wait := .convoy, cur := some i }
          .ok (modConvoy s n fun x => { x with firstArm := some (x.firstArm.getD (now s)) })))

/-- CVMMA (R184). -/
def execCvmma (h : Hart) (a : AReg) (ta tb : TReg) (s : State) : Host.Outcome State Fault Refusal :=
  arm s h (.cvmma h a ta tb)

/-- CVMMS (R184). -/
def execCvmms (h : Hart) (a : AReg) (ta tb : TReg) (s : State) : Host.Outcome State Fault Refusal :=
  arm s h (.cvmms h a ta tb)

/-- CVSYNC (R184). -/
def execCvsync (h : Hart) (s : State) : Host.Outcome State Fault Refusal := arm s h (.cvsync h)

/-- What CVQUERY reads (R184). -/
def cvqueryValue (s : State) (c : Nat) : Word :=
  match convoyOf s c with
  | none => 0
  | some n =>
    let w := convoyWord s n
    BitVec.ofNat 32 ((c / 32 - bits w 4 0) + 16 * (c % 32 - bits w 9 5) + 256 * bits w 12 10 + 2048 * bits w 16 13 +
      32768 * (decide (convoyState s n = 2)).toNat + 65536 * n)

/-- CVQUERY (R184). -/
def execCvquery (h : Hart) (rd : GReg) (s : State) : Host.Outcome State Fault Refusal :=
  issue s h (firstTrap s [(isDrvCore h.core, trapIllegal (insnWord (.cvquery h rd)))]
    (.ok (retire (setGreg s h rd (cvqueryValue s h.core)) h)))

/-! ### Launch (R185) -/

/-- What a member has armed: its thread, FN, accumulator and tiles. -/
structure Member where
  hart : Hart
  fn   : Nat
  a    : AReg
  ta   : TReg
  tb   : TReg
  west : Bool
  deriving DecidableEq, Repr

/-- A member's armed instruction. -/
def memberOf (s : State) (n c : Nat) : Option Member :=
  match armedHart s c with
  | none => none
  | some h =>
    let west := westMember (convoyWord s n) c
    match (thr s h).cur with
    | some (.cvmma _ a ta tb) => some ⟨h, 8, a, ta, tb, west⟩
    | some (.cvmms _ a ta tb) => some ⟨h, 9, a, ta, tb, west⟩
    | some (.cvsync _) => some ⟨h, 10, 0, 0, 0, west⟩
    | _ => none

/-- The members that have armed, in member order. -/
def armedMembers (s : State) (n : Nat) : List Member := (members s n).filterMap (memberOf s n)

/-- All elements of a list have one value of `f`. -/
def allSame {α β : Type} [DecidableEq β] (l : List α) (f : α → β) : Bool :=
  match l with
  | [] => true
  | x :: r => r.all fun y => decide (f y = f x)

/-- The tA of a west member does not match its tB (R185). -/
def westClash (s : State) (m : Member) : Bool :=
  let x := tile s m.hart.core m.ta
  let y := tile s m.hart.core m.tb
  m.west && (decide (x.etype ≠ y.etype) || decide (x.bpr ≠ y.bpr))

/-- The failing launch check, with the tile each member reports (R185). -/
def launchCheck (s : State) (ms : List Member) : Option (Nat × (Member → TReg)) :=
  let tb := fun m : Member => tile s m.hart.core m.tb
  let wests := ms.filter Member.west
  if !allSame ms Member.fn then some (6, fun _ => 0)
  else if ms.all fun m => m.fn == 10 then none
  else if ms.any (westClash s) then some (7, Member.ta)
  else if !allSame ms (fun m => ((tb m).etype, (tb m).bpr, (tb m).rows)) then some (7, Member.tb)
  else if !allSame wests (fun m => (tile s m.hart.core m.ta).rows) then some (8, Member.ta)
  else none

/-- The lowest poisoned row of the tA that a west member reads (R187). -/
def westPoison (s : State) (m : Member) : Option Nat :=
  if m.west && decide (m.fn ≠ 10) then badRow (tile s m.hart.core m.ta) else none

/-- The armed members of a convoy re-arm now, or nothing is armed (R188). -/
def rearm (s : State) (n : Nat) : State :=
  modConvoy s n fun x => { x with launched := false, firstArm := if (armedHarts s n).isEmpty then none else some (now s) }

/-- CONVOY_LAUNCH: every member has armed; the launch checks, the poison of the west tiles, then the operation runs
(R185 to R188). -/
def execConvoyLaunch (n : Nat) (s : State) : Host.Outcome State Fault Refusal :=
  let ms := armedMembers s n
  if decide (convoyState s n ≠ 2) || (convoy s n).launched || decide (ms.length ≠ (members s n).length) || !matrixIdle s n then .next s
  else
    match launchCheck s ms with
    | some (k, t) =>
      .next (ms.foldl (fun s m => takeTrap s m.hart (stencilTrap k (t m)) (thr s m.hart).pc) (modConvoy s n fun x => { x with firstArm := none }))
    | none =>
      if ms.any fun m => (westPoison s m).isSome then
        .next (rearm (ms.foldl (fun s m => match westPoison s m with
          | some i => takeTrap s m.hart (rowPoisonTrap m.ta i) (thr s m.hart).pc
          | none => s) s) n)
      else .next (setFlag (modConvoy s n fun x => { x with launched := true }) (Reg.cmpCvStat n) 16 true)

/-- The expected sender of a launch that does not come: the lowest member that has not armed; 0xFFF, no sender, where all
have, which the manual leaves open (R185; DESIGN CHOICE, log entry 55). -/
def launchSender (s : State) (n : Nat) : Nat := ((members s n).find? fun c => (armedHart s c).isNone).getD 0xFFF

/-- CONVOY_LAUNCH_TIMEOUT: no launch within CMP_CV_DLn of the first arming (R185). -/
def execConvoyLaunchTimeout (n : Nat) (s : State) : Host.Outcome State Fault Refusal :=
  match (convoy s n).firstArm with
  | some t =>
    if (convoy s n).launched || decide (now s < t + (reg s (Reg.cmpCvDl n)).toNat) then .next s
    else
      let c := launchSender s n
      .next ((armedHarts s n).foldl (fun s h => takeTrap s h (trapWait 0 c) (thr s h).pc)
      (modConvoy s n fun x => { x with firstArm := none }))
  | none => .next s

/-! ### The operation (R186, R187) -/

/-- The partial sums of one convoy column for row `i` and column `j`, from the top member down: the sum the last member
holds, and which members saturated (R187). -/
def columnSum (s : State) (ms : List (Member × Tile)) (i j : Nat) : Int × List Hart :=
  ms.foldl (fun (r : Int × List Hart) m =>
    let v := r.1 + dot m.2 (tile s m.1.hart.core m.1.tb) i j
    (satTo 40 v, if saturates 40 v then m.1.hart :: r.2 else r.2)) (0, [])

/-- The members of convoy column `c`, each with the tA of its row's west member (R187). -/
def columnMembers (s : State) (n c : Nat) : List (Member × Tile) :=
  (List.range (convoyHm1 s n + 1)).filterMap fun r =>
    match memberOf s n (memberAt s n r c), memberOf s n (memberAt s n r 0) with
    | some m, some w => some (m, tile s w.hart.core w.ta)
    | _, _ => none

/-- The saturations of the partial sums of a column (R187). -/
def columnSats (s : State) (ms : List (Member × Tile)) (rows cols : Nat) : List Hart :=
  (List.range rows).flatMap fun i => (List.range cols).flatMap fun j => (columnSum s ms i j).2

/-- The accumulator of the bottom member of a column, and SATF.MACC of every member that saturated (R187). -/
def completeColumn (before : State) (n : Nat) (s : State) (c : Nat) : State :=
  let ms := columnMembers before n c
  match ms.getLast? with
  | none => s
  | some (m, wt) =>
    let y := tile before m.hart.core m.tb
    let a := accTile before m.hart.core m.a
    let term := fun i j => align (columnSum before ms i j).1 ((wt.exp i).toInt + (y.exp j).toInt - (a.exp i).toInt)
    let r := accAll (m.fn == 9) term wt.rows y.rows a
    let s := (columnSats before ms wt.rows y.rows).foldl (fun s h => setSatf s h satfMacc) s
    flagIf (setAccTile s m.hart.core m.a r.acc) m.hart r.sat satfMacc

/-- One member's instruction completes: its counters, its latch, its thread goes on (R118, R125, R186). -/
def completeMember (busy active : Nat) (s : State) (m : Member) : State :=
  if m.fn = 10 then endWait s m.hart
  else
    let c := m.hart.core
    let s := countCore (countCore s c 0x100 busy) c 0x101 active
    let s := if (core s c).kernel then ledgerCore s c 2 active else s
    endWait (modCore s c fun k => { k with latch := some m.tb }) m.hart

/-- CONVOY_OPERATION_COMPLETE: the bottom-row accumulators are written in one step and every member goes on (R186,
R187). -/
def execConvoyOperationComplete (n : Nat) (s : State) : Host.Outcome State Fault Refusal :=
  if !(convoy s n).launched then .next s
  else
    let ms := armedMembers s n
    let sync := ms.all fun m => m.fn == 10
    let s' := if sync then s else (List.range (convoyWm1 s n + 1)).foldl (completeColumn s n) s
    let hit := ms.all fun m => decide ((core s m.hart.core).latch = some m.tb)
    let active := match ms.find? Member.west with
      | some w => macCycles (tile s w.hart.core w.ta)
      | none => 0
    let nrows := match ms.head? with
      | some m => (tile s m.hart.core m.tb).rows
      | none => 0
    let busy := (if hit then 0 else nrows) + active + convoyWm1 s n + convoyHm1 s n + 6
    let s' := ms.foldl (completeMember busy active) s'
    let dis := (convoy s n).disabling
    let s' := setFlag (modConvoy s' n fun x => { x with launched := false, firstArm := none }) (Reg.cmpCvStat n) 16 false
    .next (if dis then beginUnlock s' n else s')

/-- A member's part of an abandoned operation: the cycles it ran are waste in which its matrix unit ran, and a fill of its
latch in progress is void; CVSYNC has no tiles (R118, R123, R125, R188). -/
def abandonMember (ran : Nat) (s : State) (m : Member) : State :=
  let c := m.hart.core
  let s := countCore s c 0x104 ran
  if m.fn = 10 then s
  else modCore (countCore s c 0x100 ran) c fun k => { k with latch := if k.latch = some m.tb then k.latch else none }

/-- An interrupt in one member: its instruction is abandoned; an operation in progress is abandoned in every member, and
the others re-arm, or, in a convoy being dissolved, trap (R183, R188). -/
def abandonConvoy (s : State) (h : Hart) (ran : Nat) : State :=
  let out := fun (s : State) => modThr s h fun t => { t with wait := .none, cur := none }
  match convoyOf s h.core with
  | none => out s
  | some n =>
    if (convoy s n).launched then
      let ms := armedMembers s n
      let s := setFlag (out (ms.foldl (abandonMember ran) s)) (Reg.cmpCvStat n) 16 false
      if (convoy s n).disabling then beginUnlock s n else rearm s n
    else
      let s := out s
      if (armedHarts s n).isEmpty then modConvoy s n fun x => { x with firstArm := none } else s

/-- A reset that reaches a member: the other armed members time out at once naming it, and its convoy is dissolved
(R185). -/
def convoyMemberReset (s : State) (c : Nat) : State :=
  match convoyOf s c with
  | none => s
  | some n =>
    let others := (armedHarts s n).filter fun h => h.core != c
    let s := others.foldl (fun s h => takeTrap s h (trapWait 0 c) (thr s h).pc) s
    let s := (members s n).foldl (fun s d => if d != c && bit (coreCsr s d 0x404) 8 then leaveClock s d else s) s
    let s := setReg (modConvoy (setFlag s (Reg.cmpCvCfg n) 31 false) n fun _ => Convoy.reset) (Reg.cmpCvStat n) 0
    if others.isEmpty then s else setFld s (Reg.cmpCvStat n) 15 8 0x05

end Sys2Proof.Machine
end

