-- ==== Sys2Proof/Machine/Waybill.lean ====
section
/-! DEFINITION. The compute plane and the waybill engine of each core (R163 to R180, R457), and interrupt entry (R149). -/

namespace Sys2Proof.Machine

/-! ### The links of the mesh (R164) -/

/-- The neighbour's side of the links in a direction changed. -/
def modPeer (s : State) (c d : Nat) (f : NbrLink → NbrLink) : State :=
  match neighbour s c d with
  | some n => modLink s n (opposite d) f
  | none => s

/-- Credits on their way back to the neighbour in a direction (R164). -/
def returnCredits (s : State) (c d n : Nat) : State := modPeer s c d fun l => { l with creditBack := l.creditBack + n }

/-- A beat put on the link to the neighbour in a direction, for one credit (R164). -/
def sendBeat (s : State) (c d : Nat) (b : Beat) : State :=
  modPeer (modLink s c d fun l => { l with credits := l.credits - 1 }) c d fun l => { l with inWire := l.inWire ++ [b] }

/-- The completion handshake sent back to the neighbour in a direction (R167). -/
def sendHandshake (s : State) (c d : Nat) : State := modPeer s c d fun l => { l with hsBack := l.hsBack + 1 }

/-! ### The engine -/

/-- A core is in reset, DOZE or OFF: its landing logic discards beats (R438). -/
def landingDiscards (s : State) (c : Nat) : Bool :=
  (core s c).resetJob.isSome || decide (2 ≤ blockState s (blockOf c)) || !dieUp s c

/-- The island of a core of the mesh is clocked, so that its engines run (R26, R433, R439). -/
def islandRuns (s : State) (c : Nat) : Bool :=
  decide (c < s.pkg.nCores) && dieUp s c && (core s c).resetJob.isNone && decide (blockState s (blockOf c) = 0) &&
    !bit (coreCsr s c 0x404) 9

/-- A waybill engine changed. -/
def modWb (s : State) (c : Nat) (f : Waybill → Waybill) : State := modCore s c fun k => { k with wb := f k.wb }

/-- The waybill engine of a core. -/
def wbOf (s : State) (c : Nat) : Waybill := (core s c).wb

/-- The entry an engine is at. -/
def wbPc (s : State) (c : Nat) : Nat := fld s (Reg.cmpWbStat c) 25 16

/-- CMP_WB_CTL.GUARDED of a core: a Guarded waybill (R180). -/
def wbGuarded (s : State) (c : Nat) : Bool := flag s (Reg.cmpWbCtl c) 4

/-- The engine's state set (R180). -/
def setWbState (s : State) (c st : Nat) : State := setFld s (Reg.cmpWbStat c) 1 0 st

/-- Nothing of an entry has been done. -/
def wbFresh (w : Waybill) : Waybill :=
  { w with started := none, blocked := false, done := 0, received := 0, awaitHs := false }

/-- The engine faults: FAULTED, the record, line 29 with the status (R172). The manual does not say what CMP_WB_STAT.PC reads
after a fault of LOAD, which has no current entry: it keeps its value, and FAULT.ENTRY alone names the entry (DESIGN CHOICE,
log entry 20). -/
def wbFault (s : State) (c status entry dir peer : Nat) : State :=
  let s := setWbState (modWb s c wbFresh) c 3
  let s := setReg s (Reg.cmpWbFault c)
    (BitVec.ofNat 32 (status + 256 * (entry % 1024) + 2 ^ 18 * (dir % 4) + 2 ^ 20 * (peer % 1024) + 2 ^ 31))
  raiseLine s c 29 (BitVec.ofNat 32 status)

/-- The current entry completes and the next becomes current; past entry 1,023 the engine faults (R457). -/
def wbAdvance (s : State) (c : Nat) : State :=
  if wbPc s c = 1023 then wbFault s c 0x0B 1023 0 0x3FF
  else setFld (modWb s c wbFresh) (Reg.cmpWbStat c) 25 16 (wbPc s c + 1)

/-! ### The fields of an entry and its start checks (R169, R178, R179) -/

/-- OP of an entry. -/
def wbOp (e : DWord) : Nat := bits e 63 60
/-- DIR of an entry. -/
def wbDir (e : DWord) : Nat := bits e 59 58
/-- DIR2 of an entry. -/
def wbDir2 (e : DWord) : Nat := bits e 57 56
/-- TNUM of an entry. -/
def wbTnum (e : DWord) : TReg := BitVec.ofNat 3 (bits e 54 52)
/-- LINE of an entry. -/
def wbLine (e : DWord) : Nat := bits e 51 39
/-- FIRST of an entry with TILE = 1. -/
def wbFirst (e : DWord) : Nat := bits e 43 39
/-- COUNT + 1 of an entry: its beats or repeats. -/
def wbBeats (e : DWord) : Nat := bits e 38 27 + 1
/-- STRIDE or ADV of an entry, signed. -/
def wbStride (e : DWord) : Int := (BitVec.ofNat 12 (bits e 26 15)).toInt
/-- TARGET of a LOOP. -/
def wbTarget (e : DWord) : Nat := bits e 48 39

/-- The header of an entry's transfer. -/
def wbHeader (e : DWord) : BitVec 8 × BitVec 12 := (BitVec.ofNat 8 (bits e 14 7), BitVec.ofNat 12 (bits e 38 27))

/-- The bits below OP that an OP uses (R179). -/
def wbUsed (op : Nat) : DWord :=
  if op = 1 ∨ op = 2 then 0x0CFFFFFFFFFFFF80
  else if op = 3 then 0x0F00007FF8007F80
  else if op = 4 then 0x000FFFFFFFFF8000
  else if op = 5 then 0x0C70000000000000
  else if op = 6 then 0x0001FFFFFFFF8000
  else 0

/-- Check 1 of R169 with the marks of R178 and R179, and the rule on LOOP. -/
def wbWellFormed (s : State) (c : Nat) (e : DWord) : Bool :=
  let op := wbOp e
  decide (op ≤ 6) && decide (e &&& ~~~(0xF000000000000000 ||| wbUsed op) = 0) &&
    (!((op == 1 || op == 2) && bit e 55) || (decide (bits e 51 44 = 0) && decide (bits e 26 15 = 0))) &&
    (decide (op ≠ 3) || decide (wbDir e ≠ wbDir2 e)) &&
    (decide (op ≠ 6) || (decide (wbTarget e < wbPc s c) &&
      (upFrom (wbTarget e) (wbPc s c - wbTarget e)).all fun i => decide (wbOp (sget (wbOf s c).store i 0) ≠ 6)))

/-- The directions an entry uses. -/
def wbDirs (e : DWord) : List Nat :=
  if wbOp e = 1 ∨ wbOp e = 2 then [wbDir e] else if wbOp e = 3 then [wbDir e, wbDir2 e] else []

/-- A direction that stays within the core's rectangle (R211). -/
def wbInside (s : State) (c d : Nat) : Bool :=
  match neighbour s c d with
  | some n => (rectOf s c).isSome && decide (rectOf s n = rectOf s c)
  | none => false

/-- The line of beat `k` (R179). -/
def wbLineAt (s : State) (c : Nat) (e : DWord) (k : Nat) : Int := wbLine e + (wbOf s c).offset + k * wbStride e

/-- The lines of an entry's memory footprint; the loop offset applies to WAITW as well (DEDUCED; log entry 20). -/
def wbLines (s : State) (c : Nat) (e : DWord) : List Int :=
  if wbOp e = 4 then [wbLine e + (wbOf s c).offset]
  else if (wbOp e = 1 ∨ wbOp e = 2) ∧ bit e 55 = false then (List.range (wbBeats e)).map (wbLineAt s c e)
  else []

/-- The first start check of R169 that fails: status and direction. -/
def wbCheck (s : State) (c : Nat) (e : DWord) : Option (Nat × Nat) :=
  let ds := wbDirs e
  let ls := wbLines s c e
  if !wbWellFormed s c e then some (0x0B, 0)
  else
    match ds.find? fun d => (neighbour s c d).isNone with
    | some d => some (0x01, d)
    | none =>
      match ds.find? fun d => !wbInside s c d with
      | some d => some (0x07, d)
      | none =>
        if ls.any fun l => decide (l < 0) || decide (6143 < l) then some (0x01, 0)
        else if !wbGuarded s c && ls.any (fun l => inGlmem s c (64 * l.toNat)) then some (0x07, 0)
        else if (wbOp e == 1 || wbOp e == 2) && bit e 55 && decide ((tile s c (wbTnum e)).rows < wbFirst e + wbBeats e) then
          some (0x0C, 0)
        else none

/-- A direction's link is internal to the core's locked convoy, which executes an instruction (R170). -/
def wbConvoyBusy (s : State) (c d : Nat) : Bool :=
  match neighbour s c d with
  | some n => convoyRuns s c && decide (convoyOf s n = convoyOf s c)
  | none => false

/-- The waits of R170: a tile that an executing instruction uses, or a convoy's link. -/
def wbWaits (s : State) (c : Nat) (e : DWord) : Bool :=
  let t := wbTnum e
  (wbDirs e).any (wbConvoyBusy s c) ||
    (bit e 55 && (executing s c (convoyRuns s c)).any fun r =>
      r.wrT.contains t || (wbOp e == 2 && r.rdT.contains t))

/-- An engine runs, and its current entry has a given OP. -/
def wbAt (s : State) (c op : Nat) : Bool :=
  islandRuns s c && decide (wbState s c = 2) && decide (wbOp (wbEntry s c) = op)

/-- An engine runs, and its current entry has a reserved OP: no command of the engine is the entry's own, and whichever
comes first finds check 1 of R169 failed (DESIGN CHOICE; log entry 20). -/
def wbReserved (s : State) (c : Nat) : Bool :=
  islandRuns s c && decide (wbState s c = 2) && decide (6 < wbOp (wbEntry s c)) && (wbOf s c).started.isNone

/-- The fault of an entry whose OP is reserved (R169, R172). -/
def wbReservedFault (s : State) (c : Nat) : State := wbFault s c 0x0B (wbPc s c) 0 0x3FF

/-- A transfer entry goes on: the waits of R170, which count against its deadline, its checks as it starts, then its beats as
`pump` moves them (R169 to R171). -/
def wbTransfer (s : State) (c op : Nat) (pump : State → State) : Host.Outcome State Fault Refusal :=
  let e := wbEntry s c
  if wbReserved s c then .next (wbReservedFault s c)
  else if !wbAt s c op then .next s
  else if (wbOf s c).started.isSome && !(wbOf s c).blocked then .next (pump s)
  else
    let since := (wbOf s c).started.getD (now s)
    if wbWaits s c e then .next (modWb s c fun w => { w with started := some since, blocked := true })
    else
      match wbCheck s c e with
      | some (st, d) => .next (wbFault s c st (wbPc s c) d 0x3FF)
      | none => .next (pump (modWb s c fun w => { w with started := some since, blocked := false }))

/-! ### SEND, RECV, FWD -/

/-- Beat `k` of a SEND (R164, R179): a row within its shape with its exponent and poison bit, or a line. -/
def wbBeat (s : State) (c : Nat) (e : DWord) (k : Nat) : State × Beat :=
  let hd := if k = 0 then some (wbHeader e) else none
  if bit e 55 then
    let t := tile s c (wbTnum e)
    let i := wbFirst e + k
    (s, ⟨t.shown i, t.exp i, t.bad i, hd⟩)
  else
    let a := localBase c + 64 * (wbLineAt s c e k).toNat
    let s := demandRead s a 64
    (s, ⟨bytesLine (readMem s a 64), 0, isPoisoned s a 64, hd⟩)

/-- A SEND puts `n` beats on its link. -/
def sendBeats (c : Nat) (e : DWord) : Nat → State → State
  | 0, s => s
  | n + 1, s =>
    let (s, b) := wbBeat s c e (wbOf s c).done
    sendBeats c e n (modWb (sendBeat s c (wbDir e) b) c fun w => { w with done := w.done + 1 })

/-- SEND goes on as far as its credits allow (R164, R167). -/
def wbPumpSend (c : Nat) (s : State) : State :=
  let e := wbEntry s c
  let n := Nat.min (wbBeats e - (wbOf s c).done) (link s c (wbDir e)).credits
  let s := sendBeats c e n s
  modWb s c fun w => { w with awaitHs := decide (wbBeats e ≤ w.done) }

/-- A beat is the first of a transfer whose TAG or COUNT differs from an entry's (R168). -/
def beatForeign (e : DWord) (b : Beat) : Bool :=
  match b.header with
  | some x => decide (x ≠ wbHeader e)
  | none => false

/-- The beat at the head of the landing buffer does not match the RECV or FWD that it waits for: the first beat of another
transfer, whenever it reaches the entry (R168). A beat that is no transfer's first, where the entry has taken none, has no TAG
or COUNT to compare; it counts as a mismatch (DESIGN CHOICE, log entry 20). -/
def wbMismatch (s : State) (c : Nat) (e : DWord) : Bool :=
  match (link s c (wbDir e)).landing with
  | [] => false
  | b :: _ => beatForeign e b || (decide ((wbOf s c).received = 0) && b.header.isNone)

/-- The beats at the head of a landing buffer that an entry takes: at most `n`, up to one that is foreign (R168). -/
def beatsFor (s : State) (c : Nat) (e : DWord) (n : Nat) : List Beat :=
  ((link s c (wbDir e)).landing.take n).takeWhile fun b => !beatForeign e b

/-- A header mismatch: the party is the neighbour the beat came from (R168, R172). -/
def wbHeaderFault (s : State) (c : Nat) (e : DWord) : State :=
  wbFault s c 0x0B (wbPc s c) (wbDir e) ((neighbour s c (wbDir e)).getD 0x3FF)

/-- A RECV writes one beat to its line or row (R179). -/
def wbStoreBeat (s : State) (c : Nat) (e : DWord) (b : Beat) : State :=
  let k := (wbOf s c).received
  let s := if bit e 55 then
      let t := tile s c (wbTnum e)
      let i := wbFirst e + k
      setTile s c (wbTnum e) (((t.setRow i b.payload).setExp i b.exp).setBad i b.poison)
    else writeData s (localBase c + 64 * (wbLineAt s c e k).toNat) (lineBytes b.payload) b.poison
  modWb s c fun w => { w with received := k + 1 }

/-- RECV takes the beats that have landed; after its last it returns the handshake and completes (R164, R167). -/
def wbPumpRecv (c : Nat) (s : State) : State :=
  let e := wbEntry s c
  let d := wbDir e
  if wbMismatch s c e then wbHeaderFault s c e
  else
    let bs := beatsFor s c e (wbBeats e - (wbOf s c).received)
    let s := bs.foldl (fun s b => wbStoreBeat s c e b) s
    let s := returnCredits (modLink s c d fun l => { l with landing := l.landing.drop bs.length }) c d bs.length
    if wbBeats e ≤ (wbOf s c).received then wbAdvance (sendHandshake s c d) c
    else if wbMismatch s c e then wbHeaderFault s c e
    else s

/-- FWD passes on the beats that have landed, as its downstream credits allow (R164, R167, R176). -/
def wbPumpFwd (c : Nat) (s : State) : State :=
  let e := wbEntry s c
  let d := wbDir e
  if wbMismatch s c e then wbHeaderFault s c e
  else
    let n := Nat.min (wbBeats e - (wbOf s c).received) (link s c (wbDir2 e)).credits
    let bs := beatsFor s c e n
    let s := bs.foldl (fun s b => sendBeat s c (wbDir2 e) b) s
    let s := returnCredits (modLink s c d fun l => { l with landing := l.landing.drop bs.length }) c d bs.length
    let s := modWb s c fun w => { w with
      received := w.received + bs.length
      awaitHs := decide (wbBeats e ≤ w.received + bs.length) }
    if !(wbOf s c).awaitHs && wbMismatch s c e then wbHeaderFault s c e else s

/-- SEND (R167, R169 to R171, R179). -/
def execWbSend (core : Nat) (s : State) : Host.Outcome State Fault Refusal := wbTransfer s core 1 (wbPumpSend core)

/-- RECV (R167 to R171, R179). -/
def execWbRecv (core : Nat) (s : State) : Host.Outcome State Fault Refusal := wbTransfer s core 2 (wbPumpRecv core)

/-- FWD (R167 to R171, R176, R179). -/
def execWbFwd (core : Nat) (s : State) : Host.Outcome State Fault Refusal := wbTransfer s core 3 (wbPumpFwd core)

/-- COMPLETION_HANDSHAKE: it completes the SEND that waits for it, or lets a FWD return it and complete (R167). The manual
does not say what a handshake does that no entry awaits: it is dropped, and one of a transfer that CLEAR abandoned, which no
field tells from another, completes a later SEND in its direction (DESIGN CHOICE, log entry 20). -/
def execCompletionHandshake (core : Nat) (dir : BitVec 2) (s : State) : Host.Outcome State Fault Refusal :=
  let d := dir.toNat
  if (link s core d).hsBack = 0 || !decide (core < s.pkg.nCores) then .next s
  else
    let s := linkSettled (modLink s core d fun l => { l with hsBack := l.hsBack - 1 }) core d
    let e := wbEntry s core
    if wbState s core ≠ 2 || !(wbOf s core).awaitHs then .next s
    else if wbOp e = 1 ∧ wbDir e = d then .next (wbAdvance s core)
    else if wbOp e = 3 ∧ wbDir2 e = d then .next (wbAdvance (sendHandshake s core (wbDir e)) core)
    else .next s

/-- BEAT_ARRIVAL: a beat lands and meets the entry that waits for it, or is discarded by a FAULTED engine or by a core in
reset, DOZE or OFF (R164, R168, R173, R438). -/
def execBeatArrival (core : Nat) (dir : BitVec 2) (s : State) : Host.Outcome State Fault Refusal :=
  let d := dir.toNat
  match (link s core d).inWire with
  | [] => .next s
  | b :: r =>
    let s := linkSettled (modLink s core d fun l => { l with inWire := r }) core d
    if landingDiscards s core then .next (modLink s core d fun l => { l with droppedOff := l.droppedOff + 1 })
    else if wbState s core = 3 then
      .next (countSat (modLink s core d fun l => { l with dropped := l.dropped + 1 }) (Reg.cmpWbDrop core))
    else
      let s := modLink s core d fun l => { l with landing := l.landing ++ [b] }
      let e := wbEntry s core
      let w := wbOf s core
      if decide (wbState s core = 2) && (wbOp e == 2 || wbOp e == 3) && decide (wbDir e = d) && w.started.isSome && !w.blocked &&
          wbMismatch s core e then .next (wbHeaderFault s core e)
      else .next s

/-- CREDIT_RETURN: a returned credit reaches the sender (R164). -/
def execCreditReturn (core : Nat) (dir : BitVec 2) (s : State) : Host.Outcome State Fault Refusal :=
  when s (decide (0 < (link s core dir.toNat).creditBack))
    (linkSettled (modLink s core dir.toNat fun l => { l with creditBack := l.creditBack - 1, credits := l.credits + 1 }) core
      dir.toNat)

/-! ### END, WAITW, SIGNAL, LOOP -/

/-- An entry without a transfer starts: its checks, then what it does (R169). -/
def wbSimple (s : State) (c op : Nat) (k : State → State) : Host.Outcome State Fault Refusal :=
  if wbReserved s c then .next (wbReservedFault s c)
  else if !wbAt s c op || (wbOf s c).started.isSome then .next s
  else
    match wbCheck s c (wbEntry s c) with
    | some (st, d) => .next (wbFault s c st (wbPc s c) d 0x3FF)
    | none => .next (k s)

/-- END: the engine is IDLE and DONE; line 29 with OK where IRQ_END is 1 (R179). -/
def execWbEnd (core : Nat) (s : State) : Host.Outcome State Fault Refusal :=
  wbSimple s core 0 fun s =>
    let s := setFlag (setWbState (modWb s core wbFresh) core 0) (Reg.cmpWbStat core) 2 true
    if flag s (Reg.cmpWbCtl core) 3 then raiseLine s core 29 0 else s

/-- The device address of the word a WAITW watches. -/
def waitwAddr (s : State) (c : Nat) : Nat := localBase c + 64 * (wbLine (wbEntry s c) + (wbOf s c).offset).toNat

/-- A read of the watched word: poison faults the engine; else `k` takes the word (R179). -/
def waitwRead (s : State) (c : Nat) (k : State → Word → State) : State :=
  let a := waitwAddr s c
  let s := demandRead s a 4
  if isPoisoned s a 4 then wbFault s c 0x02 (wbPc s c) 0 0x3FF
  else k s (BitVec.ofNat 32 (leNat (readMem s a 4)))

/-- WAITW: the entry starts to watch its word (R171, R179). -/
def execWbWaitw (core : Nat) (s : State) : Host.Outcome State Fault Refusal :=
  wbSimple s core 4 fun s => waitwRead (modWb s core fun w => { w with started := some (now s) }) core fun s _ => s

/-- The comparison of WAITW (R179). -/
def waitwHolds (e : DWord) (w : Word) : Bool := decide (0 ≤ ((w - BitVec.ofNat 32 (bits e 38 15)) <<< 8).toInt)

/-- WAITW_MATCH: a read of the watched word; where it satisfies the comparison the entry completes (R179, R457). -/
def execWbWaitwMatch (core : Nat) (s : State) : Host.Outcome State Fault Refusal :=
  when s (wbAt s core 4 && (wbOf s core).started.isSome)
    (waitwRead s core fun s w => if waitwHolds (wbEntry s core) w then wbAdvance s core else s)

/-- SIGNAL: an event flag of a thread of the core is set (R140, R174, R179). -/
def execWbSignal (core : Nat) (s : State) : Host.Outcome State Fault Refusal :=
  let e := wbEntry s core
  wbSimple s core 5 fun s => wbAdvance (setEvf s (hartOf core (BitVec.ofNat 2 (wbDir e))) (bits e 54 52)) core

/-- LOOP: a further repeat from TARGET with the offset advanced, or the end of the loop (R179). -/
def execWbLoop (core : Nat) (s : State) : Host.Outcome State Fault Refusal :=
  let e := wbEntry s core
  wbSimple s core 6 fun s =>
    let left := match (wbOf s core).loopLeft with
      | some (i, n) => if i = wbPc s core then n else wbBeats e - 1
      | none => wbBeats e - 1
    if left = 0 then wbAdvance (modWb s core fun w => { w with loopLeft := none, offset := 0 }) core
    else
      setFld (modWb s core fun w => { wbFresh w with
        loopLeft := some (wbPc s core, left - 1)
        offset := w.offset + wbStride e }) (Reg.cmpWbStat core) 25 16 (wbTarget e)

/-! ### The deadline (R171) -/

/-- The direction of an entry that has not progressed (R171). -/
def wbStuckDir (s : State) (c : Nat) (e : DWord) : Nat :=
  if wbOp e = 3 ∧ ((wbOf s c).awaitHs ∨ (link s c (wbDir e)).landing ≠ []) then wbDir2 e else wbDir e

/-- WAYBILL_DEADLINE: CMP_WB_DL nanoseconds have passed since the entry started (R171, R172). -/
def execWaybillDeadline (core : Nat) (s : State) : Host.Outcome State Fault Refusal :=
  let e := wbEntry s core
  match (wbOf s core).started with
  | none => .next s
  | some t =>
    if wbState s core ≠ 2 || decide (now s < t + (reg s (Reg.cmpWbDl core)).toNat) then .next s
    else if wbOp e = 4 then .next (wbFault s core 0x05 (wbPc s core) 0 0x3FF)
    else if (wbOf s core).blocked then .next (wbFault s core 0x0A (wbPc s core) (wbDir e) 0x3FF)
    else
      let d := wbStuckDir s core e
      .next (wbFault s core 0x0A (wbPc s core) d ((neighbour s core d).getD 0x3FF))

/-! ### GO, CLEAR, LOAD (R177, R180) -/

/-- CLEAR: the landing buffers are emptied and their credits returned, the records cleared, the engine IDLE (R180). The manual
does not say what CLEAR leaves of a LOAD in progress: the store keeps its entries, none of the load's lines being taken before
its completion (DESIGN CHOICE, log entry 20). -/
def wbClear (s : State) (c : Nat) : State :=
  let s := (List.range 4).foldl (fun s d =>
    let l := link s c d
    returnCredits (modLink s c d fun l => { l with landing := [], dropped := 0 }) c d (l.landing.length + l.dropped)) s
  let s := setReg (setReg s (Reg.cmpWbFault c) 0x3FF00000) (Reg.cmpWbDrop c) 0
  setWbState (modWb s c wbFresh) c 0

/-- GO of an IDLE engine (R180). -/
def wbGo (s : State) (c : Nat) : State :=
  let s := modWb s c fun w => { wbFresh w with offset := 0, loopLeft := none }
  let st := fld s (Reg.cmpWbCtl c) 17 8
  setReg s (Reg.cmpWbStat c) (BitVec.ofNat 32 (2 + 65536 * st))

/-- LOAD of an IDLE engine checks its source and starts (R177). -/
def wbLoad (s : State) (c : Nat) : State :=
  let w := reg s (Reg.cmpWbBase c)
  let line := bits w 18 6
  let len := bits w 29 19
  let ls := upFrom line ((len + 7) / 8)
  if ls.any fun l => decide (6143 < l) then wbFault s c 0x01 0 0 0x3FF
  else if !wbGuarded s c && ls.any (fun l => inGlmem s c (64 * l)) then wbFault s c 0x07 0 0 0x3FF
  else setWbState (modWb s c fun x => { x with load := (line, len) }) c 1

/-- A write of CMP_WB_CTL: IRQ_END and START take their bits, GUARDED only from a Guarded access, a W1S bit that is written 1 is
set; GO and LOAD act on an engine that was IDLE before the write (R12, R180). Where both are 1 the manual names no order: GO
acts, and LOAD, which then finds a RUNNING engine, does not (DESIGN CHOICE, log entry 20). -/
def wbCtlWrite (s : State) (o : Origin) (c : Nat) (v : Word) : State × Nat :=
  let old := reg s (Reg.cmpWbCtl c)
  let idle := decide (wbState s c = 0)
  let v' := if guardedOrigin o then v else putBit v 4 (bit old 4)
  let s := setReg s (Reg.cmpWbCtl c) ((v' &&& 0x3FF1F) ||| (old &&& 7))
  let s := if bit v 1 then wbClear s c else s
  if idle && bit v 0 then (wbGo s c, 0)
  else if idle && bit v 2 then (wbLoad s c, 0)
  else (s, 0)

/-- A write of CMP_WB_CTL that sets one command bit and keeps the fields (R180). -/
def wbCommand (o : Origin) (c : Nat) (b : Word) (s : State) : Host.Outcome State Fault Refusal :=
  let v := (reg s (Reg.cmpWbCtl c) &&& 0x3FF18) ||| b
  .next (writeAt s o (Reg.cmpWbCtl c) v (wbCtlWrite s o c v)).1

/-- WAYBILL_GO (R180). -/
def execWaybillGo (o : Origin) (core : Nat) (s : State) : Host.Outcome State Fault Refusal := wbCommand o core 1 s

/-- WAYBILL_CLEAR (R180). -/
def execWaybillClear (o : Origin) (core : Nat) (s : State) : Host.Outcome State Fault Refusal := wbCommand o core 2 s

/-- WAYBILL_LOAD (R177, R180). -/
def execWaybillLoad (o : Origin) (core : Nat) (s : State) : Host.Outcome State Fault Refusal := wbCommand o core 4 s

/-- The entries of one line taken into the store. -/
def loadEntries (s : State) (c line first n : Nat) : State :=
  modWb s c fun w => { w with store := (List.range n).foldl (fun m i =>
    sput m (first + i) (BitVec.ofNat 64 (leNat (readMem s (localBase c + 64 * line + 8 * i) 8)))) w.store }

/-- LOAD reads its lines in order up to one that is poisoned (R177). -/
def loadLines (c line len : Nat) : List Nat → State → State × Option Nat
  | [], s => (s, none)
  | k :: r, s =>
    let a := localBase c + 64 * (line + k)
    let s := demandRead s a 64
    if isPoisoned s a 64 then (s, some (8 * k))
    else loadLines c line len r (loadEntries s c (line + k) (8 * k) (Nat.min 8 (len - 8 * k)))

/-- WAYBILL_LOAD_COMPLETE: the store is filled, or the load stops at a poisoned line (R177). -/
def execWaybillLoadComplete (core : Nat) (s : State) : Host.Outcome State Fault Refusal :=
  if !islandRuns s core || wbState s core ≠ 1 then .next s
  else
    let (line, len) := (wbOf s core).load
    let (s, bad) := loadLines core line len (List.range ((len + 7) / 8)) s
    match bad with
    | some e => .next (wbFault s core 0x02 e 0 0x3FF)
    | none => .next (setWbState s core 0)

/-! ### Interrupt entry (R123, R149, R188) -/

/-- What an interrupt does to the instruction its thread waits in: the state and EPC, or none while issued work has yet
to commit (R71, R86, R123, R139, R141, R149, R188). -/
def interruptWork (s : State) (h : Hart) (kept ran : Nat) : Option (State × Word) :=
  let t := thr s h
  if !t.window.isEmpty then none else
  match t.wait with
  | .none => some (s, t.pc)
  | .wfe rd _ _ _ => some (endWait (setGreg s h rd 0) h, t.pc + 4)
  | .twait _ => some (modThr s h fun t => { t with wait := .none, cur := none }, t.pc)
  | .tile => some (abandonTile s h kept ran, t.pc)
  | .convoy => some (abandonConvoy s h ran, t.pc)
  | .long .. => some (stopLong s h, t.pc)
  | .farLoad id =>
    match laneFind s h.core id with
    | some a => if a.kind = .fetch then some (modThr s h fun t => { t with wait := .none }, t.pc) else none
    | none => none
  | .fence _ => none
  | .start => none

/-- INTERRUPT_ENTRY: the highest takeable line is entered once issued work has committed or is abandoned; `cycles` is the
time from takeable to entry, which INT_LAT_MAX counts to the handler's first issue (R149, R152, R162). -/
def execInterruptEntry (h : Hart) (kept ran cycles : Nat) (s : State) : Host.Outcome State Fault Refusal :=
  match takeableLine s h with
  | none => .next s
  | some l =>
    if !coreRuns s h.core then .next s
    else
      match interruptWork s h kept ran with
      | none => .next s
      | some (s, epc) =>
        .next (modThr (takeInterrupt s h l epc) h fun t => { t with latFrom := some (coreCycle s h.core, cycles) })

end Sys2Proof.Machine
end

