-- ==== Sys2Proof/Machine/Courier.lean ====
section
/-! DEFINITION. Slot-table writes and commits, the courier net as cores use it, tenancy rectangles (R189 to R217). -/

namespace Sys2Proof.Machine

/-! ### Slot tables (R193, R196, R197, R199) -/

/-- Byte `j` of a word. -/
def byteOf (w : Word) (j : Nat) : Nat := bits w (8 * j + 7) (8 * j)

/-- An owned entry names a guarded rectangle (R197). -/
def entryGuards (s : State) (e : Nat) : Bool := decide (e / 16 % 2 = 1) && rectGuarded s (e % 16)

/-- A TARGET that the segment's kind reserves (R193). -/
def targetReserved (lane e : Nat) : Bool :=
  let t := e / 32
  decide (t = 7) || (decide (lane < 112) && decide (t ≠ 0) && decide (t ≠ 6))

/-- Entry `j` of a slot-table word after a write; none where the write is refused (R15, R193, R197). -/
def slotByte (s : State) (o : Origin) (lane w : Nat) (old v : Word) (j : Nat) : Option Nat :=
  let cur := byteOf old j
  let new := byteOf v j
  if !guardedOrigin o && (entryGuards s cur || entryGuards s new || entryGuards s (slotEntry s lane (4 * w + j))) then none
  else some (if targetReserved lane new then cur / 32 * 32 + new % 32 else new)

/-- A write of a slot-table word: entry by entry (R197). -/
def laneSlotWrite (s : State) (o : Origin) (lane w : Nat) (v : Word) : State × Nat :=
  let old := reg s (Reg.cmpLaneSlot lane w)
  let es := (List.range 4).map (slotByte s o lane w old v)
  let bytes := (List.range 4).map fun j => BitVec.ofNat 8 ((nth es j none).getD (byteOf old j))
  (setReg s (Reg.cmpLaneSlot lane w) (BitVec.ofNat 32 (leNat bytes)), if es.any Option.isNone then 0x07 else 0)

/-- LANE_SLOT_WRITE (R197). -/
def execLaneSlotWrite (o : Origin) (lane w : Nat) (v : Word) (s : State) : Host.Outcome State Fault Refusal :=
  when s (decide (lane < 122) && decide (w < 16)) (writeAt s o (Reg.cmpLaneSlot lane w) v (laneSlotWrite s o lane w v)).1

/-- A shadow entry of a slot table. -/
def shadowEntry (s : State) (lane k : Nat) : Nat := byteOf (reg s (Reg.cmpLaneSlot lane (k / 4))) (k % 4)

/-- The half-lanes that end at a router: 0 to 7 the stacks, 8 and 9 the Serai dies (R189). -/
def routerHalfLanes (r : Nat) : List Nat :=
  if r < 4 then upFrom (8 * r) 8 else if r < 8 then upFrom (8 * r) 8 else upFrom (64 + 24 * (r - 8)) 24

/-- The rim segments at a router (R189). -/
def routerRims (r : Nat) : List Nat :=
  if r < 4 then [112 + r, 113 + r] else if r < 8 then [113 + r, 114 + r] else if r = 8 then [112, 117] else [116, 121]

/-- The TARGET code of a router on its rim (R193). -/
def routerCode (r : Nat) : Nat := if r < 8 then r % 4 else r - 4

/-- Owned half-lane slots of the tables `e` that enter or leave a router's port at index k (R199). -/
def halfBeats (e : Nat → Nat → Nat) (r k : Nat) : Nat :=
  (routerHalfLanes r).countP fun l => decide (e l k / 16 % 2 = 1) && decide (e l k / 32 = 0)

/-- Owned rim slots of index k that name a router, twice (R199). -/
def rimBeats (e : Nat → Nat → Nat) (r k : Nat) : Nat :=
  2 * (routerRims r).countP fun l => decide (e l k / 16 % 2 = 1) && decide (e l k / 32 = routerCode r)

/-- The larger of the beats into and out of a router's port at an index: a rim beat that leaves its segment's far end at
index k reaches the port at k + 4, and one that leaves the port does so at k (R192, R199). -/
def portBeats (e : Nat → Nat → Nat) (r k : Nat) : Nat :=
  halfBeats e r k + Nat.max (rimBeats e r ((k + 60) % 64)) (rimBeats e r k)

/-- The limit of a router per index and direction (R199). -/
def routerLimit (s : State) (r : Nat) : Nat :=
  if 8 ≤ r then 4 else if s.pkg.unitKind r = 0 then 8 else if s.pkg.unitKind r = 1 then 5 else 3

/-- The routers of the part. -/
def routers (s : State) : List Nat := List.range s.pkg.nUnits ++ (List.range s.pkg.nSerai).map (8 + ·)

/-- The first router and index over its limit (R196). -/
def firstOver (s : State) : Option (Nat × Nat) :=
  ((routers s).flatMap fun r => (List.range 64).map fun k => (r, k)).find? fun e =>
    decide (routerLimit s e.1 < portBeats (shadowEntry s) e.1 e.2)

/-- A refused commit (R196, R216). -/
def laneRefuse (s : State) (r k : Nat) : State :=
  setReg s Reg.cmpLaneCommit (BitVec.ofNat 32 (0x0B * 256 + 65536 * r + 2 ^ 24 * k) ||| (reg s Reg.cmpLaneCommit &&& 1))

/-- A write of CMP_LANE_COMMIT arms the check of R196 for the next frame boundary; nothing while a commit is pending
(R196, R216, R266). -/
def laneCommitWrite (s : State) (v : Word) : State × Nat :=
  if bit v 0 then (setFlag (setW1s s Reg.cmpLaneCommit v) Reg.cmpLaneCommit 1 true, 0) else (s, 0)

/-- LANE_COMMIT (R196). -/
def execLaneCommit (o : Origin) (s : State) : Host.Outcome State Fault Refusal :=
  .next (writeAt s o Reg.cmpLaneCommit 1 (laneCommitWrite s 1)).1

/-- A pending commit at a frame boundary: the shadows as they stand then are checked, and take effect together or not at
all (R192, R196, R266). -/
def laneBoundary (s : State) : State :=
  if !flag s Reg.cmpLaneCommit 1 then s
  else
    match firstOver s with
    | some (r, k) => laneRefuse s r k
    | none =>
      { setReg s Reg.cmpLaneCommit (reg s Reg.cmpLaneCommit &&& 1) with
        slotNow := (List.range 1952).filterMap fun i =>
          let w := reg s (Reg.cmpLaneSlot (i / 16) (i % 16))
          if w = 0 then none else some (i, w) }

/-! ### Outboxes (R204 to R208, R211) -/

/-- A destination is a core of the part (R204, R206). -/
def destIsCore (s : State) (d : Nat) : Bool := decide (d < s.pkg.nCores)

/-- A destination names a node the part has (R46, R204). -/
def destExists (s : State) (d : Nat) : Bool :=
  destIsCore s d || d == 0x300 || (d == 0x301 && decide (s.pkg.nSerai = 2)) || (d == 0x302 && s.pkg.hasDrover) ||
    (decide (0x310 ≤ d) && decide (d < 0x310 + s.pkg.nUnits)) || d == 0x320

/-- R211 for a message of a core of the mesh to another core, and R144 for one in a Guarded mode to the Drover (log entry
21). -/
def courierTenancy (s : State) (h : Hart) (kind dest : Nat) (g : Bool) : Bool :=
  if isDrvCore h.core then false
  else if dest = 0x302 then g && !coreGuarded s h.core
  else if !destIsCore s dest || dest = h.core then false
  else if (rectOf s h.core).isNone then true
  else decide (kind ≤ 1) && decide (rectOf s dest ≠ rectOf s h.core) && !(g && coreGuarded s dest)

/-- The checks of an outbox message: the status of the first that fails (R208). -/
def outboxCheck (s : State) (h : Hart) (b : Outbox) : Option Nat :=
  let w := nth b.words 0 0
  let kind := bits w 15 12
  let dest := bits w 11 0
  if b.poisoned then some 0x02
  else if decide (4 ≤ kind) || (decide (2 ≤ kind) && !b.mode.super) then some 0x0B
  else if !destExists s dest || (decide (kind ≤ 1) && !destIsCore s dest) then some 0x01
  else if courierTenancy s h kind dest b.mode.guarded then some 0x07
  else none

/-- The result of a thread's message: word 5 with DONE, and word 4 where a response brought data; the busy bit is
cleared (R208). -/
def outboxResult (s : State) (h : Hart) (status tag : Nat) (data : Option Word) : State :=
  let off := outboxOff s h
  let s := match data with
    | some d => writeLocal s h.core (off + 16) (leBytes 4 d.toNat)
    | none => s
  let s := writeLocal s h.core (off + 20) (leBytes 4 (status + 256 * tag + 2 ^ 31))
  modThr s h fun t => { t with outbox := none }

/-- The core whose counter gives the tags of a node: the Drover's cores share one node (R204, R371). -/
def tagCore (c : Nat) : Nat := if isDrvCore c then Config.drvPair else c

/-- OUTBOX_GO: the node checks a thread's message and sends it or reports the failed check (R205, R208, R211, R340). -/
def execOutboxGo (h : Hart) (s : State) : Host.Outcome State Fault Refusal :=
  match (thr s h).outbox with
  | none => .next s
  | some b =>
    if b.phase ≠ .go then .next s
    else
      match outboxCheck s h b with
      | some st => .next (outboxResult s h st 0 none)
      | none =>
        let w := nth b.words 0 0
        let kind := bits w 15 12
        let m : Msg := ⟨bits w 11 0, BitVec.ofNat 4 kind, b.mode.guarded, nodeOf h.core, nth b.words 1 0, nth b.words 2 0⟩
        if kind ≤ 1 then .next (outboxResult (sendFrom s m) h 0 0 none)
        else
          let tag := (core s (tagCore h.core)).outTag
          let s := modCore s (tagCore h.core) fun k => { k with outTag := k.outTag + 1 }
          let s := modThr s h fun t => { t with outbox := some { b with phase := .waiting tag (now s) } }
          .next (sendFrom s { m with p1 := putBits m.p1 31 24 tag.toNat })

/-- OUTBOX_DEADLINE: no response within CMP_CR_DL (R208). -/
def execOutboxDeadline (h : Hart) (s : State) : Host.Outcome State Fault Refusal :=
  match (thr s h).outbox with
  | some b =>
    match b.phase with
    | .waiting tag t => when s (decide (t + crDeadline s h.core ≤ now s)) (outboxResult s h 0x05 tag.toNat none)
    | .go => .next s
  | none => .next s

/-! ### Messages that reach a core (R206, R208, R438) -/

/-- Message `k` in flight, if it is of a kind, and the state without it. -/
def takeMsg (s : State) (k kind : Nat) : Option (Msg × State) :=
  match s.courier[k]? with
  | some m => if m.kind.toNat = kind then some (m, { s with courier := s.courier.eraseIdx k }) else none
  | none => none

/-- A core is in reset, DOZE or OFF (R438). -/
def coreDown (s : State) (c : Nat) : Bool :=
  (core s c).resetJob.isSome || decide (2 ≤ blockState s (blockOf c)) || !dieUp s c

/-- A receiving core refuses a message of a Plain sender in a guarded rectangle (R206). -/
def coreRefuses (s : State) (m : Msg) : Bool := !m.g && coreGuarded s m.dest

/-- EVENT: the flag is set, or the message is refused and counted (R140, R206, R438). -/
def execEvent (k : Nat) (s : State) : Host.Outcome State Fault Refusal :=
  match takeMsg s k 0 with
  | none => .next s
  | some (m, s) =>
    if coreDown s m.dest then .next s
    else if coreRefuses s m then .next (countSat s (Reg.cmpCrDrop m.dest))
    else .next (setEvf s (hartOf m.dest (BitVec.ofNat 2 (bits m.p1 1 0))) (bits m.p1 4 2))

/-- IRQ: the line is made pending with its value, or the message is refused and counted (R151, R154, R206, R438). -/
def execIrq (k : Nat) (s : State) : Host.Outcome State Fault Refusal :=
  match takeMsg s k 1 with
  | none => .next s
  | some (m, s) =>
    if coreDown s m.dest then .next s
    else if coreRefuses s m || decide (27 ≤ bits m.p1 4 0) then .next (countSat s (Reg.cmpCrDrop m.dest))
    else .next (raiseLine s m.dest (bits m.p1 4 0) m.p2)

/-- The threads whose outbox a node's responses can meet. -/
def nodeHarts (node : Nat) : List Hart :=
  if node = 0x302 then [⟨Config.drvPair, 0⟩, ⟨Config.drvHk, 0⟩] else (List.range 4).map fun t => ⟨node, BitVec.ofNat 2 t⟩

/-- A thread's outbox waits for a tag. -/
def waitsTag (s : State) (tag : Nat) (h : Hart) : Bool :=
  match (thr s h).outbox with
  | some b => match b.phase with
    | .waiting t _ => decide (t.toNat = tag)
    | .go => false
  | none => false

/-- CFG_RSP: the response's data and status reach the outbox that waits for its TAG, and RSPFLAG is set; a stale one is
discarded (R208). -/
def execCfgRsp (k : Nat) (s : State) : Host.Outcome State Fault Refusal :=
  match takeMsg s k 4 with
  | none => .next s
  | some (m, s) =>
    let tag := bits m.p2 15 8
    match (nodeHarts m.dest).find? (waitsTag s tag) with
    | none => .next s
    | some h => .next (setEvf (outboxResult s h (bits m.p2 7 0) tag (some m.p1)) h (rspFlag s h.core))

/-! ### Tenancy rectangles (R211 to R215) -/

/-- A refusal recorded in CMP_TEN_STAT, which keeps the record it holds (R212, R213, R216, R451). -/
def tenRefuse (s : State) (n : Nat) : State :=
  if flag s Reg.cmpTenStat 31 then s else setReg s Reg.cmpTenStat (BitVec.ofNat 32 (0x0B + 256 * n + 2 ^ 31))

/-- Two rectangles share a block. -/
def rectsOverlap (a b : Word) : Bool :=
  let apart := fun lo1 len1 lo2 len2 : Nat => decide (lo1 + len1 < lo2) || decide (lo2 + len2 < lo1)
  !apart (bits a 2 0) (bits a 5 3) (bits b 2 0) (bits b 5 3) && !apart (bits a 8 6) (bits a 11 9) (bits b 8 6) (bits b 11 9)

/-- The checks of a rectangle that is to be enabled pass (R212). -/
def rectValid (s : State) (n : Nat) (w : Word) : Bool :=
  decide (bits w 2 0 + bits w 5 3 + 1 ≤ s.pkg.rows / 4) && decide (bits w 8 6 + bits w 11 9 + 1 ≤ 8) &&
    (List.range 16).all fun m => decide (m = n) || !rectOn s m || !rectsOverlap w (reg s (Reg.cmpTenRect m))

/-- An enabled convoy has a member in rectangle `n` (R213). -/
def rectHasConvoy (s : State) (n : Nat) : Bool :=
  (List.range 16).any fun m => flag s (Reg.cmpCvCfg m) 31 &&
    (members s m).any fun c => rectCovers (reg s (Reg.cmpTenRect n)) c

/-- CMP_TEN_LOCK.LOCK keeps guarded rectangles, their windows and the guarded ranges as they are (R215). -/
def tenLocked (s : State) : Bool := flag s Reg.cmpTenLock 0

/-- A write of CMP_TEN_RECTn (R212, R213, R215). -/
def tenRectWrite (s : State) (n : Nat) (v : Word) : State × Nat :=
  let off := Reg.cmpTenRect n
  if tenLocked s && (rectGuarded s n || bit v 12) then (s, 0)
  else if rectOn s n then
    if bit v 31 then (s, 0)
    else if rectHasConvoy s n then (tenRefuse s n, 0)
    else (setFlag s off 31 false, 0)
  else
    let s := setReg s off (v &&& 0x1FFF)
    if !bit v 31 then (s, 0)
    else if rectValid s n (v &&& 0x1FFF) then (setFlag s off 31 true, 0)
    else (tenRefuse s n, 0)

/-- TEN_RECT_ENABLE (R212). -/
def execTenRectEnable (o : Origin) (n : Nat) (v : Word) (s : State) : Host.Outcome State Fault Refusal :=
  let v := putBit v 31 true
  when s (decide (n < 16)) (writeAt s o (Reg.cmpTenRect n) v (tenRectWrite s n v)).1

/-- TEN_RECT_DISABLE (R213). -/
def execTenRectDisable (o : Origin) (n : Nat) (s : State) : Host.Outcome State Fault Refusal :=
  let v := putBit (reg s (Reg.cmpTenRect n)) 31 false
  when s (decide (n < 16)) (writeAt s o (Reg.cmpTenRect n) v (tenRectWrite s n v)).1

end Sys2Proof.Machine
end

