-- ==== Sys2Proof/Machine/Near.lean ====
section
/-! DEFINITION. The near tier: temperature, refresh and gears, the buffer cache, prefetch and preload, the scrubbers (R236 to
R266). -/

namespace Sys2Proof.Machine

/-! ### Units -/

/-- A near-tier unit changed. -/
def modUnit (s : State) (u : Nat) (f : Unit → Unit) : State := { s with units := sput s.units u (f (memUnit s u)) }

/-- The part has the unit, and it is out of reset. -/
def unitRuns (s : State) (u : Nat) : Bool := decide (u < s.pkg.nUnits) && partUp s && !s.pkg.slumber

/-- The courier node of a controller (R204). -/
def unitNode (u : Nat) : Nat := 0x310 + u

/-- The cache of a unit is enabled and not draining (R256). -/
def cacheOn (s : State) (u : Nat) : Bool := flag s (Reg.hbmBcCtl u) 0 && !flag s (Reg.hbmBcCtl u) 1

/-- The unit drains: accesses wait at the controller (R256). -/
def draining (s : State) (u : Nat) : Bool := flag s (Reg.hbmBcCtl u) 1

/-- The device address of stack-local line L. -/
def lineAddr (s : State) (u l : Nat) : Nat := unitAddr s u (128 * l)

/-- The number of lines of a unit. -/
def unitLines (s : State) : Nat := unitSize s / 128

/-! ### Masks, steps and gears (R242 to R248, R266) -/

/-- The unit's free capacity F, in lines per frame (R254). -/
def freeCapacity (s : State) (u : Nat) : Nat :=
  (((List.range 64).filter fun k => indexUsable s u k).map fun k => routerLimit s u - portBeats (slotEntry s) u k).sum

/-- The shadow mask of a register pair. -/
def shadowMask (s : State) (off : Nat) : DWord := BitVec.ofNat 64 (reg64 s off)

/-- The number of indices a mask removes. -/
def removedCount (m : DWord) : Nat := (List.range 64).countP fun k => bit m k

/-- Every shadow mask of a unit is within R244 and R245. -/
def masksOk (s : State) (u : Nat) : Bool :=
  let r := fun n => shadowMask s (Reg.hbmRefmaskLo u n)
  let g := fun n => shadowMask s (Reg.hbmGearmaskLo u n)
  decide (1 ≤ removedCount (r 0)) && decide (2 ≤ removedCount (r 1)) && decide (4 ≤ removedCount (r 2)) &&
    decide (16 ≤ removedCount (g 0)) && decide (32 ≤ removedCount (g 1)) && decide (48 ≤ removedCount (g 2)) &&
    decide (g 0 &&& ~~~g 1 = 0) && decide (g 1 &&& ~~~g 2 = 0)

/-- A write of HBM_MASKCOMMIT; nothing while a commit is pending (R246, R266). -/
def maskCommitWrite (s : State) (u : Nat) (v : Word) : State × Nat :=
  if bit v 0 then (setFlag (setW1s s (Reg.hbmMaskcommit u) v) (Reg.hbmMaskcommit u) 1 true, 0) else (s, 0)

/-- MASK_COMMIT (R246, R266). -/
def execMaskCommit (o : Origin) (unit : Nat) (s : State) : Host.Outcome State Fault Refusal :=
  .next (writeAt s o (Reg.hbmMaskcommit unit) 1 (maskCommitWrite s unit 1)).1

/-- A mask commit that has ended: PENDING cleared, STATUS set; COMMIT, which was written 1, stays (R12, R246). -/
def maskDone (s : State) (u st : Nat) : State :=
  setFld (setFlag s (Reg.hbmMaskcommit u) 1 false) (Reg.hbmMaskcommit u) 15 8 st

/-- A unit's pending mask commit at a frame boundary (R246, R266). -/
def maskBoundary (s : State) (u : Nat) : State :=
  if !flag s (Reg.hbmMaskcommit u) 1 then s
  else if !masksOk s u then maskDone s u 0x0B
  else
    modUnit (maskDone s u 0) u fun x => { x with
      refNow := (List.range 3).map fun n => (n, shadowMask s (Reg.hbmRefmaskLo u n))
      gearNow := (List.range 3).map fun n => (n + 1, shadowMask s (Reg.hbmGearmaskLo u n)) }

/-- A unit at a frame boundary: masks, step and gear together (R242, R246). -/
def unitBoundary (s : State) (u : Nat) : State :=
  let s := maskBoundary s u
  let x := memUnit s u
  setFld (setFld s (Reg.hbmStat u) 4 3 x.stepNext.toNat) (Reg.hbmStat u) 6 5 x.gearNext.toNat

/-- FRAME_BOUNDARY: pending slot-table and mask commits, steps and gears take effect, and the far-tier engines have their
BEATS again (R192, R196, R246, R278). -/
def execFrameBoundary (s : State) : Host.Outcome State Fault Refusal :=
  when s (partUp s) { (List.range s.pkg.nUnits).foldl unitBoundary (laneBoundary s) with rowBeats := [] }

/-- The level a sample selects, from the one selected before: up at once, down by one level once `t` is no higher than
the threshold of the level being left minus HYST (R242). -/
def nextLevel (thr : List Nat) (hyst t old : Nat) : Nat :=
  let want := ((List.range thr.length).filter fun i => decide (nth thr i 0 < t)).foldl (fun m i => Nat.max m (i + 1)) 0
  if old < want then want else if want < old ∧ t + hyst ≤ nth thr (old - 1) 0 then old - 1 else old

/-- THERMAL_SAMPLE: a sample selects the step and gear of the next frame boundary; the fourth missing one in a row
selects 4× and gear 3 (R242, R243). -/
def execThermalSample (unit : Nat) (temp : Option (BitVec 8)) (s : State) : Host.Outcome State Fault Refusal :=
  let st := Reg.hbmStat unit
  let x := memUnit s unit
  let th := reg s (Reg.hbmTherm unit)
  let gt := reg s (Reg.hbmGearthr unit)
  let hyst := bits th 19 16
  let hot := flag s st 8
  let s' := match temp with
    | none =>
      let m := Nat.min (x.missing + 1) 4
      let s := modUnit s unit fun x => { x with missing := m }
      if m < 4 then s else modUnit (setFlag s st 7 true) unit fun x => { x with stepNext := 2, gearNext := 3 }
    | some t =>
      let step := nextLevel [bits th 7 0, bits th 15 8] hyst t.toNat x.stepNext.toNat
      let gear := nextLevel [bits gt 7 0, bits gt 15 8, bits gt 23 16] hyst t.toNat x.gearNext.toNat
      let s := setFld (setFlag s st 7 false) st 23 16 t.toNat
      modUnit s unit fun x => { x with
        missing := 0
        stepNext := BitVec.ofNat 2 step
        gearNext := if hot then 3 else BitVec.ofNat 2 gear }
  when s (unitRuns s unit) s'

/-- CATTRIP: the stack's catastrophic-temperature output (R207, R243). -/
def execCattrip (unit : Nat) (s : State) : Host.Outcome State Fault Refusal :=
  when s (unitRuns s unit)
    (sendAlert (modUnit (setFlag s (Reg.hbmStat unit) 8 true) unit fun x => { x with gearNext := 3 }) (unitNode unit) 0 0 0)

/-! ### The buffer cache (R250 to R252) -/

/-- The way of a unit's set that holds stack-local line L. -/
def wayOf (s : State) (u l : Nat) : Option Nat :=
  (List.range 16).find? fun w => match (memUnit s u).ways.find? fun e => e.1 == 16 * (l % 4096) + w with
    | some e => decide (e.2.line = l)
    | none => false

/-- The line a way of a set holds. -/
def wayAt (s : State) (u set w : Nat) : Option CacheWay :=
  ((memUnit s u).ways.find? fun e => e.1 == 16 * set + w).map Prod.snd

/-- A way of a line's set filled. -/
def setWay (s : State) (u w : Nat) (x : CacheWay) : State :=
  modUnit s u fun m => { m with ways := sput m.ways (16 * (x.line % 4096) + w) x }

/-- A way of a set emptied. -/
def dropWay (s : State) (u set w : Nat) : State := modUnit s u fun m => { m with ways := sdrop m.ways (· == 16 * set + w) }

/-- A dirty line written back whole: no latent error of its DRAM copy is left (R251, R261). -/
def writeBack (s : State) (u l : Nat) : State :=
  let ks := sectorsOf (lineAddr s u l) 128
  { s with latent := sdrop s.latent fun k => ks.contains k }

/-- The cache array is read at a way: an uncorrectable error of a clean line makes the line be fetched again from DRAM, one of
a dirty line poisons the line and is reported (R261, R262; log entry 57). -/
def readArray (s : State) (u w : Nat) (x : CacheWay) : State :=
  if !x.bad then s
  else
    let a := lineAddr s u x.line
    let s := setWay s u w { x with bad := false }
    if x.dirty then reportPoison (poisonSectors s (sectorsOf a 128)) a true else demandRead s a 128

/-- A dirty line of a way read from the array and written back (R251, R262). -/
def writeBackWay (s : State) (u w : Nat) (x : CacheWay) : State := writeBack (readArray s u w x) u x.line

/-- The line of a way leaves the cache, written back first where it is dirty (R251, R253). -/
def evictWay (s : State) (u set w : Nat) : State :=
  match wayAt s u set w with
  | none => s
  | some x => dropWay (if x.dirty then writeBackWay s u w x else s) u set w

/-- The array read at the way that holds a line, if one does (R262). -/
def readWay (s : State) (u set w : Nat) : State :=
  match wayAt s u set w with
  | none => s
  | some x => readArray s u w x

/-- A pseudo-LRU tree after its set used a way: the nodes on the way's path point away from it (R250). Node n of depth d
is bit 2^d + (way over 2^(4 − d)). -/
def plruTouch (t : BitVec 16) (w : Nat) : BitVec 16 :=
  (List.range 4).foldl (fun t d =>
    let m := BitVec.ofNat 16 (2 ^ (2 ^ d + w / 2 ^ (4 - d)))
    if w.testBit (3 - d) then t &&& ~~~m else t ||| m) t

/-- The way that a pseudo-LRU tree gives up, among those open to it (R250). -/
def plruVictim (t : BitVec 16) (ok : Nat → Bool) : Nat :=
  (List.range 4).foldl (fun p d =>
    let has := fun q => (List.range 16).any fun w => ok w && decide (w / 2 ^ (3 - d) = q)
    if has (2 * p) && has (2 * p + 1) then 2 * p + (bit t (2 ^ d + p)).toNat else if has (2 * p) then 2 * p else 2 * p + 1) 0

/-- A way used (R250). -/
def touchWay (s : State) (u set w : Nat) : State :=
  modUnit s u fun m => { m with plru := sput m.plru set (plruTouch (sget m.plru set 0) w) }

/-- A way open to allocation: in HBM_BC_FILL and not in HBM_BC_LOCK (R250). -/
def wayOpen (s : State) (u w : Nat) : Bool := flag s (Reg.hbmBcFill u) w && !flag s (Reg.hbmBcLock u) w

/-- Some way is open to allocation. -/
def canAllocate (s : State) (u : Nat) : Bool := (List.range 16).any fun w => wayOpen s u w

/-- A line allocated: in an open way that holds nothing, or in place of the pseudo-LRU victim (R250, R251; the preference
for an empty way is log entry 22). -/
def allocate (s : State) (u l : Nat) (dirty : Bool) : State :=
  if !canAllocate s u then s
  else
    let set := l % 4096
    let w := match (List.range 16).find? fun w => wayOpen s u w && (wayAt s u set w).isNone with
      | some w => w
      | none => plruVictim (sget (memUnit s u).plru set 0) (wayOpen s u)
    touchWay (setWay (evictWay s u set w) u w ⟨l, dirty, false⟩) u set w

/-! ### Prefetch (R255) -/

/-- The prefetch mode of a device address: 0 OFF, 1 HINT, 2 NEXT; the lowest window governs (R255). -/
def pfMode (s : State) (u a : Nat) : Nat :=
  match (List.range 8).find? fun w => rangeCovers (reg s (Reg.hbmPfWinW0 u w)) (reg s (Reg.hbmPfWinW1 u w)) a with
  | some w => fld s (Reg.hbmPfWinW0 u w) 29 28
  | none => 1

/-- A fetch queued unless the line is present, is past the unit's end or the queue of 32 is full (R255). -/
def queueFetch (s : State) (u l : Nat) : State :=
  if (wayOf s u l).isSome || decide (unitLines s ≤ l) || decide (32 ≤ (memUnit s u).pfQueue.length) then s
  else modUnit s u fun m => { m with pfQueue := m.pfQueue ++ [l] }

/-- A software hint of a kind on a device address (R255). -/
def hint (s : State) (a kind : Nat) : State :=
  match target s a with
  | .near u =>
    if !unitReady s u || !cacheOn s u || decide (pfMode s u a = 0) then s
    else
      let l := (unitOf s a).2 / 128
      let n := if kind = 0 then 1 else if kind = 1 then 2 else if kind = 2 then 4 else 0
      (upFrom l n).foldl (fun s l => queueFetch s u l) s
  | _ => s

/-- A demand miss in a NEXT window queues the following line (R255). -/
def missNext (s : State) (u a l : Nat) : State := if pfMode s u a = 2 then queueFetch s u (l + 1) else s

/-- PREFETCH_FETCH: the oldest queued fetch reads its line into the cache in free capacity (R254, R255, R261). -/
def execPrefetchFetch (unit : Nat) (s : State) : Host.Outcome State Fault Refusal :=
  match (memUnit s unit).pfQueue with
  | [] => .next s
  | l :: r =>
    if !unitRuns s unit || !unitReady s unit || !cacheOn s unit || freeCapacity s unit = 0 then .next s
    else
      let s := modUnit s unit fun m => { m with pfQueue := r }
      if (wayOf s unit l).isSome then .next s
      else .next (allocate (demandRead s (lineAddr s unit l) 128) unit l false)

/-! ### Accesses at the point of coherence (R218, R251, R261, R262) -/

/-- The reads of one near-tier line: a hit is served by the cache, a miss reads DRAM and allocates (R250, R251). -/
def nearReadLine (s : State) (a : Nat) : State :=
  let (u, la) := unitOf s a
  let l := la / 128
  if !cacheOn s u then demandRead s (a / 128 * 128) 128
  else
    match wayOf s u l with
    | some w => touchWay (readWay s u (l % 4096) w) u (l % 4096) w
    | none => missNext (allocate (demandRead s (a / 128 * 128) 128) u l false) u a l

/-- Bytes written into a line that the cache holds: whole sectors lose their poison, others keep it (R262). -/
def writeCached (s : State) (a : Nat) (bs : List Byte) (pz : Bool) : State :=
  let ks := wholeSectors a bs.length
  let s := { s with mem := memPutAll s.mem a bs, poison := s.poison.filter fun k => !ks.contains k }
  if pz then poisonSectors s (sectorsOf a bs.length) else s

/-- A write within one near-tier line (R250, R251). -/
def nearWriteLine (s : State) (a : Nat) (bs : List Byte) (pz : Bool) : State :=
  let (u, la) := unitOf s a
  let l := la / 128
  if !cacheOn s u then writeData s a bs pz
  else
    match wayOf s u l with
    | some w =>
      let s := if bs.length = 128 then s else readWay s u (l % 4096) w
      writeCached (touchWay (setWay s u w ⟨l, true, false⟩) u (l % 4096) w) a bs pz
    | none =>
      if !canAllocate s u then missNext (writeData s a bs pz) u a l
      else
        let ks := wholeSectors a bs.length
        let s := cleanSectors s ks
        let s := if bs.length = 128 then s else cleanSectors (demandRead s (a / 128 * 128) 128) ks
        missNext (writeCached (allocate s u l true) a bs pz) u a l

/-- The 128-byte pieces of a byte range: address and length. -/
def linePieces (a n : Nat) : List (Nat × Nat) :=
  if n = 0 then []
  else (upFrom (a / 128) ((a + n - 1) / 128 + 1 - a / 128)).map fun l =>
    let lo := Nat.max a (128 * l)
    (lo, Nat.min (a + n) (128 * (l + 1)) - lo)

/-- A device address lies in the near tier. -/
def isNear (s : State) (a : Nat) : Bool := decide (a < nearSize s)

/-- A read of a byte range at its point of coherence: what it finds in memory (R251, R261). -/
def pocRead (s : State) (a n : Nat) : State :=
  if isNear s a then (linePieces a n).foldl (fun s p => nearReadLine s p.1) s else demandRead s a n

/-- The side bits of the near-tier lines that a write touches are set to 0 (R298); they stand under the line's device
address over 128. -/
def clearSide (s : State) (a n : Nat) : State :=
  { s with side := sdrop s.side fun k => decide (0 < n) && decide (a / 128 ≤ k) && decide (128 * k < a + n) }

/-- A write of bytes at their point of coherence (R251, R262, R298). -/
def pocWrite (s : State) (a : Nat) (bs : List Byte) (pz : Bool) : State :=
  if isNear s a then
    clearSide ((linePieces a bs.length).foldl (fun s p => nearWriteLine s p.1 ((bs.drop (p.1 - a)).take p.2) pz) s) a bs.length
  else writeData s a bs pz

/-- Some unit that a byte range touches drains, so that the access waits (R256). -/
def pocWaits (s : State) (a n : Nat) : Bool :=
  (linePieces a n).any fun p => isNear s p.1 && draining s (unitOf s p.1).1

/-- An access of a lane port performs at a point of coherence: its result stands for its answer (R218, R225, R239,
R262). -/
def lanePerform (s : State) (c : Nat) (a : LaneAccess) : State :=
  let put := fun (s : State) (r : AccessResult) => laneMod s c a.id fun b => { b with result := some r }
  match a.kind with
  | .store bs => put (pocWrite s a.addr bs false) (.ok [] [])
  | _ =>
    let s := pocRead s a.addr a.size
    if isPoisoned s a.addr a.size then put s (.fail 0x02) else put s (.ok (readMem s a.addr a.size) (lineAround s a.addr))

/-- NEAR_TIER_ACCESS: the unit serves an access of a core's lane port, unless it drains, an older access of the thread
must perform first, or the tag has no usable slot on the path (R194, R220, R222, R239, R248, R251, R256). -/
def execNearTierAccess (unit core id : Nat) (s : State) : Host.Outcome State Fault Refusal :=
  match laneFind s core id with
  | none => .next s
  | some a =>
    if !a.sent || a.result.isSome || decide (target s a.addr ≠ .near unit) || draining s unit || laneBlocked s core a ||
        !beatServed s core a.addr true then .next s
    else if unitReady s unit then .next (lanePerform s core a)
    else .next (laneMod s core id fun b => { b with result := some (.fail 0x01) })

/-! ### Locks, preload, drain (R252 to R257) -/

/-- The dirty lines of the ways for which `p` holds are written back and stay, clean. -/
def cleanWays (s : State) (u : Nat) (p : Nat → Bool) : State :=
  let es := (memUnit s u).ways.filter fun e => e.2.dirty && p (e.1 % 16)
  es.foldl (fun s e => setWay (writeBackWay s u (e.1 % 16) e.2) u (e.1 % 16) { e.2 with dirty := false, bad := false }) s

/-- A write of HBM_BC_LOCK: unlocked ways are written back first; locking all 16 has no effect (R252). -/
def bcLockWrite (s : State) (u : Nat) (v : Word) : State × Nat :=
  let old := reg s (Reg.hbmBcLock u)
  let new := v &&& 0xFFFF
  if new = 0xFFFF then (s, 0)
  else (setReg (cleanWays s u fun w => bit old w && !bit new w) (Reg.hbmBcLock u) new, 0)

/-- BC_LOCK_WRITE (R252). -/
def execBcLockWrite (o : Origin) (unit : Nat) (v : Word) (s : State) : Host.Outcome State Fault Refusal :=
  .next (writeAt s o (Reg.hbmBcLock unit) v (bcLockWrite s unit v)).1

/-- The lines a preload places (R253, R264). -/
def preLines (s : State) (u : Nat) : Nat := fld s (Reg.hbmBcPreCtl u) 15 0 + 1

/-- The target ways of a preload, from bit 0 upward (R253). -/
def preWays (s : State) (u : Nat) : List Nat := (List.range 16).filter fun w => flag s (Reg.hbmBcPreCtl u) (16 + w)

/-- GO of a preload: refused with VALIDATION, or BUSY (R253, R257). -/
def preGo (s : State) (u : Nat) : State :=
  let off := Reg.hbmBcPreCmd u
  let n := preLines s u
  let s := setFlag s off 2 false
  if decide (4096 * (preWays s u).length < n) || decide (unitLines s < fld s (Reg.hbmBcPreAddr u) 27 0 + n) || !cacheOn s u ||
      flag s off 1 then setFld s off 15 8 0x0B
  else setReg (modUnit s u fun m => { m with preNext := 0 }) off ((reg s off &&& 9) ||| 2)

/-- STOP of a BUSY preload (R257). -/
def preStop (s : State) (u : Nat) : State :=
  let off := Reg.hbmBcPreCmd u
  if flag s off 1 then setFld (setFlag (setFlag s off 1 false) off 2 true) off 15 8 0 else s

/-- A write of HBM_BC_PRE_CMD (R253, R257). -/
def preCmdWrite (s : State) (u : Nat) (v : Word) : State × Nat :=
  let s := setW1s s (Reg.hbmBcPreCmd u) v
  let s := if bit v 0 then preGo s u else s
  (if bit v 3 then preStop s u else s, 0)

/-- PRELOAD_GO (R253). -/
def execPreloadGo (o : Origin) (unit : Nat) (s : State) : Host.Outcome State Fault Refusal :=
  .next (writeAt s o (Reg.hbmBcPreCmd unit) 1 (preCmdWrite s unit 1)).1

/-- PRELOAD_STOP (R257). -/
def execPreloadStop (o : Origin) (unit : Nat) (s : State) : Host.Outcome State Fault Refusal :=
  .next (writeAt s o (Reg.hbmBcPreCmd unit) 8 (preCmdWrite s unit 8)).1

/-- A line that a preload does not place is counted (R253). -/
def preSkip (s : State) (u : Nat) : State := countFld s (Reg.hbmBcPreCmd u) 31 16

/-- Line i of a preload goes to its target way, is moved there, or is skipped because of a lock (R253). -/
def preloadPlace (s : State) (u i : Nat) : State :=
  let l := fld s (Reg.hbmBcPreAddr u) 27 0 + i
  let set := l % 4096
  let w := nth (preWays s u) (i / 4096) 0
  let locked := fun w => flag s (Reg.hbmBcLock u) w
  let other := match wayAt s u set w with
    | some x => decide (x.line ≠ l)
    | none => false
  let s := modUnit s u fun m => { m with preNext := i + 1 }
  match wayOf s u l with
  | some w0 =>
    if w0 = w then if locked w then preSkip s u else s
    else if locked w0 || (locked w && other) then preSkip s u
    else
      let x := (wayAt s u set w0).getD ⟨l, false, false⟩
      setWay (evictWay (dropWay s u set w0) u set w) u w x
  | none =>
    if locked w && other then preSkip s u
    else setWay (evictWay (demandRead s (lineAddr s u l) 128) u set w) u w ⟨l, false, false⟩

/-- The preload of a unit can place a line: it is BUSY and there is free capacity (R254, R257). -/
def preloadRuns (s : State) (u : Nat) : Bool :=
  unitRuns s u && flag s (Reg.hbmBcPreCmd u) 1 && decide (0 < freeCapacity s u)

/-- PRELOAD_LINE: a line other than the last is placed (R253). -/
def execPreloadLine (unit : Nat) (s : State) : Host.Outcome State Fault Refusal :=
  let i := (memUnit s unit).preNext
  when s (preloadRuns s unit && decide (i + 1 < preLines s unit)) (preloadPlace s unit i)

/-- PRELOAD_COMPLETE: the last line is placed and BUSY clears (R253, R254, R257). -/
def execPreloadComplete (unit : Nat) (s : State) : Host.Outcome State Fault Refusal :=
  let i := (memUnit s unit).preNext
  let s' := setFlag (preloadPlace s unit i) (Reg.hbmBcPreCmd unit) 1 false
  when s (preloadRuns s unit && decide (preLines s unit ≤ i + 1)) s'

/-- A write of HBM_BC_CTL: ENABLE = 0 starts a drain and ends a preload; during a drain the write is recorded (R256,
R257). -/
def bcCtlWrite (s : State) (u : Nat) (v : Word) : State × Nat :=
  let off := Reg.hbmBcCtl u
  let start := !flag s off 1 && !bit v 0
  let s := setFlag s off 0 (bit v 0)
  if !start then (s, 0)
  else
    let s := setFlag s off 1 true
    if flag s (Reg.hbmBcPreCmd u) 1 then (setFld (preStop s u) (Reg.hbmBcPreCmd u) 15 8 0x0B, 0) else (s, 0)

/-- CACHE_DRAIN_START (R256, R257). -/
def execCacheDrainStart (o : Origin) (unit : Nat) (s : State) : Host.Outcome State Fault Refusal :=
  .next (writeAt s o (Reg.hbmBcCtl unit) 0 (bcCtlWrite s unit 0)).1

/-- Every line of a unit's cache written back and invalidated, the locks cleared (R256). -/
def emptyCache (s : State) (u : Nat) : State :=
  setReg (modUnit (cleanWays s u fun _ => true) u fun m => { m with ways := [], plru := [], pfQueue := [] }) (Reg.hbmBcLock u) 0

/-- CACHE_DRAIN_COMPLETE: the cache is empty and unlocked, and enabled again where a write of the drain's time said so
(R256). -/
def execCacheDrainComplete (unit : Nat) (s : State) : Host.Outcome State Fault Refusal :=
  when s (unitRuns s unit && draining s unit) (setFlag (emptyCache s unit) (Reg.hbmBcCtl unit) 1 false)

/-- A write of CMP_IC_CTL: EN = 0 invalidates the instruction cache (R258). -/
def icCtlWrite (s : State) (c : Nat) (v : Word) : State × Nat :=
  let s := setReg s (Reg.cmpIcCtl c) (v &&& 1)
  (if bit v 0 then s else modCore s c fun k => { k with icache := [] }, 0)

/-- IC_CTL_WRITE (R258). -/
def execIcCtlWrite (o : Origin) (core : Nat) (v : Word) (s : State) : Host.Outcome State Fault Refusal :=
  .next (writeAt s o (Reg.cmpIcCtl core) v (icCtlWrite s core v)).1

/-! ### The scrubbers (R259 to R261) -/

/-- A VALID entry of a scrub log names a line. -/
def scrubNamed (s : State) (u : Option Nat) (a : Nat) : Bool :=
  (List.range 16).any fun i => flag s (scrubLogW0 u i + 4) 31 && decide (regAddr s (scrubLogW0 u i) = a)

/-- The scrubber reads a line: a fault is found, and a line that already holds poison and that no entry names is a finding
too (R261). -/
def scrubRead (s : State) (u : Option Nat) (a : Nat) : State :=
  let old := isPoisoned s a (eccLine a)
  let s := findLine s a false
  if old && !scrubNamed s u a then reportPoison s a false else s

/-- SCRUB_LINE: the next DRAM line of a unit, at most one per INTERVAL ns; dirty cached lines are skipped, clean ones rewritten from the cache (R254,
R259, R261). -/
def execScrubLine (unit : Nat) (s : State) : Host.Outcome State Fault Refusal :=
  if !unitRuns s unit || !unitReady s unit || !flag s (Reg.hbmScrubCtl unit) 0 || (scrubFree s (some unit)).isNone ||
      freeCapacity s unit = 0 || decide (now s < (memUnit s unit).scrubFrom) then .next s
  else
    let l := (memUnit s unit).scrubAt
    let a := lineAddr s unit l
    let wrap := decide (unitLines s ≤ l + 1)
    let from' := now s + fld s (Reg.hbmScrubCtl unit) 31 8
    let s := modUnit s unit fun m => { m with scrubAt := if wrap then 0 else l + 1, scrubFrom := from' }
    let s := if wrap then countWrap s (Reg.hbmScrubPass unit) else s
    match (wayOf s unit l).bind fun w => wayAt s unit (l % 4096) w with
    | some x =>
      if x.dirty then .next s
      else
        let s := readArray s unit ((wayOf s unit l).getD 0) x
        let es := latentOf s (sectorsOf a 128)
        let s := countCorr (writeBack s unit l) a (es.count .single)
        .next (if isPoisoned s a 128 && !scrubNamed s (some unit) a then reportPoison s a false else s)
    | none => .next (scrubRead s (some unit) a)

/-- LOCAL_SCRUB_LINE: the next line of a core's local memory, at most one per INTERVAL ns; INTERVAL 0, which R265 does not reserve,
sets no distance (R260, R261; DESIGN CHOICE, log entry 67). -/
def execLocalScrubLine (core : Nat) (s : State) : Host.Outcome State Fault Refusal :=
  if !decide (core < s.pkg.nCores) || !partUp s || s.pkg.slumber || decide (blockState s (blockOf core) = 3) ||
      !flag s Reg.cmpScrubCtl 0 || (scrubFree s none).isNone ||
      decide (now s < (Machine.core s core).scrubFrom) then .next s
  else
    let l := (Machine.core s core).scrubAt
    let from' := now s + fld s Reg.cmpScrubCtl 31 8
    let s := modCore s core fun k => { k with scrubAt := (l + 1) % 6144, scrubFrom := from' }
    .next (scrubRead s none (localBase core + 64 * l))

end Sys2Proof.Machine
end

