-- ==== Sys2Proof/Machine/HostCore.lean ====
section
/-! DEFINITION. What the host-side commands share: contexts and memory objects, translation, interrupt messages, event
objects, queue entries (R310 to R349). -/

namespace Sys2Proof.Machine

/-! ### Contexts and memory objects (R312 to R320) -/

/-- SRA_CTX_CFG.STATE: 0 free, 1 active, 2 killing, 3 quiesced (R347). -/
def ctxState (s : State) (c : Nat) : Nat := fld s (Reg.sraCtxCfg c) 1 0

/-- The tenant tag of a context (R313). -/
def ctxTag (s : State) (c : Nat) : Nat := fld s (Reg.sraCtxCfg c) 11 8

/-- A rectangle is in a context's RECTS. -/
def ctxHasRect (s : State) (c n : Nat) : Bool := flag s (Reg.sraCtxRects c) n

/-- Isolation is enforced (R319). -/
def enforced (s : State) : Bool := flag s Reg.sraIso 0

/-- The numbers of the valid memory objects, lowest first (R315). -/
def moValidList (s : State) : List Nat :=
  s.regs.filterMap fun e =>
    if decide (0x200000 ≤ e.1) && decide (e.1 < 0x400000) && decide (e.1 % 0x20 = 0) && bit e.2 31 then some ((e.1 - 0x200000) / 0x20)
    else none

/-- The context of a memory object. -/
def moCtx (s : State) (m : Nat) : Nat := fld s (Reg.sraMoCfg m) 5 0

/-- Bytes a memory object maps: pages of 2 MiB or 1 GiB (R315). -/
def moSize (s : State) (m : Nat) : Nat :=
  fld s (Reg.sraMoPages m) 19 0 * (if flag s (Reg.sraMoCfg m) 6 then 2 ^ 30 else 2 ^ 21)

/-- The virtual address a memory object starts at. -/
def moVirt (s : State) (m : Nat) : Nat := fld s (Reg.sraMoVpn m) 26 0 * 2 ^ 21

/-- The physical address a memory object starts at. -/
def moPhys (s : State) (m : Nat) : Nat := fld s (Reg.sraMoPpn m) 26 0 * 2 ^ 21

/-- The valid entry of a context that holds a virtual address (R316). -/
def moOf (s : State) (c v : Nat) : Option Nat :=
  (moValidList s).find? fun m => decide (moCtx s m = c) && decide (moVirt s m ≤ v) && decide (v < moVirt s m + moSize s m)

/-- The translation of an address of a context, where its entry grants the permission: bit 7 RD, bit 8 WR (R316). -/
def translate (s : State) (c v perm : Nat) : Option Nat :=
  match moOf s c v with
  | some m => if flag s (Reg.sraMoCfg m) perm then some (moPhys s m + (v - moVirt s m)) else none
  | none => none

/-- The contexts of the valid entries whose physical range holds a line, each once, lowest first (R318). -/
def lineOwners (s : State) (a : Nat) : List Nat :=
  (List.range 64).filter fun c => (moValidList s).any fun m =>
    decide (moCtx s m = c) && decide (moPhys s m ≤ a) && decide (a < moPhys s m + moSize s m)

/-! ### Reports (R311, R228) -/

/-- A report a Serai writes at a device address that a set-up register supplies: it performs at once, so that it follows
every write it covers; a write to another chip leaves on its bundle; one to an address that leads nowhere is lost (R228,
R311, R316). -/
def reportWrite (s : State) (a : Nat) (bs : List Byte) : State :=
  match target s a with
  | .hole => s
  | .near u => if unitReady s u then pocWrite s a bs false else s
  | .peer k off =>
    match linkIssue s k (off / 128) .serai (writeUnit off bs) with
    | .sent s => s
    | _ => s
  | .host => writeMem s (hostCell s a) bs
  | _ => writeMem s a bs

/-- A word of `n` bytes as a report. -/
def reportWord (s : State) (a n v : Nat) : State := reportWrite s a (leBytes n v)

/-- An MSI-X vector sent: the message is counted, or its pending bit set while the vector is masked (R310; the layout
of the table is log entry 12). -/
def sendMsix (s : State) (v : Nat) : State :=
  if flag s (Reg.msixCtrl v) 0 then setFlag s (Reg.msixPba (v / 32)) (v % 32) true
  else { s with msix := sput s.msix v (sget s.msix v 0 + 1) }

/-! ### Event objects (R335 to R337) -/

/-- An event object is enabled and owned by a context (R320). -/
def eventOk (s : State) (e c : Nat) : Bool :=
  decide (e < 4096) && flag s (Reg.sraEv e) 7 && decide (fld s (Reg.sraEv e) 5 0 = c)

/-- The owner's state lets an event be signalled: active, or killing for its QEVENT (R312). -/
def mayBeSignalled (s : State) (e : Nat) : Bool :=
  let c := fld s (Reg.sraEv e) 5 0
  decide (ctxState s c = 1) || (decide (ctxState s c = 2) && decide (fld s (Reg.sraCtxEv c) 11 0 = e))

/-- The SEQ of an event object (R335). -/
def eventSeq (s : State) (e : Nat) : Word := sget s.events e 0

/-- The mirror record of an event object (R337, R343). -/
def writeMirror (s : State) (e : Nat) : State :=
  let w := reg s (Reg.sraEv e)
  if flag s (Reg.sraEvMirHi e) 31 then
    reportWord s (regAddr s (Reg.sraEvMirLo e)) 8
      ((eventSeq s e).toNat + 2 ^ 32 * (bit w 8).toNat + 2 ^ 33 * (bit w 9).toNat + 2 ^ 40 * bits w 17 10)
  else s

/-- The event flag an event object sets on its signal: a courier EVENT in the owner's world, counted for the owner (R337,
R340). -/
def sendEventFlag (s : State) (e : Nat) : State :=
  let w := reg s (Reg.sraEv e)
  let f := reg s (Reg.sraEvFlag e)
  let c := bits w 5 0
  if bit w 25 && decide (bits f 9 0 < s.pkg.nCores) then
    sendMsg (ledgerAdd s c 13 1)
      ⟨bits f 9 0, 0, ctxGuarded s c, 0x300, BitVec.ofNat 32 (bits f 11 10 + 4 * bits f 14 12), 0⟩
  else s

/-- What a signal of event `e` does to a queue whose EVWAIT waits for it: the wait is over, with the event's STATUS where
its ERR is set (R325). -/
def wakeQueue (e : Nat) (st : Byte) (x : Queue) : Queue :=
  match x.ctl, x.entries with
  | .waiting _, f :: _ => if bits (nth f 0 0) 43 32 = e then { x with ctl := .met st } else x
  | _, _ => x

/-- The EVWAITs that a signal of event `e` ends. -/
def wakeQueues (s : State) (e : Nat) : State :=
  let st : Byte := if flag s (Reg.sraEv e) 9 then BitVec.ofNat 8 (fld s (Reg.sraEv e) 17 10) else 0
  { s with queues := s.queues.map fun x => (x.1, wakeQueue e st x.2) }

/-- A change applied to an event object, with what Serai 0 does after it (R335, R337). -/
def applyEvent (s : State) (ch : EvChange) : State :=
  match ch with
  | .signal e err =>
    if !decide (e < 4096) || !flag s (Reg.sraEv e) 7 || !mayBeSignalled s e then s
    else
      let off := Reg.sraEv e
      let s := setFlag { s with events := sput s.events e (eventSeq s e + 1) } off 8 true
      let s := match err with
        | some st => if flag s off 9 then s else setFld (setFlag s off 9 true) off 17 10 st.toNat
        | none => s
      let s := sendEventFlag (writeMirror (wakeQueues s e) e) e
      if flag s off 24 then sendMsix s (fld s off 23 18) else s
  | .reset e clr =>
    if !decide (e < 4096) || !flag s (Reg.sraEv e) 7 then s
    else
      let off := Reg.sraEv e
      let s := setFlag s off 8 false
      writeMirror (if clr then setFlag s off 9 false else s) e

/-- Every change on its way to an event object, applied in order of arrival (R335). -/
def flushEvents (s : State) : State := s.evq.foldl applyEvent { s with evq := [] }

/-- A change applied after those that arrived before it (R335). -/
def changeEvent (s : State) (ch : EvChange) : State := applyEvent (flushEvents s) ch

/-- A change that arrives at Serai 0 (R335, R336). -/
def queueEvent (s : State) (ch : EvChange) : State := { s with evq := s.evq ++ [ch] }

/-- The error an event carries for a status: none for OK (R284, R325). -/
def errOf (st : Nat) : Option Byte := if st = 0 then none else some (BitVec.ofNat 8 st)

/-! ### Error rings (R338, R339, R344) -/

/-- The 32 bytes of an error record (R344). -/
def errBytes (r : ErrRec) (ovf : Bool) (seq : Nat) : List Byte :=
  let ctx := r.ctx.getD 0x3F
  leBytes 8 (r.status.toNat + 2 ^ 8 * r.source.toNat + 2 ^ 12 * ovf.toNat + 2 ^ 16 * r.who.toNat + 2 ^ 28 * r.thread.toNat +
      2 ^ 32 * ctx + 2 ^ 48 * (seq % 65536)) ++
    leBytes 8 (r.addr % 2 ^ 48) ++ leBytes 8 r.time ++ leBytes 8 r.info.toNat

/-- Records in a ring between the host's index and PROD (R338). -/
def ringUsed (prod cons : Nat) : Nat := (prod + 65536 - cons) % 65536

/-- The host's consumer index of an error ring; 64 stands for the device ring (R327). -/
def ringCons (s : State) (k : Nat) : Nat := (sget s.errCons k 0).toNat

/-- A record for a context's ring: written, or discarded and counted where the ring is full or there is none (R336, R338,
R339). -/
def writeCtxRecord (s : State) (c : Nat) (r : ErrRec) : State :=
  let off := Reg.sraCtxErrcfg c
  let n := 2 ^ fld s off 3 0
  let prod := fld s off 31 16
  if fld s off 3 0 = 0 ∨ n ≤ ringUsed prod (ringCons s c) then
    countSat { s with errOvf := addKey s.errOvf c } (Reg.sraCtxErrlost c)
  else
    let a := regAddr s (Reg.sraCtxErrLo c) + 32 * (prod % n)
    let s := reportWrite s a (errBytes r (s.errOvf.contains c) prod)
    let s := setFld { s with errOvf := delKey s.errOvf c } off 31 16 ((prod + 1) % 65536)
    let e := fld s (Reg.sraCtxEv c) 27 16
    let s := if eventOk s e c then queueEvent s (.signal e (some r.status)) else s
    if flag s off 10 then sendMsix s (fld s off 9 4) else s

/-- The device ring is enabled and has room (R338, R339). -/
def deviceRoom (s : State) : Bool :=
  flag s Reg.sraDerrCfg 11 &&
    decide (ringUsed (fld s Reg.sraDerrCfg 31 16) (ringCons s 64) < 2 ^ fld s Reg.sraDerrCfg 3 0)

/-- A record written to the device ring (R338). -/
def writeDevRecord (s : State) (r : ErrRec) : State :=
  let off := Reg.sraDerrCfg
  let prod := fld s off 31 16
  let s := reportWrite s (regAddr s Reg.sraDerrLo + 32 * (prod % 2 ^ fld s off 3 0)) (errBytes r false prod)
  let s := setFld s off 31 16 ((prod + 1) % 65536)
  if flag s off 10 then sendMsix s (fld s off 9 4) else s

/-- The scrub-log entry of a finding released once its record is written (R261, R339). -/
def clearScrub (s : State) (x : Option (Nat × Nat)) : State :=
  match x with
  | none => s
  | some (u, i) => setFlag s (scrubLogW0 (if u = 8 then none else some u) i + 4) 31 false

/-- A record goes to its ring. -/
def writeRecord (s : State) (r : ErrRec) : State :=
  match r.ctx with
  | some c => writeCtxRecord s c r
  | none => clearScrub (writeDevRecord s r) r.scrub

/-- The records of a context that wait are written to its ring. -/
def flushRecords (s : State) (c : Nat) : State :=
  (s.errq.filter fun r => decide (r.ctx = some c)).foldl writeRecord
    { s with errq := s.errq.filter fun r => decide (r.ctx ≠ some c) }

/-! ### Queues (R322 to R331, R348) -/

/-- A queue beside its registers. -/
def queueOf (s : State) (q : Nat) : Queue := sget s.queues q Queue.reset

/-- A queue changed. -/
def modQueue (s : State) (q : Nat) (f : Queue → Queue) : State := { s with queues := sput s.queues q (f (queueOf s q)) }

/-- The owner of a queue. -/
def queueCtx (s : State) (q : Nat) : Nat := fld s (Reg.sraQCfg q) 11 6

/-- A queue is enabled. -/
def queueOn (s : State) (q : Nat) : Bool := flag s (Reg.sraQCfg q) 0

/-- A queue is STOPPED (R330). -/
def queueStopped (s : State) (q : Nat) : Bool := decide (fld s (Reg.sraQStat q) 1 0 = 3)

/-- A queue is bound to a system channel. -/
def queueBound (s : State) (q : Nat) : Bool := flag s (Reg.sraQCfg q) 13

/-- The Serai and the channel of a bound queue. -/
def queueChan (s : State) (q : Nat) : Nat × Nat := ((flag s (Reg.sraQCfg q) 19).toNat, fld s (Reg.sraQCfg q) 18 14)

/-- The enabled queue bound to a system channel (R348). -/
def queueOfChan (s : State) (i n : Nat) : Option Nat :=
  (List.range 256).find? fun q => queueOn s q && queueBound s q && decide (queueChan s q = (i, n))

/-- The queue whose fetched entries a system channel takes next: one disabled with entries left before the one bound now
(R324, R331). -/
def feedOfChan (s : State) (i n : Nat) : Option Nat :=
  let has := fun q => queueBound s q && decide (queueChan s q = (i, n)) &&
    decide ((queueOf s q).inChan < (queueOf s q).entries.length)
  match (List.range 256).find? fun q => has q && !queueOn s q with
  | some q => some q
  | none => (List.range 256).find? has

/-- Bytes of a slot of a queue's ring (R322). -/
def slotSize (s : State) (q : Nat) : Nat := if flag s (Reg.sraQCfg q) 1 then 64 else 32

/-- Slots of a queue's ring (R322). -/
def ringSlots (s : State) (q : Nat) : Nat := 2 ^ fld s (Reg.sraQCfg q) 5 2

/-- A queue may fetch: enabled, not STOPPED, its context active (R312, R330, R331). -/
def queueMayFetch (s : State) (q : Nat) : Bool := queueOn s q && !queueStopped s q && decide (ctxState s (queueCtx s q) = 1)

/-- The ring read a queue issues when it has pending entries that it may hold: within 4,096 bytes, the end of the ring and
64 fetched entries (R323). -/
def pumpFetch (s : State) (q : Nat) : State :=
  let x := queueOf s q
  let next := (fld s (Reg.sraQStat q) 31 16 + (x.entries.length - x.old)) % 65536
  let waiting := (x.prod.toNat + 65536 - next) % 65536
  let n := Nat.min (Nat.min waiting (64 - x.entries.length))
    (Nat.min (4096 / slotSize s q) (ringSlots s q - next % ringSlots s q))
  if x.reading ≠ 0 ∨ n = 0 ∨ queueMayFetch s q = false then s else modQueue s q fun x => { x with reading := n, readAt := now s }

/-- Word `i` of an entry or descriptor; a missing one is 0 (R322). -/
def ent (e : List DWord) (i : Nat) : DWord := nth e i 0

/-- The OP of an entry (R289, R342). -/
def entOp (e : List DWord) : Nat := bits (ent e 0) 3 0

/-- The EVENT of an entry (R289, R342). -/
def entEvent (e : List DWord) : Nat := bits (ent e 0) 43 32

/-- A record of a queue that stopped or of a control entry that failed (R325, R330, R338, R344). -/
def queueError (s : State) (q status who addr : Nat) : State :=
  logError s ⟨some (queueCtx s q), BitVec.ofNat 8 status, 2, BitVec.ofNat 12 who, 0, addr, BitVec.ofNat 32 q, now s, none, false⟩

/-- A queue stopped: it fetches nothing more; what it has fetched goes on (R325, R330). -/
def stopQueue (s : State) (q status : Nat) : State :=
  let s := setFld (setFld s (Reg.sraQStat q) 1 0 3) (Reg.sraQStat q) 15 8 status
  modQueue s q fun x => { x with reading := 0 }

/-- The queue is disabled once its last fetched entry has completed (R331). -/
def settleState (s : State) (q : Nat) : State :=
  if !queueOn s q && (queueOf s q).entries.isEmpty && !queueStopped s q then setFld s (Reg.sraQStat q) 1 0 0 else s

/-- CONS and LAST advance, and the consumer word is written; an entry fetched before the queue last started leaves CONS as it
is, which counts from START (R326, R330, R343; log entry 42). -/
def advanceCons (s : State) (q status : Nat) (old : Bool) : State :=
  let off := Reg.sraQStat q
  let cons := (fld s off 31 16 + 1) % 65536
  if old then s
  else
    let s := setFld (setFld s off 31 16 cons) off 15 8 status
    reportWord s (regAddr s (Reg.sraQConsLo q)) 8 (cons + 65536 * (status % 256))

/-- The front entry of a queue leaves it: CONS and LAST advance, the consumer word is written, the entry's MSI-X message
follows (R326, R343). -/
def popEntry (s : State) (q status : Nat) (irq : Bool) : State :=
  let old := decide (0 < (queueOf s q).old)
  let s := modQueue s q fun x => { x with
    entries := x.entries.drop 1
    inChan := x.inChan - 1
    ctl := .ready
    old := x.old - 1 }
  let s := advanceCons s q status old
  let s := if irq && flag s (Reg.sraQCfg q) 27 then sendMsix s (fld s (Reg.sraQCfg q) 26 21) else s
  pumpFetch (settleState s q) q

/-- Whether the front entry completes with VALIDATION as soon as it is the front: a DMA entry of an unbound queue, or a
reserved OP (R324). -/
def frontInvalid (s : State) (q : Nat) : Option Bool :=
  let x := queueOf s q
  match x.entries with
  | [] => none
  | e :: _ =>
    if 0 < x.inChan then none
    else if entOp e ≤ 4 then if queueBound s q then none else some false
    else if entOp e ≤ 7 ∨ 13 ≤ entOp e then some true else none

/-- Front entries that cannot run complete; a reserved OP is reported as a control entry is (R324, R325). -/
def settleFront : Nat → State → Nat → State
  | 0, s, _ => s
  | n + 1, s, q =>
    match frontInvalid s q with
    | none => s
    | some false => settleFront n (popEntry s q 0x0B false) q
    | some true =>
      let s := popEntry (queueError s q 0x0B 0xFFF 0) q 0x0B false
      settleFront n (if flag s (Reg.sraQCfg q) 12 then stopQueue s q 0x0B else s) q

/-- The front entry of a queue completes, and so do those behind it that cannot run. -/
def completeEntry (s : State) (q status : Nat) (irq : Bool) : State :=
  let s := popEntry s q status irq
  settleFront (queueOf s q).entries.length s q

/-- A control entry completes: its event with SIGNAL, then the record of a failure, the consumer word and the MSI-X
message, and STOPPED for a failure with HALTERR (R325, R326, R338). -/
def completeControl (s : State) (q : Nat) (status who addr : Nat) : State :=
  match (queueOf s q).entries with
  | [] => s
  | e :: _ =>
    let ev := entEvent e
    let s := if bit (ent e 0) 8 && decide (entOp e ≠ 9) && eventOk s ev (queueCtx s q) then changeEvent s (.signal ev (errOf status))
      else s
    if status = 0 then completeEntry s q 0 (bit (ent e 0) 10)
    else
      let s := popEntry (queueError s q status who addr) q status (bit (ent e 0) 10)
      settleFront (queueOf s q).entries.length (if flag s (Reg.sraQCfg q) 12 then stopQueue s q status else s) q

/-! ### The lines of a ledger snapshot (R325) -/

/-- A LEDGER completes once each line of its snapshot has ended, with the first failure among them (R325). -/
def ledgerSettle (s : State) (q : Nat) : State :=
  match (queueOf s q).ctl with
  | .ledger l =>
    if l.any fun x => x.status.isNone then s
    else
      match l.find? fun x => decide (x.status ≠ some 0) with
      | none => completeControl s q 0 0xFFF 0
      | some x => completeControl s q (x.status.getD 0).toNat 0xFFF x.addr
  | _ => s

/-- Another chip answers a line of a snapshot (R225, R325). -/
def ledgerAnswer (s : State) (q line st : Nat) : State :=
  match (queueOf s q).ctl with
  | .ledger l =>
    ledgerSettle (modQueue s q fun x => { x with
      ctl := .ledger (l.mapIdx fun i y => if i = line ∧ y.status = none then { y with status := some (BitVec.ofNat 8 st) } else y) }) q
  | _ => s

end Sys2Proof.Machine
end

