-- ==== Sys2Proof/Machine/DmaCheck.lean ====
section
/-! DEFINITION. DMA channels and descriptors, and the checks a descriptor meets after its fetch (R267 to R281, R288, R289). -/

namespace Sys2Proof.Machine

/-! ### Channels -/

/-- A channel beside its registers. -/
def chan (s : State) (ch : Chan) : DmaChan :=
  match ch with
  | .sys i n => sget s.sdma (32 * i + n) DmaChan.reset
  | .tile c k => sget (core s c).tdma k DmaChan.reset

/-- A channel replaced. -/
def setChan (s : State) (ch : Chan) (x : DmaChan) : State :=
  match ch with
  | .sys i n => { s with sdma := sput s.sdma (32 * i + n) x }
  | .tile c k => modCore s c fun y => { y with tdma := sput y.tdma k x }

/-- A channel changed. -/
def modChan (s : State) (ch : Chan) (f : DmaChan → DmaChan) : State := setChan s ch (f (chan s ch))

/-- The part has the channel, and what it sits in is out of reset (R267, R431, R438). -/
def chanRuns (s : State) (ch : Chan) : Bool :=
  match ch with
  | .sys i n => decide (i < s.pkg.nSerai) && decide (n < 32) && partUp s && !s.pkg.slumber
  | .tile c k => decide (c < s.pkg.nCores) && decide (k < 2) && !coreDown s c

/-- The channel is enabled (R291, R294). -/
def chanOn (s : State) (ch : Chan) : Bool :=
  match ch with
  | .sys i n => flag s (Reg.sraDmaCtl i n) 0
  | .tile c k => flag s (Reg.cmpTdmaCfg c) (16 + k)

/-- The channel's deadline in nanoseconds (R286). -/
def chanDl (s : State) (ch : Chan) : Nat :=
  match ch with
  | .sys i n => (reg s (Reg.sraDmaDl i n)).toNat
  | .tile .. => (chan s ch).dl

/-- The courier node of the channel's Serai or core (R286). -/
def chanNode (ch : Chan) : Nat :=
  match ch with
  | .sys i _ => 0x300 + i
  | .tile c _ => c

/-- The channel that CHAIN names: of the same Serai or the same core (R281). -/
def chainOf (ch : Chan) (n : Nat) : Chan :=
  match ch with
  | .sys i _ => .sys i n
  | .tile c _ => .tile c n

/-- The accesses a channel may have without an answer (R287). -/
def chanDepth (ch : Chan) : Nat :=
  match ch with
  | .sys .. => 32
  | .tile .. => 4

/-- The enabled rectangle a channel acts in: its core's, or its context's TAG; `q` is the queue of a descriptor (R267). -/
def chanRect (s : State) (ch : Chan) (q : Option Nat) : Option Nat :=
  match ch with
  | .sys .. => q.bind fun q => let t := ctxTag s (queueCtx s q); if rectOn s t then some t else none
  | .tile c _ => rectOf s c

/-- The channel acts for the Guarded world (R280). -/
def chanGuarded (s : State) (ch : Chan) (q : Option Nat) : Bool :=
  match ch with
  | .sys .. => match q with
    | some q => ctxGuarded s (queueCtx s q)
    | none => false
  | .tile c k => flag s (Reg.cmpTdmaCfg c) (18 + k)

/-- The context whose translations a descriptor uses, under enforced isolation (R316, R319). -/
def chanCtx (s : State) (ch : Chan) (q : Option Nat) : Option Nat :=
  match ch with
  | .sys .. => if enforced s then q.map (queueCtx s) else none
  | .tile .. => none

/-! ### The fields of a descriptor (R288, R289), given by its words -/

/-- OP. -/
def dOp (w : List DWord) : Nat := bits (ent w 0) 3 0
/-- DIM2. -/
def dDim2 (w : List DWord) : Bool := bit (ent w 0) 4
/-- BARRIER. -/
def dBarrier (w : List DWord) : Bool := bit (ent w 0) 5
/-- HINT. -/
def dHint (w : List DWord) : Bool := bit (ent w 0) 7
/-- SIGNAL. -/
def dSignal (w : List DWord) : Bool := bit (ent w 0) 8
/-- CPL. -/
def dCpl (w : List DWord) : Bool := bit (ent w 0) 9
/-- IRQ. -/
def dIrq (w : List DWord) : Bool := bit (ent w 0) 10
/-- TRIG. -/
def dTrig (w : List DWord) : Nat := bits (ent w 0) 12 11
/-- CHOK. -/
def dChok (w : List DWord) : Bool := bit (ent w 0) 13
/-- CODEC. -/
def dCodec (w : List DWord) : Nat := bits (ent w 0) 15 14
/-- CDIR. -/
def dDecode (w : List DWord) : Bool := bit (ent w 0) 16
/-- CKIND. -/
def dCkind (w : List DWord) : Nat := bits (ent w 0) 18 17
/-- CHAIN. -/
def dChain (w : List DWord) : Nat := bits (ent w 0) 28 24
/-- EVENT. -/
def dEvent (w : List DWord) : Nat := bits (ent w 0) 43 32
/-- USER. -/
def dUser (w : List DWord) : Nat := bits (ent w 0) 63 48
/-- SRC, or TABLE of a GATHER. -/
def dSrc (w : List DWord) : Nat := bits (ent w 1) 47 0
/-- DST. -/
def dDst (w : List DWord) : Nat := bits (ent w 2) 47 0
/-- LEN. -/
def dLen (w : List DWord) : Nat := bits (ent w 3) 31 0
/-- The rows of a 1-D or 2-D footprint. -/
def dRows (w : List DWord) : Nat := bits (ent w 3) 47 32 + 1
/-- SSTRIDE, signed (R272). -/
def dSst (w : List DWord) : Int := (BitVec.ofNat 32 (bits (ent w 4) 31 0)).toInt
/-- DSTRIDE, signed (R272). -/
def dDstr (w : List DWord) : Int := (BitVec.ofNat 32 (bits (ent w 4) 63 32)).toInt
/-- The rows of a GATHER. -/
def dCount (w : List DWord) : Nat := bits (ent w 3) 15 0 + 1
/-- RSHIFT. -/
def dRshift (w : List DWord) : Nat := bits (ent w 3) 19 16
/-- The row size of a GATHER (R276). -/
def dRow (w : List DWord) : Nat := 2 ^ dRshift w
/-- LIMIT. -/
def dLimit (w : List DWord) : Nat := bits (ent w 3) 63 24
/-- IDX. -/
def dIdx (w : List DWord) : Nat := bits (ent w 4) 47 0
/-- Bytes of an index. -/
def dIdxSize (w : List DWord) : Nat := if bit (ent w 4) 48 then 8 else 4
/-- TIME. -/
def dTime (w : List DWord) : DWord := ent w 5
/-- CPL_ADDR. -/
def dCplAddr (w : List DWord) : Nat := bits (ent w 6) 47 0
/-- PACE_LINES. -/
def dPaceLines (w : List DWord) : Nat := bits (ent w 7) 15 0
/-- PACE_NS. -/
def dPaceNs (w : List DWord) : Nat := bits (ent w 7) 47 16

/-! ### Checks 1 and 2 (R269, R277, R281, R282, R288, R289, R309) -/

/-- A format-1 entry lacks the words that the descriptor needs: a completion record's address, strides, an index list, a
trigger time or count (R322). -/
def lacksWords (w : List DWord) : Bool :=
  decide (w.length ≤ 4) && (dCpl w || dDim2 w || decide (dOp w = 4) || decide (dTrig w ≠ 0))

/-- Check 1: nothing reserved, nothing nonzero that the OP does not use, and no word missing that it needs. -/
def fieldsOk (w : List DWord) : Bool :=
  let op := dOp w
  let w0 := ent w 0
  let z := fun i hi lo => decide (bits (ent w i) hi lo = 0)
  !lacksWords w &&
  decide (op ≤ 4) && decide (dTrig w ≠ 3) && decide (bits w0 23 19 = 0) && decide (bits w0 31 29 = 0) &&
    decide (bits w0 47 44 = 0) && (!dDim2 w || (decide (1 ≤ op) && decide (op ≤ 3))) &&
    z 6 63 48 && (dCpl w || z 6 47 0) && decide (dCodec w ≠ 3) && decide (dCkind w ≠ 3) &&
    (decide (dCodec w ≠ 0) || (!dDecode w && decide (dCkind w = 0))) && (decide (dCodec w = 0) || decide (op = 1)) &&
    (if op = 0 then z 1 63 0 && z 2 63 0 && z 3 63 0 && z 4 63 0 && z 7 63 0
     else z 7 63 48 && z 2 63 48 &&
      (if op = 4 then z 1 63 48 && z 3 23 20 && z 4 63 49
       else (decide (op = 2) || z 1 63 48) && z 3 63 48 && (decide (op ≠ 2) || z 4 31 0) &&
        (dDim2 w || (z 3 47 32 && z 4 63 0))))

/-- A range lies wholly in the near tier, or in the TiB of one CXL port (R277). -/
def oneTier (s : State) (a n : Nat) : Bool :=
  decide (n = 0) || decide (a + n ≤ nearSize s) ||
    (decide (0x100000000000 ≤ a) && decide (a + n ≤ 0x140000000000) && decide (a / 2 ^ 40 = (a + n - 1) / 2 ^ 40))

/-- A range lies wholly in the near tier, or in one peer window (R309). -/
def codecSide (s : State) (a n : Nat) : Bool :=
  decide (a + n ≤ nearSize s) ||
    (decide (0x300000000000 ≤ a) && decide (a + n ≤ 0x400000000000) && decide (a / 2 ^ 38 = (a + n - 1) / 2 ^ 38))

/-- The translations of a context that a descriptor checked now may use for the rows of a table: virtual address, size and
physical address of every valid entry that grants RD (R316, R317). -/
def readMap (s : State) (c : Nat) : List (Nat × Nat × Nat) :=
  ((moValidList s).filter fun m => decide (moCtx s m = c) && flag s (Reg.sraMoCfg m) 7).map fun m => (moVirt s m, moSize s m, moPhys s m)

/-- The parts of a descriptor range that a context's valid entries map: descriptor address, physical address, length (R277,
R309; log entry 59). -/
def mappedParts (s : State) (c a n : Nat) : List (Nat × Nat × Nat) :=
  ((moValidList s).filter fun m => decide (moCtx s m = c)).filterMap fun m =>
    let lo := Nat.max a (moVirt s m)
    let hi := Nat.min (a + n) (moVirt s m + moSize s m)
    if lo < hi then some (lo, moPhys s m + (lo - moVirt s m), hi - lo) else none

/-- A range of a descriptor as ranges of device memory: itself, or the parts of it that are mapped under enforced isolation
(R316, R319). -/
def deviceParts (s : State) (ctx : Option Nat) (a n : Nat) : List (Nat × Nat × Nat) :=
  match ctx with
  | none => if n = 0 then [] else [(a, a, n)]
  | some c => mappedParts s c a n

/-- Every part of a range lies in the tier, port or window that `ok` asks for, and all of them in one: the near tier, or one
aligned run of 2^`sh` bytes (R277, R309). -/
def partsWithin (s : State) (ok : Nat → Nat → Bool) (sh : Nat) (l : List (Nat × Nat × Nat)) : Bool :=
  let side := fun a : Nat => if a < nearSize s then 0 else a / 2 ^ sh
  (l.all fun r => ok r.2.1 r.2.2) && l.all fun r => decide (side r.2.1 = side ((l.map fun r => r.2.1).headD 0))

/-- The compressed side of a codec COPY (R299). -/
def codedBase (w : List DWord) : Nat := if dDecode w then dSrc w else dDst w

/-- CHAIN names a channel of the same Serai that is bound to a queue of the same context, or of the same core (R281,
R320). -/
def chainOk (s : State) (ch : Chan) (q : Option Nat) (n : Nat) : Bool :=
  match ch with
  | .sys i _ => match q, queueOfChan s i n with
    | some a, some b => decide (queueCtx s a = queueCtx s b)
    | _, _ => false
  | .tile .. => decide (n < 2)

/-- Check 2: the limits. -/
def limitsOk (s : State) (ch : Chan) (q : Option Nat) (w : List DWord) : Bool :=
  let op := dOp w
  (if op = 1 ∨ op = 2 ∨ op = 3 then decide (1 ≤ dLen w) && (!dDim2 w || decide (dLen w ≤ 2 ^ 24)) else true) &&
    (decide (op ≠ 4) ||
      (decide (6 ≤ dRshift w) && decide (dRshift w ≤ 12) && decide (dSrc w % dRow w = 0) && decide (dDst w % 64 = 0) &&
        decide (dIdx w % dIdxSize w = 0) && partsWithin s (oneTier s) 40 (deviceParts s (chanCtx s ch q) (dSrc w) (dLimit w * dRow w)) &&
        match ch with
        | .sys .. => true
        | .tile c _ => decide (localBase c ≤ dDst w) && decide (dDst w + dCount w * dRow w ≤ localBase c + 0x60000))) &&
    (!dCpl w || decide (dCplAddr w % 16 = 0)) &&
    (decide (dTrig w ≠ 0) || decide (dTime w = 0)) &&
    (decide (dTrig w ≠ 1) || decide ((dTime w - BitVec.ofNat 64 (now s)).toInt ≤ 2 ^ 36)) &&
    (decide (dTrig w ≠ 2) || (decide (bits (dTime w) 63 32 = 0) && chainOk s ch q (dChain w))) &&
    (decide (dPaceLines w = 0) || decide (dPaceNs w ≠ 0)) &&
    (decide (dCodec w = 0) ||
      (!dDim2 w && decide (dSrc w % 128 = 0) && decide (dDst w % 128 = 0) && decide (dLen w % 128 = 0) &&
        partsWithin s (codecSide s) 38 (deviceParts s (chanCtx s ch q) (codedBase w) (dLen w))))

/-! ### Footprints, their translation and checks 3 to 6 -/

/-- The rows of a footprint: address, length. -/
def fpRows (a : Nat) (stride : Int) (n rows : Nat) : List (Int × Nat) :=
  (List.range rows).map fun r : Nat => ((a : Int) + Int.ofNat r * stride, n)

/-- The footprints of a descriptor in the order the words name them, and its completion record, each with the permission
bit it needs (R269, R316). -/
def footprints (w : List DWord) : List (Nat × List (Int × Nat)) :=
  let op := dOp w
  (if op = 1 ∨ op = 3 then [(7, fpRows (dSrc w) (dSst w) (dLen w) (dRows w))] else []) ++
    (if op = 1 ∨ op = 2 then [(8, fpRows (dDst w) (dDstr w) (dLen w) (dRows w))] else []) ++
    (if op = 3 then [(7, fpRows (dDst w) (dDstr w) (dLen w) (dRows w))] else []) ++
    (if op = 4 then [(7, fpRows (dIdx w) 0 (dCount w * dIdxSize w) 1), (8, fpRows (dDst w) 0 (dCount w * dRow w) 1)] else []) ++
    (if dCpl w then [(8, fpRows (dCplAddr w) 0 16 1)] else [])

/-- The 2 MiB pages a byte range touches, each with the first byte touched. -/
def pagesOf (a n : Nat) : List (Nat × Nat) :=
  if n = 0 then [] else (upFrom (a / 2 ^ 21) ((a + n - 1) / 2 ^ 21 + 1 - a / 2 ^ 21)).map fun p => (p, Nat.max a (p * 2 ^ 21))

/-- The pages of a list of rows translated, or the first address that has no translation (R316). -/
def translateRows (s : State) (c perm : Nat) : List (Int × Nat) → Sum Nat (List (Nat × Nat))
  | [] => .inr []
  | (a, n) :: r =>
    let v := (a % 2 ^ 48).toNat
    if a < 0 ∨ 2 ^ 48 < a + n then .inl v
    else
      let ps := pagesOf v n
      match ps.find? fun p => (translate s c (p.1 * 2 ^ 21) perm).isNone with
      | some p => .inl p.2
      | none =>
        match translateRows s c perm r with
        | .inl e => .inl e
        | .inr l => .inr (ps.map (fun p => (p.1, ((translate s c (p.1 * 2 ^ 21) perm).getD 0) / 2 ^ 21)) ++ l)

/-- Every footprint translated. -/
def translateAll (s : State) (c : Nat) : List (Nat × List (Int × Nat)) → Sum Nat (List (Nat × Nat))
  | [] => .inr []
  | (perm, rows) :: r =>
    match translateRows s c perm rows with
    | .inl e => .inl e
    | .inr l => match translateAll s c r with
      | .inl e => .inl e
      | .inr m => .inr (l ++ m)

/-- The physical address of a descriptor address, by the translations of its check; without translation it is itself
(R317, R319). -/
def physOf (pages : List (Nat × Nat)) (a : Nat) : Nat :=
  match pages.find? fun p => p.1 == a / 2 ^ 21 with
  | some p => p.2 * 2 ^ 21 + a % 2 ^ 21
  | none => a

/-- The physical ranges of a list of rows: descriptor address, physical address, length. -/
def physRows (enf : Bool) (pages : List (Nat × Nat)) (rows : List (Int × Nat)) : List (Nat × Nat × Nat) :=
  rows.flatMap fun r =>
    let v := (r.1 % 2 ^ 48).toNat
    if enf then (pagesOf v r.2).map fun p => (p.2, physOf pages p.2, Nat.min (v + r.2) ((p.1 + 1) * 2 ^ 21) - p.2)
    else if r.1 < 0 ∨ 2 ^ 48 ≤ r.1 then [(v, 2 ^ 48, 1)] else [(v, v, r.2)]

/-- Where the region of the device map that holds an address ends (R35). -/
def regionEnd (s : State) (a : Nat) : Nat :=
  match target s a with
  | .hole => a
  | .near _ => nearSize s
  | .far p => 0x100000000000 + p * 2 ^ 40 + fld s (Reg.cmpTierW2 (p + 1)) 15 0 * 2 ^ 30
  | .host => 0x300000000000
  | .peer k _ => 0x300000000000 + (k + 1) * 2 ^ 38
  | .localMem c _ => 0x400000000000 + c * 0x80000 + 0x60000

/-- The lowest byte of a near-tier range in a unit that is not ready: the range is taken in runs of one unit, and after one
round of the units it meets nothing new (R237, R239). -/
def nearBad (s : State) (a n : Nat) : Option Nat :=
  let g := if fld s Reg.cmpTier0W0 9 8 = 1 then unitSize s else 4096
  ((List.range (s.pkg.nUnits + 1)).map fun i => if i = 0 then a else (a / g + i) * g).find? fun x =>
    decide (x < a + n) && !unitReady s (unitOf s x).1

/-- The lowest byte of a range that lies in a hole, an absent unit or a unit that is not ready (check 4). -/
def rangeBad (s : State) : Nat → Nat → Nat → Option Nat
  | 0, _, _ => none
  | f + 1, a, n =>
    if n = 0 then none
    else
      let e := regionEnd s a
      let m := Nat.min n (e - a)
      match target s a with
      | .hole => some a
      | .near _ => match nearBad s a m with
        | some x => some x
        | none => rangeBad s f e (n - m)
      | _ => rangeBad s f e (n - m)

/-- Regions one after another that a range can cross. -/
def regionCount : Nat := 128

/-- The lowest byte of a range outside every tenant window of a rectangle (R211). -/
def firstOutside (s : State) (r : Nat) : Nat → Nat → Nat → Option Nat
  | 0, a, n => if n = 0 then none else some a
  | f + 1, a, n =>
    if n = 0 then none
    else
      let ends := (List.range 4).filterMap fun k =>
        if rangeCovers (reg s (Reg.cmpTenWinW0 r k)) (reg s (Reg.cmpTenWinW1 r k)) a then
          some ((fld s (Reg.cmpTenWinW1 r k) 26 0 + 1) * 2 ^ 21) else none
      match ends with
      | [] => some a
      | _ =>
        let e := ends.foldl Nat.max 0
        firstOutside s r f e (a + n - e)

/-- The lowest byte of a range in a guarded memory range (R144). -/
def firstGuarded (s : State) (a n : Nat) : Option Nat :=
  ((List.range 8).filterMap fun m =>
    let lo := Nat.max a (fld s (Reg.cmpGmrW0 m) 26 0 * 2 ^ 21)
    if decide (lo < a + n) && rangeCovers (reg s (Reg.cmpGmrW0 m)) (reg s (Reg.cmpGmrW1 m)) lo then some lo else none).min?

/-- The lowest byte of a range of local memory in the core's guarded local region (R280). -/
def firstGlmem (s : State) (c off n : Nat) : Option Nat :=
  let w := coreCsr s c 0x802
  let lo := Nat.max off (4096 * bits w 6 0)
  if decide (lo < off + n) && inGlmem s c lo then some (lo - off) else none

/-- A local memory that a channel may reach: its own core's, or one of the rectangle of its TAG (R211). -/
def mayReachLocal (s : State) (ch : Chan) (q : Option Nat) (c : Nat) : Bool :=
  match ch with
  | .sys .. => (chanRect s ch q).isSome && decide (rectOf s c = chanRect s ch q)
  | .tile d _ => decide (c = d)

/-- The lowest byte of a physical range that breaks check 5 (R144, R211, R280). -/
def tenancyBad (s : State) (ch : Chan) (q : Option Nat) (a n : Nat) : Option Nat :=
  match target s a with
  | .localMem c off =>
    if !mayReachLocal s ch q c then some a
    else if chanGuarded s ch q then none
    else (firstGlmem s c off n).map (a + ·)
  | _ =>
    match chanRect s ch q with
    | none => some a
    | some r =>
      match firstOutside s r 5 a n with
      | some x => some x
      | none => if chanGuarded s ch q && rectGuarded s r then none else firstGuarded s a n

/-- The first of a list of ranges with a faulting byte: its descriptor address. -/
def firstBad (f : Nat → Nat → Option Nat) (l : List (Nat × Nat × Nat)) : Option Nat :=
  l.findSome? fun r => (f r.2.1 r.2.2).map fun x => r.1 + (x - r.2.1)

/-- Two ranges share a byte. -/
def meets (a b : Int × Int) : Bool := decide (a.1 < b.2) && decide (b.1 < a.2)

/-- The hull of a footprint (R272). -/
def hull (a : Nat) (stride : Int) (rows n : Nat) : Int × Int :=
  let last : Int := a + (rows - 1 : Nat) * stride
  (min (a : Int) last, max (a : Int) last + n)

/-- Check 6: the footprints overlap, by the addresses the descriptor names (R272). -/
def overlaps (w : List DWord) : Bool :=
  let op := dOp w
  let h := hull (dDst w) 0 1 (dCount w * dRow w)
  if op = 1 ∧ dDim2 w then
    meets (hull (dSrc w) (dSst w) (dRows w) (dLen w)) (hull (dDst w) (dDstr w) (dRows w) (dLen w)) ||
      (decide (1 < dRows w) && decide ((dDstr w).natAbs < dLen w))
  else if op = 1 ∧ dCodec w ≠ 0 then meets (hull (dSrc w) 0 1 (dLen w)) (hull (dDst w) 0 1 (dLen w))
  else if op = 4 then
    meets h (hull (dIdx w) 0 1 (dCount w * dIdxSize w)) ||
      (decide (0 < dLimit w) && meets h (hull (dSrc w) 0 1 (dLimit w * dRow w)))
  else false

/-- What the checks of a descriptor find: a status, WHERE, and the translations it goes on with. -/
structure CheckResult where
  status : Nat
  wher   : Nat
  pages  : List (Nat × Nat)
  deriving DecidableEq, Repr

/-- Checks 4 to 6 of a descriptor whose footprints are translated; the table hull of a GATHER counts as a range of addresses,
its permissions being checked row by row (R269, R272, R320). -/
def checkRanges (s : State) (ch : Chan) (q : Option Nat) (w : List DWord) (pages : List (Nat × Nat)) : CheckResult :=
  let enf := (chanCtx s ch q).isSome
  let ranges := (footprints w).flatMap fun f => physRows enf pages f.2
  let ranges := if dOp w = 4 then ranges ++ deviceParts s (chanCtx s ch q) (dSrc w) (dLimit w * dRow w) else ranges
  match firstBad (rangeBad s regionCount) ranges with
  | some x => ⟨0x01, x, []⟩
  | none =>
    match firstBad (tenancyBad s ch q) ranges with
    | some x => ⟨0x07, x, []⟩
    | none =>
      let foreign := match ch, q with
        | .sys .., some q => dSignal w && !eventOk s (dEvent w) (queueCtx s q)
        | _, _ => false
      if foreign then ⟨0x07, 0, []⟩ else if overlaps w then ⟨0x03, 0, []⟩ else ⟨0, 0, pages⟩

/-- The checks of R269, in their order. -/
def checkDesc (s : State) (ch : Chan) (q : Option Nat) (w : List DWord) : CheckResult :=
  if !fieldsOk w || !limitsOk s ch q w then ⟨0x0B, 0, []⟩
  else
    match chanCtx s ch q with
    | none => checkRanges s ch q w []
    | some c =>
      match translateAll s c (footprints w) with
      | .inl x => ⟨0x06, x, []⟩
      | .inr pages => checkRanges s ch q w pages

/-- Where the completion record of a descriptor goes, if CPL_ADDR itself passes the checks that concern it (R284, R290). -/
def cplTarget (s : State) (ch : Chan) (q : Option Nat) (pages : List (Nat × Nat)) (w : List DWord) : Option Nat :=
  let a := dCplAddr w
  let p := match chanCtx s ch q with
    | none => some a
    | some c => if pages.isEmpty then translate s c a 8 else some (physOf pages a)
  if !dCpl w || decide (a % 16 ≠ 0) then none
  else p.bind fun p =>
    if (rangeBad s regionCount p 16).isSome || (tenancyBad s ch q p 16).isSome then none else some p

end Sys2Proof.Machine
end

