-- ==== Sys2Proof/Machine/DmaPiece.lean ====
section
/-! DEFINITION. The pieces of a descriptor: its reads and writes, codec beats, failures, and the answers other chips return
(R270 to R276, R285, R299 to R304). -/

namespace Sys2Proof.Machine

/-- A descriptor of a channel by its serial number. -/
def descOf (s : State) (ch : Chan) (serial : Nat) : Option Desc := (chan s ch).descs.find? fun d => d.serial == serial

/-- A descriptor changed. -/
def modDesc (s : State) (ch : Chan) (serial : Nat) (f : Desc → Desc) : State :=
  modChan s ch fun x => { x with descs := x.descs.map fun d => if d.serial = serial then f d else d }

/-! ### Accesses of an engine -/

/-- The courier node a timed-out access is attributed to (R279, R286). -/
def engineNode (s : State) (a : Nat) : Nat :=
  match target s a with
  | .near u => 0x310 + u
  | .far p => 0x300 + p / 2
  | .peer k _ => 0x300 + (routeOf s k).1
  | .localMem c _ => c
  | _ => 0x300

/-- How an access of an engine fares: it waits, whether at the CXL device or before it, it went to another chip, or it ended
with bytes and a status. -/
inductive EngineRes where
  | stall (reached : Bool)
  | sent (s : State)
  | done (s : State) (bytes : List Byte) (status : Nat)

/-- The status of the CXL device's answer to an engine; none while it has not answered (R279; log entry 23). -/
def cxlStatus (n : Nat) : Option Nat :=
  if n % 6 = 0 then some 0 else if n % 6 = 2 then some 2 else if n % 6 = 1 ∨ n % 6 = 5 then some 1 else none

/-- SRA_CXL_LATMAX after an answer that took so long (R279). -/
def noteLatency (s : State) (p ns : Nat) : State :=
  let off := Reg.sraCxlLatmax (p / 2) (p % 2)
  if (reg s off).toNat < ns then setReg s off (BitVec.ofNat 32 ns) else s

/-- The nanoseconds of the time base that a CXL port of a Serai waits for a response (R279, R293). -/
def cxlDl (s : State) (p : Nat) : Nat := (reg s (Reg.sraCxlDl (p / 2))).toNat

/-- The latency of an engine's CXL access noted. -/
def engineLatency (s : State) (p a : Nat) : State := noteLatency s p (Nat.min (Config.cxlLatency s.tb a) (cxlDl s p))

/-- The status of a read of some bytes: POISON where they are poisoned (R262). -/
def poisonStatus (s : State) (a n : Nat) : Nat := if isPoisoned s a n then 0x02 else 0

/-- The bytes under poison where no source byte gives them (R304; log entry 24). -/
def poisonBytes (a n : Nat) : List Byte := (List.range n).map fun i => Config.poisonByte (a + i)

/-- A served access's beats, there and back (R340). -/
def countTrip (s : State) (ag : Agent) (a : Nat) : State := countAgent (countAgent s ag a) ag a

/-- A read of an engine within one 128-byte line (R194, R218, R239, R256, R262, R279, R354, R438). -/
def engineRead (s : State) (ag : Agent) (rq : Requester) (a n : Nat) (hinted : Bool) : EngineRes :=
  if target s a = .hole then .done s [] 0x01
  else if !agentServed s ag a then .stall false
  else
    match target s a with
    | .hole => .done s [] 0x01
    | .near u =>
      if draining s u then .stall false
      else if !unitReady s u then .done (countTrip s ag a) [] 0x01
      else
        let s := pocRead (if hinted then hint (countTrip s ag a) a 0 else countTrip s ag a) a n
        .done s (readMem s a n) (poisonStatus s a n)
    | .far p =>
      match cxlStatus (Config.cxlAnswer s.tb a) with
      | none => .stall true
      | some st => .done (engineLatency (countTrip s ag a) p a) (readMem s a n) (if st = 0 then poisonStatus s a n else st)
    | .host => .done (countTrip s ag a) (readMem s (hostCell s a) n) (poisonStatus s (hostCell s a) n)
    | .localMem c _ =>
      if coreDown s c then .done s [] 0x01
      else
        let s := demandRead s a n
        .done s (readMem s a n) (poisonStatus s a n)
    | .peer k off =>
      match linkIssue s k (off / 128) rq (readUnit off n) with
      | .sent s => .sent (countTrip s ag a)
      | .lost => .done s [] 0x08
      | .waits => .stall false

/-- A write of an engine within one 128-byte line. A WRITE unit has no place for poison (R354): what it carries for poisoned
data is free bytes (R194, R218, R239, R256, R262, R279, R354, R438; log entry 25). -/
def engineWrite (s : State) (ag : Agent) (rq : Requester) (a : Nat) (bs : List Byte) (pz : Bool) : EngineRes :=
  if target s a = .hole then .done s [] 0x01
  else if !agentServed s ag a then .stall false
  else
    match target s a with
    | .hole => .done s [] 0x01
    | .near u =>
      if draining s u then .stall false
      else if !unitReady s u then .done (countTrip s ag a) [] 0x01
      else .done (pocWrite (countTrip s ag a) a bs pz) [] 0
    | .far p =>
      match cxlStatus (Config.cxlAnswer s.tb a) with
      | none => .stall true
      | some st =>
        let s := engineLatency (countTrip s ag a) p a
        .done (if Config.cxlAnswer s.tb a % 6 = 1 then s else writeData s a bs pz) [] st
    | .host => .done (writeData (countTrip s ag a) (hostCell s a) bs pz) [] 0
    | .localMem c _ => if coreDown s c then .done s [] 0x01 else .done (writeData s a bs pz) [] 0
    | .peer k off =>
      match linkIssue s k (off / 128) rq (writeUnit off (if pz then poisonBytes a bs.length else bs)) with
      | .sent s => .sent (countTrip s ag a)
      | .lost => .done s [] 0x08
      | .waits => .stall false

/-- The order of R450 among faults that one operation finds together. -/
def faultOrder : List Nat := [0x02, 0x09, 0x07, 0x01, 0x06, 0x13, 0x08, 0x0A, 0x0B, 0x05]

/-- The status an operation reports of those its accesses ended with (R450). -/
def firstFault (l : List Nat) : Nat := (faultOrder.find? fun f => l.contains f).getD 0

/-! ### The end of a piece or row -/

/-- A piece or row that failed: it is counted, and the first of the descriptor is kept, in issue order or by row; a failed
write is kept for a barrier (R283, R285, R290). -/
def pieceFailed (s : State) (ch : Chan) (serial key status wher who : Nat) (wrote : Bool) : State :=
  modDesc s ch serial fun d =>
    let first := match d.fail with
      | none => true
      | some f => decide (key < f.key)
    let firstW := match d.wfail with
      | none => true
      | some f => decide (key < f.1)
    { d with
      failed := d.failed + 1
      fail := if first then some ⟨key, BitVec.ofNat 8 status, wher, if status = 0x05 then who else 0xFFF⟩ else d.fail
      wfail := if wrote && firstW then some (key, BitVec.ofNat 8 status) else d.wfail }

/-- WHO of a failure that a timed-out read gives a piece (R286, R290). -/
def blameNode (s : State) (ch : Chan) (serial key who : Nat) : State :=
  modDesc s ch serial fun d => { d with
    fail := d.fail.map fun f => if f.key = key ∧ f.status = 0x05 then { f with who := who } else f }

/-- Bytes a system channel wrote, counted for its context (R340). -/
def countDma (s : State) (ch : Chan) (d : Desc) (n : Nat) : State :=
  match ch, d.queue with
  | .sys .., some q => ledgerAdd s (queueCtx s q) 12 n
  | _, _ => s

/-- A wait added to a descriptor. -/
def addWait (s : State) (ch : Chan) (serial : Nat) (w : EngineWait) : State :=
  modDesc s ch serial fun d => { d with waits := d.waits ++ [w] }

/-- The waits of a descriptor for which `p` holds dropped. -/
def dropWaits (s : State) (ch : Chan) (serial : Nat) (p : EngineWait → Bool) : State :=
  modDesc s ch serial fun d => { d with waits := d.waits.filter fun w => !p w }

/-- The first slot of a piece's writes; those below it are reads. -/
def writeSlot : Nat := 256

/-! ### What issues next (R270 to R272, R300) -/

/-- Bytes a descriptor counts in issue order, or the rows of a GATHER. -/
def dTotal (w : List DWord) : Nat :=
  if dOp w = 0 then 0 else if dOp w = 4 then dCount w else dLen w * dRows w

/-- A 1-D COPY without codec that runs descending (R271). -/
def descends (w : List DWord) : Bool :=
  decide (dOp w = 1) && !dDim2 w && decide (dCodec w = 0) && decide (dSrc w < dDst w) && decide (dDst w < dSrc w + dLen w)

/-- A piece: its place in issue order, its position, its source and destination addresses and its length. -/
structure Piece where
  key : Nat
  pos : Nat
  src : Nat
  dst : Nat
  len : Nat
  deriving DecidableEq, Repr

/-- A descriptor address of a row, kept to 48 bits; the checks have ruled the others out. -/
def strideAddr (a : Nat) (stride : Int) (r : Nat) : Nat := (((a : Int) + r * stride) % 2 ^ 48).toNat

/-- The piece at a place in issue order (R270, R271; a COMPARE is cut at the blocks of both footprints). -/
def pieceAt (w : List DWord) (p : Nat) : Piece :=
  let len := dLen w
  if descends w then
    let e := len - p
    let n := Nat.min e ((dDst w + e - 1) % 64 + 1)
    ⟨p, e - n, dSrc w + (e - n), dDst w + (e - n), n⟩
  else
    let r := p / len
    let o := p % len
    let sa := strideAddr (dSrc w) (dSst w) r + o
    let da := strideAddr (dDst w) (dDstr w) r + o
    let n := Nat.min (64 - da % 64) (len - o)
    ⟨p, p, sa, da, if dOp w = 3 then Nat.min n (64 - sa % 64) else n⟩

/-- A byte range cut at 128-byte lines (and so at pages). -/
def lineCuts (a n : Nat) : List (Nat × Nat) := linePieces a n

/-- The pattern bytes of a FILL (R273). -/
def fillBytes (p : DWord) (a n : Nat) : List Byte := (List.range n).map fun i => BitVec.ofNat 8 (p.toNat >>> (8 * ((a + i) % 8)))

/-! ### Codec accesses (R297 to R304) -/

/-- The bytes of a compressed block's slot with its 16 side bits at the end, read at the unit that holds it: the share, or
the whole slot of a raw block (R297, R298, R304). -/
def readCoded (s : State) (ag : Agent) (a rate : Nat) (hinted : Bool) : EngineRes :=
  match target s a with
  | .near u =>
    if draining s u || !agentServed s ag a then .stall false
    else if !unitReady s u then .done (countTrip s ag a) [] 0x01
    else
      let h := sget s.side (a / 128) 0
      let n := codedLen rate h
      let s := pocRead (if hinted then hint (countTrip s ag a) a 0 else countTrip s ag a) a n
      .done s (readMem s a 128 ++ leBytes 2 h.toNat) (poisonStatus s a n)
  | _ => .done s [] 0x01

/-- A coded block stored in its slot with its header, in one step (R297, R298). -/
def storeCoded (s : State) (a : Nat) (b : CodedBlock) (pz : Bool) : State :=
  { pocWrite s a b.bytes pz with side := sput (pocWrite s a b.bytes pz).side (a / 128) b.header }

/-- A coded block, or a group of them, written at its unit or sent to another chip: the group as one SHARE, a lone block as
a RAWBLK with its own header (R299, R300, R355; log entries 25 and 26). -/
def writeCoded (s : State) (ag : Agent) (rq : Requester) (a rate : Nat) (l : List CodedBlock) (pz : Bool) : EngineRes :=
  match target s a with
  | .near u =>
    if draining s u || !agentServed s ag a then .stall false
    else if !unitReady s u then .done (countTrip s ag a) [] 0x01
    else .done ((l.zipIdx).foldl (fun s b => storeCoded s (a + 128 * b.2) b.1 pz) (countTrip s ag a)) [] 0
  | .peer k off =>
    let mk := fun t : BitVec 12 => match l with
      | [b] =>
        let bs := if pz then poisonBytes a b.bytes.length else b.bytes
        LinkUnit.rawblk t (lineField off) b.header (bs ++ leBytes (128 - bs.length) 0)
      | _ => LinkUnit.share t (lineField off) (BitVec.ofNat 2 rate) (shareBytes rate l)
    if !agentServed s ag a then .stall false
    else
      match linkIssue s k (off / 128) rq mk with
      | .sent s => .sent (countTrip s ag a)
      | .lost => .done s [] 0x08
      | .waits => .stall false
  | _ => .done s [] 0x01

/-- The slot of a CREAD among the accesses of its piece; the blocks its answers have brought are added to it as a mask. -/
def creadSlot : Nat := 512

/-- One CREAD for the group that holds a block of another chip (R355). -/
def startCread (s : State) (ag : Agent) (rq : Requester) (a rate : Nat) : EngineRes :=
  let a := a / (128 * groupBlocks rate) * (128 * groupBlocks rate)
  match target s a with
  | .peer k off =>
    if !agentServed s ag a then .stall false
    else
      match linkIssue s k (off / 128) rq (fun t => .cread t (lineField off) (BitVec.ofNat 2 rate)) with
      | .sent s => .sent (countTrip s ag a)
      | .lost => .done s [] 0x08
      | .waits => .stall false
  | _ => .done s [] 0x01

/-! ### The accesses of a descriptor -/

/-- A channel as the lanes see it (R194, R267). -/
def chanAgent (s : State) (ch : Chan) (q : Option Nat) : Agent :=
  ⟨match ch with
    | .sys i _ => .serai i
    | .tile c _ => .core c, (chanRect s ch q).getD 16⟩

/-- A gather engine as the lanes see it, with the tag of the channel that dispatched a row (R194, R267). -/
def gatherAgent (r : GatherRow) : Agent :=
  ⟨match r.engine with
    | .near u => .unit u
    | .far i => .serai i, r.tag⟩

/-- The engine that makes an access of a descriptor: a row that was dispatched is written by its gather engine, everything
else is the channel's (R276, R278). -/
def waitAgent (s : State) (ch : Chan) (d : Desc) (w : EngineWait) : Agent :=
  match d.rows.find? fun r => w.write && r.sent && r.row == w.piece && decide (dOp d.words = 4) with
  | some r => gatherAgent r
  | none => chanAgent s ch d.queue

/-- The access as its target meets it. -/
def accessNow (s : State) (ch : Chan) (d : Desc) (w : EngineWait) (op : EngineOp) : EngineRes :=
  let ag := waitAgent s ch d w
  let a := physOf d.pages w.addr
  let rq := Requester.dma ch d.serial w.piece w.slot
  match op with
  | .read h => engineRead s ag rq a w.len h
  | .readCoded rate h => readCoded s ag a rate h
  | .cread rate => startCread s ag (.dma ch d.serial w.piece creadSlot) a rate
  | .write bs pz => engineWrite s ag rq a bs pz
  | .writeCoded rate l pz => writeCoded s ag rq a rate (l.map fun b => ⟨b.1, b.2⟩) pz

/-- An access of the channel that began before and still waits for service touches the same bytes, and one of the two
writes: they perform in the order they began (R220). -/
def olderOpen (s : State) (ch : Chan) (serial : Nat) (w : EngineWait) : Bool :=
  let l := (chan s ch).descs.flatMap fun d => d.waits.map fun x => (d.serial, x.piece, x.slot, x)
  (l.takeWhile fun x => decide ((x.1, x.2.1, x.2.2.1) ≠ (serial, w.piece, w.slot))).any fun x =>
    let y := x.2.2.2
    y.op.isSome && (y.write || w.write) && decide (y.addr < w.addr + w.len) && decide (w.addr < y.addr + y.len)

/-- A tile channel's access needs a place in its core's lane port, and the port is full (R202, R287). -/
def portFull (s : State) (ch : Chan) (a : Nat) : Bool :=
  match ch with
  | .sys .. => false
  | .tile c _ => laneFull s c && !(agentHops s ⟨.core c, 16⟩ a).isEmpty

/-- An access that reached the CXL device has had no response within SRA_CXL_DL (R279). -/
def cxlLate (s : State) (a : Nat) (reached : Option Nat) : Bool :=
  match reached, target s a with
  | some t, .far p => decide (t + cxlDl s p ≤ now s)
  | _, _ => false

/-- An access of a descriptor tried: the state after it, how it stands, and its bytes and status if it has ended. It goes on
waiting behind an older access to its bytes, for a place in its lane port, and for a device whose response is late. -/
def tryAccess (s : State) (ch : Chan) (d : Desc) (w : EngineWait) : State × EngineWait × Option (List Byte × Nat) :=
  match w.op with
  | none => (s, w, none)
  | some op =>
    let a := physOf d.pages w.addr
    if olderOpen s ch d.serial w || (portFull s ch a && w.reached.isNone) || cxlLate s a w.reached then (s, w, none)
    else
      match accessNow s ch d w op with
      | .stall r => (s, if r && w.reached.isNone then { w with reached := some (now s) } else w, none)
      | .sent s => (s, { w with op := none }, none)
      | .done s bs st => (s, { w with op := none, reached := none }, some (bs, st))

/-- An access that has not been tried. -/
def newWait (piece slot addr len issued : Nat) (write : Bool) (op : EngineOp) : EngineWait :=
  ⟨piece, slot, addr, len, issued, write, none, some op, none⟩

/-- The reads of a piece start, one wait each, with the answers of those that ended at once. -/
def startReads (ch : Chan) (d : Desc) : State → List EngineWait → State × List EngineWait
  | s, [] => (s, [])
  | s, w :: r =>
    let x := tryAccess s ch d w
    let y := startReads ch d x.1 r
    (y.1, { x.2.1 with got := x.2.2.map fun g => (g.1, BitVec.ofNat 8 g.2) } :: y.2)

/-- The writes of a piece or row that wait are marked as of one that has failed, so that it counts once. -/
def failWaits (s : State) (ch : Chan) (serial key st : Nat) : State :=
  modDesc s ch serial fun d => { d with
    waits := d.waits.map fun x => if x.write && x.piece == key then { x with got := some ([], BitVec.ofNat 8 st) } else x }

/-- The writes of one piece or row start; it fails once, with the first fault among what its reads found and the writes that
ended at once (R285, R300, R450). `rd` and `wr` are the WHERE of a failed read and of a failed write. -/
def startWrites (ch : Chan) (d : Desc) (key found rd wr : Nat) (ws : List EngineWait) (s : State) : State :=
  let step := fun (x : State × List Nat) (w : EngineWait) =>
    match tryAccess x.1 ch d w with
    | (s, w, none) => (addWait s ch d.serial w, x.2)
    | (s, w, some (_, st)) => (if st = 0 then countDma s ch d w.len else s, x.2 ++ [st])
  let r := ws.foldl step (s, [])
  let st := firstFault (found :: r.2)
  if st = 0 then r.1
  else
    pieceFailed (failWaits r.1 ch d.serial key st) ch d.serial key st (if st = found then rd else wr) 0xFFF
      (decide (firstFault r.2 ≠ 0))

/-! ### Codec beats (R299 to R304) -/

/-- The number of blocks of the group that starts at an address, if the descriptor holds the whole group (R300). -/
def wholeGroup (a rate left : Nat) : Option Nat :=
  let g := groupBlocks rate
  if decide (a % (128 * g) = 0) && decide (128 * g ≤ left) then some g else none

/-- The blocks of an encode as they stand in memory: whether a group would compress whole, for the count of its beats. -/
def groupCompresses (s : State) (d : Desc) (src rate g : Nat) : Bool :=
  (List.range g).all fun i =>
    let a := physOf d.pages (src + 128 * i)
    !isPoisoned s a 128 && !headerRaw (encodeBlock rate d.eb (readMem s a 128)).header

/-- The blocks of the codec piece that issues next: a whole group where it travels as one beat, or goes to or comes from
another chip, where the group is found only as it arrives; otherwise one block (R300; log entry 26). -/
def codecPlan (s : State) (d : Desc) : Nat :=
  let rate := dCodec d.words
  let src := dSrc d.words + d.next
  match wholeGroup (codedBase d.words + d.next) rate (dLen d.words - d.next) with
  | none => 1
  | some g =>
    match target s (physOf d.pages src), dDecode d.words with
    | .peer .., _ => g
    | _, false => if groupCompresses s d src rate g then g else 1
    | _, true =>
      if (List.range g).all fun i => !headerRaw (sget s.side ((physOf d.pages (src + 128 * i)) / 128) 0) then g else 1

/-- The reads of the codec piece of `g` blocks that issues next: raw blocks, coded slots, or one CREAD whose answers go to the
blocks' waits (R299, R300, R355). -/
def codecReads (s : State) (d : Desc) (g : Nat) : List EngineWait :=
  let rate := dCodec d.words
  let src := dSrc d.words + d.next
  (List.range g).map fun j =>
    let w := newWait d.next j (src + 128 * j) 128 (now s) false
    if !dDecode d.words then w (.read (dHint d.words))
    else
      match target s (physOf d.pages src) with
      | .peer .. => if j = 0 then w (.cread rate) else { w (.cread rate) with op := none }
      | _ => w (.readCoded rate (dHint d.words))

/-- The reads of a codec piece start; a CREAD that ends at once gives its status to every block of its piece. -/
def startCodec (s : State) (ch : Chan) (d : Desc) (g : Nat) : State × List EngineWait :=
  let ws := codecReads s d g
  let r := startReads ch d s ws
  match ws.head?.bind EngineWait.op, r.2 with
  | some (.cread _), w :: l => (r.1, w :: l.map fun x => { x with got := w.got })
  | _, _ => r

/-- What a read wait has brought: bytes and status. -/
def gotOf (w : EngineWait) : List Byte × Nat :=
  match w.got with
  | some (bs, st) => (bs, st.toNat)
  | none => ([], 0)

/-- A piece found not to travel as one beat counts the beats of its other blocks too (R282, R300). -/
def countBlocks (s : State) (ch : Chan) (serial n : Nat) : State :=
  modDesc s ch serial fun d => { d with paceUsed := d.paceUsed + (n - 1) }

/-- The place in issue order of the beat of a lone block. -/
def blockKey (r : EngineWait) : Nat := r.piece + 128 * r.slot

/-- The destination address of a block of a codec COPY. -/
def blockDst (d : Desc) (r : EngineWait) : Nat := dDst d.words + (r.addr - dSrc d.words)

/-- Encoded blocks written: one beat for a whole group that compresses, otherwise one for each block; each beat is a piece
(R300, R302, R303). -/
def encodeBeats (ch : Chan) (d : Desc) (rs : List EngineWait) (s : State) : State :=
  let rate := dCodec d.words
  let coded := fun r : EngineWait =>
    let b := if (gotOf r).2 = 0x02 then rawBlock rate (gotOf r).1 else encodeBlock rate d.eb (gotOf r).1
    (b.header, b.bytes)
  let put := fun (key : Nat) (r : EngineWait) (l : List (BitVec 16 × List Byte)) (pst : Nat) (s : State) =>
    startWrites ch d key pst r.addr (blockDst d r)
      [newWait key writeSlot (blockDst d r) (l.map fun b => b.2.length).sum r.issued true (.writeCoded rate l (pst = 0x02))] s
  let one := fun (s : State) (r : EngineWait) =>
    let st := (gotOf r).2
    if st ≠ 0 ∧ st ≠ 0x02 then pieceFailed s ch d.serial (blockKey r) st r.addr (engineNode s (physOf d.pages r.addr)) false
    else put (blockKey r) r [coded r] st s
  match rs with
  | [] => s
  | r0 :: _ =>
    if decide (rs.length = groupBlocks rate) && rs.all fun r => decide ((gotOf r).2 = 0) && !headerRaw (coded r).1 then
      put r0.piece r0 (rs.map coded) 0 s
    else rs.foldl one (countBlocks s ch d.serial rs.length)

/-- What the read of a coded block decodes to: the raw bytes, free bytes where they are poisoned, and a status (R262, R289,
R304). -/
def decodedOf (d : Desc) (r : EngineWait) : List Byte × Nat :=
  let rate := dCodec d.words
  let dark := poisonBytes (physOf d.pages (blockDst d r)) 128
  let st := (gotOf r).2
  if st ≠ 0 then (dark, st)
  else
    match decodeBlock rate (BitVec.ofNat 16 (leNat ((gotOf r).1.drop 128))) (gotOf r).1 with
    | some bs => (bs, 0)
    | none => (dark, 0x09)

/-- The writes of decoded blocks under the key of their piece; a block whose read failed otherwise than by poison is not
written. -/
def decodedWrites (d : Desc) (key : Nat) (rs : List EngineWait) : List EngineWait :=
  rs.filterMap fun r =>
    let x := decodedOf d r
    if x.2 ≠ 0 ∧ x.2 ≠ 0x02 ∧ x.2 ≠ 0x09 then none
    else some (newWait key (writeSlot + r.slot) (blockDst d r) 128 r.issued true (.write x.1 (x.2 ≠ 0)))

/-- Decoded blocks written to the raw side; a beat that carried a whole group is one piece (R300, R304). -/
def decodeBeats (ch : Chan) (d : Desc) (rs : List EngineWait) (s : State) : State :=
  let put := fun (key : Nat) (l : List EngineWait) (s : State) =>
    let st := firstFault (l.map fun r => (decodedOf d r).2)
    let bad := ((l.find? fun r => (decodedOf d r).2 == st).map EngineWait.addr).getD 0
    let s := startWrites ch d key st bad ((l.map (blockDst d)).headD 0) (decodedWrites d key l) s
    if st = 0x05 then blameNode s ch d.serial key (engineNode s (physOf d.pages bad)) else s
  match rs with
  | [] => s
  | r0 :: _ =>
    if decide (rs.length = groupBlocks (dCodec d.words)) && rs.all fun r => !headerRaw (BitVec.ofNat 16 (leNat ((gotOf r).1.drop 128))) then
      put r0.piece rs s
    else rs.foldl (fun s r => put (blockKey r) [r] s) (countBlocks s ch d.serial rs.length)

/-! ### A piece whose reads have ended -/

/-- A COPY piece without codec writes what its reads brought (R262, R271, R285). -/
def copyPiece (ch : Chan) (d : Desc) (p : Piece) (rs : List EngineWait) (s : State) : State :=
  let st := firstFault (rs.map fun r => (gotOf r).2)
  let bad := (rs.find? fun r => (gotOf r).2 == st).map EngineWait.addr |>.getD p.src
  if st ≠ 0 ∧ st ≠ 0x02 then pieceFailed s ch d.serial p.key st bad (engineNode s (physOf d.pages bad)) false
  else
    startWrites ch d p.key st bad p.dst
      [newWait p.key writeSlot p.dst p.len ((rs.map EngineWait.issued).headD (now s)) true
        (.write (rs.flatMap fun r => (gotOf r).1) (st = 0x02))] s

/-- The lowest index at which two byte strings differ. -/
def firstDiff (a b : List Byte) : Option Nat := (List.range a.length).find? fun i => nth a i 0 != nth b i 0

/-- A COMPARE piece: its source reads stand in the slots below 128, its destination reads above (R274). -/
def comparePiece (ch : Chan) (d : Desc) (p : Piece) (rs : List EngineWait) (s : State) : State :=
  let st := firstFault (rs.map fun r => (gotOf r).2)
  if st ≠ 0 then
    let bad := (rs.find? fun r => (gotOf r).2 == st).map EngineWait.addr |>.getD p.src
    pieceFailed s ch d.serial p.key st bad (engineNode s (physOf d.pages bad)) false
  else
    let side := fun b : Bool => (rs.filter fun r => decide (r.slot < 128) == b).flatMap fun r => (gotOf r).1
    match firstDiff (side true) (side false) with
    | none => s
    | some o => modDesc s ch d.serial fun d => { d with mism := some (Nat.min (d.mism.getD (p.pos + o)) (p.pos + o)) }

/-- A piece whose reads have all ended goes on; its read waits are dropped. -/
def finishPiece (s : State) (ch : Chan) (d : Desc) (key : Nat) : State :=
  let rs := d.waits.filter fun w => decide (w.piece = key) && !w.write
  let s := dropWaits s ch d.serial fun w => decide (w.piece = key) && !w.write
  let p := pieceAt d.words key
  if dOp d.words = 3 then comparePiece ch d p rs s
  else if dCodec d.words = 0 then copyPiece ch d p rs s
  else if dDecode d.words then decodeBeats ch d rs s
  else encodeBeats ch d rs s

/-- The places of the pieces that have reads, in issue order. -/
def readingPieces (d : Desc) : List Nat := ((d.waits.filter fun w => !w.write).map EngineWait.piece).dedup

/-- A COPY whose source and destination share bytes: a piece is written only after every earlier piece has been read (R271). -/
def selfOverlaps (w : List DWord) : Bool :=
  decide (dOp w = 1) && !dDim2 w && meets (hull (dSrc w) 0 1 (dLen w)) (hull (dDst w) 0 1 (dLen w))

/-- Every piece whose reads have ended goes on as far as it can. -/
def pumpPieces (s : State) (ch : Chan) (serial : Nat) : State :=
  match descOf s ch serial with
  | none => s
  | some d0 =>
    (readingPieces d0).foldl (fun s key =>
      match descOf s ch serial with
      | none => s
      | some d =>
        let open' := d.waits.any fun w => !w.write && w.got.isNone && (decide (w.piece = key) || (selfOverlaps d.words && decide (w.piece < key)))
        if open' then s else finishPiece s ch d key) s

end Sys2Proof.Machine
end

