-- ==== Sys2Proof/Machine/Dma.lean ====
section
/-! DEFINITION. The life of a descriptor in its channel, and the set-up of system and tile channels (R268, R269, R271 to R275,
R280 to R286, R291 to R295). -/

namespace Sys2Proof.Machine

/-! ### The state of a channel -/

/-- The descriptor of a channel that is in its trigger wait or in issue, or next to be (R268). -/
def curDesc (x : DmaChan) : Option Desc :=
  x.descs.find? fun d => decide (d.stage = .fetched) || decide (d.stage = .trigger) || decide (d.stage = .issuing)

/-- STATE: 0 idle, 1 trigger wait, 2 issuing or draining, 3 aborting or faulted (R291, R295). -/
def chanState (x : DmaChan) : Nat :=
  if x.aborting || x.faulted then 3
  else if x.descs.any fun d => decide (d.stage = .trigger) then 1
  else if x.descs.isEmpty then 0 else 2

/-- Pieces of a channel without an answer (R291). -/
def inFlight (x : DmaChan) : Nat := (x.descs.map fun d => (d.waits.map EngineWait.piece).dedup.length).sum

/-- Local offset of a tile channel's control line (R295). -/
def ctlOff (s : State) (c k : Nat) : Nat := 64 * (fld s (Reg.cmpTdmaCfg c) 12 0 + k)

/-- The STAT word of a control line (R295). -/
def statWord (s : State) (c k : Nat) : Nat := let x := chan s (.tile c k); x.last.toNat + 256 * chanState x

/-- STAT of a control line written where a command has changed it (R295). -/
def syncStat (s0 s : State) (ch : Chan) : State :=
  match ch with
  | .sys .. => s
  | .tile c k => if statWord s0 c k = statWord s c k then s else writeLocal s c (ctlOff s c k + 24) (leBytes 4 (statWord s c k))

/-! ### Completion (R284, R285, R290) -/

/-- STATUS, WHERE and WHO of a descriptor that has ended (R285, R290). -/
def descResult (d : Desc) : Nat × Nat × Nat :=
  match d.fail, d.mism with
  | some f, _ => (f.status.toNat, f.wher, f.who)
  | none, some p => (0x04, p, 0xFFF)
  | none, none => (0, 0, 0xFFF)

/-- The completion record of a descriptor (R290). -/
def recordBytes (d : Desc) : List Byte :=
  let (st, wh, who) := descResult d
  leBytes 8 (st + 256 * d.skipped.toNat + 512 * d.aborted.toNat + 2 ^ 16 * dUser d.words + 2 ^ 32 * Nat.min d.failed (2 ^ 32 - 1)) ++
    leBytes 8 (wh % 2 ^ 48 + 2 ^ 48 * (who % 4096))

/-- The place of the completion record among a descriptor's writes: after every piece. -/
def recordKey : Nat := 2 ^ 64

/-- A channel that aborts and has nothing left is idle and disabled (R292). -/
def settleAbort (s : State) (ch : Chan) : State :=
  if (chan s ch).aborting && (chan s ch).descs.isEmpty then
    let s := modChan s ch fun x => { x with aborting := false }
    match ch with
    | .sys i n => setFlag s (Reg.sraDmaCtl i n) 0 false
    | .tile .. => s
  else s

/-- Steps 2 to 4 of a completion, the record having performed (R284, R326). -/
def finishDesc (s : State) (ch : Chan) (d : Desc) : State :=
  let st := (descResult d).1
  let s := modChan s ch fun x => { x with
    descs := x.descs.filter fun y => decide (y.serial ≠ d.serial)
    last := BitVec.ofNat 8 st
    ccount := x.ccount + 1
    okcount := if st = 0 then x.okcount + 1 else x.okcount
    barFail := match x.barFail with
      | some f => some f
      | none => d.wfail.map Prod.snd }
  match ch with
  | .tile c k =>
    let x := chan s ch
    let s := writeLocal s c (ctlOff s c k + 16) (leBytes 4 x.ccount.toNat ++ leBytes 4 x.okcount.toNat ++ leBytes 4 (statWord s c k))
    let s := if dSignal d.words then setEvf s ⟨c, BitVec.ofNat 2 (dEvent d.words % 4)⟩ (dEvent d.words / 4 % 8) else s
    if dIrq d.words then raiseLine s c (27 + k) (BitVec.ofNat 32 st) else s
  | .sys .. =>
    match d.queue with
    | none => settleAbort s ch
    | some q =>
      let s := if dSignal d.words && eventOk s (dEvent d.words) (queueCtx s q) then
          changeEvent s (.signal (dEvent d.words) (errOf st)) else s
      settleAbort (completeEntry s q st (dIrq d.words)) ch

/-- The first descriptor of a channel completes, if every piece of it has ended: the record first (R284). -/
def completeHead (s : State) (ch : Chan) : State :=
  match (chan s ch).descs with
  | [] => s
  | d :: _ =>
    if !d.waits.isEmpty || !d.rows.isEmpty then s
    else if d.stage = .record then finishDesc s ch d
    else if d.stage ≠ .drain then s
    else
      match cplTarget s ch d.queue d.pages d.words with
      | none => finishDesc s ch d
      | some p =>
        let w := newWait recordKey writeSlot (dCplAddr d.words) 16 (now s) true (.write (recordBytes d) false)
        match tryAccess s ch { d with pages := [(dCplAddr d.words / 2 ^ 21, p / 2 ^ 21)] } w with
        | (s, w, none) => modDesc s ch d.serial fun d => { d with stage := .record, waits := [w] }
        | (s, _, some (_, st)) =>
          if st = 0 then finishDesc (countDma s ch d 16) ch d
          else finishDesc s ch { d with wfail := some (d.wfail.getD (recordKey, BitVec.ofNat 8 st)) }

/-! ### Fetch and check (R268, R269, R280, R295) -/

/-- A descriptor just fetched, checked: one that fails a check has nothing to issue (R269). `pz` says that its bytes were
poisoned. -/
def newDesc (s : State) (ch : Chan) (q : Option Nat) (w : List DWord) (pz : Bool) : Desc :=
  let r := if pz then ⟨0x02, 0, []⟩ else checkDesc s ch q w
  { serial := (chan s ch).serial
    words := w
    fetchedAt := now s
    queue := q
    stage := if r.status = 0 then .fetched else .drain
    fail := if r.status = 0 then none else some ⟨0, BitVec.ofNat 8 r.status, r.wher, 0xFFF⟩
    failed := 0
    wfail := none
    mism := none
    skipped := false
    aborted := false
    paceUsed := 0
    paceAt := 0
    eb := 0
    next := 0
    rows := []
    waits := []
    pages := r.pages
    table := match chanCtx s ch q with
      | some c => if dOp w = 4 then readMap s c else []
      | none => [] }

/-- A fetched descriptor joins its channel; one that fails a check completes as soon as it is the first (R268, R269). -/
def takeDesc (s : State) (ch : Chan) (q : Option Nat) (w : List DWord) (pz : Bool) : State :=
  let d := newDesc s ch q w pz
  let s := modChan s ch fun x => { x with descs := x.descs ++ [d], serial := x.serial + 1 }
  if d.stage = .drain then completeHead s ch else s

/-- A Plain tile channel whose ring or control line meets the guarded local region (R280). -/
def tileGuardFault (s : State) (c k : Nat) : Bool :=
  let x := chan s (.tile c k)
  !flag s (Reg.cmpTdmaCfg c) (18 + k) &&
    ((firstGlmem s c (64 * x.ringLine) (64 * 2 ^ x.logN)).isSome || (firstGlmem s c (ctlOff s c k) 64).isSome)

/-- A tile channel faulted with TENANCY: STATE, LAST and line 27 + c (R280). -/
def tileFault (s : State) (c k : Nat) : State :=
  raiseLine (modChan s (.tile c k) fun x => { x with faulted := true, last := 0x07 }) c (27 + k) 0x07

/-- The eight words of a 64-byte slot. -/
def slotWords (bs : List Byte) : List DWord := (List.range 8).map fun i => BitVec.ofNat 64 (leNat ((bs.drop (8 * i)).take 8))

/-- DESCRIPTOR_FETCH: the next entry of the queue that feeds a system channel, or the next pending slot of a tile channel's
ring (R268, R269, R295, R324). -/
def execDescriptorFetch (ch : Chan) (s : State) : Host.Outcome State Fault Refusal :=
  if !chanRuns s ch || !chanOn s ch || (chan s ch).aborting then .next s
  else
    match ch with
    | .sys i n =>
      match feedOfChan s i n with
      | none => .next s
      | some q =>
        let x := queueOf s q
        let e := nth x.entries x.inChan []
        if 5 ≤ entOp e then .next s
        else .next (takeDesc (modQueue s q fun y => { y with inChan := y.inChan + 1 }) ch (some q) e false)
    | .tile c k =>
      let x := chan s ch
      if x.faulted || decide (x.tail = x.head) then .next s
      else if tileGuardFault s c k then .next (syncStat s (tileFault s c k) ch)
      else
        let a := localBase c + 64 * (x.ringLine + x.tail)
        let s1 := demandRead s a 64
        let t := (x.tail + 1) % 2 ^ x.logN
        let s1 := writeLocal (modChan s1 ch fun y => { y with tail := t }) c (ctlOff s c k + 4) (leBytes 4 t)
        .next (syncStat s (takeDesc s1 ch none (slotWords (readMem s1 a 64)) (isPoisoned s1 a 64)) ch)

/-! ### Triggers and the start of issue (R281 to R283, R308) -/

/-- The error bound of a CKIND (R308). -/
def codecBound (s : State) (kind : Nat) : Nat :=
  if kind = 0 then fld s Reg.cmpCodecEb0 15 0 else if kind = 1 then fld s Reg.cmpCodecEb0 31 16 else fld s Reg.cmpCodecEb1 15 0

/-- The trigger of a descriptor holds (R281). -/
def triggerHolds (s : State) (ch : Chan) (w : List DWord) : Bool :=
  match dTrig w with
  | 0 => true
  | 1 => decide (0 ≤ (BitVec.ofNat 64 (now s) - dTime w).toInt)
  | _ =>
    let x := chan s (chainOf ch (dChain w))
    decide (0 ≤ ((if dChok w then x.okcount else x.ccount) - (dTime w).setWidth 32).toInt)

/-- The current descriptor may begin its trigger wait: with BARRIER, only as the first of its channel (R283). -/
def mayBegin (x : DmaChan) (d : Desc) : Bool :=
  !dBarrier d.words || decide ((x.descs.head?.map Desc.serial) = some d.serial)

/-- The current descriptor goes into its trigger wait or into issue; a barrier that follows a failed write of any earlier
descriptor is skipped with the status of the first (R281, R283; log entry 60). -/
def beginDesc (s : State) (ch : Chan) : State :=
  let x := chan s ch
  match curDesc x with
  | none => s
  | some d =>
    if decide (d.stage = .issuing) || !mayBegin x d then s
    else
      match dBarrier d.words, x.barFail with
      | true, some st =>
        modDesc s ch d.serial fun d => { d with
          skipped := true
          fail := some ⟨0, st, 0, 0xFFF⟩
          stage := .drain }
      | _, _ =>
        if triggerHolds s ch d.words then
          modDesc s ch d.serial fun d => { d with
            stage := .issuing
            paceAt := now s
            paceUsed := 0
            eb := codecBound s (dCkind d.words) }
        else modDesc s ch d.serial fun d => { d with stage := .trigger }

/-- TRIGGER_FIRE: the trigger of the current descriptor holds, and it goes into issue (R281). -/
def execTriggerFire (ch : Chan) (s : State) : Host.Outcome State Fault Refusal :=
  match curDesc (chan s ch) with
  | none => .next s
  | some d =>
    when s (chanRuns s ch && decide (d.stage ≠ .issuing) && decide (dTrig d.words ≠ 0) && triggerHolds s ch d.words)
      (syncStat s (beginDesc s ch) ch)

/-- The allowance of the pacing period is used up (R282). -/
def paceFull (d : Desc) : Bool := decide (dPaceLines d.words ≠ 0) && decide (dPaceLines d.words ≤ d.paceUsed)

/-- PACE_PERIOD: a period of PACE_NS has ended, and the allowance is new (R282). -/
def execPacePeriod (ch : Chan) (s : State) : Host.Outcome State Fault Refusal :=
  match curDesc (chan s ch) with
  | none => .next s
  | some d =>
    let p := dPaceNs d.words
    when s (chanRuns s ch && decide (d.stage = .issuing) && decide (dPaceLines d.words ≠ 0) && decide (d.paceAt + p ≤ now s))
      (modDesc s ch d.serial fun d => { d with paceAt := d.paceAt + (now s - d.paceAt) / p * p, paceUsed := 0 })

/-! ### Issue (R270 to R275) -/

/-- A piece issued: what it counts, and how far the descriptor has come. -/
def noteIssue (s : State) (ch : Chan) (serial n beats : Nat) (ws : List EngineWait) : State :=
  modDesc s ch serial fun d => { d with next := d.next + n, paceUsed := d.paceUsed + beats, waits := d.waits ++ ws }

/-- A piece whose reads have started: it goes on at once where they have all ended (R271). -/
def startPiece (s : State) (ch : Chan) (d : Desc) (n : Nat) (ws : List EngineWait) : State :=
  let held := selfOverlaps d.words && d.waits.any fun w => !w.write && w.got.isNone
  let s := noteIssue s ch d.serial n 1 ws
  if held || ws.any fun w => w.got.isNone then s
  else match descOf s ch d.serial with
    | some d => finishPiece s ch d (d.next - n)
    | none => s

/-- The reads of a piece without codec: its source, and for a COMPARE its destination in the slots from 128 (R270, R274). -/
def pieceReads (s : State) (d : Desc) (p : Piece) : List EngineWait :=
  let reads := fun (slot a n : Nat) => (lineCuts a n).zipIdx.map fun c =>
    newWait p.key (slot + c.2) c.1.1 c.1.2 (now s) false (.read (dHint d.words))
  reads 0 p.src p.len ++ if dOp d.words = 3 then reads 128 p.dst p.len else []

/-- The next piece of a COPY, FILL or COMPARE issues; none where it cannot (R270, R282, R285, R287). -/
def issuePiece (s : State) (ch : Chan) (d : Desc) : Option State :=
  if decide (d.stage ≠ .issuing) || decide (dTotal d.words ≤ d.next) || d.fail.isSome || paceFull d ||
      decide (chanDepth ch ≤ inFlight (chan s ch)) then none
  else if dCodec d.words ≠ 0 then
    let g := codecPlan s d
    let r := startCodec s ch d g
    some (startPiece r.1 ch d (128 * g) r.2)
  else
    let p := pieceAt d.words d.next
    if dOp d.words = 2 then
      let w := newWait p.key writeSlot p.dst p.len (now s) true (.write (fillBytes (ent d.words 1) p.dst p.len) false)
      some (startWrites ch d p.key 0 p.dst p.dst [w] (noteIssue s ch d.serial p.len 1 []))
    else
      let r := startReads ch d s (pieceReads s d p)
      some (startPiece r.1 ch d p.len r.2)

/-- Pieces issue as far as they can. -/
def issueLoop (ch : Chan) (serial : Nat) : Nat → State → State
  | 0, s => s
  | n + 1, s =>
    match (descOf s ch serial).bind (issuePiece s ch) with
    | some s' => issueLoop ch serial n s'
    | none => s

/-- A descriptor with nothing left to issue drains (R268, R285). -/
def endIssue (s : State) (ch : Chan) (serial : Nat) : State :=
  modDesc s ch serial fun d =>
    if decide (d.stage = .issuing) && (decide (dTotal d.words ≤ d.next) || (d.fail.isSome && decide (dOp d.words ≠ 4))) then
      { d with stage := .drain } else d

/-! ### Answers and service -/

/-- The answer to a read or write of a descriptor (R225, R284, R362). A piece whose writes fail counts once. -/
def engineAnswer (s : State) (ch : Chan) (serial piece slot : Nat) (bytes : List Byte) (status : Nat) : State :=
  match descOf s ch serial with
  | none => s
  | some d =>
    match d.waits.find? fun w => w.piece == piece && w.slot == slot with
    | none => s
    | some w =>
      if w.write then
        let s := dropWaits s ch serial fun x => x.piece == piece && x.slot == slot
        if status = 0 then countDma s ch d w.len
        else if w.got.isSome then s
        else if piece = recordKey then modDesc s ch serial fun d => { d with wfail := some (d.wfail.getD (recordKey, BitVec.ofNat 8 status)) }
        else
          pieceFailed (failWaits s ch serial piece status) ch serial piece status (if dOp d.words = 4 then piece else w.addr)
            (engineNode s (physOf d.pages w.addr)) true
      else
        let s := modDesc s ch serial fun d => { d with
          waits := d.waits.map fun x =>
            if x.piece == piece && x.slot == slot then { x with got := some (bytes, BitVec.ofNat 8 status), op := none, reached := none } else x }
        if dOp d.words = 4 then s else endIssue (pumpPieces s ch serial) ch serial

/-- An access of a descriptor that waits for service is tried again (R194, R248, R256, R279). -/
def serveWait (s : State) (ch : Chan) (serial piece slot : Nat) : State :=
  match descOf s ch serial with
  | none => s
  | some d =>
    match d.waits.find? fun x => x.piece == piece && x.slot == slot && x.op.isSome with
    | none => s
    | some w =>
      match tryAccess s ch d w with
      | (s, y, none) =>
        modDesc s ch serial fun d => { d with waits := d.waits.map fun x => if x.piece == piece && x.slot == slot then y else x }
      | (s, _, some (bs, st)) =>
        match w.op with
        | some (.cread _) =>
          (d.waits.filter fun x => x.piece == piece && !x.write).foldl (fun s x => engineAnswer s ch serial piece x.slot bs st) s
        | _ => engineAnswer s ch serial piece slot bs st

/-- Every access of a channel that waits for service is tried again, in the order they began (R220). -/
def serveWaits (s : State) (ch : Chan) : State :=
  ((chan s ch).descs.flatMap fun d => (d.waits.filter fun w => w.op.isSome).map fun w => (d.serial, w.piece, w.slot)).foldl
    (fun s x => serveWait s ch x.1 x.2.1 x.2.2) s

/-- DESCRIPTOR_COMPLETE (R284). -/
def execDescriptorComplete (ch : Chan) (s : State) : Host.Outcome State Fault Refusal :=
  when s (chanRuns s ch) (syncStat s (completeHead (serveWaits s ch) ch) ch)

/-! ### The operations (R271 to R275) -/

/-- The current descriptor of a channel, of OP `op`, issues (R268, R281, R283). -/
def runPieces (s : State) (ch : Chan) (op : Nat) : State :=
  let s := serveWaits s ch
  match curDesc (chan s ch) with
  | none => s
  | some d0 =>
    if dOp d0.words ≠ op then s
    else
      let s := beginDesc s ch
      endIssue (issueLoop ch d0.serial (dTotal d0.words - d0.next) s) ch d0.serial

/-- COPY (R271, R272, R299). -/
def execCopy (ch : Chan) (s : State) : Host.Outcome State Fault Refusal :=
  when s (chanRuns s ch) (syncStat s (runPieces s ch 1) ch)

/-- FILL (R273). -/
def execFill (ch : Chan) (s : State) : Host.Outcome State Fault Refusal :=
  when s (chanRuns s ch) (syncStat s (runPieces s ch 2) ch)

/-- COMPARE (R274). -/
def execCompare (ch : Chan) (s : State) : Host.Outcome State Fault Refusal :=
  when s (chanRuns s ch) (syncStat s (runPieces s ch 3) ch)

/-- NOP (R275). -/
def execNop (ch : Chan) (s : State) : Host.Outcome State Fault Refusal :=
  when s (chanRuns s ch) (syncStat s (runPieces s ch 0) ch)

/-! ### Enable, abort, tile set-up (R291, R292, R294, R295) -/

/-- A channel aborts (R292): what has not begun issue completes with ABORTED and no data, what has issued ends. -/
def abortChan (s : State) (ch : Chan) : State :=
  if (chan s ch).aborting then s
  else
    let stop := fun d : Desc =>
      match d.stage with
      | .fetched | .trigger => { d with aborted := true, stage := .drain }
      | .issuing => { d with
          aborted := true
          stage := .drain
          rows := d.rows.filter fun r => r.sent
          waits := d.waits.filter fun w => decide (dOp d.words ≠ 4) || w.write }
      | .drain => if d.waits.isEmpty && d.rows.isEmpty then d else { d with aborted := true }
      | .record => d
    settleAbort (modChan s ch fun x => { x with aborting := true, descs := x.descs.map stop }) ch

/-- A write of SRA_DMA_CTL (R291, R292). -/
def dmaCtlWrite (s : State) (i n : Nat) (v : Word) : State × Nat :=
  let ch := Chan.sys i n
  let s := setW1s s (Reg.sraDmaCtl i n) v
  let s := if bit v 0 && !chanOn s ch then modChan s ch fun x => { x with barFail := none } else s
  let s := if (chan s ch).aborting then s else setFlag s (Reg.sraDmaCtl i n) 0 (bit v 0)
  (if bit v 1 then abortChan s ch else s, 0)

/-- DMA_CHANNEL_ENABLE (R291). -/
def execDmaChannelEnable (o : Origin) (serai n : Nat) (s : State) : Host.Outcome State Fault Refusal :=
  when s (decide (serai < 2) && decide (n < 32)) (writeAt s o (Reg.sraDmaCtl serai n) 1 (dmaCtlWrite s serai n 1)).1

/-- DMA_ABORT: EN is written as it stands (R292). -/
def execDmaAbort (o : Origin) (serai n : Nat) (s : State) : Host.Outcome State Fault Refusal :=
  let v := (reg s (Reg.sraDmaCtl serai n) &&& 1) ||| 2
  when s (decide (serai < 2) && decide (n < 32)) (writeAt s o (Reg.sraDmaCtl serai n) v (dmaCtlWrite s serai n v)).1

/-- A tile channel's EN goes from 0 to 1: RING and DL are read, TAIL and the counts zeroed; a ring out of range, or one that
meets the guarded local region, faults (R280, R295). -/
def tdmaStart (s : State) (c k : Nat) : State :=
  let off := ctlOff s c k
  let s := demandRead s (localBase c + off) 16
  let ring := localWord s c (off + 8)
  let dl := (localWord s c (off + 12)).toNat
  let bad := decide (8 < bits ring 19 16) || decide (6144 < bits ring 12 0 + 2 ^ bits ring 19 16) || decide (dl = 0)
  let s := modChan s (.tile c k) fun x => { x with
    ringLine := bits ring 12 0
    logN := bits ring 19 16
    dl := dl
    tail := 0
    head := 0
    ccount := 0
    okcount := 0
    barFail := none
    faulted := bad
    last := if bad then 0x0B else x.last }
  let s := writeLocal (writeLocal s c (off + 4) (leBytes 4 0)) c (off + 16) (leBytes 8 0)
  let s := if !bad && tileGuardFault s c k then tileFault s c k else s
  writeLocal s c (off + 24) (leBytes 4 (statWord s c k))

/-- One channel's EN after a write of CMP_TDMA_CFG (R295). -/
def tdmaEn (old : Word) (s : State) (c k : Nat) : State :=
  if chanOn s (.tile c k) && !bit old (16 + k) then tdmaStart s c k
  else if !chanOn s (.tile c k) && bit old (16 + k) then
    let s' := modChan s (.tile c k) fun x => { x with faulted := false, tail := x.head }
    syncStat s s' (.tile c k)
  else s

/-- A write of CMP_TDMA_CFG (R294). -/
def tdmaCfgWrite (s : State) (o : Origin) (c : Nat) (v : Word) : State × Nat :=
  let off := Reg.cmpTdmaCfg c
  let old := reg s off
  let line := if decide (bits v 12 0 % 2 = 0) && decide (bits v 12 0 ≤ 6142) then bits v 12 0 else bits old 12 0
  let new := putBits (putBits old 12 0 line) 17 16 (bits v 17 16)
  let new := if guardedOrigin o then putBits new 19 18 (bits v 19 18) else new
  (tdmaEn old (tdmaEn old (setReg s off new) c 0) c 1, 0)

/-- TDMA_ENABLE (R294, R295). -/
def execTdmaEnable (o : Origin) (core c : Nat) (s : State) : Host.Outcome State Fault Refusal :=
  let v := putBit (reg s (Reg.cmpTdmaCfg core)) (16 + c) true
  when s (decide (core < 768) && decide (c < 2)) (writeAt s o (Reg.cmpTdmaCfg core) v (tdmaCfgWrite s o core v)).1

/-- TDMA_DOORBELL: the channel sees HEAD as software left it, mod N (R295). -/
def execTdmaDoorbell (core c : Nat) (s : State) : Host.Outcome State Fault Refusal :=
  let ch := Chan.tile core c
  when s (chanRuns s ch && chanOn s ch && !(chan s ch).faulted)
    (modChan s ch fun x => { x with head := (localWord s core (ctlOff s core c)).toNat % 2 ^ x.logN })

end Sys2Proof.Machine
end

