-- ==== Sys2Proof/Machine/Gather.lean ====
section
/-! DEFINITION. GATHER and the gather engines, the far tier's answers to lane ports, and the deadlines of channels (R276 to
R279, R286, R293). -/

namespace Sys2Proof.Machine

/-! ### Gather engines (R267, R278, R293) -/

/-- The courier node of a gather engine (R286). -/
def gatherNode (e : GatherEngine) : Nat :=
  match e with
  | .near u => 0x310 + u
  | .far i => 0x300 + i

/-- The entries of a gather engine (R267). -/
def gatherEntries (e : GatherEngine) : Nat :=
  match e with
  | .near _ => 1024
  | .far _ => 2048

/-- GTR_RSVk of an engine (R293). -/
def gatherRsv (s : State) (e : GatherEngine) (k : Nat) : Word :=
  match e with
  | .near u => reg s (Reg.hbmGtrRsv u k)
  | .far i => reg s (Reg.sraGtrRsv0 i + 4 * k)

/-- The entries reserved for a tag (R278). -/
def reservedFor (s : State) (e : GatherEngine) (k : Nat) : Nat := bits (gatherRsv s e k) 11 0

/-- The entries of the shared pool (R278). -/
def poolSize (s : State) (e : GatherEngine) : Nat := gatherEntries e - ((List.range 16).map (reservedFor s e)).sum

/-- The rows a descriptor has dispatched, with the channel and the descriptor's serial number. -/
def sentRows (ch : Chan) (x : DmaChan) : List (Chan × Nat × GatherRow) :=
  x.descs.flatMap fun d => (d.rows.filter fun r => r.sent).map fun r => (ch, d.serial, r)

/-- Every row fetch in a gather engine: those of system channels, then those of tile channels. -/
def rowFetches (s : State) (e : GatherEngine) : List (Chan × Nat × GatherRow) :=
  ((s.sdma.flatMap fun p => sentRows (.sys (p.1 / 32) (p.1 % 32)) p.2) ++
    s.cores.flatMap fun c => c.2.tdma.flatMap fun p => sentRows (.tile c.1 p.1) p.2).filter fun r => decide (r.2.2.engine = e)

/-- GTR_STAT.INUSE (R293). -/
def gatherInUse (s : State) (e : GatherEngine) : Nat := (rowFetches s e).length

/-- The kind of entry a dispatch takes: one reserved for its tag, or one of the pool; none where neither is free (R278). -/
def freeEntry (s : State) (e : GatherEngine) (tag : Nat) : Option Bool :=
  let rs := rowFetches s e
  if (rs.countP fun r => !r.2.2.pooled && decide (r.2.2.tag = tag)) < reservedFor s e tag then some false
  else if (rs.countP fun r => r.2.2.pooled) < poolSize s e then some true else none

/-- A write of GTR_RSVk (R293). -/
def gtrRsvWrite (s : State) (e : GatherEngine) (k : Nat) (v : Word) : State × Nat :=
  let others := ((List.range 16).filter (· ≠ k)).map (gatherRsv s e)
  let sum := fun hi lo => (others.map fun w => bits w hi lo).sum + bits v hi lo
  match e with
  | .near u => (if gatherEntries e < sum 11 0 then s else setReg s (Reg.hbmGtrRsv u k) (v &&& 0xFFF), 0)
  | .far i => (if gatherEntries e < sum 11 0 ∨ 12 < sum 19 16 then s else setReg s (Reg.sraGtrRsv0 i + 4 * k) (v &&& 0xF0FFF), 0)

/-! ### Rows (R276) -/

/-- A row that has ended with a failure. -/
def rowFailed (s : State) (ch : Chan) (d : Desc) (i st who : Nat) : State := pieceFailed s ch d.serial i st i who false

/-- A row written with what its read brought; the row fails once, with POISON before a failed write (R276, R450). -/
def writeRow (s : State) (ch : Chan) (d : Desc) (i : Nat) (bs : List Byte) (pz : Bool) : State :=
  let dst := dDst d.words + i * dRow d.words
  let ws := (lineCuts dst bs.length).zipIdx.map fun c =>
    newWait i (writeSlot + c.2) c.1.1 c.1.2 (now s) true (.write ((bs.drop (c.1.1 - dst)).take c.1.2) pz)
  startWrites ch d i (if pz then 0x02 else 0) i i ws s

/-- The physical address of a table row, by the translations that were valid at the check, or the status it fails with (R276,
R277, R316, R317). -/
def rowSource (s : State) (ch : Chan) (d : Desc) (x : Nat) : Sum Nat Nat :=
  let n := dRow d.words
  let v := dSrc d.words + x * n
  let p := match chanCtx s ch d.queue with
    | none => some v
    | some _ => (d.table.find? fun e => decide (e.1 ≤ v) && decide (v < e.1 + e.2.1)).map fun e => e.2.2 + (v - e.1)
  match p with
  | none => .inl 0x06
  | some p =>
    if !oneTier s p n || (rangeBad s regionCount p n).isSome then .inl 0x01
    else if (tenancyBad s ch d.queue p n).isSome then .inl 0x07
    else .inr p

/-- The gather engine that serves an address (R276). -/
def engineOf (s : State) (a : Nat) : GatherEngine :=
  match target s a with
  | .far p => .far (p / 2)
  | _ => .near (unitOf s a).1

/-- The index of a row: read where it lies; none in the second place while its read has not ended. -/
def rowIndex (s : State) (ch : Chan) (d : Desc) : State × Option (List Byte × Nat) :=
  let i := d.next
  match d.waits.find? fun w => !w.write && w.piece == i with
  | some w => (s, w.got.map fun g => (g.1, g.2.toNat))
  | none =>
    let w := newWait i 0 (dIdx d.words + i * dIdxSize d.words) (dIdxSize d.words) (now s) false (.read (dHint d.words))
    match tryAccess s ch d w with
    | (s, w, none) => (addWait s ch d.serial w, none)
    | (s, w, some g) => (addWait s ch d.serial { w with got := some (g.1, BitVec.ofNat 8 g.2) }, some g)

/-- A row of a GATHER has had its turn: its index is done with. -/
def rowTurned (s : State) (ch : Chan) (d : Desc) : State :=
  noteIssue (dropWaits s ch d.serial fun w => !w.write && w.piece == d.next) ch d.serial 1 0 []

/-- A row of the table and its turn: it waits for an entry of its engine (R276, R278). -/
def rowWaits (s : State) (ch : Chan) (d : Desc) (i p : Nat) : State :=
  let tag := (chanRect s ch d.queue).getD 16
  modDesc s ch d.serial fun d => { d with
    rows := d.rows ++ [⟨i, p, dDst d.words + i * dRow d.words, tag, engineOf s p, false, false, false, now s, [], [], none⟩] }

/-- The turn of the next row of a GATHER (R276): a row of zeros, a failed row, or a row fetch that waits for its entry; a row
to be dispatched has its turn only within the pacing allowance (R282). -/
def gatherRow (s : State) (ch : Chan) (d : Desc) : Option State :=
  let i := d.next
  if decide (d.stage ≠ .issuing) || decide (dTotal d.words ≤ i) || d.rows.any fun r => !r.sent then none
  else
    match d.waits.find? fun w => !w.write && w.piece == i && w.got.isNone with
    | some _ => none
    | none =>
      match rowIndex s ch d with
      | (s, none) => some s
      | (s, some (bs, st)) =>
        let x := leNat bs
        if st ≠ 0 then
          some (rowFailed (rowTurned s ch d) ch d i st (engineNode s (physOf d.pages (dIdx d.words + i * dIdxSize d.words))))
        else if x = 256 ^ dIdxSize d.words - 1 then some (writeRow (rowTurned s ch d) ch d i (List.replicate (dRow d.words) 0) false)
        else if dLimit d.words ≤ x then some (rowFailed (rowTurned s ch d) ch d i 0x01 0xFFF)
        else
          match rowSource s ch d x with
          | .inl st => some (rowFailed (rowTurned s ch d) ch d i st 0xFFF)
          | .inr p => if paceFull d then none else some (rowWaits (rowTurned s ch d) ch d i p)

/-- Rows have their turns until one waits. -/
def gatherLoop (ch : Chan) (serial : Nat) : Nat → State → State
  | 0, s => s
  | n + 1, s =>
    match (descOf s ch serial).bind (gatherRow s ch) with
    | some s' => gatherLoop ch serial n s'
    | none => s

/-- A GATHER whose last row has had its turn and entry drains. -/
def endGather (s : State) (ch : Chan) (serial : Nat) : State :=
  match descOf s ch serial with
  | some d => if d.rows.any fun r => !r.sent then s else endIssue s ch serial
  | none => s

/-- GATHER (R276). -/
def execGather (ch : Chan) (s : State) : Host.Outcome State Fault Refusal :=
  match curDesc (chan s ch) with
  | none => .next s
  | some d =>
    when s (chanRuns s ch && decide (dOp d.words = 4))
      (syncStat s (endGather (gatherLoop ch d.serial (2 * (dTotal d.words - d.next)) (beginDesc (serveWaits s ch) ch)) ch d.serial) ch)

/-- A row of a descriptor changed. -/
def modRow (s : State) (ch : Chan) (serial i : Nat) (f : GatherRow → GatherRow) : State :=
  modDesc s ch serial fun d => { d with rows := d.rows.map fun r => if r.row = i then f r else r }

/-- A row leaves its descriptor: its entry is released (R278). -/
def dropRow (s : State) (ch : Chan) (serial i : Nat) : State :=
  modDesc s ch serial fun d => { d with rows := d.rows.filter fun r => decide (r.row ≠ i) }

/-- The segments between a channel and the engine of a row each have a usable outward slot of the row's tag, in whose command
sideband its dispatch travels (R278). -/
def dispatchServed (s : State) (ch : Chan) (r : GatherRow) : Bool :=
  let ag : Agent := ⟨(chanAgent s ch none).place, r.tag⟩
  let hs := agentHops s ag r.src
  hs.isEmpty || (!agentRelocks s ag r.src && hopsServed s (agentExit s ag r.src) r.tag true hs)

/-- A row takes an entry of its engine: it is dispatched, and counts in the pacing period (R278, R282). -/
def dispatchRow (s : State) (ch : Chan) (serial : Nat) (r : GatherRow) (pooled : Bool) : State :=
  let s := modRow s ch serial r.row fun r => { r with sent := true, pooled := pooled, turn := now s }
  modDesc s ch serial fun d => { d with paceUsed := d.paceUsed + 1 }

/-- ROW_FETCH_DISPATCH: the row that waits takes a free entry of its engine (R278, R282). -/
def execRowFetchDispatch (ch : Chan) (s : State) : Host.Outcome State Fault Refusal :=
  match curDesc (chan s ch) with
  | none => .next s
  | some d =>
    match d.rows.find? fun r => !r.sent with
    | none => .next s
    | some r =>
      match freeEntry s r.engine r.tag with
      | none => .next s
      | some pooled =>
        when s (chanRuns s ch && !paceFull d && dispatchServed s ch r)
          (syncStat s (endGather (dispatchRow s ch d.serial r pooled) ch d.serial) ch)

/-- The place of a CXL port and a tag among the counts of line reads of the frame. -/
def beatsKey (s : State) (r : GatherRow) : Nat :=
  match target s r.src with
  | .far p => 16 * p + r.tag
  | _ => r.tag

/-- A far-tier engine reads a line for a tag on a port only within the tag's BEATS of the frame (R278, R293). -/
def rowMayRead (s : State) (r : GatherRow) : Bool :=
  match r.engine with
  | .near _ => true
  | .far _ => decide (sget s.rowBeats (beatsKey s r) 0 < bits (gatherRsv s r.engine r.tag) 19 16)

/-- A line read of a far-tier engine counted in its frame (R278). -/
def countBeat (s : State) (r : GatherRow) : State :=
  match r.engine with
  | .near _ => s
  | .far _ => { s with rowBeats := sput s.rowBeats (beatsKey s r) (sget s.rowBeats (beatsKey s r) 0 + 1) }

/-- The next line of a row read at its engine: none where it waits, with the moment its read reached the CXL device
(R278, R279). A read counts in its frame when it goes out. -/
def readLine (s : State) (ch : Chan) (serial : Nat) (d : Desc) (r : GatherRow) (c : Nat × Nat) : State × Bool :=
  let out := r.reached.isSome
  if cxlLate s c.1 r.reached || (!out && !rowMayRead s r) then (s, false)
  else
    match engineRead s (gatherAgent r) (.dma ch serial r.row 0) c.1 c.2 (dHint d.words) with
    | .done s bs st =>
      (modRow (if out then s else countBeat s r) ch serial r.row fun r => { r with
        data := r.data ++ bs, faults := r.faults ++ [st], reached := none }, true)
    | .stall true =>
      (if out then s else modRow (countBeat s r) ch serial r.row fun r => { r with reached := some (now s) }, false)
    | _ => (s, false)

/-- The lines of a row read one after another, as far as they can be (R278). -/
def readLines (ch : Chan) (serial i : Nat) : Nat → State → State
  | 0, s => s
  | n + 1, s =>
    match (descOf s ch serial).bind fun d => (d.rows.find? fun r => r.row == i).map fun r => (d, r) with
    | none => s
    | some (d, r) =>
      match (lineCuts r.src (dRow d.words))[r.faults.length]? with
      | none => s
      | some c =>
        match readLine s ch serial d r c with
        | (s, true) => readLines ch serial i n s
        | (s, false) => s

/-- A row that has been read and whose writes have all ended releases its entry (R278). -/
def settleRow (s : State) (ch : Chan) (serial i : Nat) : State :=
  match descOf s ch serial with
  | some d => if d.waits.any fun w => w.write && w.piece == i then s else dropRow s ch serial i
  | none => s

/-- A row whose lines have all been read, or one of which failed otherwise than by poison: it fails, or is written (R276). -/
def finishRow (s : State) (ch : Chan) (d : Desc) (r : GatherRow) : State :=
  let st := firstFault r.faults
  if st ≠ 0 ∧ st ≠ 0x02 then dropRow (rowFailed s ch d r.row st (gatherNode r.engine)) ch d.serial r.row
  else if r.faults.length < (lineCuts r.src (dRow d.words)).length then s
  else
    let s := writeRow s ch d r.row r.data (st = 0x02)
    settleRow (modRow s ch d.serial r.row fun r => { r with read := true, data := [] }) ch d.serial r.row

/-- ROW_FETCH_COMPLETE: the k-th row fetch of an engine is read, written to its destination and, once no write of it is
unanswered, released (R276, R278). -/
def execRowFetchComplete (e : GatherEngine) (k : Nat) (s : State) : Host.Outcome State Fault Refusal :=
  match (rowFetches s e)[k]? with
  | none => .next s
  | some (ch, serial, r) =>
    match descOf s ch serial with
    | none => .next s
    | some d =>
      if !partUp s || !chanRuns s ch then .next s
      else if r.read then .next (syncStat s (settleRow (serveWaits s ch) ch serial r.row) ch)
      else
        let s1 := readLines ch serial r.row (lineCuts r.src (dRow d.words)).length s
        match (descOf s1 ch serial).bind fun d => (d.rows.find? fun x => x.row == r.row).map fun x => (d, x) with
        | none => .next s1
        | some (d, x) => .next (syncStat s (finishRow s1 ch d x) ch)

/-! ### The far tier and lane ports (R279) -/

/-- An access of a lane port is at a CXL port, sent, unanswered, and nothing older of its thread is in its way (R220, R222,
R279). -/
def cxlPending (s : State) (c : Nat) (a : LaneAccess) : Option Nat :=
  match target s a.addr with
  | .far p => if a.sent && a.result.isNone && !laneBlocked s c a && beatServed s c a.addr true then some p else none
  | _ => none

/-- A store the device has performed though it did not answer OK (R279; log entry 23). -/
def cxlMaybeStore (s : State) (a : LaneAccess) : State :=
  match a.kind with
  | .store bs => if Config.cxlPerformed s.tb a.addr then writeMem s a.addr bs else s
  | _ => s

/-- CXL_RESPONSE: the device answers a lane access after `latency` ns; a response that does not come within SRA_CXL_DL is none
(R279). -/
def execCxlResponse (core id : Nat) (a : CxlAnswer) (latency : Nat) (s : State) : Host.Outcome State Fault Refusal :=
  match laneFind s core id with
  | none => .next s
  | some x =>
    match cxlPending s core x with
    | none => .next s
    | some p =>
      let put := fun (s : State) (r : AccessResult) => laneMod (noteLatency s p latency) core id fun b => { b with result := some r }
      if x.issued + cxlDl s p ≤ now s then .next s
      else
      match a, x.kind with
      | .ok, .store bs => .next (put (writeMem s x.addr bs) (.ok [] []))
      | .ok, _ =>
        .next (put s (if isPoisoned s x.addr x.size then .fail 0x02 else .ok (readMem s x.addr x.size) (lineAround s x.addr)))
      | .error, _ => .next (put (cxlMaybeStore s x) (.fail 0x01))
      | .poison, _ => .next (put s (.fail 0x02))

/-- CXL_TIMEOUT: no response within SRA_CXL_DL (R279). -/
def execCxlTimeout (core id : Nat) (s : State) : Host.Outcome State Fault Refusal :=
  match laneFind s core id with
  | none => .next s
  | some x =>
    match cxlPending s core x with
    | none => .next s
    | some p =>
      when s (decide (x.issued + cxlDl s p ≤ now s))
        (laneMod (cxlMaybeStore s x) core id fun b => { b with result := some (.fail 0x05) })

/-! ### Deadlines (R286) -/

/-- A chain trigger that has not fired by the channel's deadline, from fetch (R286). -/
def triggerDeadline (s : State) (ch : Chan) : State :=
  let x := chan s ch
  match curDesc x with
  | none => s
  | some d =>
    if decide (d.stage ≠ .issuing) && mayBegin x d && decide (dTrig d.words = 2) && !triggerHolds s ch d.words &&
        decide (d.fetchedAt + chanDl s ch ≤ now s) then
      modDesc s ch d.serial fun d => { d with
        stage := .drain
        fail := some ⟨0, 0x05, 0, chanNode (chainOf ch (dChain d.words))⟩ }
    else s

/-- A write that its CXL device has not answered may have performed there (R279; log entry 23). -/
def cxlMaybeWrite (s : State) (d : Desc) (w : EngineWait) : State :=
  match w.reached, w.op with
  | some _, some (.write bs pz) =>
    if Config.cxlPerformed s.tb (physOf d.pages w.addr) then writeData s (physOf d.pages w.addr) bs pz else s
  | _, _ => s

/-- The unanswered reads and writes of a descriptor whose deadline has passed end with WAIT_TIMEOUT: the channel's, or the CXL
device's (R279, R286). What has not left for another chip leaves no more (R225, R361). -/
def waitDeadlines (s : State) (ch : Chan) (d : Desc) : State :=
  (d.waits.filter fun w => (w.write || w.got.isNone) &&
      (decide (w.issued + chanDl s ch ≤ now s) || cxlLate s (physOf d.pages w.addr) w.reached)).foldl
    (fun s w => engineAnswer (linkForget (cxlMaybeWrite s d w) (.dma ch d.serial w.piece w.slot)) ch d.serial w.piece w.slot [] 0x05) s

/-- The rows of a descriptor that have waited for an entry, for their BEATS or for their read past the deadline, or for a CXL
response past SRA_CXL_DL (R279, R286). -/
def rowDeadlines (s : State) (ch : Chan) (d : Desc) : State :=
  (d.rows.filter fun r => !r.read && (decide (r.turn + chanDl s ch ≤ now s) ||
      cxlLate s (r.src + r.data.length) r.reached)).foldl
    (fun s r => dropRow (rowFailed s ch d r.row 0x05 (gatherNode r.engine)) ch d.serial r.row) s

/-- DMA_DEADLINE (R286). -/
def execDmaDeadline (ch : Chan) (s : State) : Host.Outcome State Fault Refusal :=
  let s1 := triggerDeadline s ch
  let s2 := (chan s1 ch).descs.foldl (fun s d => waitDeadlines s ch d) s1
  let s3 := (chan s2 ch).descs.foldl (fun s d => rowDeadlines s ch d) s2
  let s4 := (chan s3 ch).descs.foldl (fun s d => if decide (dOp d.words = 4) then endGather s ch d.serial else s) s3
  when s (chanRuns s ch) (syncStat s s4 ch)

end Sys2Proof.Machine
end

