-- ==== Sys2Proof/Machine/Drover.lean ====
section
/-! DEFINITION. The Drover die: its log, routes and forced outputs, its memory port, the lockstep pair and the time unit
(R371 to R378, R399, R420). -/

namespace Sys2Proof.Machine

/-! ### Log, routes and forced outputs (R375, R376, R391, R399, R420) -/

/-- The Drover's own state changed. -/
def modDrv (s : State) (f : Drover → Drover) : State := { s with drv := f s.drv }

/-- A route source occurs: each enabled route that names it has a message to send; occurrences merge into one that waits
(R376). `g` is the world of the source's function. -/
def drvRaise (s : State) (src : Nat) (g : Bool) : State :=
  (List.range 16).foldl (fun s n =>
    let w := reg s (Reg.drvRoute n)
    if bit w 31 && decide (bits w 4 0 = src) then modDrv s fun d => { d with routes := sput d.routes n g } else s) s

/-- A new entry of the Drover log: written at LOG_HEAD with its alert if that entry is not VALID, otherwise counted and
dropped (R375, R402). -/
def drvLog (s : State) (status detail unit index : Nat) : State :=
  let i := fld s Reg.drvLogHead 4 0
  let off := Reg.drvLogW0 i
  if flag s off 31 then countSat s Reg.drvLogOvf
  else
    let s := setReg s off (BitVec.ofNat 32 (status % 256 + 256 * (detail % 256) + 2 ^ 16 * (unit % 16) + 2 ^ 24 * (index % 16) + 2 ^ 31))
    let s := setReg64 s (Reg.drvLogW2 i) (now s)
    let s := setReg s Reg.drvLogHead (BitVec.ofNat 32 ((i + 1) % 32))
    drvRaise (if s.pkg.pwrok then sendAlert s 0x302 status 0 detail else s) 0x16 true

/-- DRV_VFIELD shows OK (R389). -/
def vfieldOk (s : State) : Bool := decide (fld s Reg.drvVfield 18 16 = 0)

/-- A cause of R399 holds for output `o`: VFIELD not OK, a safe-state cause mapped to it, or the e-stop latch; a Drover
reset in progress is one too, and sets FORCED itself. -/
def forceCause (s : State) (o : Nat) : Bool :=
  s.drv.por || s.drv.resetting || !vfieldOk s ||
    ((List.range 4).any fun c => flag s Reg.drvSafeLatch c && flag s (Reg.drvSafeMap c) o) ||
    (flag s Reg.drvEstopStat 1 && flag s Reg.drvEstopCfg (16 + o))

/-- An output is FORCED (R404). -/
def doutForced (s : State) (o : Nat) : Bool := flag s (Reg.drvDoutStat o) 1

/-- FORCED set on every output with a cause (R399). -/
def forceOutputs (s : State) : State :=
  (List.range 8).foldl (fun s o => if forceCause s o then setFlag s (Reg.drvDoutStat o) 1 true else s) s

/-- FORCED set as a safe-state entry of R420 or R422, which raises 0x1C where an output enters it. -/
def enterSafe (s : State) : State :=
  let new := (List.range 8).any fun o => forceCause s o && !doutForced s o
  let s := forceOutputs s
  if new then drvRaise s 0x1C true else s

/-- An occurrence of safe-state cause `c` (R420). -/
def safeCause (s : State) (c : Nat) : State := enterSafe (setFlag s Reg.drvSafeLatch c true)

/-- Messages of the request channel that the Drover's node holds in flight (R210, R376). -/
def drvInFlight (s : State) : Nat := s.courier.countP fun m => decide (m.src = 0x302) && decide (m.kind ≠ 4)

/-- The message of a route (R376, R402). -/
def routeMsg (s : State) (n : Nat) (g : Bool) : Msg :=
  let w := reg s (Reg.drvRoute n)
  if bit w 5 then ⟨bits w 17 6, 1, g, 0x302, BitVec.ofNat 32 (bits w 22 18), Config.routeEval s.tb n⟩
  else ⟨bits w 17 6, 0, g, 0x302, BitVec.ofNat 32 (bits w 22 21 + 4 * bits w 20 18), 0⟩

/-- ROUTE_ACCEPT: the node accepts a route's message once it has room; one that names no core of the part is discarded
(R46, R206, R376). -/
def execRouteAccept (n : Nat) (s : State) : Host.Outcome State Fault Refusal :=
  match s.drv.routes.find? fun e => e.1 == n with
  | none => .next s
  | some (_, g) =>
    let s' := modDrv s fun d => { d with routes := sdrop d.routes (· == n) }
    let m := routeMsg s n g
    when s (drvUp s && decide (drvInFlight s < 16)) (if decide (m.dest < s.pkg.nCores) && s.pkg.pwrok then sendMsg s' m else s')

/-- LOCKSTEP_MISMATCH (R372). -/
def execLockstepMismatch (s : State) : Host.Outcome State Fault Refusal :=
  when s (drvUp s) (drvWatchdogReset (drvLog s 0x11 0 0 0))

/-! ### Memory port (R374) -/

/-- Serai 0 accepts memory-port accesses: DRV_READY.MEM (R402, R428). -/
def drvMemUp (s : State) : Bool := partUp s && !s.pkg.slumber

/-- Checks 4 and 5 of R269 for a byte range, with the outcomes of R374: 0 or the status. -/
def drvCheck (s : State) (a n : Nat) : Nat :=
  let r := fld s Reg.drvMem 3 0
  if (rangeBad s regionCount a n).isSome then 0x01
  else
    match target s a with
    | .localMem c _ => if rectOn s r && decide (rectOf s c = some r) then 0 else 0x07
    | _ =>
      if !rectOn s r || (firstOutside s r 5 a n).isSome || (!rectGuarded s r && (firstGuarded s a n).isSome) then 0x07 else 0

/-- The Drover's accesses as the lanes see them: Serai 0 carries them with tag DRV_MEM.TAG (R194, R374). -/
def drvAgent (s : State) : Agent := ⟨.serai 0, fld s Reg.drvMem 3 0⟩

/-- An access tried at its target: Serai 0 checks it when it carries it, and it goes on waiting while it cannot be served
(R374). -/
def drvStart (s : State) (x : DrvAccess) : State × DrvAccess :=
  if !drvMemUp s || x.result.isSome || cxlLate s x.addr x.reached then (s, x)
  else
    let st := drvCheck s x.addr x.len
    if st ≠ 0 then (s, { x with sent := true, result := some ([], BitVec.ofNat 8 st) })
    else
      match (match x.write with
        | some (bs, pz) => engineWrite s (drvAgent s) (.drover x.id) x.addr bs pz
        | none => engineRead s (drvAgent s) (.drover x.id) x.addr x.len false) with
      | .stall r => (s, if r && x.reached.isNone then { x with reached := some (now s) } else x)
      | .sent s => (s, { x with sent := true })
      | .done s bs st => (s, { x with sent := true, result := some (bs, BitVec.ofNat 8 st) })

/-- A CSI-2 receiver beside its registers. -/
def csiOf (s : State) (r : Nat) : Csi := sget s.drv.csi r Csi.reset
/-- A CSI-2 receiver changed. -/
def modCsi (s : State) (r : Nat) (f : Csi → Csi) : State := modDrv s fun d => { d with csi := sput d.csi r (f (csiOf s r)) }
/-- An Ethernet port beside its registers. -/
def ethOf (s : State) (p : Nat) : Eth := sget s.drv.eth p Eth.reset
/-- An Ethernet port changed. -/
def modEth (s : State) (p : Nat) (f : Eth → Eth) : State := modDrv s fun d => { d with eth := sput d.eth p (f (ethOf s p)) }

/-- The first failure of a frame's line writes kept for its record (R383). -/
def CsiRec.failed (n : Nat) (st : Byte) (f : CsiRec) : CsiRec :=
  if f.n = n ∧ f.memFail = 0 then { f with memFail := st } else f

/-- A memory-port write that failed (R383, R406, R407, R413). -/
def drvWriteFailed (s : State) (job : DrvJob) (index slot : Nat) (st : Byte) : State :=
  match job with
  | .csiLine => modCsi s index fun c => { c with cur := c.cur.map (CsiRec.failed slot st), closed := c.closed.map (CsiRec.failed slot st) }
  | .primerWrite => modCsi s index fun c => { c with primers := c.primers.map fun p => if p.n = slot then { p with mem := true } else p }
  | .ethRx => modEth s index fun e => { e with back := e.back.map fun b => if b.status = 0 then { b with status := st } else b }
  | .adc => drvRaise (drvLog (setFlag s (Reg.drvAdcStat index) 3 true) st.toNat 0 6 index) 0x0D true
  | _ => s

/-- Descriptors of an Ethernet ring (R407). -/
def ringSize (s : State) (p ring : Nat) : Nat := 2 ^ fld s (Reg.drvEthRingcfg p ring) 19 16

/-- The next descriptor the port processes. -/
def ringHead (s : State) (p ring : Nat) : Nat := fld s (Reg.drvEthRinghead p ring) 15 0

/-- A descriptor's write-back has ended: HEAD advances, and the port's source is raised; a received frame's is its own
(R386, R402, R407). -/
def ethBackEnded (s : State) (p ring : Nat) : State :=
  let s := setReg s (Reg.drvEthRinghead p ring) (BitVec.ofNat 32 ((ringHead s p ring + 1) % ringSize s p ring))
  if ring < 8 then drvRaise s 0x12 (flag s Reg.drvOwn (4 + p))
  else if (ethOf s p).back.isSome then
    drvRaise (modEth s p fun e => { e with back := none, rx := e.rx.drop 1 }) (0x10 + p) (flag s Reg.drvOwn (4 + p))
  else s

/-- A frame record has been written: its receiver raises its source (R383, R402). -/
def csiRecorded (s : State) (r : Nat) : State := drvRaise s r (flag s Reg.drvOwn r)

/-- A write of the port has ended with a status: what its unit does then (R383, R386, R406, R407, R413). -/
def drvWriteEnded (s : State) (job : DrvJob) (index slot : Nat) (st : Byte) : State :=
  match job with
  | .csiRecord => csiRecorded s index
  | .ethBack => ethBackEnded s index slot
  | _ => if st = 0 then s else drvWriteFailed s job index slot st

/-- A new access of the port: a write that ends at once leaves nothing behind but what follows its end. -/
def drvAdd (s : State) (job : DrvJob) (index slot a n : Nat) (w : Option (List Byte × Bool)) : State :=
  let (s, x) := drvStart s ⟨s.drv.accessNext, job, index, slot, a, n, w, false, now s, none, none⟩
  let s := modDrv s fun d => { d with accessNext := d.accessNext + 1 }
  match w, x.result with
  | some _, some (_, st) => drvWriteEnded s job index slot st
  | _, _ => modDrv s fun d => { d with access := d.access ++ [x] }

/-- Bytes written through the port, in pieces of one line; poisoned where `pz` (R262, R374). -/
def drvWrite (s : State) (job : DrvJob) (index slot a : Nat) (bs : List Byte) (pz : Bool) : State :=
  (linePieces a bs.length).foldl (fun s p => drvAdd s job index slot p.1 p.2 (some ((bs.drop (p.1 - a)).take p.2, pz))) s

/-- An access belongs to a job. -/
def DrvAccess.isOf (x : DrvAccess) (job : DrvJob) (index slot : Nat) : Bool :=
  decide (x.job = job) && decide (x.index = index) && decide (x.slot = slot)

/-- Some write of a job has not ended. -/
def drvWriting (s : State) (job : DrvJob) (index slot : Nat) : Bool :=
  s.drv.access.any fun x => x.isOf job index slot && x.write.isSome

/-- What the reads of a job brought, once all have ended, with the state without them. -/
def drvTake (s : State) (job : DrvJob) (index slot : Nat) : State × Option (List (List Byte × Byte)) :=
  let xs := s.drv.access.filter fun x => x.isOf job index slot && x.write.isNone
  if xs.all fun x => x.result.isSome then
    (modDrv s fun d => { d with access := d.access.filter fun x => !(x.isOf job index slot && x.write.isNone) },
      some (xs.map fun x => x.result.getD ([], 0)))
  else (s, none)

/-- Pieces of at most `g` bytes between multiples of `g`. -/
def cutAt (g a n : Nat) : List (Nat × Nat) :=
  if n = 0 then []
  else (upFrom (a / g) ((a + n - 1) / g + 1 - a / g)).map fun l =>
    let lo := Nat.max a (g * l)
    (lo, Nat.min (a + n) (g * (l + 1)) - lo)

/-- Bytes read through the port in pieces between multiples of `g`: started where the job has no read yet; none while some
piece has no answer (R374). -/
def drvRead (s : State) (job : DrvJob) (index slot g a n : Nat) : State × Option (List (List Byte × Byte)) :=
  if s.drv.access.any fun x => x.isOf job index slot && x.write.isNone then drvTake s job index slot
  else drvTake ((cutAt g a n).foldl (fun s p => drvAdd s job index slot p.1 p.2 none) s) job index slot

/-- The status of a read: the first failure among its pieces. -/
def readStatus (l : List (List Byte × Byte)) : Byte := ((l.map Prod.snd).find? fun st => st != 0).getD 0

/-- The bytes of a read. -/
def readBytes (l : List (List Byte × Byte)) : List Byte := l.flatMap Prod.fst

/-- Accesses that have not left for their target try again. -/
def drvRetry (s : State) : State :=
  s.drv.access.foldl (fun s x =>
    if x.sent || x.result.isSome then s
    else
      let (s, y) := drvStart s x
      match y.write, y.result with
      | some _, some (_, st) =>
        drvWriteEnded (modDrv s fun d => { d with access := d.access.filter fun z => z.id != x.id }) x.job x.index x.slot st
      | _, _ => modDrv s fun d => { d with access := d.access.map fun z => if z.id = x.id then y else z }) s

/-- An access of the port ends with bytes and a status (R374). -/
def drvEnd (s : State) (id : Nat) (bytes : List Byte) (st : Byte) : State :=
  match s.drv.access.find? fun a => a.id == id with
  | none => s
  | some x =>
    if x.write.isNone then
      modDrv s fun d => { d with access := d.access.map fun z => if z.id = id then { z with sent := true, result := some (bytes, st) } else z }
    else drvWriteEnded (modDrv s fun d => { d with access := d.access.filter fun z => z.id != id }) x.job x.index x.slot st

/-! ### Device time (R377, R378) -/

/-- A time as the Drover stamps it: an operand brought within `before` and `after` ns of the time base (R377; log entry 69). -/
def stampNear (s : State) (before after : Nat) (t : DWord) : DWord :=
  BitVec.ofNat 64 (Nat.max (now s - before) (Nat.min (now s + after) t.toNat))

/-- DRV_READY.TIME set; a change raises 0x15 (R402). -/
def setTimeReady (s : State) (v : Bool) : State :=
  if flag s Reg.drvReady 13 = v then s else drvRaise (setFlag s Reg.drvReady 13 v) 0x15 true

/-- The port on which the time unit may be a slave: it is enabled and has block lock (R378, R402). -/
def ptpPort (s : State) : Bool := (List.range 2).any fun p => flag s (Reg.drvEthCtl p) 0 && flag s Reg.drvReady (6 + p)

/-- PTP_SYNC: the offset of the grandmaster is written, ADJ moves towards the value the time unit wants by at most 100, and
TIME is set after 16 consecutive Syncs whose offset drifted by at most 100 ns (R378). -/
def execPtpSync (offset : DWord) (adj : BitVec 16) (s : State) : Host.Outcome State Fault Refusal :=
  let drift := match s.drv.ptpLast with
    | none => false
    | some o => decide ((offset - o).toInt.natAbs ≤ 100)
  let good := if drift then Nat.min 16 (s.drv.ptpGood + 1) else 0
  let cur := (BitVec.ofNat 16 (fld s Reg.cmpTimeRate 15 0)).toInt
  let want := max (cur - 100) (min (cur + 100) adj.toInt)
  let s1 := setReg64 s Reg.drvPtpOfsLo offset.toNat
  let s1 := modDrv s1 fun d => { d with ptpLast := some offset, ptpGood := good }
  let s1 := if s.pkg.pwrok then setFld s1 Reg.cmpTimeRate 15 0 (BitVec.ofInt 16 want).toNat else s1
  when s (drvUp s && ptpPort s) (if good = 16 then setTimeReady s1 true else s1)

/-- PTP_SYNC_MISS: after 3 missed Sync intervals TIME clears, and ADJ stays as it is (R378). -/
def execPtpSyncMiss (s : State) : Host.Outcome State Fault Refusal :=
  when s (drvUp s) (setTimeReady (modDrv s fun d => { d with ptpLast := none, ptpGood := 0 }) false)

end Sys2Proof.Machine
end

