-- ==== Sys2Proof/Machine/Csi.lean ====
section
/-! DEFINITION. CSI-2 ingest with its frame records, and the primer lines injected into it (R379 to R384, R409 to R414). -/

namespace Sys2Proof.Machine

/-! ### Geometry (R380, R403, R411) -/

/-- The receiver takes packets: it is enabled, and the Drover runs. -/
def csiRuns (s : State) (r : Nat) : Bool := decide (r < 4) && drvUp s && flag s (Reg.drvCsiCfg r) 0

/-- LINE_BYTES. -/
def csiBytes (s : State) (r : Nat) : Nat := fld s (Reg.drvCsiGeom r) 15 0

/-- LINES. -/
def csiLines (s : State) (r : Nat) : Nat := fld s (Reg.drvCsiGeom r) 31 16

/-- LSTRIDE in bytes. -/
def csiStride (s : State) (r : Nat) : Nat := 64 * fld s (Reg.drvCsiRing r) 31 16

/-- N, the slots of the ring. -/
def csiSlots (s : State) (r : Nat) : Nat := 2 ^ fld s (Reg.drvCsiRing r) 3 0

/-- A length rounded up to whole 64-byte lines. -/
def roundLine (n : Nat) : Nat := (n + 63) / 64 * 64

/-- The address of line `j` of frame `n` (R380). -/
def csiLineAddr (s : State) (r n j : Nat) : Nat :=
  regAddr s (Reg.drvCsiBaseLo r) + n % csiSlots s r * csiLines s r * csiStride s r + j * csiStride s r

/-- Bytes followed by zeros up to a length, or cut to it. -/
def padTo (n : Nat) (bs : List Byte) : List Byte := bs.take n ++ List.replicate (n - bs.length) 0

/-! ### Frames (R380 to R383) -/

/-- The open frame of a receiver changed. -/
def modFrame (s : State) (r : Nat) (f : CsiRec → CsiRec) : State := modCsi s r fun c => { c with cur := c.cur.map f }

/-- A line of the open frame written whole, or poisoned (R380, R382). -/
def csiWriteLine (s : State) (r n j : Nat) (payload : List Byte) (pz : Bool) : State :=
  drvWrite s .csiLine r n (csiLineAddr s r n j) (padTo (roundLine (csiBytes s r)) (payload.take (csiBytes s r))) pz

/-- The open frame closes: every line that was not written is written as poisoned lines, and its record follows (R382). -/
def csiClose (s : State) (r : Nat) (stamp : DWord) (short : Bool) : State :=
  match (csiOf s r).cur with
  | none => modCsi s r fun c => { c with dropping := false }
  | some f =>
    let n := csiLines s r
    let s := (upFrom f.arrived (n - f.arrived)).foldl (fun s j =>
      csiWriteLine s r f.n j (poisonBytes (csiLineAddr s r f.n j) (csiBytes s r)) true) s
    modCsi s r fun c =>
      match c.cur with
      | none => c
      | some g => { c with
        cur := none
        closed := c.closed ++ [{ g with tfe := stamp, flags := g.flags ||| (if short || decide (g.arrived < n) then 1 else 0) }] }

/-- CSI_FRAME_START: FS opens frame n, closing a frame still open; with no free slot the whole frame is dropped (R377, R380 to
R382). -/
def execCsiFrameStart (r : Nat) (stamp : DWord) (s : State) : Host.Outcome State Fault Refusal :=
  let stamp := stampNear s 20 20 stamp
  let s1 := csiClose s r stamp true
  let n := (csiOf s1 r).frame
  let full := decide (csiSlots s r ≤ (n + 2 ^ 32 - (reg s (Reg.drvCsiRel r)).toNat) % 2 ^ 32)
  let s1 := modCsi s1 r fun c => { c with
    frame := (n + 1) % 2 ^ 32
    lastFs := now s
    dropping := full
    cur := if full then none else some ⟨n, 0, 0, 0, 0, 0, stamp, 0, 0⟩ }
  when s (csiRuns s r) (if full then countFld s1 (Reg.drvCsiCnt r) 15 0 else s1)

/-- CSI_LONG_PACKET: the next line of the open frame, with the irregularities of R382; a packet of another channel or type
is discarded and counted (R379, R380, R382). -/
def execCsiLongPacket (r : Nat) (p : CsiPacket) (s : State) : Host.Outcome State Fault Refusal :=
  let cfg := reg s (Reg.drvCsiCfg r)
  if !csiRuns s r then .next s
  else if p.ecc = .uncorrectable then .next (modFrame s r fun f => { f with flags := f.flags ||| 8 })
  else if p.vc.toNat ≠ bits cfg 4 3 ∨ p.dt.toNat ≠ bits cfg 10 5 then .next (countFld s (Reg.drvCsiCnt r) 31 16)
  else
    match (csiOf s r).cur with
    | none => .next s
    | some f =>
      let s := if p.ecc = .corrected then modFrame s r fun f => { f with ecc1 := f.ecc1 + 1 } else s
      if csiLines s r ≤ f.arrived then .next (modFrame s r fun f => { f with flags := f.flags ||| 2 })
      else
        let len := decide (p.payload.length ≠ csiBytes s r)
        let s := modFrame s r fun f => { f with
          arrived := f.arrived + 1
          lines := f.lines + 1
          flags := if len then f.flags ||| 4 else f.flags
          crcFails := if p.crcOk then f.crcFails else f.crcFails + 1 }
        .next (csiWriteLine s r f.n f.arrived p.payload !p.crcOk)

/-- The frame record (R383). -/
def csiRecord (f : CsiRec) (prim : BitVec 2) : List Byte :=
  let ecc1 := if f.ecc1 < 65536 then f.ecc1 else (Config.csiEcc1 f.ecc1).toNat
  leBytes 8 (f.n % 2 ^ 32 + 2 ^ 32 * (f.lines % 65536) + 2 ^ 48 * f.flags.toNat + 2 ^ 52 * (decide (f.crcFails ≠ 0)).toNat +
      2 ^ 53 * (decide (f.memFail ≠ 0)).toNat + 2 ^ 54 * prim.toNat + 2 ^ 56 * f.memFail.toNat) ++
    leBytes 8 f.tfs.toNat ++ leBytes 8 f.tfe.toNat ++ leBytes 8 (ecc1 + 65536 * (f.crcFails % 65536))

/-- CSI_FRAME_RECORD: once every line write of the oldest closed frame has ended, its record is written, whose end raises the
receiver's source (R383, R402, R414). -/
def execCsiFrameRecord (r : Nat) (s : State) : Host.Outcome State Fault Refusal :=
  match (csiOf s r).closed with
  | [] => .next s
  | f :: rest =>
    if !drvUp s || drvWriting s .csiLine r f.n then .next s
    else
      let bs := csiRecord f (csiOf s r).primRes
      let s := modCsi s r fun c => { c with closed := rest, primRes := 0 }
      .next (drvWrite s .csiRecord r f.n (regAddr s (Reg.drvCsiRecLo r) / 32 * 32 + f.n % csiSlots s r * 32) bs false)

/-- CSI_FS_TIMEOUT: no FS within DRV_CSI_DL; it logs again after each further DRV_CSI_DL (R384). -/
def execCsiFsTimeout (r : Nat) (s : State) : Host.Outcome State Fault Refusal :=
  let t := (csiOf s r).lastFs + (reg s (Reg.drvCsiDl r)).toNat
  when s (csiRuns s r && decide (t ≤ now s))
    (drvRaise (drvLog (modCsi s r fun c => { c with lastFs := t }) 0x05 0 1 r) (4 + r) (flag s Reg.drvOwn r))

/-- A write of DRV_CSI_CFG: other fields only while EN = 0; setting EN starts at frame 0 (R380, R403). -/
def csiCfgWrite (s : State) (r : Nat) (v : Word) : State × Nat :=
  let off := Reg.drvCsiCfg r
  let was := flag s off 0
  let s := storeFields s off (if was then putBit (reg s off) 0 (bit v 0) else v)
  if !was && bit v 0 then
    (modCsi s r fun c => { c with frame := 0, cur := none, dropping := false, closed := [], lastFs := now s }, 0)
  else (s, 0)

/-- CSI_LANES_STOP_STATE (R402). -/
def execCsiLanesStopState (r : Nat) (s : State) : Host.Outcome State Fault Refusal :=
  when s (decide (r < 4) && drvUp s) (setFlag s Reg.drvReady (2 + r) true)

/-! ### Primer lines (R409 to R414) -/

/-- `k` further words of the generator from a state, little-endian (R80, R410). -/
def primerWords : Nat → Word → List Byte
  | 0, _ => []
  | k + 1, x => leBytes 4 (nextRandom x).toNat ++ primerWords k (nextRandom x)

/-- The payload of the primer of frame `n` (R410). -/
def primerPayload (s : State) (r n len : Nat) : List Byte :=
  let x := reg s (Reg.drvPrmSeed r) ^^^ BitVec.ofNat 32 n
  (primerWords ((len + 3) / 4) (if x = 0 then 1 else x)).take len

/-- The primer of frame `n` is spoiled (R412). -/
def primerSpoiled (n : Nat) : Bool := decide (n % 16 = 15)

/-- The kind of a spoiled primer (R412). -/
def primerKind (n : Nat) : Nat := n / 16 % 4

/-- Payload bytes with the bit that kinds 0 and 1 spoil inverted (R412). -/
def spoilBit (n : Nat) (bs : List Byte) : List Byte :=
  let p := n / 16 % (8 * bs.length)
  bs.mapIdx fun i b => if i = p / 8 then b ^^^ BitVec.ofNat 8 (2 ^ (p % 8)) else b

/-- The payload that kind 0 leaves in the primer area, and every other kind's that is not poisoned (R412, R414). -/
def primerExpected (s : State) (r n len : Nat) : List Byte :=
  let bs := primerPayload s r n len
  padTo (roundLine len) (if primerSpoiled n && decide (primerKind n = 0) then spoilBit n bs else bs)

/-- The readback of the primer is to be poisoned: the receiver's CRC check or its header ECC is to reject it (R412). -/
def primerPoisons (n : Nat) : Bool := primerSpoiled n && (decide (primerKind n = 1) || decide (primerKind n = 2))

/-- The receiver's ECC and CRC outcome that R412 expects for the primer of frame `n`. -/
def primerReaction (n : Nat) : HeaderEcc × Bool :=
  if !primerSpoiled n then (.clean, true)
  else if primerKind n = 1 then (.clean, false)
  else if primerKind n = 2 then (.uncorrectable, true)
  else if primerKind n = 3 then (.corrected, true)
  else (.clean, true)

/-- The packet header of a primer line, bit 0 of its first byte lowest: the receiver's DT and VC, then the word count (R409,
R412; log entry 30). -/
def primerHeader (s : State) (r : Nat) : BitVec 24 :=
  let cfg := reg s (Reg.drvCsiCfg r)
  BitVec.ofNat 24 (bits cfg 10 5 + 64 * bits cfg 4 3 + 256 * csiBytes s r)

/-- The header bits that the primer of frame `n` is fed inverted (R412). -/
def primerFlips (n : Nat) : BitVec 24 :=
  let q := n / 16 % 24
  if !primerSpoiled n then 0
  else if primerKind n = 2 then BitVec.ofNat 24 (2 ^ q + 2 ^ ((q + 1) % 24))
  else if primerKind n = 3 then BitVec.ofNat 24 (2 ^ q)
  else 0

/-- The header that the decoder goes on with: its single-bit correction restores one inverted bit (R379, R412). -/
def primerSeen (s : State) (r n : Nat) (ecc : HeaderEcc) : BitVec 24 :=
  if ecc = .corrected ∧ primerKind n = 3 then primerHeader s r else primerHeader s r ^^^ primerFlips n

/-- The payload of the primer of frame `n` as it is fed (R410, R412). -/
def primerFed (s : State) (r n : Nat) : List Byte :=
  let bs := primerPayload s r n (csiBytes s r)
  if primerSpoiled n && decide (primerKind n ≤ 1) then spoilBit n bs else bs

/-- The line writer gets the primer's packet: the decoder discards one whose header it cannot correct, and one of another
channel or type (R379, R382, R411). -/
def primerArrives (s : State) (r n : Nat) (ecc : HeaderEcc) : Bool :=
  ecc != .uncorrectable && decide ((primerSeen s r n ecc).toNat % 256 = (primerHeader s r).toNat % 256)

/-- A primer injected after the FE of frame `n` and written to the primer area: as the decoder leaves it, as poisoned lines
where its CRC failed or no packet reaches the line writer (R382, R409, R411, R412; log entry 30). -/
def primerInject (s : State) (r n : Nat) (ecc : HeaderEcc) (crcOk : Bool) : State :=
  let len := csiBytes s r
  let a := regAddr s (Reg.drvPrmBaseLo r) + n % csiSlots s r * csiStride s r
  let s := modCsi s r fun c => { c with primers := c.primers ++ [⟨n, a, len, ecc, crcOk, false, none⟩] }
  let there := primerArrives s r n ecc
  let bs :=
    if there then padTo (roundLine len) ((primerFed s r n).take ((primerSeen s r n ecc).toNat / 256))
    else poisonBytes a (roundLine len)
  drvWrite s .primerWrite r n a bs (!there || !crcOk)

/-- CSI_FRAME_END: FE closes the frame, and a primer follows unless the frame was dropped. `ecc` and `crcOk` are what the
receiver's header ECC and payload CRC find in the primer's packet (R377, R382, R409, R413). -/
def execCsiFrameEnd (r : Nat) (stamp : DWord) (ecc : HeaderEcc) (crcOk : Bool) (s : State) : Host.Outcome State Fault Refusal :=
  let s1 := csiClose s r (stampNear s 20 20 stamp) false
  when s (csiRuns s r)
    (match (csiOf s r).cur with
    | some f => if flag s (Reg.drvPrmCfg r) 0 then primerInject s1 r f.n ecc crcOk else s1
    | none => s1)

/-- PRIMER_READBACK: once the primer's line writes have ended, its area is read back line by line (R413). -/
def execPrimerReadback (r : Nat) (s : State) : Host.Outcome State Fault Refusal :=
  match (csiOf s r).primers.find? fun p => p.read.isNone with
  | none => .next s
  | some p =>
    if !drvUp s || drvWriting s .primerWrite r p.n then .next s
    else
      match drvRead s .primerRead r p.n 64 p.addr (roundLine p.len) with
      | (s, none) => .next s
      | (s, some l) => .next (modCsi s r fun c => { c with
          primers := c.primers.map fun q => if q.n = p.n then { q with read := some l } else q })

/-- The receiver's outcome for a primer is the expected one; a packet that is discarded for its header has no payload CRC
(R412, R414). -/
def reactionSame (p : Primer) : Bool :=
  let want := primerReaction p.n
  decide (p.ecc = want.1) && (decide (p.ecc = .uncorrectable) || p.crcOk == want.2)

/-- The part of a spoiled primer's expected reaction that is the receiver's has occurred, whatever else it flagged (R412,
R413). -/
def reactionThere (p : Primer) : Bool :=
  if primerKind p.n = 1 then decide (p.ecc ≠ .uncorrectable) && !p.crcOk
  else if primerKind p.n = 2 then decide (p.ecc = .uncorrectable)
  else if primerKind p.n = 3 then decide (p.ecc = .corrected)
  else reactionSame p

/-- PRIMER_CHECK_COMPLETE: the readback compared, the result counted, reported and kept for the next frame record (R412 to
R414, R420). -/
def execPrimerCheckComplete (r : Nat) (s : State) : Host.Outcome State Fault Refusal :=
  match (csiOf s r).primers with
  | [] => .next s
  | p :: rest =>
    match p.read with
    | none => .next s
    | some l =>
      let mem := p.mem || l.any fun x => decide (x.2 ≠ 0) && decide (x.2 ≠ 0x02)
      let same :=
        if primerPoisons p.n then l.all fun x => decide (x.2 = 0x02)
        else (l.all fun x => decide (x.2 = 0)) && decide (readBytes l = primerExpected s r p.n p.len)
      let sp := primerSpoiled p.n
      let res : BitVec 2 :=
        if same && reactionSame p && !mem then 1 else if sp && !(same && reactionThere p) then 3 else 2
      let s1 := modCsi s r fun c => { c with primers := rest, primRes := res }
      let off := Reg.drvPrmStat r
      let detail := (if sp then primerKind p.n + 4 else 0) + 8 * (!reactionSame p).toNat + 16 * (!same).toNat + 32 * mem.toNat
      when s (drvUp s)
        (if res = 1 then countFld s1 off 15 0
        else if res = 3 then safeCause (drvRaise (drvLog (countFld s1 off 31 24) 0x10 detail 1 r) 0x18 true) 1
        else safeCause (drvRaise (drvLog (countFld s1 off 23 16) 0x0F detail 1 r) 0x17 true) 0)

/-- A write of DRV_PRM_CFG: EN = 1 has no effect while LINE_BYTES exceeds 8,192 (R409). -/
def prmCfgWrite (s : State) (r : Nat) (v : Word) : State × Nat :=
  if bit v 0 && decide (8192 < csiBytes s r) then (s, 0) else (storeFields s (Reg.drvPrmCfg r) v, 0)

end Sys2Proof.Machine
end

