-- ==== Sys2Proof/Machine/Ether.lean ====
section
/-! DEFINITION. The Ethernet ports: descriptor rings, reception, transmission and the gate control list (R385 to R387,
R407). -/

namespace Sys2Proof.Machine

/-! ### Descriptor rings (R386, R407): rings 0 to 7 transmit, 8 to 11 receive -/

/-- The port runs: it is enabled, and the Drover runs. -/
def ethRuns (s : State) (p : Nat) : Bool := decide (p < 2) && drvUp s && flag s (Reg.drvEthCtl p) 0

/-- The write-back of the descriptor at HEAD has not ended: HEAD advances when it has (R407). -/
def ringWaits (s : State) (p ring : Nat) : Bool := drvWriting s .ethBack p ring

/-- The ring is in use and some descriptor belongs to the port. -/
def ringHas (s : State) (p ring : Nat) : Bool :=
  flag s (Reg.drvEthRingcfg p ring) 31 &&
    decide (ringHead s p ring ≠ fld s (Reg.drvEthRingtail p ring) 15 0 % ringSize s p ring)

/-- The address of the descriptor at HEAD; the ring's base is 32-byte aligned. -/
def descAddr (s : State) (p ring : Nat) : Nat :=
  (reg s (Reg.drvEthRingbase p ring)).toNat / 32 * 32 + 2 ^ 32 * fld s (Reg.drvEthRingcfg p ring) 15 0 + 32 * ringHead s p ring

/-- Word 0 of a descriptor. -/
def descW0 (d : List Byte) : DWord := BitVec.ofNat 64 (leNat (d.take 8))

/-- The write-back of the descriptor at HEAD, with OWN = 0; word 2 is written where a time is given (R386, R407). -/
def ethWriteBack (s : State) (p : Nat) (b : EthBack) : State :=
  let a := descAddr s p b.ring
  let w0 := (descW0 b.desc).toNat % 2 ^ 63
  let w1 := b.len % 2 ^ 14 + 2 ^ 16 * b.status.toNat + 2 ^ 24 * (b.pcp % 8)
  let w2 := match b.stamp with
    | some t => leBytes 8 t.toNat
    | none => []
  drvWrite s .ethBack p b.ring a (leBytes 8 w0 ++ leBytes 8 w1 ++ w2) false

/-- The lengths of a frame from its destination address to its FCS that a port supports (R385). -/
def frameLenOk (n : Nat) : Bool := decide (64 ≤ n) && decide (n ≤ 9216)

/-! ### The fields of a frame (R385, R386, R407; IEEE 802.3 and 802.1Q, log entry 62) -/

/-- The destination address, its first byte lowest. -/
def frameDest (f : EthFrame) : Nat := leNat (f.bytes.take 6)

/-- The two bytes at a place of a frame, the first one highest. -/
def framePair (f : EthFrame) (i : Nat) : Nat := 256 * (nth f.bytes i 0).toNat + (nth f.bytes (i + 1) 0).toNat

/-- The frame carries an 802.1Q tag. -/
def frameTagged (f : EthFrame) : Bool := decide (framePair f 12 = 0x8100)

/-- EtherType. -/
def frameType (f : EthFrame) : Nat := if frameTagged f then framePair f 16 else framePair f 12

/-- PCP: 0 without a tag. -/
def framePcp (f : EthFrame) : Nat := if frameTagged f then framePair f 14 / 2 ^ 13 else 0

/-- The address filter passes a frame: to the station address, or to a group, of which broadcast is one (R407). -/
def frameAddressed (s : State) (p : Nat) (f : EthFrame) : Bool :=
  (frameDest f).testBit 0 ||
    decide (frameDest f = (reg s (Reg.drvEthMacLo p)).toNat + 2 ^ 32 * ((reg s (Reg.drvEthMacHi p)).toNat % 2 ^ 16))

/-! ### Reception (R385, R386, R407) -/

/-- A frame that no descriptor takes. -/
def rxDrop (s : State) (p : Nat) : State := countSat (modEth s p fun e => { e with rx := e.rx.drop 1 }) (Reg.drvEthRxdrop p)

/-- The receive ring of a frame (R386). -/
def rxRing (s : State) (p : Nat) (f : EthFrame) : Nat :=
  let k := framePcp f
  8 + if frameType f = 0x88F7 then 0 else fld s (Reg.drvEthRxmap p) (2 * k + 1) (2 * k)

/-- The write-back that waits for its frame's buffer writes follows once they have ended; its own end raises the port's
receive source (R386, R402). -/
def rxFinish (s : State) (p : Nat) : State :=
  match (ethOf s p).back with
  | none => s
  | some b => if drvWriting s .ethRx p b.ring || ringWaits s p b.ring then s else ethWriteBack s p b

/-- The oldest received frame goes on as far as the memory port allows: a descriptor that the port does not own is written
back and skipped, a frame that finds none, or too small a one, is discarded and counted (R386, R407). -/
def rxStep : Nat → State → Nat → State
  | 0, s, _ => s
  | k + 1, s, p =>
    let s := rxFinish s p
    match (ethOf s p).rx with
    | [] => s
    | f :: _ =>
      let ring := rxRing s p f
      if (ethOf s p).back.isSome || ringWaits s p ring then s
      else if !ringHas s p ring then rxStep k (rxDrop s p) p
      else
        match drvRead s .ethRx p ring 128 (descAddr s p ring) 32 with
        | (s, none) => s
        | (s, some l) =>
          let d := readBytes l
          let w := descW0 d
          if readStatus l ≠ 0 then rxStep k (rxDrop s p) p
          else if !bit w 63 then rxStep k (ethWriteBack s p ⟨ring, d, 0x0B, 0, 0, none⟩) p
          else if bits w 61 48 < f.bytes.length then rxStep k (rxDrop s p) p
          else
            let s := modEth s p fun e => { e with back := some ⟨ring, d, 0, f.bytes.length, framePcp f, some f.stamp⟩ }
            rxStep k (drvWrite s .ethRx p ring (bits w 47 0) f.bytes false) p

/-- Steps that empty a port's queue of received frames, whatever its rings hold. -/
def rxFuel (s : State) (p : Nat) : Nat := 2 * (ethOf s p).rx.length + 32768

/-- The received frames of a port go on. -/
def rxPump (s : State) (p : Nat) : State := if (ethOf s p).rx.isEmpty then s else rxStep (rxFuel s p) s p

/-- The stamp of a received frame: within its duration at 0.8 ns for each byte, to 4 ns (R377). -/
def rxStamp (s : State) (f : EthFrame) : DWord := stampNear s (4 + (8 * (f.bytes.length + 8) + 9) / 10) 4 f.stamp

/-- ETH_RX_FRAME: a frame of an unsupported length is discarded (R377, R385, R386, R407; log entry 62). -/
def execEthRxFrame (p : Nat) (f : EthFrame) (s : State) : Host.Outcome State Fault Refusal :=
  when s (ethRuns s p)
    (if !f.fcsOk then countSat s (Reg.drvEthFcserr p)
    else if !frameLenOk f.bytes.length then s
    else if !frameAddressed s p f && !flag s (Reg.drvEthCtl p) 1 then countSat s (Reg.drvEthFilt p)
    else rxPump (modEth s p fun e => { e with rx := e.rx ++ [{ f with stamp := rxStamp s f }] }) p)

/-! ### Register writes (R407) -/

/-- A write of DRV_ETH_CTL or DRV_ETH_MAC: PROMISC and the address only while EN = 0. -/
def ethCtlWrite (s : State) (p : Nat) (v : Word) : State × Nat :=
  let off := Reg.drvEthCtl p
  (storeFields s off (if flag s off 0 then putBit (reg s off) 0 (bit v 0) else v), 0)

/-- A write of a ring's configuration: ADDR and LOG2N only while EN = 0; HEAD becomes 0 when EN is set. -/
def ringCfgWrite (s : State) (p ring : Nat) (v : Word) : State × Nat :=
  let off := Reg.drvEthRingcfg p ring
  let was := flag s off 31
  let s := storeFields s off (if was then putBit (reg s off) 31 (bit v 31) else v)
  (if !was && bit v 31 then setReg s (Reg.drvEthRinghead p ring) 0 else s, 0)

/-- ETH_RING_ENABLE (R407). -/
def execEthRingEnable (o : Origin) (p ring : Nat) (v : Word) (s : State) : Host.Outcome State Fault Refusal :=
  let v := putBit v 31 true
  when s (decide (p < 2) && decide (ring < 12)) (writeAt s o (Reg.drvEthRingcfg p ring) v (ringCfgWrite s p ring v)).1

/-- ETH_TX_DOORBELL: a write of TAIL hands descriptors to the port (R386, R407). -/
def execEthTxDoorbell (o : Origin) (p ring : Nat) (v : Word) (s : State) : Host.Outcome State Fault Refusal :=
  when s (decide (p < 2) && decide (ring < 12))
    (writeAt s o (Reg.drvEthRingtail p ring) v (plainWrite s (Reg.drvEthRingtail p ring) v, 0)).1

/-! ### The gate control list (R387, R407) -/

/-- The bank in force. -/
def gclBank (s : State) (p : Nat) : Nat := (flag s (Reg.drvEthGclctl p) 2).toNat

/-- Entries of a bank. -/
def gclLen (s : State) (p b : Nat) : Nat := if b = 0 then fld s (Reg.drvEthGclctl p) 14 8 else fld s (Reg.drvEthGclctl p) 22 16

/-- INTERVAL of an entry. -/
def gclInterval (s : State) (p b e : Nat) : Nat := fld s (Reg.drvEthGcl p b e) 31 8

/-- CYCLE of a bank. -/
def gclCycle (s : State) (p b : Nat) : Nat := ((List.range (gclLen s p b)).map (gclInterval s p b)).sum

/-- The gate control list governs the port's gates: enabled, its first cycle begun. -/
def gclRuns (s : State) (p : Nat) : Bool := flag s (Reg.drvEthGclctl p) 0 && (ethOf s p).running

/-- The gate of class `c` is open in an entry of the bank in force. -/
def gateOpen (s : State) (p c e : Nat) : Bool := flag s (Reg.drvEthGcl p (gclBank s p) e) c

/-- The bank cannot take over: an entry within its LEN has INTERVAL 0 (R407). -/
def bankBad (s : State) (p b : Nat) : Bool := (List.range (gclLen s p b)).any fun e => decide (gclInterval s p b e = 0)

/-- The gate of class `c`, open in entry `e` of bank `b` that ends at `t`, stays open until tenths of nanoseconds `until'`;
`arm` says that a swap to the other bank waits for a cycle start at or after SWAPT (R387, R407). -/
def gateHolds (s : State) (p c until' : Nat) : Nat → Nat → Bool → Nat → Nat → Bool
  | 0, _, _, _, _ => true
  | k + 1, b, arm, e, t =>
    if until' ≤ 10 * t then true
    else
      let wraps := decide (gclLen s p b ≤ e + 1)
      let due := wraps && arm && decide (reg64 s (Reg.drvEthSwaptLo p) ≤ t)
      let b' := if due && !bankBad s p (1 - b) then 1 - b else b
      let e' := if wraps then 0 else e + 1
      flag s (Reg.drvEthGcl p b' e') c && gateHolds s p c until' k b' (arm && !due) e' (t + gclInterval s p b' e')

/-- A frame of LEN bytes may begin now: the gate is open until it has ended, at 0.8 ns for each byte and 20 more (R387). The
longest frame outlasts fewer entries of 1 ns and more than the search looks at. -/
def gateFits (s : State) (p c len : Nat) : Bool :=
  let e := ethOf s p
  !gclRuns s p ||
    (gateOpen s p c e.entry &&
      gateHolds s p c (10 * now s + 8 * (len + 20)) 8192 (gclBank s p) (flag s (Reg.drvEthGclctl p) 3) e.entry e.edgeAt)

/-- The longest run of open time that starts at entry `e`, in nanoseconds; none where every entry is open. -/
def openRun (s : State) (p c : Nat) : Nat → Nat → Option Nat
  | 0, _ => none
  | k + 1, e =>
    if !gateOpen s p c e then some 0
    else
      let e' := if gclLen s p (gclBank s p) ≤ e + 1 then 0 else e + 1
      (openRun s p c k e').map (gclInterval s p (gclBank s p) e + ·)

/-- A frame longer than every open interval of its gate never fits (R387). -/
def neverFits (s : State) (p c len : Nat) : Bool :=
  let n := gclLen s p (gclBank s p)
  gclRuns s p && (List.range n).all fun e =>
    match openRun s p c n e with
    | none => false
    | some t => decide (10 * t < 8 * (len + 20))

/-- The end of the current entry, or the start of the first cycle, has come. -/
def edgeDue (s : State) (p : Nat) : Bool := flag s (Reg.drvEthGclctl p) 0 && decide ((ethOf s p).edgeAt ≤ now s)

/-- That edge starts a cycle. -/
def edgeStarts (s : State) (p : Nat) : Bool :=
  !(ethOf s p).running || decide (gclLen s p (gclBank s p) ≤ (ethOf s p).entry + 1)

/-- That edge is the cycle start at which an armed swap is due. -/
def swapDue (s : State) (p : Nat) : Bool :=
  flag s (Reg.drvEthGclctl p) 3 && edgeStarts s p && decide (reg64 s (Reg.drvEthSwaptLo p) ≤ (ethOf s p).edgeAt)

/-- Entry `e` of the bank in force applies from `t` (R387). -/
def enterEntry (s : State) (p e t : Nat) : State :=
  modEth s p fun x => { x with
    running := true
    cycleAt := if e = 0 then t else x.cycleAt
    entry := e
    edgeAt := t + gclInterval s p (gclBank s p) e }

/-- GATE_EDGE: an entry's interval ends and the next entry's gates apply (R387). -/
def execGateEdge (p : Nat) (s : State) : Host.Outcome State Fault Refusal :=
  when s (decide (p < 2) && drvUp s && edgeDue s p && !swapDue s p)
    (enterEntry s p (if edgeStarts s p then 0 else (ethOf s p).entry + 1) (ethOf s p).edgeAt)

/-- GCL_SWAP: at the first cycle start at or after SWAPT the other bank takes over, unless an entry of it has INTERVAL 0
(R387, R407). -/
def execGclSwap (p : Nat) (s : State) : Host.Outcome State Fault Refusal :=
  let off := Reg.drvEthGclctl p
  let t := (ethOf s p).edgeAt
  let b := 1 - gclBank s p
  let s1 := setFlag s off 3 false
  when s (decide (p < 2) && drvUp s && edgeDue s p && swapDue s p)
    (if bankBad s p b then enterEntry (drvLog s1 0x0B 0 2 p) p 0 t
    else enterEntry (setReg64 (setFlag s1 off 2 (b = 1)) (Reg.drvEthGclbaseLo p) t) p 0 t)

/-- A write of DRV_ETH_GCLCTL: LEN of the bank in force only while GCLEN = 0; setting GCLEN starts cycles at the first cycle
start from now; SWAP arms a swap (R407). -/
def gclCtlWrite (s : State) (p : Nat) (v : Word) : State × Nat :=
  let off := Reg.drvEthGclctl p
  let old := reg s off
  let was := bit old 0
  let v' := if was then if bit old 2 then putBits v 22 16 (bits old 22 16) else putBits v 14 8 (bits old 14 8) else v
  let s := storeFields s off v'
  let s := if bit v 1 && !bit old 3 then setFlag s off 3 true else s
  if !was && bit v 0 then
    let base := reg64 s (Reg.drvEthGclbaseLo p)
    let cyc := gclCycle s p (gclBank s p)
    let start := if now s ≤ base then base else if cyc = 0 then now s else base + (now s - base + cyc - 1) / cyc * cyc
    (modEth s p fun x => { x with running := false, cycleAt := start, entry := 0, edgeAt := start }, 0)
  else (s, 0)

/-- GCL_ENABLE (R407). -/
def execGclEnable (o : Origin) (p : Nat) (s : State) : Host.Outcome State Fault Refusal :=
  let v := putBit (reg s (Reg.drvEthGclctl p)) 1 false ||| 1
  when s (decide (p < 2)) (writeAt s o (Reg.drvEthGclctl p) v (gclCtlWrite s p v)).1

/-- GCL_SWAP_ARM (R407). -/
def execGclSwapArm (o : Origin) (p : Nat) (s : State) : Host.Outcome State Fault Refusal :=
  let v := reg s (Reg.drvEthGclctl p) ||| 2
  when s (decide (p < 2)) (writeAt s o (Reg.drvEthGclctl p) v (gclCtlWrite s p v)).1

/-- A write of an entry of a gate control list, or of its BASE, that GCLEN shuts out (R407). -/
def gclLocked (s : State) (p off : Nat) : Bool :=
  let o := off - Reg.drvEthCtl p
  flag s (Reg.drvEthGclctl p) 0 &&
    (decide (o = 0x1C4) || decide (o = 0x1C8) || (decide (0x200 ≤ o) && decide ((o - 0x200) / 0x100 = gclBank s p)))

/-! ### Transmission (R386, R387, R407) -/

/-- What transmission finds at the head of class `c`'s ring: nothing to do, or a state to go to; a descriptor completes with
its write-back. A frame of an unsupported length is not sent (R377, R385 to R387, R407; log entry 62). -/
def txClass (s : State) (p c : Nat) (stamp : DWord) : Option State :=
  if !ringHas s p c || ringWaits s p c then none
  else
    match drvRead s .ethRx p c 128 (descAddr s p c) 32 with
    | (s, none) => some s
    | (s1, some l) =>
      let d := readBytes l
      let w := descW0 d
      let len := bits w 61 48
      if readStatus l ≠ 0 then some (ethWriteBack s1 p ⟨c, d, readStatus l, 0, 0, none⟩)
      else if !bit w 63 || !frameLenOk len || neverFits s p c len then some (ethWriteBack s1 p ⟨c, d, 0x0B, 0, 0, none⟩)
      else if !gateFits s p c len then none
      else
        match drvRead s1 .ethTx p c 128 (bits w 47 0) len with
        | (s, none) => some s
        | (s, some l) =>
          let st := readStatus l
          let stamp := stampNear s 4 (4 + (8 * (len + 20) + 9) / 10) stamp
          some (ethWriteBack s p ⟨c, d, st, 0, 0, if st = 0 && bit w 62 then some stamp else none⟩)

/-- The first of the classes from `c` − 1 down with something to do. -/
def txPick (s : State) (p : Nat) (stamp : DWord) : Nat → State
  | 0 => s
  | c + 1 =>
    match txClass s p c stamp with
    | some s => s
    | none => txPick s p stamp c

/-- ETH_TX_FRAME: the highest class whose frame may begin is sent and its descriptor written back (R387, R407). -/
def execEthTxFrame (p : Nat) (stamp : DWord) (s : State) : Host.Outcome State Fault Refusal :=
  when s (ethRuns s p) (txPick s p stamp 8)

/-- ETH_BLOCK_LOCK (R402). -/
def execEthBlockLock (p : Nat) (up : Bool) (s : State) : Host.Outcome State Fault Refusal :=
  when s (decide (p < 2) && drvUp s) (setFlag s Reg.drvReady (6 + p) up)

end Sys2Proof.Machine
end

