-- ==== Sys2Proof/Machine/CanBus.lean ====
section
/-! DEFINITION. The CAN FD ports, and what follows the end of a memory-port access (R374, R388, R408). -/

namespace Sys2Proof.Machine

/-! ### Mailboxes (R388, R408) -/

/-- A CAN port beside its registers. -/
def canOf (s : State) (c : Nat) : Can := sget s.drv.can c Can.reset

/-- A CAN port changed. -/
def modCan (s : State) (c : Nat) (f : Can → Can) : State := modDrv s fun d => { d with can := sput d.can c (f (canOf s c)) }

/-- The port takes part in its bus: error active or error passive (R408). -/
def canRuns (s : State) (c : Nat) : Bool :=
  decide (c < 4) && drvUp s && flag s (Reg.drvCanCtl c) 0 && decide (fld s (Reg.drvCanStat c) 1 0 ≤ 1)

/-- A mailbox in progress. -/
def canMb (s : State) (c m : Nat) : Option CanMb := ((canOf s c).mbs.find? fun e => e.1 == m).map Prod.snd

/-- A mailbox in progress changed. -/
def modMb (s : State) (c m : Nat) (f : CanMb → CanMb) : State :=
  modCan s c fun x => { x with mbs := x.mbs.map fun e => if e.1 = m then (e.1, f e.2) else e }

/-- What an identifier is worth in arbitration, lowest first: the base identifier, then a standard frame before an extended
one (R408). -/
def canKey (w : Word) : Nat :=
  if bit w 29 then bits w 28 18 * 2 ^ 19 + 2 ^ 18 + bits w 17 0 else bits w 10 0 * 2 ^ 19

/-- The mailbox a port offers: of those in arbitration the one whose identifier wins, then the lowest (R408). -/
def canOffer (s : State) (c : Nat) : Option Nat :=
  (canOf s c).mbs.foldl (fun best e =>
    if !e.2.launched then best
    else
      match best with
      | none => some e.1
      | some b => if canKey (reg s (Reg.drvCanMbId c e.1)) < canKey (reg s (Reg.drvCanMbId c b)) then some e.1 else best) none

/-- The port's offer made to the bus it takes part in. -/
def canArbitrate (s : State) (c : Nat) : State :=
  match canOffer s c with
  | none => s
  | some m => if canRuns s c then modMb s c m fun x => { x with offered := true } else s

/-- The port leaves its bus: it offers nothing any more (R388, R408). -/
def canLeave (s : State) (c : Nat) : State :=
  modCan s c fun x => { x with mbs := x.mbs.map fun e => (e.1, { e.2 with offered := false }) }

/-- DRV_CAN_STAT of a port that takes part in its bus, with its error counters: error passive above 127 (R388, R408; log
entry 48). -/
def canCount (s : State) (c tec rec : Nat) : State :=
  setReg s (Reg.drvCanStat c) (BitVec.ofNat 32 ((decide (127 < tec) || decide (127 < rec)).toNat + 256 * tec + 65536 * rec))

/-- TEC of a port. -/
def canTec (s : State) (c : Nat) : Nat := fld s (Reg.drvCanStat c) 15 8

/-- REC of a port. -/
def canRec (s : State) (c : Nat) : Nat := fld s (Reg.drvCanStat c) 23 16

/-- A mailbox completes with a status (R408). -/
def canComplete (s : State) (c m : Nat) (st : Byte) : State :=
  let off := Reg.drvCanMbCtl c m
  let s := setFld (setFlag s off 10 false) off 23 16 st.toNat
  let s := modDrv s fun d => { d with access := d.access.filter fun x => !x.isOf .canRead c m }
  canArbitrate (modCan s c fun x => { x with mbs := sdrop x.mbs (· == m) }) c

/-- The lengths a frame may have (R408). -/
def canLenOk (len : Nat) (fdf : Bool) : Bool := decide (len ≤ 8) || (fdf && [12, 16, 20, 24, 32, 48, 64].contains len)

/-- The payload of a mailbox arrives: a failure completes it, otherwise the frame enters arbitration at once, or waits for
its TIME (R408). -/
def canPayload (s : State) (c m : Nat) : State :=
  match canMb s c m with
  | none => s
  | some x =>
    if x.payload.isSome then s
    else
      match drvRead s .canRead c m 128 (regAddr s (Reg.drvCanMbBufLo c m)) (fld s (Reg.drvCanMbCtl c m) 6 0) with
      | (s, none) => s
      | (s, some l) =>
        if readStatus l ≠ 0 then canComplete s c m (readStatus l)
        else
          let timed := flag s (Reg.drvCanMbCtl c m) 8
          canArbitrate (modMb s c m fun x => { x with payload := some (readBytes l), launched := !timed }) c

/-- A write of a mailbox's CTL word: REQ has no effect while PEND = 1, otherwise it submits the mailbox (R408). -/
def canCtlWrite (s : State) (c m : Nat) (v : Word) : State × Nat :=
  let off := Reg.drvCanMbCtl c m
  if !bit v 9 then (storeFields s off v, 0)
  else if flag s off 10 then (s, 0)
  else
    let s := setFlag (storeFields s off v) off 10 true
    let s := modCan s c fun x => { x with mbs := sput x.mbs m ⟨now s, none, false, false⟩ }
    let len := fld s off 6 0
    if canLenOk len (flag s (Reg.drvCanMbId c m) 30) then
      if len = 0 then
        (canArbitrate (modMb s c m fun x => { x with payload := some [], launched := !flag s off 8 }) c, 0)
      else (canPayload s c m, 0)
    else (canComplete s c m 0x0B, 0)

/-- CAN_MB_REQ (R408). -/
def execCanMbReq (o : Origin) (c m : Nat) (s : State) : Host.Outcome State Fault Refusal :=
  let v := reg s (Reg.drvCanMbCtl c m) ||| 0x200
  when s (decide (c < 4) && decide (m < 16)) (writeAt s o (Reg.drvCanMbCtl c m) v (canCtlWrite s c m v)).1

/-- CAN_MB_LAUNCH: a timed mailbox reaches its TIME and enters arbitration (R388, R408). -/
def execCanMbLaunch (c m : Nat) (s : State) : Host.Outcome State Fault Refusal :=
  match canMb s c m with
  | none => .next s
  | some x =>
    when s (drvUp s && x.payload.isSome && !x.launched && decide (reg64 s (Reg.drvCanMbTimeLo c m) ≤ now s))
      (canArbitrate (modMb s c m fun x => { x with launched := true }) c)

/-- CAN_TX_DONE: a frame that its port has offered to the bus is sent after `errs` attempts that ended in an error, and its
mailbox completes with OK. Each error counts 8 in TEC, the frame takes 1 off (R388, R408; log entry 48). -/
def execCanTxDone (c m errs : Nat) (s : State) : Host.Outcome State Fault Refusal :=
  let tec := canTec s c + 8 * errs
  match canMb s c m with
  | none => .next s
  | some x =>
    when s (canRuns s c && x.launched && x.offered && decide (tec ≤ 255))
      (canComplete (canCount s c (tec - 1) (canRec s c)) c m 0)

/-- CAN_MB_TIMEOUT: a mailbox not sent within DL is withdrawn (R388, R408). -/
def execCanMbTimeout (c m : Nat) (s : State) : Host.Outcome State Fault Refusal :=
  match canMb s c m with
  | none => .next s
  | some x => when s (drvUp s && decide (x.reqAt + (reg s (Reg.drvCanMbDl c m)).toNat ≤ now s)) (canComplete s c m 0x05)

/-! ### Reception (R388, R408) -/

/-- The ID word of a frame (R408). -/
def canIdWord (f : CanFrame) : Word :=
  BitVec.ofNat 32 (f.id.toNat + 2 ^ 29 * f.ide.toNat + 2 ^ 30 * f.fdf.toNat + 2 ^ 31 * f.brs.toNat)

/-- The receive registers show the head of the FIFO (R408). -/
def canShow (s : State) (c : Nat) : State :=
  let l := (canOf s c).fifo
  let s := setFld s (Reg.drvCanRxstat c) 6 0 l.length
  let put := fun (s : State) (id info : Word) (t : Nat) (bs : List Byte) =>
    let s := setReg64 (setReg (setReg s (Reg.drvCanRxfId c) id) (Reg.drvCanRxfInfo c) info) (Reg.drvCanRxfTimeLo c) t
    (List.range 16).foldl (fun s i => setReg s (Reg.drvCanRxfData c i) (BitVec.ofNat 32 (leNat ((bs.drop (4 * i)).take 4)))) s
  match l with
  | [] => put s 0 0 0 []
  | (f, k) :: _ => put s (canIdWord f) (BitVec.ofNat 32 (f.bytes.length % 128 + 256 * k + 2 ^ 31)) f.stamp.toNat f.bytes

/-- The lowest enabled filter that a frame matches (R408). -/
def canFilter (s : State) (c : Nat) (f : CanFrame) : Option Nat :=
  (List.range 32).find? fun k =>
    let w := reg s (Reg.drvCanFltW0 c k)
    let m := bits (reg s (Reg.drvCanFltW1 c k)) 28 0
    bit w 31 && bit w 29 == f.ide && decide ((f.id.toNat ^^^ bits w 28 0) &&& m = 0)

/-- REC after `errs` errors of reception and a good frame, which takes 1 off, or ends error passivity (R388; log entry
48). -/
def recAfter (s : State) (c errs : Nat) : Nat :=
  let rec' := Nat.min 255 (canRec s c + errs)
  if 127 < rec' then 119 + Config.canRecDrop s.tb % 9 else rec' - 1

/-- CAN_RX_FRAME: a good frame after `errs` errors of reception, stamped at its start (R377, R388, R408). -/
def execCanRxFrame (c : Nat) (f : CanFrame) (errs : Nat) (s : State) : Host.Outcome State Fault Refusal :=
  let f := { f with stamp := stampNear s (now s) 25 f.stamp }
  let s0 := s
  let s := canCount s c (canTec s c) (recAfter s c errs)
  when s0 (canRuns s0 c)
    (match canFilter s c f with
    | none => s
    | some k =>
      if 64 ≤ (canOf s c).fifo.length then countFld s (Reg.drvCanRxstat c) 31 16
      else drvRaise (canShow (modCan s c fun x => { x with fifo := x.fifo ++ [(f, k)] }) c) 0x13 (flag s Reg.drvOwn (6 + c)))

/-- A write of DRV_CAN_RXPOP (R408). -/
def canPopWrite (s : State) (c : Nat) (v : Word) : State × Nat :=
  let s := setW1s s (Reg.drvCanRxpop c) v
  if bit v 0 then (canShow (modCan s c fun x => { x with fifo := x.fifo.drop 1 }) c, 0) else (s, 0)

/-- CAN_RX_POP (R408). -/
def execCanRxPop (o : Origin) (c : Nat) (s : State) : Host.Outcome State Fault Refusal :=
  when s (decide (c < 4)) (writeAt s o (Reg.drvCanRxpop c) 1 (canPopWrite s c 1)).1

/-! ### The bus (R388, R402, R408) -/

/-- A write of DRV_CAN_CTL: clearing EN stops the port (R408). -/
def canEnWrite (s : State) (c : Nat) (v : Word) : State × Nat :=
  let s := storeFields s (Reg.drvCanCtl c) v
  (if flag s (Reg.drvCanCtl c) 0 then s
  else canLeave (setFlag (setFld s (Reg.drvCanStat c) 1 0 3) Reg.drvReady (8 + c) false) c, 0)

/-- CAN_BUS_INTEGRATION: the port takes part in its bus, with its error counters at 0 (R388, R402, R408). -/
def execCanBusIntegration (c : Nat) (s : State) : Host.Outcome State Fault Refusal :=
  when s (decide (c < 4) && drvUp s && flag s (Reg.drvCanCtl c) 0 && decide (fld s (Reg.drvCanStat c) 1 0 = 3))
    (canArbitrate (setFlag (canCount s c 0 0) Reg.drvReady (8 + c) true) c)

/-- CAN_BUS_OFF: TEC has passed the 255 that its field holds (R388, R408; log entry 48). -/
def execCanBusOff (c : Nat) (s : State) : Host.Outcome State Fault Refusal :=
  when s (canRuns s c)
    (drvRaise (drvLog (canLeave (setFld (setFld s (Reg.drvCanStat c) 1 0 2) (Reg.drvCanStat c) 15 8 255) c) 0x08 0 3 c) 0x14
      (flag s Reg.drvOwn (6 + c)))

/-- CAN_BUS_OFF_RECOVERY: the error counters start again at 0 (R388). -/
def execCanBusOffRecovery (c : Nat) (s : State) : Host.Outcome State Fault Refusal :=
  when s (decide (c < 4) && drvUp s && flag s (Reg.drvCanCtl c) 0 && flag s (Reg.drvCanCtl c) 1 && decide (fld s (Reg.drvCanStat c) 1 0 = 2))
    (canArbitrate (canCount s c 0 0) c)

/-! ### Ends of memory-port accesses (R374) -/

/-- What waited for the memory port goes on: accesses not yet sent, received frames, mailbox payloads. -/
def drvPump (s : State) : State :=
  let s := rxPump (rxPump (drvRetry s) 0) 1
  (List.range 4).foldl (fun s c => (canOf s c).mbs.foldl (fun s e => canPayload s c e.1) s) s

/-- One step with no command waiting: time passes, and what waits for the memory port tries again (R30, R374; log entry
2). -/
def idle (s : State) : State := drvPump (tick s)

/-- Another chip answers an access of the port (R225, R374). -/
def droverAnswer (s : State) (id : Nat) (bytes : List Byte) (st : Nat) : State := drvPump (drvEnd s id bytes (BitVec.ofNat 8 st))

/-- A write that its CXL device has not answered may have performed there (R279; log entry 23). -/
def drvMaybeWrite (s : State) (x : DrvAccess) : State :=
  match x.reached, x.write with
  | some _, some (bs, pz) => if Config.cxlPerformed s.tb x.addr then writeData s x.addr bs pz else s
  | _, _ => s

/-- DRV_MEM_DEADLINE: access `k` of the port has had no acknowledgement within DRV_MEM.DL, or no response of its CXL device
within that device's deadline; what has not left for another chip leaves no more (R225, R279, R361, R374). -/
def execDrvMemDeadline (k : Nat) (s : State) : Host.Outcome State Fault Refusal :=
  match s.drv.access[k]? with
  | none => .next s
  | some x =>
    when s (drvUp s && x.result.isNone &&
        (decide (x.issued + (reg s Reg.drvMemDl).toNat ≤ now s) || cxlLate s x.addr x.reached))
      (droverAnswer (linkForget (drvMaybeWrite s x) (.drover x.id)) x.id [] 0x05)

end Sys2Proof.Machine
end

