-- ==== Sys2Proof/Machine/Scalar.lean ====
section
/-! DEFINITION. The scalar arithmetic instructions (R91 to R93). -/

namespace Sys2Proof.Machine

/-- An instruction that reads `srcs` and whose one result goes to `rd`: the value is written and the instruction commits,
or it is held behind older instructions (R69, R70). -/
def writeRd (s : State) (h : Hart) (srcs : List GReg) (rd : GReg) (v : Word) : Host.Outcome State Fault Refusal :=
  follow s h srcs rd v ((thr s h).pc + 4) (issue s h (.ok (retire (setGreg s h rd v) h)))

/-- ADD (R92). -/
def execAdd (h : Hart) (rd rs1 rs2 : GReg) (s : State) : Host.Outcome State Fault Refusal :=
  writeRd s h [rs1, rs2] rd (greg s h rs1 + greg s h rs2)

/-- SUB (R92). -/
def execSub (h : Hart) (rd rs1 rs2 : GReg) (s : State) : Host.Outcome State Fault Refusal :=
  writeRd s h [rs1, rs2] rd (greg s h rs1 - greg s h rs2)

/-- AND (R92). -/
def execAnd (h : Hart) (rd rs1 rs2 : GReg) (s : State) : Host.Outcome State Fault Refusal :=
  writeRd s h [rs1, rs2] rd (greg s h rs1 &&& greg s h rs2)

/-- OR (R92). -/
def execOr (h : Hart) (rd rs1 rs2 : GReg) (s : State) : Host.Outcome State Fault Refusal :=
  writeRd s h [rs1, rs2] rd (greg s h rs1 ||| greg s h rs2)

/-- XOR (R92). -/
def execXor (h : Hart) (rd rs1 rs2 : GReg) (s : State) : Host.Outcome State Fault Refusal :=
  writeRd s h [rs1, rs2] rd (greg s h rs1 ^^^ greg s h rs2)

/-- SLL: register shifts use rs2[4:0] (R92, R93). -/
def execSll (h : Hart) (rd rs1 rs2 : GReg) (s : State) : Host.Outcome State Fault Refusal :=
  writeRd s h [rs1, rs2] rd (greg s h rs1 <<< ((greg s h rs2).toNat % 32))

/-- SRL (R92, R93). -/
def execSrl (h : Hart) (rd rs1 rs2 : GReg) (s : State) : Host.Outcome State Fault Refusal :=
  writeRd s h [rs1, rs2] rd (greg s h rs1 >>> ((greg s h rs2).toNat % 32))

/-- SRA (R92, R93). -/
def execSra (h : Hart) (rd rs1 rs2 : GReg) (s : State) : Host.Outcome State Fault Refusal :=
  writeRd s h [rs1, rs2] rd ((greg s h rs1).sshiftRight ((greg s h rs2).toNat % 32))

/-- SLT (R92). -/
def execSlt (h : Hart) (rd rs1 rs2 : GReg) (s : State) : Host.Outcome State Fault Refusal :=
  writeRd s h [rs1, rs2] rd (if (greg s h rs1).toInt < (greg s h rs2).toInt then 1 else 0)

/-- SLTU (R92). -/
def execSltu (h : Hart) (rd rs1 rs2 : GReg) (s : State) : Host.Outcome State Fault Refusal :=
  writeRd s h [rs1, rs2] rd (if (greg s h rs1).toNat < (greg s h rs2).toNat then 1 else 0)

/-- MIN, signed (R92). -/
def execMin (h : Hart) (rd rs1 rs2 : GReg) (s : State) : Host.Outcome State Fault Refusal :=
  writeRd s h [rs1, rs2] rd (if (greg s h rs1).toInt < (greg s h rs2).toInt then greg s h rs1 else greg s h rs2)

/-- MAX, signed (R92). -/
def execMax (h : Hart) (rd rs1 rs2 : GReg) (s : State) : Host.Outcome State Fault Refusal :=
  writeRd s h [rs1, rs2] rd (if (greg s h rs1).toInt < (greg s h rs2).toInt then greg s h rs2 else greg s h rs1)

/-- MINU (R92). -/
def execMinu (h : Hart) (rd rs1 rs2 : GReg) (s : State) : Host.Outcome State Fault Refusal :=
  writeRd s h [rs1, rs2] rd (if (greg s h rs1).toNat < (greg s h rs2).toNat then greg s h rs1 else greg s h rs2)

/-- MAXU (R92). -/
def execMaxu (h : Hart) (rd rs1 rs2 : GReg) (s : State) : Host.Outcome State Fault Refusal :=
  writeRd s h [rs1, rs2] rd (if (greg s h rs1).toNat < (greg s h rs2).toNat then greg s h rs2 else greg s h rs1)

/-- MUL: the low 32 bits (R92). -/
def execMul (h : Hart) (rd rs1 rs2 : GReg) (s : State) : Host.Outcome State Fault Refusal :=
  writeRd s h [rs1, rs2] rd (greg s h rs1 * greg s h rs2)

/-- MULH: the signed high 32 bits (R92). -/
def execMulh (h : Hart) (rd rs1 rs2 : GReg) (s : State) : Host.Outcome State Fault Refusal :=
  writeRd s h [rs1, rs2] rd (wordOf ((greg s h rs1).toInt * (greg s h rs2).toInt / 2 ^ 32))

/-- MULHU: the unsigned high 32 bits (R92). -/
def execMulhu (h : Hart) (rd rs1 rs2 : GReg) (s : State) : Host.Outcome State Fault Refusal :=
  writeRd s h [rs1, rs2] rd (BitVec.ofNat 32 ((greg s h rs1).toNat * (greg s h rs2).toNat / 2 ^ 32))

/-- CLZ (R92, R93). -/
def execClz (h : Hart) (rd rs1 : GReg) (s : State) : Host.Outcome State Fault Refusal :=
  writeRd s h [rs1] rd (BitVec.ofNat 32 (leadingZeros (greg s h rs1)))

/-- POPC (R92, R93). -/
def execPopc (h : Hart) (rd rs1 : GReg) (s : State) : Host.Outcome State Fault Refusal :=
  writeRd s h [rs1] rd (BitVec.ofNat 32 (popCount (greg s h rs1)))

/-- ADDI: imm14 is sign-extended (R93). -/
def execAddi (h : Hart) (rd rs1 : GReg) (imm : BitVec 14) (s : State) : Host.Outcome State Fault Refusal :=
  writeRd s h [rs1] rd (greg s h rs1 + sext imm)

/-- SLTI: imm14 is sign-extended (R93). -/
def execSlti (h : Hart) (rd rs1 : GReg) (imm : BitVec 14) (s : State) : Host.Outcome State Fault Refusal :=
  writeRd s h [rs1] rd (if (greg s h rs1).toInt < imm.toInt then 1 else 0)

/-- SLTIU: unsigned against the sign-extended imm14 (R93). -/
def execSltiu (h : Hart) (rd rs1 : GReg) (imm : BitVec 14) (s : State) : Host.Outcome State Fault Refusal :=
  writeRd s h [rs1] rd (if (greg s h rs1).toNat < (sext imm).toNat then 1 else 0)

/-- ANDI: imm14 is zero-extended (R93). -/
def execAndi (h : Hart) (rd rs1 : GReg) (imm : BitVec 14) (s : State) : Host.Outcome State Fault Refusal :=
  writeRd s h [rs1] rd (greg s h rs1 &&& zext imm)

/-- ORI: imm14 is zero-extended (R93). -/
def execOri (h : Hart) (rd rs1 : GReg) (imm : BitVec 14) (s : State) : Host.Outcome State Fault Refusal :=
  writeRd s h [rs1] rd (greg s h rs1 ||| zext imm)

/-- XORI: imm14 is zero-extended (R93). -/
def execXori (h : Hart) (rd rs1 : GReg) (imm : BitVec 14) (s : State) : Host.Outcome State Fault Refusal :=
  writeRd s h [rs1] rd (greg s h rs1 ^^^ zext imm)

/-- SLLI (R93). -/
def execSlli (h : Hart) (rd rs1 : GReg) (sh : BitVec 5) (s : State) : Host.Outcome State Fault Refusal :=
  writeRd s h [rs1] rd (greg s h rs1 <<< sh.toNat)

/-- SRI: arithmetic where imm14[5] is 1 (R93). -/
def execSri (h : Hart) (rd rs1 : GReg) (arith : Bool) (sh : BitVec 5) (s : State) :
    Host.Outcome State Fault Refusal :=
  writeRd s h [rs1] rd (if arith then (greg s h rs1).sshiftRight sh.toNat else greg s h rs1 >>> sh.toNat)

/-- LUI: imm22 × 2^10 (R91). -/
def execLui (h : Hart) (rd : GReg) (imm : BitVec 22) (s : State) : Host.Outcome State Fault Refusal :=
  writeRd s h [] rd (zext imm <<< 10)

/-- AUIPC: the instruction's address plus imm22 × 2^10 (R91). -/
def execAuipc (h : Hart) (rd : GReg) (imm : BitVec 22) (s : State) : Host.Outcome State Fault Refusal :=
  writeRd s h [] rd ((thr s h).pc + (zext imm <<< 10))

end Sys2Proof.Machine
end

