-- ==== Sys2Proof/Machine/Control.lean ====
section
/-! DEFINITION. Control transfers and register windows (R50 to R57, R73, R90, R95, R454). -/

namespace Sys2Proof.Machine

/-- A conditional branch on two registers: the HT bit changes only the cost (R69, R73, R90). -/
def branchIf (s : State) (h : Hart) (rs1 rs2 : GReg) (c : Bool) (disp : BitVec 13) : Host.Outcome State Fault Refusal :=
  let pc := (thr s h).pc
  follow s h [rs1, rs2] 0 0 (if c then branchTarget pc disp else pc + 4)
    (issue s h (.ok (if c then retireTo s h (branchTarget pc disp) else retire s h)))

/-- BEQ (R73, R92). -/
def execBeq (h : Hart) (_ht : Bool) (rs1 rs2 : GReg) (disp : BitVec 13) (s : State) :
    Host.Outcome State Fault Refusal :=
  branchIf s h rs1 rs2 (decide (greg s h rs1 = greg s h rs2)) disp

/-- BNE (R73, R92). -/
def execBne (h : Hart) (_ht : Bool) (rs1 rs2 : GReg) (disp : BitVec 13) (s : State) :
    Host.Outcome State Fault Refusal :=
  branchIf s h rs1 rs2 (decide (greg s h rs1 ≠ greg s h rs2)) disp

/-- BLT, signed (R73, R92). -/
def execBlt (h : Hart) (_ht : Bool) (rs1 rs2 : GReg) (disp : BitVec 13) (s : State) :
    Host.Outcome State Fault Refusal :=
  branchIf s h rs1 rs2 (decide ((greg s h rs1).toInt < (greg s h rs2).toInt)) disp

/-- BGE, signed (R73, R92). -/
def execBge (h : Hart) (_ht : Bool) (rs1 rs2 : GReg) (disp : BitVec 13) (s : State) :
    Host.Outcome State Fault Refusal :=
  branchIf s h rs1 rs2 (decide ((greg s h rs2).toInt ≤ (greg s h rs1).toInt)) disp

/-- BLTU (R73, R92). -/
def execBltu (h : Hart) (_ht : Bool) (rs1 rs2 : GReg) (disp : BitVec 13) (s : State) :
    Host.Outcome State Fault Refusal :=
  branchIf s h rs1 rs2 (decide ((greg s h rs1).toNat < (greg s h rs2).toNat)) disp

/-- BGEU (R73, R92). -/
def execBgeu (h : Hart) (_ht : Bool) (rs1 rs2 : GReg) (disp : BitVec 13) (s : State) :
    Host.Outcome State Fault Refusal :=
  branchIf s h rs1 rs2 (decide ((greg s h rs2).toNat ≤ (greg s h rs1).toNat)) disp

/-- JMP (R90). -/
def execJmp (h : Hart) (disp : BitVec 25) (s : State) : Host.Outcome State Fault Refusal :=
  let t := branchTarget (thr s h).pc disp
  follow s h [] 0 0 t (issue s h (.ok (retireTo s h t)))

/-- CALL: the return address goes to g15 (R50, R90). -/
def execCall (h : Hart) (disp : BitVec 25) (s : State) : Host.Outcome State Fault Refusal :=
  let t := branchTarget (thr s h).pc disp
  follow s h [] 15 ((thr s h).pc + 4) t (issue s h (.ok (retireTo (setGreg s h 15 ((thr s h).pc + 4)) h t)))

/-- The trap of a call with every window resident, or of a return with one resident: `tr` at level 0, double overflow
with `eval` at the levels above (R53, R54, R57). -/
def windowTrap (s : State) (h : Hart) (tr : Trap) (eval : Word) : Trap :=
  if (thr s h).level = 0 then tr else trapDouble eval

/-- A windowed call to `target` (R53, R57). -/
def windowCall (s : State) (h : Hart) (target : Word) : Res :=
  let t := thr s h
  if t.resident = 8 then .trap s (windowTrap s h trapWinOver 0)
  else
    let s := modThr s h fun t =>
      (t.setWstat (t.cwp + 1) (t.resident + 1)).setWinReg (t.cwp + 1) 15 (t.pc + 4)
    .ok (retireTo s h target)

/-- CALLW (R53, R57). -/
def execCallw (h : Hart) (disp : BitVec 25) (s : State) : Host.Outcome State Fault Refusal :=
  issue s h (windowCall s h (branchTarget (thr s h).pc disp))

/-- DBNZ: rc of g0 is illegal (R95). -/
def execDbnz (h : Hart) (rc : GReg) (disp : BitVec 22) (s : State) : Host.Outcome State Fault Refusal :=
  let v := greg s h rc - 1
  let s' := setGreg s h rc v
  let t := branchTarget (thr s h).pc disp
  let now := issue s h (firstTrap s [(rc == 0, trapIllegal (insnWord (.dbnz h rc disp)))]
    (.ok (if v = 0 then retire s' h else retireTo s' h t)))
  if rc = 0 then now else follow s h [rc] rc v (if v = 0 then (thr s h).pc + 4 else t) now

/-- JR: a misaligned target traps (R454). -/
def execJr (h : Hart) (rs1 : GReg) (s : State) : Host.Outcome State Fault Refusal :=
  let t := greg s h rs1
  let now := issue s h (firstTrap s [(t &&& 3 != 0, trapMisaligned t)] (.ok (retireTo s h t)))
  if t &&& 3 = 0 then follow s h [rs1] 0 0 t now else now

/-- CALLR (R50, R454). -/
def execCallr (h : Hart) (rs1 : GReg) (s : State) : Host.Outcome State Fault Refusal :=
  let t := greg s h rs1
  let r := (thr s h).pc + 4
  let now := issue s h (firstTrap s [(t &&& 3 != 0, trapMisaligned t)] (.ok (retireTo (setGreg s h 15 r) h t)))
  if t &&& 3 = 0 then follow s h [rs1] 15 r t now else now

/-- CALLWR: misaligned comes before window overflow (R53, R453, R454). -/
def execCallwr (h : Hart) (rs1 : GReg) (s : State) : Host.Outcome State Fault Refusal :=
  let t := greg s h rs1
  issue s h (firstTrap s [(t &&& 3 != 0, trapMisaligned t)] (windowCall s h t))

/-- RETW: the target is w15 of the current window; a misaligned one traps before an underflow does (R54, R57, R453, R454;
DEDUCED for one resident window, log entry 15). -/
def execRetw (h : Hart) (s : State) : Host.Outcome State Fault Refusal :=
  let t := thr s h
  let target := t.winReg t.cwp 15
  issue s h (firstTrap s
    [(target &&& 3 != 0, trapMisaligned target), (decide (t.resident ≤ 1), windowTrap s h trapWinUnder 1)]
    (.ok (retireTo (modThr s h fun t => t.setWstat (t.cwp + 7) (t.resident - 1)) h target)))

end Sys2Proof.Machine
end

