-- ==== Sys2Proof/Machine/FieldIo.lean ====
section
/-! DEFINITION. Field supply, digital inputs, encoders, ADC channels and safe outputs (R389 to R400, R404 to R406). -/

namespace Sys2Proof.Machine

/-! ### Field supply (R389, R391) -/

/-- The state a sample of VFIELD shows while the supply is not OK; none where it keeps the one it has (R389). -/
def vfieldShows (mv : Int) : Option Nat :=
  if mv < -5000 then some 4 else if mv ≤ 5000 then some 3 else if mv ≤ 18000 then some 1 else if 32000 < mv then some 2 else none

/-- DETAIL of a change to a state that is not OK (R389). -/
def vfieldDetail (st : Nat) : Nat := if st = 3 then 4 else if st = 4 then 3 else st

/-- The INVALID flags of the encoders, and of the ADC channels in current mode (R391, R405, R406). -/
def showInvalid (s : State) : State :=
  let bad := !vfieldOk s
  let s := (List.range 4).foldl (fun s e => setFlag s (Reg.drvEncStat e) 2 bad) s
  (List.range 8).foldl (fun s a => setFlag s (Reg.drvAdcStat a) 2 (bad && flag s (Reg.drvAdcCfg a) 1)) s

/-- DRV_VFIELD.STATE changed, with its report and what it means for inputs and outputs (R389, R391, R399, R402). -/
def setVfield (s : State) (st : Nat) : State :=
  if fld s Reg.drvVfield 18 16 = st then s
  else
    let s := setFlag (setFld s Reg.drvVfield 18 16 st) Reg.drvReady 12 (st = 0)
    let s := if st = 0 then s else drvLog s 0x14 (vfieldDetail st) 8 0
    drvRaise s 0x0F true

/-! ### What a digital input reads (R391 to R394, R404) -/

/-- An input reads its pin: VFIELD is OK, and the input is neither masked nor open (R391 to R394). -/
def dinLive (s : State) (i : Nat) : Bool := vfieldOk s && !flag s Reg.drvDinStuck i && !flag s Reg.drvDinOpen i

/-- The logical value of an input: SAFEVAL while it does not read its pin, otherwise its raw level, inverted with INV (R391 to
R394). -/
def dinValue (s : State) (i : Nat) : Bool :=
  let cfg := reg s (Reg.drvDinCfg i)
  if dinLive s i then bit s.drv.dinRaw i != bit cfg 16 else bit cfg 19

/-- Since when each input has read on at its pin: now for one that just came to, nothing for one that does not (R393). -/
def dinSettle (s : State) : State :=
  modDrv s fun d => { d with
    dinOnAt := (List.range 16).foldl (fun m i =>
      if dinLive s i && dinValue s i then (if m.any fun e => e.1 == i then m else sput m i (now s))
      else sdrop m (· == i)) d.dinOnAt }

/-- VFIELD_SAMPLE (R389, R391). -/
def execVfieldSample (mv : BitVec 16) (s : State) : Host.Outcome State Fault Refusal :=
  let v := mv.toInt
  let inBand := decide (19000 ≤ v) && decide (v ≤ 31000)
  let since := if !inBand then none else match s.drv.okSince with
    | some t => some t
    | none => if 19000 < v then some (now s) else none
  let held := match since with
    | some t => decide (t + 10000000 ≤ now s)
    | none => false
  let st := fld s Reg.drvVfield 18 16
  let st' := if st = 0 then if 18000 ≤ v ∧ v ≤ 32000 then 0 else (vfieldShows v).getD 1
    else if held then 0 else (vfieldShows v).getD st
  let s1 := modDrv (setFld s Reg.drvVfield 15 0 mv.toNat) fun d => { d with okSince := since }
  when s (drvUp s) (dinSettle (showInvalid (forceOutputs (setVfield s1 st'))))

/-! ### Digital inputs (R392 to R394, R404) -/

/-- An input is masked as stuck (R393). -/
def dinStick (s : State) (i : Nat) : State :=
  dinSettle (drvRaise (drvLog (setFlag s Reg.drvDinStuck i true) 0x14 0x11 4 i) 0x09 true)

/-- A change recorded in the event FIFO, which raises 0x08 when it stops being empty (R392, R402). -/
def dinRecord (s : State) (ev : DinEvent) : State :=
  if 64 ≤ s.drv.dinFifo.length then modDrv s fun d => { d with dinOvf := satInc d.dinOvf }
  else
    let s' := modDrv s fun d => { d with dinFifo := d.dinFifo ++ [ev] }
    if s.drv.dinFifo.isEmpty then drvRaise s' 0x08 true else s'

/-- The number of the storm window that the time base is in: windows of DRV_DIN_WIN µs from multiples of that length
(R393). -/
def dinWindow (s : State) : Nat := now s / (1000 * fld s Reg.drvDinWin 15 0)

/-- The changes to on of each input in the present window (R393). -/
def dinCounts (s : State) : Sparse Nat := if s.drv.dinWin = dinWindow s then s.drv.dinCnt else []

/-- A change from off to on counts towards STORM (R393). -/
def dinOn (s : State) (i : Nat) : State :=
  let n := sget (dinCounts s) i 0 + 1
  let s := modDrv s fun d => { d with dinCnt := sput (dinCounts s) i n, dinWin := dinWindow s }
  let lim := fld s (Reg.drvDinCfg i) 15 10
  if decide (lim ≠ 0) && decide (n = lim) then dinStick s i else s

/-- A run of samples of input `i` from `t` on has held for DEB × 10 µs, and began after the run before it (R392). -/
def dinHeld (s : State) (i : Nat) (t : DWord) : Bool :=
  decide (sget s.drv.dinRun i 0 ≤ t.toNat) && decide (t.toNat + 10000 * fld s (Reg.drvDinCfg i) 9 0 ≤ now s)

/-- DIN_CHANGE: a raw level that has held for DEB changes the logical value; `stamp` is the time of the run's first sample.
Nothing is recorded of an input that reads SAFEVAL (R377, R392, R393). -/
def execDinChange (i : Nat) (raw : Bool) (stamp : DWord) (s : State) : Host.Outcome State Fault Refusal :=
  let s1 := modDrv s fun d => { d with
    dinRaw := if raw then d.dinRaw ||| BitVec.ofNat 16 (2 ^ i) else d.dinRaw &&& ~~~BitVec.ofNat 16 (2 ^ i)
    dinRun := sput d.dinRun i stamp.toNat }
  let v := dinValue s1 i
  when s (decide (i < 16) && drvUp s && dinHeld s i stamp)
    (if dinValue s i = v then s1
    else
      let s2 := dinSettle (dinRecord s1 ⟨i, v, stamp⟩)
      if v then dinOn s2 i else s2)

/-- DIN_STORM_WINDOW_END: the counts of a window that has ended are dropped (R393). -/
def execDinStormWindowEnd (s : State) : Host.Outcome State Fault Refusal :=
  when s (decide (s.drv.dinWin ≠ dinWindow s)) (modDrv s fun d => { d with dinCnt := [], dinWin := dinWindow s })

/-- DIN_HIGHMAX: an input that has been on for HIGHMAX ms is masked (R393). -/
def execDinHighmax (i : Nat) (s : State) : Host.Outcome State Fault Refusal :=
  let h := fld s (Reg.drvDinCfg i) 31 20
  when s (decide (i < 16) && drvUp s && decide (h ≠ 0) && dinLive s i && dinValue s i &&
      decide (sget s.drv.dinOnAt i (now s) + 1000000 * h ≤ now s))
    (dinStick s i)

/-- DIN_OPEN (R394). -/
def execDinOpen (i : Nat) (s : State) : Host.Outcome State Fault Refusal :=
  when s (decide (i < 16) && drvUp s && flag s (Reg.drvDinCfg i) 17)
    (dinSettle (drvRaise (drvLog (setFlag s Reg.drvDinOpen i true) 0x14 0x10 4 i) 0x09 true))

/-- DIN_OPEN_CLEAR (R394). -/
def execDinOpenClear (i : Nat) (s : State) : Host.Outcome State Fault Refusal :=
  when s (decide (i < 16) && drvUp s) (dinSettle (setFlag s Reg.drvDinOpen i false))

/-- A write of a digital input's configuration, or of DRV_DIN_STUCK, which ends masks (R393, R404). -/
def dinWrite (s : State) (off : Nat) (v : Word) : State × Nat := (dinSettle (plainWrite s off v), 0)

/-- A read of DRV_DIN_EVT0: it pops the event FIFO and latches the entry's TIME (R404). -/
def dinEvtRead (s : State) : State × Word :=
  match s.drv.dinFifo with
  | [] => (s, 0)
  | e :: r =>
    (setReg64 (modDrv s fun d => { d with dinFifo := r }) Reg.drvDinEvt1 e.stamp.toNat,
      BitVec.ofNat 32 (e.input % 16 + 16 * e.value.toNat + 2 ^ 31))

/-- DIN_EVT_READ (R404). -/
def execDinEvtRead (s : State) : Host.Outcome State Fault Refusal :=
  let (s1, w) := dinEvtRead s
  when s (drvUp s) { s1 with barData := w }

/-! ### Encoders (R395, R405) -/

/-- An encoder counts: enabled, VFIELD OK (R391, R405). -/
def encRuns (s : State) (e : Nat) : Bool := decide (e < 4) && drvUp s && vfieldOk s && flag s (Reg.drvEncCfg e) 0

/-- The levels of an encoder's inputs. -/
def encLevels (s : State) (e : Nat) : Bool × Bool := (bit s.drv.encA e, bit s.drv.encB e)

/-- The levels of an encoder's inputs changed. -/
def setEncLevels (s : State) (e : Nat) (a b : Bool) : State :=
  let m := BitVec.ofNat 4 (2 ^ e)
  modDrv s fun d => { d with
    encA := if a then d.encA ||| m else d.encA &&& ~~~m
    encB := if b then d.encB ||| m else d.encB &&& ~~~m }

/-- The levels of an encoder have held since `t` for FILT Drover cycles of 2 ns, and changed after the edge before (R22,
R395). -/
def encHeld (s : State) (e : Nat) (t : DWord) : Bool :=
  decide (sget s.drv.encAt e 0 ≤ t.toNat) && decide (t.toNat + 2 * fld s (Reg.drvEncCfg e) 7 4 ≤ now s)

/-- An edge at `t` comes less than 100 ns after the encoder's last one (R395). -/
def encEarly (s : State) (e : Nat) (t : DWord) : Bool :=
  (s.drv.encAt.any fun x => x.1 == e) && decide (t.toNat < sget s.drv.encAt e 0 + 100)

/-- ENCODER_EDGE: levels held since `since` are accepted. One legal transition counts, A and B together are illegal, and an
edge less than 100 ns after the last one sets OVERRUN (R395; the direction is log entry 28). -/
def execEncoderEdge (e : Nat) (a b : Bool) (since : DWord) (s : State) : Host.Outcome State Fault Refusal :=
  let (a0, b0) := encLevels s e
  let s1 := modDrv (setEncLevels s e a b) fun d => { d with encAt := sput d.encAt e since.toNat }
  let s2 := if encEarly s e since then setFlag s1 (Reg.drvEncStat e) 0 true else s1
  let up := ((a != a0) == (a0 == b0)) == Config.encUp
  let pos := reg s (Reg.drvEncPos e)
  if a = a0 ∧ b = b0 ∨ 4 ≤ e ∨ drvUp s = false ∨ encHeld s e since = false then .next s
  else if !encRuns s e then .next s1
  else if a ≠ a0 ∧ b ≠ b0 then .next (countSat s2 (Reg.drvEncIllegal e))
  else .next (setReg s2 (Reg.drvEncPos e) (if up then pos + 1 else pos - 1))

/-- ENCODER_Z_EDGE (R377, R395, R405). -/
def execEncoderZEdge (e : Nat) (stamp : DWord) (s : State) : Host.Outcome State Fault Refusal :=
  let stamp := stampNear s 4 4 stamp
  let s1 := setReg s (Reg.drvEncZpos e) (reg s (Reg.drvEncPos e))
  let s1 := setReg (modDrv s1 fun d => { d with encZ := sput d.encZ e stamp }) (Reg.drvEncZtimeLo e) (stamp.setWidth 32)
  when s (encRuns s e) (setFlag s1 (Reg.drvEncStat e) 3 true)

/-- ENCODER_OPEN: a differential pair at one level for 1 ms; not while INVALID (R395, R405). -/
def execEncoderOpen (e : Nat) (s : State) : Host.Outcome State Fault Refusal :=
  when s (decide (e < 4) && drvUp s && vfieldOk s && decide (fld s (Reg.drvEncCfg e) 2 1 = 0))
    (drvRaise (drvLog (setFlag s (Reg.drvEncStat e) 1 true) 0x14 0x30 5 e) 0x0B true)

/-- ENC_POS_WRITE (R405). -/
def execEncPosWrite (o : Origin) (e : Nat) (v : Word) (s : State) : Host.Outcome State Fault Refusal :=
  when s (decide (e < 4)) (writeAt s o (Reg.drvEncPos e) v (plainWrite s (Reg.drvEncPos e) v, 0)).1

/-- A read of the lower word of ZTIME latches the upper one (R405). -/
def encZtimeRead (s : State) (e : Nat) : State × Word :=
  let t := sget s.drv.encZ e 0
  (setReg s (Reg.drvEncZtimeHi e) (BitVec.ofNat 32 (t.toNat / 2 ^ 32)), t.setWidth 32)

/-- ENC_ZTIME_READ (R405). -/
def execEncZtimeRead (e : Nat) (s : State) : Host.Outcome State Fault Refusal :=
  let (s1, w) := encZtimeRead s e
  when s (decide (e < 4) && drvUp s) { s1 with barData := w }

/-- A write of the lower word of DRV_ENC_SNAPT, which arms the snapshot or replaces its time (R405). -/
def snaptWrite (s : State) (v : Word) : State × Nat :=
  (setFlag (plainWrite s Reg.drvEncSnaptLo v) Reg.drvEncSnapstat 0 true, 0)

/-- SNAPT_ARM (R405). -/
def execSnaptArm (o : Origin) (v : Word) (s : State) : Host.Outcome State Fault Refusal :=
  .next (writeAt s o Reg.drvEncSnaptLo v (snaptWrite s v)).1

/-- ENCODER_SNAPSHOT (R395, R405). -/
def execEncoderSnapshot (s : State) : Host.Outcome State Fault Refusal :=
  let s1 := (List.range 4).foldl (fun s e => setReg s (Reg.drvEncSnappos e) (reg s (Reg.drvEncPos e))) s
  let s1 := setFlag (setFlag s1 Reg.drvEncSnapstat 0 false) Reg.drvEncSnapstat 1 true
  when s (drvUp s && flag s Reg.drvEncSnapstat 0 && decide (reg64 s Reg.drvEncSnaptLo ≤ now s)) (drvRaise s1 0x0A true)

/-! ### ADC (R396, R397, R406) -/

/-- An ADC channel beside its registers. -/
def adcOf (s : State) (a : Nat) : Adc := sget s.drv.adc a Adc.reset

/-- An ADC channel changed. -/
def modAdc (s : State) (a : Nat) (f : Adc → Adc) : State := modDrv s fun d => { d with adc := sput d.adc a (f (adcOf s a)) }

/-- The sampling instant that comes next: T0 + k × PERIOD (R396). -/
def adcInstant (s : State) : Nat := reg64 s Reg.drvAdcT0Lo + s.drv.adcK * (reg s Reg.drvAdcPeriod).toNat

/-- The code of a sample of `x` microvolts, or microamperes in current mode: the fraction of full scale in Q1.15, rounded to
the nearest and saturated; no whole number of these units is halfway between two codes (R396). -/
def adcCode (current : Bool) (x : Int) : BitVec 16 :=
  let fs : Int := if current then 25000 else 10000000
  BitVec.ofInt 16 (max (-32768) (min 32767 ((x * 65536 + fs) / (2 * fs))))

/-- What a channel samples (R396, R397). -/
def adcRead (s : State) (a : Nat) (x : Int) : BitVec 16 :=
  let cur := flag s (Reg.drvAdcCfg a) 1
  if cur && !vfieldOk s then 0x8000 else if cur && (adcOf s a).shuntOff.isSome then 0x7FFF else adcCode cur x

/-- A sample goes to its channel's ring: a line of 28 is one write (R396, R406). -/
def adcStore (s : State) (a : Nat) (t : DWord) (v : BitVec 16) : State :=
  if !flag s (Reg.drvAdcCfg a) 0 then s
  else
    let x := adcOf s a
    let x := { x with samples := x.samples ++ [v], first := if x.samples.isEmpty then t else x.first }
    if x.samples.length < 28 then modAdc s a fun _ => x
    else
      let s := modAdc s a fun _ => { x with samples := [] }
      let i := (reg s (Reg.drvAdcWidx a)).toNat
      let addr := regAddr s (Reg.drvAdcBaseLo a) + i % 2 ^ fld s (Reg.drvAdcRing a) 3 0 * 64
      drvWrite (countWrap s (Reg.drvAdcWidx a)) .adc a i addr
        (leBytes 8 x.first.toNat ++ x.samples.flatMap fun w => leBytes 2 w.toNat) false

/-- A sample outside the window raises 0x0C (R396, R402). -/
def adcWindow (s : State) (a : Nat) (v : BitVec 16) : State :=
  let w := reg s (Reg.drvAdcWin a)
  let lo := (BitVec.ofNat 16 (bits w 15 0)).toInt
  let hi := (BitVec.ofNat 16 (bits w 31 16)).toInt
  if v.toInt < lo ∨ hi < v.toInt then drvRaise s 0x0C true else s

/-- ADC_SAMPLE: the eight channels sample together (R396, R397, R406). -/
def execAdcSample (microunits : List Int) (s : State) : Host.Outcome State Fault Refusal :=
  let t := adcInstant s
  let s1 := modDrv s fun d => { d with adcK := d.adcK + 1 }
  when s (drvUp s && flag s Reg.drvAdcCtl 0 && decide (t ≤ now s))
    ((List.range 8).foldl (fun s a =>
      let v := adcRead s a (nth microunits a 0)
      adcStore (adcWindow s a v) a (BitVec.ofNat 64 t) v) s1)

/-- Sampling goes on at the first instant that lies at or after now (R406). -/
def adcStart (s : State) : State :=
  let t0 := reg64 s Reg.drvAdcT0Lo
  let p := (reg s Reg.drvAdcPeriod).toNat
  modDrv s fun d => { d with adcK := if now s ≤ t0 then 0 else (now s - t0 + p - 1) / p }

/-- A write of DRV_ADC_CTL: setting RUN samples from the first instant that lies at or after the write (R406). -/
def adcCtlWrite (s : State) (v : Word) : State × Nat :=
  let was := flag s Reg.drvAdcCtl 0
  let s := storeFields s Reg.drvAdcCtl v
  (if !was && bit v 0 then adcStart s else s, 0)

/-- A write of DRV_ADC_T0 or DRV_ADC_PERIOD: while RUN = 1 the instants are those of the new values from now on (R396, R406;
log entry 63). -/
def adcTimeWrite (s : State) (off : Nat) (v : Word) : State × Nat :=
  let s' := plainWrite s off v
  let same := reg64 s' Reg.drvAdcT0Lo = reg64 s Reg.drvAdcT0Lo ∧ reg s' Reg.drvAdcPeriod = reg s Reg.drvAdcPeriod
  (if flag s Reg.drvAdcCtl 0 ∧ ¬same then adcStart s' else s', 0)

/-- ADC_RUN (R406). -/
def execAdcRun (o : Origin) (s : State) : Host.Outcome State Fault Refusal :=
  .next (writeAt s o Reg.drvAdcCtl 1 (adcCtlWrite s 1)).1

/-- A write of a channel's configuration: setting EN writes 0 to WIDX and starts a new line (R406). -/
def adcCfgWrite (s : State) (a : Nat) (v : Word) : State × Nat :=
  let off := Reg.drvAdcCfg a
  let was := flag s off 0
  let s := storeFields s off v
  let s := setFlag s (Reg.drvAdcStat a) 2 (!vfieldOk s && flag s off 1)
  (if !was && bit v 0 then modAdc (setReg s (Reg.drvAdcWidx a) 0) a fun x => { x with samples := [] } else s, 0)

/-- ADC_ENABLE (R406). -/
def execAdcEnable (o : Origin) (a : Nat) (s : State) : Host.Outcome State Fault Refusal :=
  let v := reg s (Reg.drvAdcCfg a) ||| 1
  when s (decide (a < 8)) (writeAt s o (Reg.drvAdcCfg a) v (adcCfgWrite s a v)).1

/-- The channel is in current mode. -/
def adcCurrent (s : State) (a : Nat) : Bool := decide (a < 8) && drvUp s && flag s (Reg.drvAdcCfg a) 1

/-- ADC_OVERRANGE: above 30 mA the shunt disconnects (R397). -/
def execAdcOverrange (a : Nat) (s : State) : Host.Outcome State Fault Refusal :=
  when s (adcCurrent s a && (adcOf s a).shuntOff.isNone)
    (drvRaise (drvLog (setFlag (modAdc s a fun x => { x with shuntOff := some (now s) }) (Reg.drvAdcStat a) 0 true) 0x14 0x41 6 a)
      0x0D true)

/-- ADC_SHUNT_RECONNECT: 10 ms after the shunt was disconnected (R397). -/
def execAdcShuntReconnect (a : Nat) (s : State) : Host.Outcome State Fault Refusal :=
  match (adcOf s a).shuntOff with
  | none => .next s
  | some t => when s (decide (a < 8) && drvUp s && decide (t + 10000000 ≤ now s)) (modAdc s a fun x => { x with shuntOff := none })

/-- ADC_OPEN: with OWD = 1, below 3.0 mA for 10 ms (R397). -/
def execAdcOpen (a : Nat) (s : State) : Host.Outcome State Fault Refusal :=
  when s (adcCurrent s a && flag s (Reg.drvAdcCfg a) 2)
    (drvRaise (drvLog (setFlag s (Reg.drvAdcStat a) 1 true) 0x14 0x40 6 a) 0x0D true)

/-! ### Safe outputs (R398 to R400, R404) -/

/-- A safe output beside its registers. -/
def doutOf (s : State) (o : Nat) : Dout := sget s.drv.dout o Dout.reset

/-- A safe output changed. -/
def modDout (s : State) (o : Nat) (f : Dout → Dout) : State := modDrv s fun d => { d with dout := sput d.dout o (f (doutOf s o)) }

/-- What an output is commanded to: SAFE while it is forced, off where a test pulse failed, DRV_DOUT_CMD otherwise (R399,
R400). -/
def doutCommand (s : State) (o : Nat) : Bool :=
  if doutForced s o then flag s (Reg.drvDoutCfg o) 0 && !(doutOf s o).failed else flag s Reg.drvDoutCmd o

/-- An output conducts from VFIELD: commanded on, not tripped, VFIELD OK, the Drover out of POR (R391, R398, R399). -/
def doutOn (s : State) (o : Nat) : Bool := doutCommand s o && !(doutOf s o).tripped && vfieldOk s && !s.drv.por

/-- A fault of an output: its flag, its log entry and its route source (R398, R402). -/
def doutFault (s : State) (o b detail : Nat) : State :=
  drvRaise (drvLog (setFlag s (Reg.drvDoutStat o) b true) 0x14 detail 7 o) 0x0E true

/-- A fault that switches an output off (R398). -/
def doutTrip (s : State) (o b detail : Nat) : State :=
  setFlag (doutFault (modDout s o fun x => { x with tripped := true, triedAt := now s }) o b detail) (Reg.drvDoutStat o) 0 false

/-- DOUT_SHORT_TRIP (R398). -/
def execDoutShortTrip (n : Nat) (s : State) : Host.Outcome State Fault Refusal :=
  when s (decide (n < 8) && drvUp s && doutOn s n) (doutTrip s n 2 0x20)

/-- DOUT_OVERTEMP (R398). -/
def execDoutOvertemp (n : Nat) (s : State) : Host.Outcome State Fault Refusal :=
  when s (decide (n < 8) && drvUp s) (doutTrip s n 5 0x23)

/-- DOUT_READBACK: the pin compared with the command. `openFor10ms` says that the load current of an output that is on has
stayed below 10 mA for 10 ms (R398). -/
def execDoutReadback (n : Nat) (pinMv vfMv : Int) (openFor10ms : Bool) (s : State) : Host.Outcome State Fault Refusal :=
  let on := doutOn s n
  let old := flag s (Reg.drvDoutCfg n) 1
  let s1 := setFlag s (Reg.drvDoutStat n) 0 (if on then decide (vfMv - 1000 ≤ pinMv) else decide (10000 < pinMv))
  when s (decide (n < 8) && drvUp s)
    (if on then
      if pinMv < vfMv - 1000 then doutTrip s1 n 2 0x20
      else if old && openFor10ms then doutFault s1 n 4 0x22 else s1
    else if 10000 < pinMv then doutFault s1 n 3 0x21
    else if old && decide (3000 ≤ pinMv) && decide (pinMv ≤ 6000) then doutFault s1 n 4 0x22 else s1)

/-- DOUT_RETRY: with RETRY = 1 a tripped output that is commanded on tries again every RETRY_MS ms (R398). -/
def execDoutRetry (n : Nat) (s : State) : Host.Outcome State Fault Refusal :=
  when s (decide (n < 8) && drvUp s && flag s (Reg.drvDoutCfg n) 2 && doutCommand s n && (doutOf s n).tripped &&
      decide ((doutOf s n).triedAt + 1000000 * fld s (Reg.drvDoutCfg n) 15 8 ≤ now s))
    (modDout s n fun x => { x with tripped := false })

/-- DOUT_TEST_PULSE: every TP ms an output that is on is switched off for 200 µs; where its pin stays at 2.0 V or more it is
forced off (R400). -/
def execDoutTestPulse (n : Nat) (pinMv : Int) (s : State) : Host.Outcome State Fault Refusal :=
  let s1 := modDout s n fun x => { x with pulseAt := now s }
  when s (decide (n < 8) && drvUp s && flag s (Reg.drvDoutCfg n) 16 && doutOn s n &&
      decide ((doutOf s n).pulseAt + 1000000 * fld s (Reg.drvDoutCfg n) 31 24 ≤ now s))
    (if pinMv < 2000 then s1
    else
      let s := s1
      let s := setFlag (modDout s n fun x => { x with failed := true }) (Reg.drvDoutStat n) 1 true
      drvRaise (drvLog s 0x14 0x24 7 n) 0x0E true)

/-- A write of an output's flags: with RETRY = 0 an output whose SHORT and OVERTEMP are clear follows its command again
(R398, R404). -/
def doutStatWrite (s : State) (n : Nat) (v : Word) : State × Nat :=
  let off := Reg.drvDoutStat n
  let s := storeFields s off v
  (if flag s off 2 || flag s off 5 || flag s (Reg.drvDoutCfg n) 2 then s else modDout s n fun x => { x with tripped := false }, 0)

/-- A write of DRV_DOUT_CFG: SAFE = 1 has no effect on an output of an enabled e-stop path; the first test pulse comes TP ms
after TPEN is set (R400, R404, R422; log entry 64). -/
def doutCfgWrite (s : State) (n : Nat) (v : Word) : State × Nat :=
  if bit v 0 && flag s Reg.drvEstopCfg 0 && flag s Reg.drvEstopCfg (16 + n) then (s, 0)
  else
    let s' := storeFields s (Reg.drvDoutCfg n) v
    (if !flag s (Reg.drvDoutCfg n) 16 && flag s' (Reg.drvDoutCfg n) 16 then modDout s' n fun x => { x with pulseAt := now s }
    else s', 0)

/-- A write of DRV_DOUT_CTL: REARM ends the forcing of every output that no cause holds any more (R399). -/
def rearmWrite (s : State) (v : Word) : State × Nat :=
  let s := setW1s s Reg.drvDoutCtl v
  if bit v 0 then
    ((List.range 8).foldl (fun s o =>
      if forceCause s o then s
      else setFlag (modDout s o fun x => { x with failed := false }) (Reg.drvDoutStat o) 1 false) s, 0)
  else (s, 0)

/-- REARM (R399). -/
def execRearm (o : Origin) (s : State) : Host.Outcome State Fault Refusal :=
  .next (writeAt s o Reg.drvDoutCtl 1 (rearmWrite s 1)).1

end Sys2Proof.Machine
end

