-- ==== Sys2Proof/Machine/Estop.lean ====
section
/-! DEFINITION. The digest comparator for twin execution, the deadline watchdogs and the hardware e-stop path (R415 to R422,
R426). -/

namespace Sys2Proof.Machine

/-! ### Twin execution (R415 to R417) -/

/-- A twin pair beside its registers. -/
def twinOf (s : State) (k : Nat) : Twin := sget s.drv.twins k Twin.reset

/-- A twin pair replaced, with the depths its status shows. -/
def setTwin (s : State) (k : Nat) (t : Twin) : State :=
  let off := Reg.drvTwinStat k
  setFld (setFld (modDrv s fun d => { d with twins := sput d.twins k t }) off 19 16 t.fifoA.length) off 23 20 t.fifoB.length

/-- A pair is in FAULT (R416, R417). -/
def twinFaulted (s : State) (k : Nat) : Bool := flag s (Reg.drvTwinStat k) 31

/-- A pair enters FAULT: its report, its route source and safe-state cause 2 (R416, R417, R420). -/
def twinFault (s : State) (k status detail : Nat) : State :=
  safeCause (drvRaise (drvLog (setFlag s (Reg.drvTwinStat k) 31 true) status detail 10 k) 0x19 true) 2

/-- The heads of the two FIFOs compared whenever both hold an entry (R416). -/
def twinCompare (s : State) (k : Nat) : State :=
  let t := twinOf s k
  match t.fifoA, t.fifoB with
  | (a, na) :: ra, (b, nb) :: rb =>
    if a = b then
      let off := Reg.drvTwinStat k
      setTwin (setFld s off 15 0 ((fld s off 15 0 + 1) % 65536)) k ⟨ra, rb, now s⟩
    else twinFault (setReg s (Reg.drvTwinSrc k) (BitVec.ofNat 32 (na % 4096 + 65536 * (nb % 4096)))) k 0x11 0
  | _, _ => s

/-- The courier node of an access. -/
def originNode : Origin → Nat
  | .host => 0xFFF
  | .node src _ => src

/-- A submission of a digest, with the status of its response (R206, R415, R417). -/
def twinWrite (s : State) (o : Origin) (k : Nat) (sideB : Bool) (digest : Word) : State × Nat :=
  if !flag s (Reg.drvTwinCfg k) 0 then (s, 0)
  else if twinFaulted s k then (s, 0x0B)
  else
    let t := twinOf s k
    let mine := if sideB then t.fifoB else t.fifoA
    if 8 ≤ mine.length then (twinFault s k 0x0B 3, 0x0B)
    else
      let since := if t.fifoA.isEmpty && t.fifoB.isEmpty then now s else t.since
      let e := (digest, originNode o)
      let t := if sideB then { t with fifoB := t.fifoB ++ [e], since := since } else { t with fifoA := t.fifoA ++ [e], since := since }
      (twinCompare (setTwin s k t) k, 0)

/-- The register a side submits to. -/
def twinSub (k : Nat) (sideB : Bool) : Nat := if sideB then Reg.drvTwinSubb k else Reg.drvTwinSuba k

/-- TWIN_SUBMIT (R415 to R417). -/
def execTwinSubmit (o : Origin) (k : Nat) (sideB : Bool) (digest : Word) (s : State) : Host.Outcome State Fault Refusal :=
  when s (decide (k < 4)) (writeAt s o (twinSub k sideB) digest (twinWrite s o k sideB digest)).1

/-- TWIN_SKEW_TIMEOUT: one FIFO has held an entry for SKEW ns while the other was empty (R417). -/
def execTwinSkewTimeout (k : Nat) (s : State) : Host.Outcome State Fault Refusal :=
  let t := twinOf s k
  when s (decide (k < 4) && drvUp s && flag s (Reg.drvTwinCfg k) 0 && !twinFaulted s k && (t.fifoA.isEmpty != t.fifoB.isEmpty) &&
      decide (t.since + (reg s (Reg.drvTwinSkew k)).toNat ≤ now s))
    (twinFault s k 0x05 (if t.fifoB.isEmpty then 1 else 2))

/-- A write of DRV_TWIN_CFG: EN = 0 empties both FIFOs and clears FAULT (R417). -/
def twinCfgWrite (s : State) (k : Nat) (v : Word) : State × Nat :=
  let s := storeFields s (Reg.drvTwinCfg k) v
  (if flag s (Reg.drvTwinCfg k) 0 then s else setTwin (setFlag s (Reg.drvTwinStat k) 31 false) k Twin.reset, 0)

/-- TWIN_DISABLE (R417). -/
def execTwinDisable (o : Origin) (k : Nat) (s : State) : Host.Outcome State Fault Refusal :=
  let v := putBit (reg s (Reg.drvTwinCfg k)) 0 false
  when s (decide (k < 4)) (writeAt s o (Reg.drvTwinCfg k) v (twinCfgWrite s k v)).1

/-! ### Deadline watchdogs (R418) -/

/-- A watchdog beside its registers. -/
def wdogOf (s : State) (n : Nat) : Wdog := sget s.drv.wdogs n Wdog.reset

/-- A watchdog replaced. -/
def setWdog (s : State) (n : Nat) (w : Wdog) : State := modDrv s fun d => { d with wdogs := sput d.wdogs n w }

/-- A miss (R418, R420). -/
def wdogMiss (s : State) (n detail : Nat) : State :=
  let s := setWdog (setFlag s (Reg.drvWdStat n) 16 true) n { wdogOf s n with running := false }
  safeCause (drvRaise (drvLog s 0x12 detail 11 n) 0x1A true) 3

/-- A write of DRV_WD_CFG: EN going to 1 arms the watchdog, EN = 0 stops it (R418). -/
def wdCfgWrite (s : State) (n : Nat) (v : Word) : State × Nat :=
  let off := Reg.drvWdCfg n
  let was := flag s off 0
  let s := storeFields s off v
  if !was && bit v 0 then (setWdog (setFld s (Reg.drvWdStat n) 15 0 0) n ⟨now s, true, true⟩, 0)
  else if was && !bit v 0 then (setWdog s n { wdogOf s n with running := false }, 0)
  else (s, 0)

/-- WATCHDOG_ARM (R418). -/
def execWatchdogArm (o : Origin) (n : Nat) (s : State) : Host.Outcome State Fault Refusal :=
  let v := reg s (Reg.drvWdCfg n) ||| 1
  when s (decide (n < 8)) (writeAt s o (Reg.drvWdCfg n) v (wdCfgWrite s n v)).1

/-- A write of DRV_WD_KICK: from another node than KICKER it is no kick; a kick is accepted, or misses in the order of the
table of R418. -/
def wdKickWrite (s : State) (o : Origin) (n : Nat) (v : Word) : State × Nat :=
  let cfg := reg s (Reg.drvWdCfg n)
  if originNode o ≠ bits cfg 15 4 then (s, 0x07)
  else
    let w := wdogOf s n
    if !w.running then (s, 0)
    else
      let seq := fld s (Reg.drvWdStat n) 15 0
      if w.lastKick + (reg s (Reg.drvWdPeriod n)).toNat < now s then (wdogMiss s n 3, 0)
      else if !w.first && decide (now s < w.lastKick + (reg s (Reg.drvWdOpen n)).toNat) then (wdogMiss s n 1, 0)
      else if bits v 31 16 ≠ bits cfg 31 16 ∨ bits v 15 0 ≠ seq then (wdogMiss s n 2, 0)
      else (setWdog (setFld s (Reg.drvWdStat n) 15 0 ((seq + 1) % 65536)) n ⟨now s, false, true⟩, 0)

/-- WATCHDOG_KICK (R418). -/
def execWatchdogKick (o : Origin) (n : Nat) (v : Word) (s : State) : Host.Outcome State Fault Refusal :=
  when s (decide (n < 8)) (writeAt s o (Reg.drvWdKick n) v (wdKickWrite s o n v)).1

/-- WATCHDOG_EXPIRE: PERIOD has passed with no accepted kick (R418). -/
def execWatchdogExpire (n : Nat) (s : State) : Host.Outcome State Fault Refusal :=
  when s (decide (n < 8) && drvUp s && (wdogOf s n).running &&
      decide ((wdogOf s n).lastKick + (reg s (Reg.drvWdPeriod n)).toNat ≤ now s))
    (wdogMiss s n 3)

/-- A write of DRV_WD_OPEN: it must be below PERIOD (R426). -/
def wdOpenWrite (s : State) (n : Nat) (v : Word) : State × Nat :=
  if v.toNat < (reg s (Reg.drvWdPeriod n)).toNat then (storeFields s (Reg.drvWdOpen n) v, 0) else (s, 0)

/-! ### The e-stop path (R421, R422) -/

/-- The path runs: through every Drover reset but POR (R422). -/
def estopRuns (s : State) : Bool := s.pkg.hasDrover && !s.drv.por && flag s Reg.drvEstopCfg 0

/-- Channel `c` of the path reads off: its filtered raw level, inverted with INV of its input `i` (R421). -/
def channelOff (s : State) (c i : Nat) : Bool := bit s.drv.stopLevels c == flag s (Reg.drvDinCfg i) 16

/-- Channel `c` on input `i` demands a stop: its level is off, the input is stuck or open, or VFIELD is not OK (R421). -/
def channelDemands (s : State) (c i : Nat) : Bool :=
  channelOff s c i || flag s Reg.drvDinStuck i || flag s Reg.drvDinOpen i || !vfieldOk s

/-- A stop is demanded: DRV_ESTOP_STAT.DEMAND (R421). -/
def estopDemanded (s : State) : Bool :=
  let cfg := reg s Reg.drvEstopCfg
  bit cfg 0 && (flag s Reg.drvEstopStat 2 || channelDemands s 0 (bits cfg 4 1) || (bit cfg 9 && channelDemands s 1 (bits cfg 8 5)))

/-- The levels of the two channels disagree (R421). -/
def channelsApart (s : State) : Bool :=
  let cfg := reg s Reg.drvEstopCfg
  bit cfg 9 && (channelOff s 0 (bits cfg 4 1) != channelOff s 1 (bits cfg 8 5))

/-- The path's filtered levels become `a` and `b` (R421). -/
def stopSample (s : State) (a b : Bool) : State :=
  let s := modDrv s fun d => { d with stopLevels := BitVec.ofNat 2 (a.toNat + 2 * b.toNat) }
  modDrv s fun d => { d with stopApart := if channelsApart s then some (d.stopApart.getD (now s)) else none }

/-- ESTOP_DEMAND: the path's filtered levels; where a stop is demanded that it has not acted on, it sets LATCH, forces the
outputs in OUTMASK and reports (R421, R422; log entry 65). -/
def execEstopDemand (a b : Bool) (s : State) : Host.Outcome State Fault Refusal :=
  let s1 := stopSample s a b
  let s2 := modDrv s1 fun d => { d with stopSeen := estopDemanded s1 }
  when s (estopRuns s)
    (if estopDemanded s1 && (!s.drv.stopSeen || !flag s Reg.drvEstopStat 1) then
      drvLog (drvRaise (enterSafe (setFlag s2 Reg.drvEstopStat 1 true)) 0x1B true) 0x00 0x51 12 0
    else s2)

/-- ESTOP_DISCREPANCY: the two channels have disagreed for DISC ms (R421). -/
def execEstopDiscrepancy (s : State) : Host.Outcome State Fault Refusal :=
  match s.drv.stopApart with
  | none => .next s
  | some t =>
    when s (estopRuns s && channelsApart s && !flag s Reg.drvEstopStat 2 &&
        decide (t + 1000000 * fld s Reg.drvEstopCfg 31 24 ≤ now s))
      (drvLog (setFlag s Reg.drvEstopStat 2 true) 0x14 0x50 12 0)

/-- A write of DRV_ESTOP_CFG: EN = 1 has no effect if it would leave an output in OUTMASK with SAFE = 1. An output that OUTMASK
now names is forced while LATCH is set (R399, R422). -/
def estopCfgWrite (s : State) (v : Word) : State × Nat :=
  let s' := storeFields s Reg.drvEstopCfg v
  let bad := (List.range 8).any fun o => flag s' Reg.drvEstopCfg (16 + o) && flag s (Reg.drvDoutCfg o) 0
  (if flag s' Reg.drvEstopCfg 0 && bad then s else enterSafe s', 0)

/-- A write of DRV_SAFE_MAP: an output that a latched cause now names is forced (R399, R420). -/
def safeMapWrite (s : State) (off : Nat) (v : Word) : State × Nat := (enterSafe (plainWrite s off v), 0)

/-- A write of DRV_ESTOP_STAT: LATCH stays while a stop is demanded (R422). -/
def estopStatWrite (s : State) (v : Word) : State × Nat :=
  (storeFields s Reg.drvEstopStat (if estopDemanded s then putBit v 1 false else v), 0)

end Sys2Proof.Machine
end

