-- ==== Sys2Proof/Machine/FixedPoint.lean ====
section
/-! DEFINITION. The scalar fixed-point instructions (R77 to R82). -/

namespace Sys2Proof.Machine

/-- A saturating add or subtract of `w` bits: the result sign-extended, SATF.ADD on saturation (R82). -/
def satAddRd (s : State) (h : Hart) (rd : GReg) (w : Nat) (v : Int) : Host.Outcome State Fault Refusal :=
  issue s h (.ok (retire (flagIf (setGreg s h rd (wordOf (satTo w v))) h (saturates w v) satfAdd) h))

/-- A narrowing into `rd` with flag SATF.NARROW (R79, R82). -/
def narrowRd (s : State) (h : Hart) (rd : GReg) (v : Int) (d w : Nat) : Host.Outcome State Fault Refusal :=
  let r := narrow (startNarrow s h) (rmode s h) v d w
  issue s h (.ok (retire (endNarrow (setGreg s h rd (wordOf r.1)) h r.2 satfNarrow) h))

/-- The scalar accumulator as a signed number (R59). -/
def accInt (s : State) (h : Hart) : Int := (thr s h).acc.toInt

/-- The scalar accumulator set. -/
def setAcc (s : State) (h : Hart) (v : BitVec 40) : State := modThr s h fun t => { t with acc := v }

/-- An addition into the accumulator, saturating to 40 bits (R78). -/
def accAdd (s : State) (h : Hart) (p : Int) : Host.Outcome State Fault Refusal :=
  let v := accInt s h + p
  issue s h (.ok (retire (flagIf (setAcc s h (BitVec.ofInt 40 (satTo 40 v))) h (saturates 40 v) satfAcc) h))

/-- The exact Q1.15 product in the accumulator format (R77). -/
def prodH (a b : Word) : Int := lowInt 16 a * lowInt 16 b

/-- The exact Q1.7 product in the accumulator format (R77). -/
def prodB (a b : Word) : Int := lowInt 8 a * lowInt 8 b * 2 ^ 16

/-- ADDS.H (R82). -/
def execAddsH (h : Hart) (rd rs1 rs2 : GReg) (s : State) : Host.Outcome State Fault Refusal :=
  satAddRd s h rd 16 (lowInt 16 (greg s h rs1) + lowInt 16 (greg s h rs2))

/-- SUBS.H (R82). -/
def execSubsH (h : Hart) (rd rs1 rs2 : GReg) (s : State) : Host.Outcome State Fault Refusal :=
  satAddRd s h rd 16 (lowInt 16 (greg s h rs1) - lowInt 16 (greg s h rs2))

/-- ADDS.B (R82). -/
def execAddsB (h : Hart) (rd rs1 rs2 : GReg) (s : State) : Host.Outcome State Fault Refusal :=
  satAddRd s h rd 8 (lowInt 8 (greg s h rs1) + lowInt 8 (greg s h rs2))

/-- SUBS.B (R82). -/
def execSubsB (h : Hart) (rd rs1 rs2 : GReg) (s : State) : Host.Outcome State Fault Refusal :=
  satAddRd s h rd 8 (lowInt 8 (greg s h rs1) - lowInt 8 (greg s h rs2))

/-- ADDS.W (R82). -/
def execAddsW (h : Hart) (rd rs1 rs2 : GReg) (s : State) : Host.Outcome State Fault Refusal :=
  satAddRd s h rd 32 (lowInt 32 (greg s h rs1) + lowInt 32 (greg s h rs2))

/-- SUBS.W (R82). -/
def execSubsW (h : Hart) (rd rs1 rs2 : GReg) (s : State) : Host.Outcome State Fault Refusal :=
  satAddRd s h rd 32 (lowInt 32 (greg s h rs1) - lowInt 32 (greg s h rs2))

/-- MULQ.H: the product of the low halves narrowed with d = 15 (R82). -/
def execMulqH (h : Hart) (rd rs1 rs2 : GReg) (s : State) : Host.Outcome State Fault Refusal :=
  narrowRd s h rd (lowInt 16 (greg s h rs1) * lowInt 16 (greg s h rs2)) 15 16

/-- MULQ.B: the product of the low bytes narrowed with d = 7 (R82). -/
def execMulqB (h : Hart) (rd rs1 rs2 : GReg) (s : State) : Host.Outcome State Fault Refusal :=
  narrowRd s h rd (lowInt 8 (greg s h rs1) * lowInt 8 (greg s h rs2)) 7 8

/-- MAC.H (R77, R78, R82). -/
def execMacH (h : Hart) (rs1 rs2 : GReg) (s : State) : Host.Outcome State Fault Refusal :=
  accAdd s h (prodH (greg s h rs1) (greg s h rs2))

/-- MAC.B (R77, R78, R82). -/
def execMacB (h : Hart) (rs1 rs2 : GReg) (s : State) : Host.Outcome State Fault Refusal :=
  accAdd s h (prodB (greg s h rs1) (greg s h rs2))

/-- MSU.H (R77, R78, R82). -/
def execMsuH (h : Hart) (rs1 rs2 : GReg) (s : State) : Host.Outcome State Fault Refusal :=
  accAdd s h (-prodH (greg s h rs1) (greg s h rs2))

/-- MSU.B (R77, R78, R82). -/
def execMsuB (h : Hart) (rs1 rs2 : GReg) (s : State) : Host.Outcome State Fault Refusal :=
  accAdd s h (-prodB (greg s h rs1) (greg s h rs2))

/-- ACLR (R82). -/
def execAclr (h : Hart) (s : State) : Host.Outcome State Fault Refusal :=
  issue s h (.ok (retire (setAcc s h 0) h))

/-- AMOVLO: accumulator bits [31:0] (R82). -/
def execAmovlo (h : Hart) (rd : GReg) (s : State) : Host.Outcome State Fault Refusal :=
  writeRd s h [] rd ((thr s h).acc.extractLsb' 0 32)

/-- AMOVHI: accumulator bits [39:32], sign-extended (R82). -/
def execAmovhi (h : Hart) (rd : GReg) (s : State) : Host.Outcome State Fault Refusal :=
  writeRd s h [] rd (sext ((thr s h).acc.extractLsb' 32 8))

/-- AMOVW: the accumulator is {rs2[7:0], rs1} (R82). -/
def execAmovw (h : Hart) (rs1 rs2 : GReg) (s : State) : Host.Outcome State Fault Refusal :=
  issue s h (.ok (retire (setAcc s h (((greg s h rs2).setWidth 8) ++ greg s h rs1)) h))

/-- ANARROW.H: d = 15 + sh (R82). -/
def execAnarrowH (h : Hart) (rd : GReg) (sh : BitVec 4) (s : State) : Host.Outcome State Fault Refusal :=
  narrowRd s h rd (accInt s h) (15 + sh.toNat) 16

/-- ANARROW.B: d = 23 + sh (R82). -/
def execAnarrowB (h : Hart) (rd : GReg) (sh : BitVec 4) (s : State) : Host.Outcome State Fault Refusal :=
  narrowRd s h rd (accInt s h) (23 + sh.toNat) 8

/-- CVT.HB: Q1.15 to Q1.7 (R82). -/
def execCvtHb (h : Hart) (rd rs1 : GReg) (s : State) : Host.Outcome State Fault Refusal :=
  narrowRd s h rd (lowInt 16 (greg s h rs1)) 8 8

/-- CVT.BH: Q1.7 to Q1.15, exact (R82). -/
def execCvtBh (h : Hart) (rd rs1 : GReg) (s : State) : Host.Outcome State Fault Refusal :=
  writeRd s h [rs1] rd (wordOf (lowInt 8 (greg s h rs1) * 2 ^ 8))

end Sys2Proof.Machine
end

