-- ==== Sys2Proof/Machine/Kernel.lean ====
section
/-! DEFINITION. Parking and releasing cores, core resets, kernels (R86, R130 to R132, R232, R332 to R334, R433, R437). -/

namespace Sys2Proof.Machine

/-! ### Parking (R333) -/

/-- What one thread of a core being parked stops: a TST or AST completes, another tile, matrix or convoy instruction is
abandoned, a long instruction stops, waits end without a commit, issued instructions that have not committed are dropped, and
no finish write stays armed (R229, R333; log entry 13). -/
def parkThread (s : State) (h : Hart) : State :=
  let s := if (thr s h).window.isEmpty then s else squashYounger s h
  let s := modThr (endTileWait s h) h fun t => { t with finArmed := 0, latFrom := none }
  let kept := Config.parkKept s.tb h.core
  let ran := Config.parkRan s.tb h.core
  match (thr s h).wait, (thr s h).cur with
  | .none, _ => s
  | .farLoad _, _ => s
  | .tile, some (.tst ..) => completeTile s h ran
  | .tile, some (.ast ..) => completeTile s h ran
  | .tile, _ => abandonTile s h kept ran
  | .convoy, _ => abandonConvoy s h ran
  | .long .., _ => stopLong s h
  | _, _ => modThr s h fun t => { t with wait := .none, cur := none }

/-- Core cycles a core has run of its kernel that the ledger does not hold yet (R340). -/
def kernelCycles (s : State) (c : Nat) : Nat := if (core s c).kernel then coreCycle s c - (core s c).kernCyc else 0

/-- A core parked; a halted one stays halted (R157, R333). -/
def parkCore (s : State) (c : Nat) : State :=
  let s := (List.range 4).foldl (fun s t => parkThread s ⟨c, BitVec.ofNat 2 t⟩) s
  let s := ledgerCore s c 1 (kernelCycles s c)
  modCore s c fun k => { k with run := if k.run = .halted then .halted else .parked, kernel := false }

/-- Cores parked, lowest number first. -/
def parkCores (s : State) (cs : List Nat) : State := cs.foldl parkCore s

/-- The cores of rectangle `n` (R211). -/
def rectCores (s : State) (n : Nat) : List Nat :=
  (List.range s.pkg.nCores).filter fun c => rectCovers (reg s (Reg.cmpTenRect n)) c

/-- The cores of the rectangles of a context (R313). -/
def ctxCores (s : State) (c : Nat) : List Nat :=
  (List.range s.pkg.nCores).filter fun k => (List.range 16).any fun n =>
    ctxHasRect s c n && rectCovers (reg s (Reg.cmpTenRect n)) k

/-- Both tile channels of a core disabled (R314, R433). -/
def tdmaOff (s : State) (c : Nat) : State :=
  let old := reg s (Reg.cmpTdmaCfg c)
  let s := setFld s (Reg.cmpTdmaCfg c) 17 16 0
  tdmaEn old (tdmaEn old s c 0) c 1

/-- Every store of a core's lane port has ended (R225). -/
def storesDone (s : State) (c : Nat) : Bool := (core s c).lane.all fun a => !a.isStore

/-- Every write of a core's tile channels has ended (R225). -/
def tileWritesDone (s : State) (c : Nat) : Bool :=
  (List.range 2).all fun k => (chan s (.tile c k)).descs.all fun d => d.waits.all fun w => !w.write

/-- The pending failures of a core's threads written to the error ring (R227, R333). -/
def flushFailures (s : State) (c : Nat) : State :=
  (List.range 4).foldl (fun s t =>
    let h : Hart := ⟨c, BitVec.ofNat 2 t⟩
    match (thr s h).pendFail with
    | none => s
    | some f => modThr (logStoreFailure s h f.status.toNat f.addr) h fun t => { t with pendFail := none }) s

/-! ### Release from the image header (R130 to R132) -/

/-- The bytes of the image header at a core's local address 0, as its eight words. -/
def headerWord (s : State) (c i : Nat) : Word := localWord s c (4 * i)

/-- Threads a header starts: all four in fixed mode, thread 0 in master mode. -/
def headerThreads (s : State) (c : Nat) : List Nat := if bit (headerWord s c 1) 0 then [0, 1, 2, 3] else [0]

/-- The fields of a header are valid (R131). -/
def headerOk (s : State) (c : Nat) : Bool :=
  decide (headerWord s c 0 = 0xBE790004) && decide (bits (headerWord s c 1) 31 10 = 0) && decide (headerWord s c 3 = 0) &&
    (headerThreads s c).all fun t => decide (bits (headerWord s c (4 + t)) 1 0 = 0)

/-- SLOTS and WEAVE of a header taken where the Guarded set-up permits (R132). -/
def takeSlots (s : State) (c : Nat) : State :=
  let keep := coreGuarded s c && !(List.range 32).all fun i => inGlmem s c i
  if keep then s
  else
    let s := setCoreCsr s c 0x403 (headerWord s c 2)
    if bit (coreCsr s c 0x803) 0 then s
    else setCoreCsr s c 0x801 (putBit (coreCsr s c 0x801) 0 (bit (headerWord s c 1) 1))

/-- One thread at release: started at its vector, or unreleased (R131). -/
def startThread (s : State) (c t : Nat) : State :=
  let h : Hart := ⟨c, BitVec.ofNat 2 t⟩
  if (headerThreads s c).contains t then
    modThr s h fun x => x.start (headerWord s c (4 + t)) (Mode.ofCode (bits (headerWord s c 1) (2 * t + 3) (2 * t + 2)))
  else modThr s h fun x => { x with status := .unreleased, wait := .none, cur := none, fetched := none }

/-- A core released: its image header is read and, where it is sound, its threads start, with the line buffer and the
instruction cache empty and no load of earlier work (R131, R132, R232, R258). -/
def releaseCore (s : State) (c : Nat) : State :=
  let s := demandRead s (localBase c) 32
  if isPoisoned s (localBase c) 32 then sendAlert s (nodeOf c) 0x02 0 0
  else if !headerOk s c then sendAlert s (nodeOf c) 0x0B 0 0
  else
    let s := [0, 1, 2, 3].foldl (fun s t => startThread s c t) (takeSlots s c)
    let slots := coreCsr s c 0x403
    let weave := bit (coreCsr s c 0x801) 0
    modCore s c fun k => { k with
      run := .running
      readBuf := []
      icache := []
      lane := k.lane.filter LaneAccess.isStore
      thslotNow := slots
      weaveNow := weave }

/-! ### Core resets (R433, R434, R437, R438, R443) -/

/-- The bits of a Guarded CSR that CORECFG.LOCK keeps through a core reset (R161, R443, R444). -/
def lockedCsrBits (n : Nat) : Word := if n = 0x803 then guardedRw n ||| 1 else if n = 0x804 then 0 else guardedRw n

/-- The per-core CSRs a reset leaves: HALTS, and the locked Guarded ones (R443). -/
def keptCsrs (s : State) (c : Nat) (halts : Bool) : Sparse Word :=
  let lock := bit (coreCsr s c 0x803) 0
  (core s c).csr.filterMap fun e =>
    if decide (e.1 = 0x11D) && halts then some e
    else
      let m := if lock then lockedCsrBits e.1 else 0
      if m = 0 then none else some (e.1, (e.2 &&& m) ||| (coreCsrReset c e.1 &&& ~~~m))

/-- A thread after a core reset: its locked EVSRC registers are kept (R161, R443). -/
def keptThread (lock : Bool) (t : Thread) : Thread :=
  { Thread.reset with csr := if lock then t.csr.filter fun e => decide (0x808 ≤ e.1) && decide (e.1 ≤ 0x80F) else [] }

/-- The threads of a core that hold something after a reset. -/
def keptThreads (s : State) (c : Nat) : Sparse Thread :=
  let lock := bit (coreCsr s c 0x803) 0
  ((core s c).threads.map fun e => (e.1, keptThread lock e.2)).filter fun e => decide (e.2 ≠ Thread.reset)

/-- The links of a core after its reset: the beats and credits of the routing domain are kept, the landing buffers are
emptied and a credit returns for every beat that came meanwhile (R180, R438, R441). -/
def landingReset (s : State) (c : Nat) : State :=
  (List.range 4).foldl (fun s d =>
    let l := link s c d
    returnCredits (modLink s c d fun l => { l with landing := [], dropped := 0, droppedOff := 0 }) c d
      (l.landing.length + l.dropped + l.droppedOff)) s

/-- The core state of a core returns to its reset values, and the core is parked; `halts` keeps the HALTS counter. The
registers of its waybill engine, instruction cache and tile channels are reset with it; those of its lane port and outbox
are not named by R443 and stay. -/
def wipeCore (s : State) (c : Nat) (halts : Bool) : State :=
  let lock := bit (coreCsr s c 0x803) 0
  let weave := lock && bit (coreCsr s c 0x801) 0
  let csr := keptCsrs s c halts
  let ths := keptThreads s c
  let s := { s with regs := sdrop s.regs fun k => decide (Reg.cmpWbCtl c ≤ k) && decide (k < Reg.cmpLpStat c) }
  modCore s c fun k => { Core.reset with
    threads := ths
    csr := csr
    weaveNow := weave
    resetJob := k.resetJob
    cycStamp := now s
    lane := k.lane.filter fun a => a.isStore
    laneNext := k.laneNext
    outTag := k.outTag
    links := k.links
    scrubAt := k.scrubAt
    scrubFrom := k.scrubFrom }

/-- A core reset begins: the core is parked, its convoy ends, its tile channels and its waybill engine stop, and its block
is not ready; a reset in progress takes the larger reach (R433, R185). -/
def beginCoreReset (s : State) (c : Nat) (j : CoreResetJob) : State :=
  match (core s c).resetJob with
  | some o =>
    modCore s c fun k => { k with resetJob := some ⟨o.zeroMemory || j.zeroMemory, o.release || j.release, o.busy || j.busy⟩ }
  | none =>
    let s := wbClear (tdmaOff (parkCore (convoyMemberReset s c) c) c) c
    setBlockReady (modCore s c fun k => { k with resetJob := some j }) (blockOf c) false

/-- Every core of a block is out of reset, the block in RUN or NAP (R427). -/
def blockUp (s : State) (b : Nat) : Bool :=
  decide (blockState s b ≤ 1) && (List.range s.pkg.nCores).all fun c => decide (blockOf c ≠ b) || (core s c).resetJob.isNone

/-- Rectangle `n` has a kernel that DISPATCH started, or is starting (R332, R437). -/
def rectRuns (s : State) (n : Nat) : Bool := s.kernels.any fun e => e.1 == n

/-- The conditions of a resident release: the core is parked and up, its rectangle runs no kernel of a DISPATCH, and every
block of the rectangle is ready (R428, R437). -/
def mayRelease (s : State) (c : Nat) : Bool :=
  decide ((core s c).run = .parked) && (core s c).resetJob.isNone && decide (blockState s (blockOf c) ≤ 1) &&
    match rectOf s c with
    | none => blockReady s (blockOf c)
    | some n => !rectRuns s n && (rectCores s n).all fun k => blockReady s (blockOf k)

/-- BUSY and STATUS of CMP_CORE_RST at the end of its operation (R445). -/
def coreRstDone (s : State) (status : Nat) : State := setFld (setFlag s Reg.cmpCoreRst 17 false) Reg.cmpCoreRst 31 24 status

/-- A release: a resident kernel starts, or VALIDATION (R437). -/
def releaseResident (s : State) (c : Nat) : State :=
  if mayRelease s c then
    coreRstDone (releaseCore (modCore s c fun k => { k with resident := true }) c) 0
  else coreRstDone s 0x0B

/-- CORE_RESET_COMPLETE: every write of the core has ended; the failures that its kernel left are reported, its state takes its
reset values, and a release that was asked for follows (R227, R433, R434, R437). -/
def execCoreResetComplete (core : Nat) (s : State) : Host.Outcome State Fault Refusal :=
  match (Machine.core s core).resetJob with
  | none => .next s
  | some j =>
    when s (storesDone s core && tileWritesDone s core && partUp s) (
      let s := landingReset (wipeCore (flushFailures s core) core true) core
      let s := if j.zeroMemory then zeroMem s (localBase core) (localSize core) else s
      let s := modCore s core fun k => { k with resetJob := none }
      let s := if blockUp s (blockOf core) then setBlockReady s (blockOf core) true else s
      if j.release then releaseResident s core else if j.busy then coreRstDone s 0 else s)

/-! ### CMP_CORE_RST and REGION resets (R433, R437, R445) -/

/-- GO of CMP_CORE_RST with an operation on a core (R437, R445). -/
def coreRstGo (s : State) (c op : Nat) : State :=
  if s.pkg.nCores ≤ c then coreRstDone s 0x0B
  else if op = 1 then releaseResident s c
  else beginCoreReset (setFlag s Reg.cmpCoreRst 17 true) c ⟨false, decide (op = 2), true⟩

/-- A write of CMP_CORE_RST: refused whole for a core of a guarded rectangle by a Plain access, which STATUS shows; GO does
nothing while BUSY (R445). -/
def coreRstWrite (s : State) (o : Origin) (v : Word) : State × Nat :=
  if !guardedOrigin o && coreGuarded s (bits v 9 0) then (setFld s Reg.cmpCoreRst 31 24 0x07, 0x07)
  else
    let s := plainWrite s Reg.cmpCoreRst v
    if bit v 16 && !flag s Reg.cmpCoreRst 17 then
      (coreRstGo s (fld s Reg.cmpCoreRst 9 0) (fld s Reg.cmpCoreRst 13 12), 0)
    else (s, 0)

/-- CMP_CORE_RST written with GO, an OP and a core. -/
def coreRstCommand (o : Origin) (c op : Nat) (s : State) : Host.Outcome State Fault Refusal :=
  let v : Word := BitVec.ofNat 32 (c % 1024 + 4096 * op + 65536)
  when s (decide (c < 768)) (writeAt s o Reg.cmpCoreRst v (coreRstWrite s o v)).1

/-- CORE_RESET: OP 0 (R433, R445). -/
def execCoreReset (o : Origin) (core : Nat) (s : State) : Host.Outcome State Fault Refusal := coreRstCommand o core 0 s

/-- CORE_RELEASE: OP 1 (R437, R445). -/
def execCoreRelease (o : Origin) (core : Nat) (s : State) : Host.Outcome State Fault Refusal := coreRstCommand o core 1 s

/-- CORE_RESET_RELEASE: OP 2 (R437, R445). -/
def execCoreResetRelease (o : Origin) (core : Nat) (s : State) : Host.Outcome State Fault Refusal := coreRstCommand o core 2 s

/-- The cores of a list of blocks. -/
def blocksCores (s : State) (p : Nat → Bool) : List Nat := (List.range s.pkg.nCores).filter fun c => p (blockOf c)

/-- A write of CMP_RGN_RST_LO, with the upper word staged by _HI: a REGION reset of the named blocks; a Plain access does not
reach a block of a guarded rectangle (R13, R433, R445). -/
def regionWrite (s : State) (o : Origin) (v : Word) : State × Nat :=
  let hi := match s.staged.find? fun e => e.1 == Reg.cmpRgnRstHi with
    | some e => bits e.2 15 0
    | none => 0
  let s := { s with staged := sdrop s.staged (· == Reg.cmpRgnRstHi) }
  let named := fun b => decide (b < s.pkg.nBlocks) && (v.toNat + 2 ^ 32 * hi).testBit b
  let denied := fun b => !guardedOrigin o && blockGuarded s b
  let cs := blocksCores s fun b => named b && !denied b
  let st := if (List.range 48).any fun b => named b && denied b then 0x07 else 0
  (cs.foldl (fun s c => beginCoreReset s c ⟨false, false, false⟩) s, st)

/-- REGION_RESET (R433, R445). -/
def execRegionReset (o : Origin) (v : Word) (s : State) : Host.Outcome State Fault Refusal :=
  .next (writeAt s o Reg.cmpRgnRstLo v (regionWrite s o v)).1

/-! ### Kernels (R232, R332 to R334) -/

/-- The front entry of a queue where it is a control entry with a given OP and nothing of it is before it (R324). -/
def ctlFront (s : State) (q op : Nat) : Option (List DWord) :=
  if !decide (q < 256) || !partUp s || s.pkg.slumber || decide ((queueOf s q).inChan ≠ 0) then none
  else
    match (queueOf s q).entries with
    | e :: _ => if entOp e = op then some e else none
    | [] => none

/-- A control entry has a bit set that must be 0, or a field with no valid value (R325, R342). -/
def ctlMalformed (e : List DWord) : Bool :=
  let w0 := ent e 0
  let w1 := ent e 1
  let op := entOp e
  let rest := (ent e 2).toNat + (ent e 3).toNat + (ent e 4).toNat + (ent e 5).toNat + (ent e 6).toNat + (ent e 7).toNat
  let w0bad := decide (bits w0 7 4 ≠ 0) || bit w0 9 || decide (bits w0 15 11 ≠ 0) || decide (bits w0 31 20 ≠ 0) ||
    decide (bits w0 47 44 ≠ 0) || (decide (op ≠ 8) && decide (bits w0 19 16 ≠ 0)) || (decide (op = 9) && bit w0 8)
  let w1bad :=
    if op = 8 ∨ op = 10 then decide (bits w1 63 32 ≠ 0) || decide (bits w1 31 0 = 0)
    else if op = 9 ∨ op = 11 then decide (bits w1 63 1 ≠ 0)
    else decide (bits w1 63 48 ≠ 0) || decide (bits w1 5 0 ≠ 0)
  w0bad || w1bad || decide (rest ≠ 0)

/-- The checks every control entry meets at its start: the status of the first that fails (R320, R342). -/
def ctlCheck (s : State) (q : Nat) (e : List DWord) : Nat :=
  let needs := bit (ent e 0) 8 || (decide (9 ≤ entOp e) && decide (entOp e ≤ 11))
  if ctlMalformed e then 0x0B
  else if needs && !eventOk s (entEvent e) (queueCtx s q) then 0x07
  else 0

/-- The checks of a DISPATCH on a rectangle (R332). -/
def dispatchCheck (s : State) (q n : Nat) : Nat :=
  let c := queueCtx s q
  let cs := rectCores s n
  if !ctxHasRect s c n || (rectGuarded s n && !ctxGuarded s c) then 0x07
  else if !rectOn s n || rectRuns s n || cs.any fun k =>
      (core s k).resident || decide (2 ≤ blockState s (blockOf k)) || decide ((core s k).run = .halted) ||
        !blockReady s (blockOf k) then 0x0B
  else 0

/-- A kernel record of rectangle `n`. -/
def kernelOf (s : State) (n : Nat) : Option Kernel := (s.kernels.find? fun e => e.1 == n).map Prod.snd

/-- A kernel record set. -/
def setKernel (s : State) (n : Nat) (k : Kernel) : State := { s with kernels := sput s.kernels n k }

/-- DISPATCH: the checks, then the wait for the start conditions; a block in NAP wakes (R332, R439). -/
def execDispatch (q : Nat) (s : State) : Host.Outcome State Fault Refusal :=
  match ctlFront s q 8, (queueOf s q).ctl with
  | some e, .ready =>
    let n := bits (ent e 0) 19 16
    let st := if ctlCheck s q e ≠ 0 then ctlCheck s q e else dispatchCheck s q n
    if st ≠ 0 then .next (completeControl s q st 0xFFF 0)
    else
      let s := (rectCores s n).foldl (fun s c => wakeBlock s (blockOf c)) s
      .next (setKernel (modQueue s q fun x => { x with ctl := .kernel }) n ⟨q, queueCtx s q, false, [], false, none, 0⟩)
  | _, _ => .next s

/-- A core of a kernel starts (R232, R332). -/
def kernelCore (s : State) (c : Nat) : State :=
  releaseCore (modCore s c fun k => { k with kernel := true, kernCyc := coreCycle s c }) c

/-- KERNEL_START: the start conditions hold, every write of earlier work of the cores among them, and every core of the rectangle is released; the deadline runs from here (R232,
R332, R334). -/
def execKernelStart (rect : Nat) (s : State) : Host.Outcome State Fault Refusal :=
  match kernelOf s rect with
  | none => .next s
  | some k =>
    let cs := rectCores s rect
    let dl := match ctlFront s k.queue 8 with
      | some e => bits (ent e 1) 31 0
      | none => 0
    when s (!k.started && cs.all fun c =>
        (core s c).resetJob.isNone && decide ((core s c).run = .parked) && storesDone s c)
      (setKernel (cs.foldl kernelCore s) rect { k with started := true, deadline := now s + dl })

/-- A core's report that it is done: the first of each core counts, and the last one parks every core of the rectangle
(R333). -/
def kernelDone (s : State) (c : Nat) : State :=
  match rectOf s c with
  | none => s
  | some n =>
    match kernelOf s n with
    | none => s
    | some k =>
      if !k.started || k.parked || k.reported.contains c then s
      else
        let k := { k with reported := addKey k.reported c }
        let cs := rectCores s n
        if cs.all k.reported.contains then setKernel (parkCores s cs) n { k with parked := true } else setKernel s n k

/-- KERNEL_DONE_REPORT (R333). -/
def execKernelDoneReport (core : Nat) (s : State) : Host.Outcome State Fault Refusal :=
  when s (decide (core < s.pkg.nCores) && partUp s) (kernelDone s core)

/-- A kernel whose cores are parked ends once every write of them has ended: unconsumed failures are written to the error
ring, and then the entry completes, with WAIT_TIMEOUT where a core had not reported in time (R228, R326, R333, R334). -/
def endKernel (s : State) (rect : Nat) (k : Kernel) : State :=
  let cs := rectCores s rect
  if !cs.all (storesDone s) then s
  else
    let s := flushRecords (cs.foldl flushFailures s) k.ctx
    let s := { s with kernels := sdrop s.kernels (· == rect) }
    match k.late with
    | none => completeControl s k.queue 0 0xFFF 0
    | some c => completeControl s k.queue 0x05 c c

/-- DISPATCH_COMPLETE: every write of the kernel's cores has ended, and the kernel ends (R333). -/
def execDispatchComplete (rect : Nat) (s : State) : Host.Outcome State Fault Refusal :=
  match kernelOf s rect with
  | none => .next s
  | some k => when s k.parked (endKernel s rect k)

/-- DISPATCH_TIMEOUT: the cores are parked, and the entry completes with WAIT_TIMEOUT, naming the lowest core that has not
reported; its event and its consumer word cover the writes of the cores, so they wait for those to end (R228, R326, R334). -/
def execDispatchTimeout (rect : Nat) (s : State) : Host.Outcome State Fault Refusal :=
  match kernelOf s rect with
  | none => .next s
  | some k =>
    let cs := rectCores s rect
    match cs.find? fun c => !k.reported.contains c with
    | none => .next s
    | some c =>
      let k' := { k with parked := true, late := some c }
      when s (k.started && !k.parked && decide (k.deadline ≤ now s)) (endKernel (setKernel (parkCores s cs) rect k') rect k')

end Sys2Proof.Machine
end

