-- ==== Sys2Proof/Machine/Host.lean ====
section
/-! DEFINITION. Contexts, memory objects, isolation, queues with their rings and doorbells, control entries, error rings, the
ledger and the alert log (R312 to R349). -/

namespace Sys2Proof.Machine

/-- The Serai dies run: commands of their engines act (R427, R442). -/
def seraiRuns (s : State) : Bool := partUp s && !s.pkg.slumber

/-! ### The alert log (R206, R261, R338, R339) -/

/-- The record of an alert in the alert log (R338, R344). -/
def alertRecord (m : Msg) (t : Nat) : ErrRec :=
  ⟨none, BitVec.ofNat 8 (bits m.p1 7 0), 5, BitVec.ofNat 12 m.src, BitVec.ofNat 2 (bits m.p1 9 8), 0,
    BitVec.ofNat 32 (bits m.p1 17 10), t, none, false⟩

/-- The place of the first record that can be written: any for a context, one for the device ring only while it has room. -/
def nextRecord (s : State) : Option Nat := s.errq.findIdx? fun r => r.ctx.isSome || deviceRoom s

/-- ERROR_RECORD_WRITE: the first record that its ring takes, else the oldest alert of the alert log (R338, R339). -/
def execErrorRecordWrite (s : State) : Host.Outcome State Fault Refusal :=
  if !seraiRuns s then .next s
  else
    match nextRecord s with
    | some i =>
      match s.errq[i]? with
      | some r => .next (writeRecord { s with errq := s.errq.eraseIdx i } r)
      | none => .next s
    | none =>
      match s.alerts with
      | (m, t) :: rest => when s (deviceRoom s) (writeDevRecord { s with alerts := rest } (alertRecord m t))
      | [] => .next s

/-- The contexts a scrub finding is reported to (R261, R318). -/
def findingOwners (s : State) (a : Nat) : List Nat :=
  if isLocalAddr a then
    match rectOf s ((a - 0x400000000000) / 0x80000) with
    | none => []
    | some n => ((kernelOf s n).map Kernel.ctx).toList
  else lineOwners s a

/-- Serai 0 looks up one entry of a scrub log: its owners get records and the entry is free again, or the device ring gets
one; `held` says that the finding's alert holds a place of the alert log until the first of them is written (R261, R338,
R339). -/
def lookUpEntry (u : Nat) (src : Nat) (held : Bool) (s : State) (i : Nat) : State :=
  let off := scrubLogW0 (if u = 8 then none else some u) i
  let w1 := reg s (off + 4)
  if !bit w1 31 || decide (bits w1 23 16 ≠ 0xFE) then s
  else
    let a := (reg s off).toNat + 2 ^ 32 * bits w1 15 0
    let rec3 := fun (c : Option Nat) (k : BitVec 4) (x : Option (Nat × Nat)) (b : Bool) =>
      (⟨c, 0x02, k, BitVec.ofNat 12 src, 0, a, 0, now s, x, b⟩ : ErrRec)
    match findingOwners s a with
    | [] => logError (setFld s (off + 4) 23 16 0xFF) (rec3 none 4 (some (u, i)) held)
    | c :: cs =>
      let s := cs.foldl (fun s o => logError s (rec3 (some o) 3 none false)) (logError s (rec3 (some c) 3 none held))
      setFlag (setFld s (off + 4) 23 16 c) (off + 4) 31 false

/-- The scrub log an alert of a node is about: a unit's, or 8 for local memory (R204, R261). -/
def finderLog (src : Nat) : Option Nat :=
  if src < 0x300 then some 8 else if 0x310 ≤ src ∧ src < 0x318 then some (src - 0x310) else none

/-- The first entry of a scrub log that Serai 0 has not looked up (R264). -/
def unseenEntry (s : State) (u : Nat) : Option Nat :=
  (List.range 16).find? fun i =>
    let w1 := reg s (scrubLogW0 (if u = 8 then none else some u) i + 4)
    bit w1 31 && decide (bits w1 23 16 = 0xFE)

/-- The finding an alert reports: one that carries POISON from the node of a scrub log with an entry not yet looked up
(R261; log entry 44). -/
def alertFinding (s : State) (m : Msg) : Option (Nat × Nat) :=
  if bits m.p1 7 0 ≠ 0x02 then none
  else (finderLog m.src).bind fun u => (unseenEntry s u).map fun i => (u, i)

/-- The places of the alert log in use: the alerts that wait for a record of their own, and those that the record of a
finding reports (R339; log entry 44). -/
def alertsHeld (s : State) : Nat := s.alerts.length + s.errq.countP ErrRec.held

/-- An alert reaches Serai 0: it takes a place of the alert log until it is written as a record, or is counted where none is
left. A finding is looked up in either case, and its record is the alert's (R206, R261, R338, R339; log entry 44). -/
def alertAtSerai (s : State) (m : Msg) : State :=
  let room := decide (alertsHeld s < 16)
  match alertFinding s m with
  | some (u, i) => lookUpEntry u m.src room (if room then s else countSat s Reg.sraAlertOvf) i
  | none => if room then { s with alerts := s.alerts ++ [(m, now s)] } else countSat s Reg.sraAlertOvf

/-! ### Contexts (R312 to R314, R434) -/

/-- The status of the last command of a context (R347). -/
def ctxLast (s : State) (c st : Nat) : State := setFld s (Reg.sraCtxCfg c) 23 16 st

/-- The state of a context set. -/
def setCtxState (s : State) (c st : Nat) : State := setFld s (Reg.sraCtxCfg c) 1 0 st

/-- The checks of CREATE: the status of the first that fails (R313). -/
def createCheck (s : State) (c : Nat) : Nat :=
  let rects := (List.range 16).filter (ctxHasRect s c)
  let taken := fun n => (List.range 64).any fun o => decide (o ≠ c) && decide (ctxState s o ≠ 0) && ctxHasRect s o n
  if rects.isEmpty || !rects.contains (ctxTag s c) then 0x0B
  else if rects.any fun n => !rectOn s n || taken n then 0x0B
  else if rects.any fun n => rectGuarded s n && !ctxGuarded s c then 0x07
  else 0

/-- The ledger counters of a context removed (R312, R340). -/
def clearLedger (s : State) (c : Nat) : State := { s with ledger := sdrop s.ledger fun k => k / 16 == c }

/-- CREATE (R312, R313). -/
def ctxCreate (s : State) (c : Nat) : State :=
  if ctxState s c ≠ 0 then ctxLast s c 0x0B
  else
    let st := createCheck s c
    if st ≠ 0 then ctxLast s c st else clearLedger (ctxLast (setCtxState s c 1) c 0) c

/-- The queues of a context. -/
def ctxQueues (s : State) (c : Nat) : List Nat := (List.range 256).filter fun q => decide (queueCtx s q = c)

/-- One queue of a context that is killed: it stops fetching, a control entry in progress ends and reports nothing, and the
channel bound to it aborts (R314). -/
def killQueue (s : State) (q : Nat) : State :=
  let x := queueOf s q
  let bound := queueBound s q && (queueOn s q || decide (0 < x.inChan))
  let s := if x = Queue.reset then s
    else modQueue s q fun y => { y with reading := 0, entries := x.entries.take x.inChan, ctl := .ready, old := Nat.min x.old x.inChan }
  if bound then abortChan s (.sys (queueChan s q).1 (queueChan s q).2) else s

/-- One core of a context that is killed (R314). -/
def killCore (s : State) (c : Nat) : State := tdmaOff (wbClear (parkCore s c) c) c

/-- KILL (R312, R314). -/
def ctxKill (s : State) (c : Nat) : State :=
  if ctxState s c ≠ 1 then ctxLast s c 0x0B
  else
    let s := ctxLast (setCtxState s c 2) c 0
    let s := (ctxQueues s c).foldl killQueue s
    let s := (ctxCores s c).foldl killCore s
    { s with kernels := s.kernels.filter fun e => decide (e.2.ctx ≠ c) }

/-- A context's agent waits for a transaction of a bundle: a core of its, one of its channels, or a queue of its (R314,
R363). -/
def ctxWaits (s : State) (c : Nat) (rq : Requester) : Bool :=
  match rq with
  | .lane k _ => (ctxCores s c).contains k
  | .dma (.tile k _) .. => (ctxCores s c).contains k
  | .dma (.sys i n) .. => (ctxQueues s c).any fun q => queueBound s q && decide (queueChan s q = (i, n))
  | .queue q _ => decide (queueCtx s q = c)
  | _ => false

/-- Every write of a context has ended: those of its cores and its channels, and what its agents have on a bundle to another
chip (R225, R234, R314). -/
def ctxQuiet (s : State) (c : Nat) : Bool :=
  (ctxCores s c).all (fun k => storesDone s k && tileWritesDone s k) &&
    (s.bundles.all fun b => b.2.itags.all fun e => !ctxWaits s c e.2.1) &&
    s.sdma.all fun e => e.2.descs.all fun d => match d.queue with
      | some q => decide (queueCtx s q ≠ c)
      | none => true

/-- CONTEXT_QUIESCED: unconsumed failures are recorded, QEVENT is signalled where it names an enabled event of the context,
and the context is quiesced (R227, R314). -/
def execContextQuiesced (c : Nat) (s : State) : Host.Outcome State Fault Refusal :=
  when s (decide (c < 64) && seraiRuns s && decide (ctxState s c = 2) && ctxQuiet s c) (
    let s := flushRecords ((ctxCores s c).foldl flushFailures s) c
    let e := fld s (Reg.sraCtxEv c) 11 0
    let s := if eventOk s e c then changeEvent s (.signal e none) else flushEvents s
    setCtxState s c 3)

/-- The registers of a context's own block and of the queues, events and memory objects it owns (R312, R346 to R349). -/
def ctxOwns (s : State) (c : Nat) (off : Nat) : Bool :=
  decide (off < 0x800000) && decide (ownerAt s off = some c)

/-- FREE: what the context owns returns to its reset values, and a CONTEXT reset takes its cores (R312, R434, R443). -/
def ctxFree (s : State) (c : Nat) : State :=
  if ctxState s c ≠ 3 then ctxLast s c 0x0B
  else
    let cores := ctxCores s c
    let qs := ctxQueues s c
    let evs := s.events.filter fun e => decide (fld s (Reg.sraEv e.1) 5 0 ≠ c)
    let s := cores.foldl (fun s k => beginCoreReset s k ⟨true, false, false⟩) s
    clearLedger { s with
      regs := s.regs.filter fun e => !ctxOwns s c e.1
      staged := sdrop s.staged (ctxOwns s c)
      queues := sdrop s.queues fun q => qs.contains q
      events := evs
      errq := s.errq.filter fun r => decide (r.ctx ≠ some c)
      errOvf := delKey s.errOvf c
      errCons := sdrop s.errCons (· == c) } c

/-- A write of SRA_CTX_CFG: the fields of a free context, then the commands in bit order (R312, R347). -/
def ctxCfgWrite (s : State) (o : Origin) (c : Nat) (v : Word) : State × Nat :=
  let off := Reg.sraCtxCfg c
  let s := setW1s s off v
  let s := if ctxState s c = 0 then
      let s := setFld s off 11 8 (bits v 11 8)
      if guardedOrigin o then setFlag s off 7 (bit v 7) else s
    else s
  let s := if bit v 4 then ctxCreate s c else s
  let s := if bit v 5 then ctxKill s c else s
  (if bit v 6 then ctxFree s c else s, 0)

/-- A write of SRA_CTX_RECTS: while the context is free (R347). -/
def ctxRectsWrite (s : State) (c : Nat) (v : Word) : State × Nat :=
  (if ctxState s c = 0 then plainWrite s (Reg.sraCtxRects c) v else s, 0)

/-- A command of a context, its fields written as they stand. -/
def ctxCommand (o : Origin) (c b : Nat) (s : State) : Host.Outcome State Fault Refusal :=
  let v := putBit (reg s (Reg.sraCtxCfg c) &&& 0xF80) b true
  when s (decide (c < 64)) (writeAt s o (Reg.sraCtxCfg c) v (ctxCfgWrite s o c v)).1

/-- CREATE (R312, R313). -/
def execCreate (o : Origin) (c : Nat) (s : State) : Host.Outcome State Fault Refusal := ctxCommand o c 4 s

/-- KILL (R312, R314). -/
def execKill (o : Origin) (c : Nat) (s : State) : Host.Outcome State Fault Refusal := ctxCommand o c 5 s

/-- FREE (R312, R434). -/
def execFree (o : Origin) (c : Nat) (s : State) : Host.Outcome State Fault Refusal := ctxCommand o c 6 s

/-! ### Memory objects and isolation (R315, R317, R319) -/

/-- A range lies wholly within one range of R35 (R315). -/
def oneRange (s : State) (a n : Nat) : Bool :=
  let within := fun lo hi : Nat => decide (lo ≤ a) && decide (a + n ≤ hi)
  within 0 (nearSize s) ||
    ((List.range 4).any fun p => within (0x100000000000 + p * 2 ^ 40) (0x100000000000 + (p + 1) * 2 ^ 40)) ||
    within 0x200000000000 0x300000000000 ||
    (decide (0x300000000000 ≤ a) && decide (a < 0x400000000000) &&
      within (a / 2 ^ 38 * 2 ^ 38) (a / 2 ^ 38 * 2 ^ 38 + 2 ^ 38)) ||
    within 0x400000000000 (0x400000000000 + s.pkg.nCores * 0x80000)

/-- Two ranges share a byte. -/
def rangesMeet (a n b m : Nat) : Bool := decide (a < b + m) && decide (b < a + n)

/-- A guarded memory range meets a range of addresses (R214, R315). -/
def meetsGuarded (s : State) (a n : Nat) : Bool :=
  (List.range 8).any fun m =>
    let w0 := reg s (Reg.cmpGmrW0 m)
    let lo := bits w0 26 0 * 2 ^ 21
    let hi := (bits (reg s (Reg.cmpGmrW1 m)) 26 0 + 1) * 2 ^ 21
    bit w0 31 && decide (lo < hi) && rangesMeet a n lo (hi - lo)

/-- The checks of a memory object: the status of the first that fails (R315). -/
def moCheck (s : State) (m : Nat) : Nat :=
  let c := moCtx s m
  let misfit := flag s (Reg.sraMoCfg m) 6 &&
    (decide (fld s (Reg.sraMoVpn m) 26 0 % 512 ≠ 0) || decide (fld s (Reg.sraMoPpn m) 26 0 % 512 ≠ 0))
  let other := fun x => decide (x ≠ m) && decide (moCtx s x = c) && rangesMeet (moVirt s m) (moSize s m) (moVirt s x) (moSize s x)
  if fld s (Reg.sraMoPages m) 19 0 = 0 ∨ ctxState s c = 0 ∨ misfit = true then 0x0B
  else if 2 ^ 48 < moVirt s m + moSize s m ∨ (moValidList s).any other = true then 0x0B
  else if !oneRange s (moPhys s m) (moSize s m) then 0x0B
  else if !ctxGuarded s c && meetsGuarded s (moPhys s m) (moSize s m) then 0x07
  else 0

/-- A write of SRA_MO_CFG: VALID = 1 checks the entry, 0 removes it; the first failure is recorded (R315). -/
def moCfgWrite (s : State) (m : Nat) (v : Word) : State × Nat :=
  let off := Reg.sraMoCfg m
  let s := plainWrite s off (putBit v 31 false)
  if !bit v 31 then (s, 0)
  else
    let st := moCheck s m
    if st = 0 then (setFlag s off 31 true, 0)
    else if flag s Reg.sraMoStat 31 then (s, 0)
    else (setReg s Reg.sraMoStat (BitVec.ofNat 32 (m + 65536 * st + 2 ^ 31)), 0)

/-- A write of another word of a memory object: while it is not valid (R315). -/
def moWordWrite (s : State) (m off : Nat) (v : Word) : State × Nat :=
  (if flag s (Reg.sraMoCfg m) 31 then s else plainWrite s off v, 0)

/-- MO_VALIDATE (R315). -/
def execMoValidate (o : Origin) (m : Nat) (v : Word) (s : State) : Host.Outcome State Fault Refusal :=
  let v := putBit v 31 true
  when s (decide (m < 65536)) (writeAt s o (Reg.sraMoCfg m) v (moCfgWrite s m v)).1

/-- MO_REMOVE: VALID = 0, the other fields written as they stand (R315, R317). -/
def execMoRemove (o : Origin) (m : Nat) (s : State) : Host.Outcome State Fault Refusal :=
  let v := putBit (reg s (Reg.sraMoCfg m)) 31 false
  when s (decide (m < 65536)) (writeAt s o (Reg.sraMoCfg m) v (moCfgWrite s m v)).1

/-- A write of SRA_ISO: while every context is free and the part has a CTU (R319). -/
def isoWrite (s : State) (v : Word) : State × Nat :=
  (if s.pkg.hasCtu && (List.range 64).all fun c => decide (ctxState s c = 0) then plainWrite s Reg.sraIso v else s, 0)

/-- ISO_WRITE (R319). -/
def execIsoWrite (o : Origin) (v : Word) (s : State) : Host.Outcome State Fault Refusal :=
  .next (writeAt s o Reg.sraIso v (isoWrite s v)).1

/-! ### Queues (R322, R330, R331, R348) -/

/-- A range lies in the host window (R35). -/
def inHostWindow (a n : Nat) : Bool := decide (0x200000000000 ≤ a) && decide (a + n ≤ 0x300000000000)

/-- EN = 1 of a queue is refused (R322, R348). -/
def queueRefused (s : State) (q : Nat) : Bool :=
  let ring := regAddr s (Reg.sraQRingLo q)
  let cons := regAddr s (Reg.sraQConsLo q)
  let bytes := ringSlots s q * slotSize s q
  let chan := queueChan s q
  let taken := (List.range 256).any fun x => decide (x ≠ q) && queueOn s x && queueBound s x && decide (queueChan s x = chan)
  decide (ctxState s (queueCtx s q) ≠ 1) || (queueBound s q && (taken || decide (s.pkg.nSerai ≤ chan.1))) ||
    decide (ring % 4096 ≠ 0) || decide (ring % bytes ≠ 0) || !inHostWindow ring bytes || decide (cons % 8 ≠ 0) ||
    !inHostWindow cons 8

/-- EN of a queue goes to 1: refused with LAST reading VALIDATION, or the queue runs with CONS = START; entries it fetched
before go on (R330, R331, R348; log entry 42). -/
def queueStart (s : State) (q : Nat) : State :=
  let stat := Reg.sraQStat q
  if queueRefused s q then setFld (setFld (setFlag s (Reg.sraQCfg q) 0 false) stat 15 8 0x0B) stat 1 0 0
  else
    let start := fld s (Reg.sraQStart q) 15 0
    let s := setFld (setFld (setFlag s (Reg.sraQCfg q) 0 true) stat 31 16 start) stat 1 0 1
    modQueue s q fun x => { x with prod := BitVec.ofNat 16 start, reading := 0, old := x.entries.length }

/-- EN of a queue goes to 0: it stops fetching; it is disabled once its fetched entries have completed (R330, R331). -/
def queueStop (s : State) (q : Nat) : State :=
  let s := modQueue (setFlag s (Reg.sraQCfg q) 0 false) q fun x => { x with reading := 0 }
  if queueStopped s q then setFld s (Reg.sraQStat q) 1 0 0 else settleState s q

/-- A write of SRA_Q_CFG: the other fields only while EN = 0; a STOPPED queue starts again by EN = 1 (R330, R348). -/
def qCfgWrite (s : State) (q : Nat) (v : Word) : State × Nat :=
  if queueOn s q then
    if !bit v 0 then (queueStop s q, 0) else if queueStopped s q then (queueStart s q, 0) else (s, 0)
  else
    let s := plainWrite s (Reg.sraQCfg q) (putBit v 0 false)
    (if bit v 0 then queueStart s q else s, 0)

/-- QUEUE_ENABLE (R348). -/
def execQueueEnable (o : Origin) (q : Nat) (v : Word) (s : State) : Host.Outcome State Fault Refusal :=
  let v := putBit v 0 true
  when s (decide (q < 256)) (writeAt s o (Reg.sraQCfg q) v (qCfgWrite s q v)).1

/-- QUEUE_DISABLE (R331). -/
def execQueueDisable (o : Origin) (q : Nat) (s : State) : Host.Outcome State Fault Refusal :=
  let v := putBit (reg s (Reg.sraQCfg q)) 0 false
  when s (decide (q < 256)) (writeAt s o (Reg.sraQCfg q) v (qCfgWrite s q v)).1

/-! ### The sweeper (R327 to R330) -/

/-- A word of the doorbell block is active (R327). -/
def wordActive (s : State) (w : Nat) : Bool :=
  if w < 256 then queueOn s w
  else if w < 320 then decide (ctxState s (w - 256) ≠ 0) && decide (fld s (Reg.sraCtxErrcfg (w - 256)) 3 0 ≠ 0)
  else decide (w = 320) && flag s Reg.sraDerrCfg 11

/-- A line of the doorbell block holds an active word (R328). -/
def lineActive (s : State) (l : Nat) : Bool := (List.range 16).any fun i => wordActive s (16 * l + i)

/-- SWEEP: an interval after the last sweep, a read of every line with an active word issues (R328). -/
def execSweep (s : State) : Host.Outcome State Fault Refusal :=
  when s (seraiRuns s && flag s Reg.sraSweep 8 && decide (s.sweepAt + 250 * fld s Reg.sraSweep 6 0 ≤ now s))
    { s with
      sweepAt := now s
      sweeps := s.sweeps ++ ((List.range 32).filter (lineActive s)).map fun l => ⟨l, now s⟩ }

/-- A queue STOPPED for a reason of R330, with its record. -/
def haltQueue (s : State) (q status who : Nat) : State := stopQueue (queueError s q status who 0) q status

/-- What the front end does with one doorbell word (R327, R329, R330). -/
def takeDoorbell (l : Nat) (s : State) (x : Nat × Word) : State :=
  let w := 16 * l + x.1
  let v := x.2
  if !wordActive s w then s
  else if w < 256 then
    if !queueMayFetch s w then s
    else if bits v 31 16 ≠ 0 ∨ ringSlots s w < ringUsed (bits v 15 0) (fld s (Reg.sraQStat w) 31 16) then haltQueue s w 0x0B 0xFFF
    else pumpFetch (modQueue s w fun y => { y with prod := BitVec.ofNat 16 v.toNat }) w
  else { s with errCons := sput s.errCons (w - 256) (BitVec.ofNat 16 v.toNat) }

/-- SWEEP_READ_RETURN: the words of the oldest read, acted on in issue order (R328, R329). -/
def execSweepReadReturn (line : Nat) (words : List Word) (s : State) : Host.Outcome State Fault Refusal :=
  match s.sweeps with
  | [] => .next s
  | r :: rest =>
    when s (decide (r.line = line) && decide (words.length = 16) && seraiRuns s)
      (((List.range 16).zip words).foldl (takeDoorbell line) { s with sweeps := rest })

/-- SWEEP_READ_TIMEOUT: a read not completed within SRA_HOST_DL is abandoned and counted (R328). -/
def execSweepReadTimeout (line : Nat) (s : State) : Host.Outcome State Fault Refusal :=
  match s.sweeps.findIdx? fun r => decide (r.line = line) && decide (r.issued + (reg s Reg.sraHostDl).toNat ≤ now s) with
  | none => .next s
  | some i => when s (seraiRuns s) (countFld { s with sweeps := s.sweeps.eraseIdx i } Reg.sraSweep 31 16)

/-- A slot as the eight words of its entry: a format-1 slot has four (R322). -/
def slotEntryWords (s : State) (q : Nat) (w : List DWord) : List DWord :=
  (List.range (if flag s (Reg.sraQCfg q) 1 then 8 else 4)).map fun i => nth w i 0

/-- RING_FETCH_RETURN: the entries of a ring read join the queue (R322 to R324). -/
def execRingFetchReturn (q : Nat) (slots : List (List DWord)) (s : State) : Host.Outcome State Fault Refusal :=
  let x := queueOf s q
  when s (decide (q < 256) && seraiRuns s && decide (x.reading ≠ 0) && decide (slots.length = x.reading) && queueMayFetch s q) (
    let s := modQueue s q fun y => { y with reading := 0, entries := y.entries ++ slots.map (slotEntryWords s q) }
    pumpFetch (settleFront (queueOf s q).entries.length s q) q)

/-- RING_READ_TIMEOUT: the queue is STOPPED with WAIT_TIMEOUT (R330). -/
def execRingReadTimeout (q : Nat) (s : State) : Host.Outcome State Fault Refusal :=
  let x := queueOf s q
  when s (decide (q < 256) && seraiRuns s && decide (x.reading ≠ 0) && decide (x.readAt + (reg s Reg.sraHostDl).toNat ≤ now s))
    (haltQueue s q 0x05 0x300)

/-! ### Control entries (R325) -/

/-- A control entry that fails a check at its start completes with that status; another one goes on. -/
def ctlStart (s : State) (q op : Nat) (k : List DWord → Host.Outcome State Fault Refusal) : Host.Outcome State Fault Refusal :=
  match ctlFront s q op, (queueOf s q).ctl with
  | some e, .ready => if ctlCheck s q e ≠ 0 then .next (completeControl s q (ctlCheck s q e) 0xFFF 0) else k e
  | _, _ => .next s

/-- EVSIGNAL: EVENT is signalled, with error VALIDATION where ERR = 1 (R325). -/
def execEvsignal (q : Nat) (s : State) : Host.Outcome State Fault Refusal :=
  ctlStart s q 9 fun e =>
    .next (completeControl (changeEvent s (.signal (entEvent e) (if bit (ent e 1) 0 then some 0x0B else none))) q 0 0xFFF 0)

/-- The status an EVWAIT on a signalled event completes with (R325). -/
def eventStatus (s : State) (e : Nat) : Nat := if flag s (Reg.sraEv e) 9 then fld s (Reg.sraEv e) 17 10 else 0

/-- EVWAIT: it completes once its event is signalled, and waits till then (R325). -/
def execEvwait (q : Nat) (s : State) : Host.Outcome State Fault Refusal :=
  match (queueOf s q).ctl with
  | .met st => if (ctlFront s q 10).isSome then .next (completeControl s q st.toNat 0xFFF 0) else .next s
  | _ =>
    ctlStart s q 10 fun e =>
      let s := flushEvents s
      if flag s (Reg.sraEv (entEvent e)) 8 then .next (completeControl s q (eventStatus s (entEvent e)) 0xFFF 0)
      else .next (modQueue s q fun x => { x with ctl := .waiting (now s + bits (ent e 1) 31 0) })

/-- EVWAIT_TIMEOUT: DL has passed; ADDR of the record holds the event number (R325). -/
def execEvwaitTimeout (q : Nat) (s : State) : Host.Outcome State Fault Refusal :=
  match ctlFront s q 10, (queueOf s q).ctl with
  | some e, .waiting d => when s (decide (d ≤ now s)) (completeControl s q 0x05 0xFFF (entEvent e))
  | _, _ => .next s

/-- EVRESET (R325, R335). -/
def execEvreset (q : Nat) (s : State) : Host.Outcome State Fault Refusal :=
  ctlStart s q 11 fun e => .next (completeControl (changeEvent s (.reset (entEvent e) (bit (ent e 1) 0))) q 0 0xFFF 0)

/-- The snapshot word that counts the bytes of a range: 7 near, 8 far, 9 host, 10 peer, 11 local (R345). -/
def mappedWord (a : Nat) : Nat :=
  if a < 0x100000000000 then 7 else if a < 0x200000000000 then 8 else if a < 0x300000000000 then 9
  else if a < 0x400000000000 then 10 else 11

/-- Word `k` of the ledger snapshot of a context (R340, R341, R345). -/
def ledgerWord (s : State) (c k : Nat) : Nat :=
  let kept := sget s.ledger (16 * c + k) 0
  if k = 0 then now s
  else if k = 1 then (kept + ((ctxCores s c).map (kernelCycles s)).sum) % 2 ^ 64
  else if 7 ≤ k ∧ k ≤ 11 then
    (((moValidList s).filter fun m => decide (moCtx s m = c) && decide (mappedWord (moPhys s m) = k)).map (moSize s)).sum
  else if k = 14 then c
  else kept

/-- The 128 bytes of a ledger snapshot (R345). -/
def ledgerBytes (s : State) (c : Nat) : List Byte := (List.range 16).flatMap fun k => leBytes 8 (ledgerWord s c k)

/-- Where a line of the snapshot goes: translated under enforced isolation (R316). -/
def ledgerPhys (s : State) (c a : Nat) : Option Nat := if enforced s then translate s c a 8 else some a

/-- The status a line of the snapshot meets at its address: the local memories of its tag's rectangle, windows and guarded
ranges of that tag, then holes (R211, R214, R320). -/
def ledgerTarget (s : State) (c a : Nat) : Nat :=
  match target s a with
  | .localMem k off =>
    if rectOf s k ≠ some (ctxTag s c) || (!ctxGuarded s c && (firstGlmem s k off 64).isSome) then 0x07
    else if coreDown s k then 0x01 else 0
  | _ =>
    if !inWindow s (ctxTag s c) a || (inGuardedRange s a && !ctxGuarded s c) then 0x07
    else if unreachable s a then 0x01 else 0

/-- A line of a snapshot that has not left tried at its target, which Serai 0 reaches with the tag of the context (R194, R279,
R320). -/
def ledgerTry (q c : Nat) (x : State × List LedgerLine) (y : LedgerLine) : State × List LedgerLine :=
  let s := x.1
  let put := fun (s : State) (y : LedgerLine) => (s, x.2 ++ [y])
  if y.sent || y.status.isSome then put s y
  else if cxlLate s y.phys y.reached then put s { y with status := some 0x05 }
  else
    match engineWrite s ⟨.serai 0, ctxTag s c⟩ (.queue q x.2.length) y.phys y.bytes false with
    | .stall r => put s (if r && y.reached.isNone then { y with reached := some (now s) } else y)
    | .sent s => put s { y with sent := true }
    | .done s _ st => put s { y with status := some (BitVec.ofNat 8 st) }

/-- The lines of a snapshot go on as far as their targets take them (R325). -/
def ledgerServe (s : State) (q : Nat) : State :=
  match (queueOf s q).ctl with
  | .ledger l =>
    let r := l.foldl (ledgerTry q (queueCtx s q)) (s, [])
    ledgerSettle (modQueue r.1 q fun x => { x with ctl := .ledger r.2 }) q
  | _ => s

/-- LEDGER: the snapshot of the queue's context is written at ADDR, and the entry completes when it has performed (R325,
R341). -/
def execLedger (q : Nat) (s : State) : Host.Outcome State Fault Refusal :=
  match (queueOf s q).ctl with
  | .ledger _ => if (ctlFront s q 12).isSome then .next (ledgerServe s q) else .next s
  | _ =>
  ctlStart s q 12 fun e =>
    let c := queueCtx s q
    let a := bits (ent e 1) 47 0
    match ledgerPhys s c a, ledgerPhys s c (a + 64) with
    | some p0, some p1 =>
      let st0 := ledgerTarget s c p0
      let st1 := ledgerTarget s c p1
      if st0 ≠ 0 then .next (completeControl s q st0 0xFFF a)
      else if st1 ≠ 0 then .next (completeControl s q st1 0xFFF (a + 64))
      else
        let bs := ledgerBytes s c
        let l := [⟨a, p0, bs.take 64, false, none, none⟩, ⟨a + 64, p1, bs.drop 64, false, none, none⟩]
        .next (ledgerServe (modQueue s q fun x => { x with ctl := .ledger l }) q)
    | none, _ => .next (completeControl s q 0x06 0xFFF a)
    | _, none => .next (completeControl s q 0x06 0xFFF (a + 64))

/-! ### Events from cores and registers (R335, R336, R349) -/

/-- A courier write of SRA_EVSIG: the sending core must lie in a rectangle of the event's owner (R336). -/
def evsigWrite (s : State) (src : Nat) (v : Word) : State × Nat :=
  let e := bits v 11 0
  let c := fld s (Reg.sraEv e) 5 0
  let ok := decide (src < s.pkg.nCores) && decide (ctxState s c ≠ 0) && match rectOf s src with
    | some n => ctxHasRect s c n
    | none => false
  if ok then (queueEvent s (.signal e (if bit v 16 then some 0x0B else none)), 0) else (s, 0x07)

/-- SRA_EVSIG_WRITE (R336). -/
def execSraEvsigWrite (core : Nat) (v : Word) (s : State) : Host.Outcome State Fault Refusal :=
  when s (decide (core < s.pkg.nCores) && seraiRuns s) (evsigWrite s core v).1

/-- EVENT_CHANGE: the oldest change on its way is applied (R335, R337). -/
def execEventChange (s : State) : Host.Outcome State Fault Refusal :=
  match s.evq with
  | [] => .next s
  | ch :: rest => when s (seraiRuns s) (applyEvent { s with evq := rest } ch)

/-- A write of SRA_EV: OWNER only while EN = 0, EN = 1 refused while OWNER is not active, then RESET (R335, R349). -/
def evWrite (s : State) (e : Nat) (v : Word) : State × Nat :=
  let off := Reg.sraEv e
  let s := setW1s s off v
  let on := flag s off 7
  let owner := if on then fld s off 5 0 else bits v 5 0
  let s := setFld (setFld s off 5 0 owner) off 25 18 (bits v 25 18)
  let s := if on && bit v 7 then s else setFlag s off 7 (bit v 7 && decide (ctxState s owner = 1))
  (if bit v 26 then changeEvent s (.reset e true) else s, 0)

/-- EV_RESET: the RESET bit, the fields written as they stand (R335, R349). -/
def execEvReset (o : Origin) (e : Nat) (s : State) : Host.Outcome State Fault Refusal :=
  let v := (reg s (Reg.sraEv e) &&& 0x3FC00BF) ||| 0x4000000
  when s (decide (e < 4096)) (writeAt s o (Reg.sraEv e) v (evWrite s e v)).1

/-- A write of a vector's control word: a pending message of a vector that is unmasked is sent (R310; log entry 12). -/
def msixCtrlWrite (s : State) (n : Nat) (v : Word) : State × Nat :=
  let s := plainWrite s (Reg.msixCtrl n) v
  if !bit v 0 && flag s (Reg.msixPba (n / 32)) (n % 32) then
    (sendMsix (setFlag s (Reg.msixPba (n / 32)) (n % 32) false) n, 0)
  else (s, 0)

end Sys2Proof.Machine
end

