-- ==== Sys2Proof/Machine/Links.lean ====
section
/-! DEFINITION. The chip-to-chip links: training, frames, replay, loss of a bundle, and the accesses that other chips make
(R350 to R370). -/

namespace Sys2Proof.Machine

/-! ### Links (R351, R352, R359, R368) -/

/-- The part has the link, and it is out of reset (R350). -/
def linkRuns (s : State) (i l : Nat) : Bool := decide (i < s.pkg.nSerai) && decide (l < 32) && partUp s && !s.pkg.slumber

/-- Both ends have sent and received SYNC: SEQ and e are 0 and the bundle is up (R361). -/
def syncDone (s : State) (i b : Nat) : State :=
  if decide (bundleState s i b = 3) && (bundle s i b).syncSent && (bundle s i b).syncGot then
    pumpBundle (setBundleState (modBundle s i b fun x => { x with seqNext := 0, expect := 0, syncSent := false, syncGot := false }) i b 1) i b
  else s

/-- The SYNC frames of a syncing bundle, one on every live link (R361). -/
def sendSyncs (s : State) (i b : Nat) : State :=
  if bundleState s i b = 3 then
    let s := (liveLinks s i b).foldl (fun s l => giveFrame s i b l 3 0 []) s
    modBundle s i b fun x => { x with syncSent := x.syncSent || !(liveLinks s i b).isEmpty }
  else s

/-- What a change of a bundle's live links or of its use means for it: the time since when a bundle in use that is not lost has
had no live link, SYNC frames, and waiting units (R356, R360, R361; log entry 45). -/
def noteLive (s : State) (i b : Nat) : State :=
  let dead := (liveLinks s i b).isEmpty && flag s (Reg.lnkBndCfg i b) 0 && decide (bundleState s i b ≠ 2)
  let s := modBundle s i b fun x => { x with deadAt := if dead then some (x.deadAt.getD (now s)) else none }
  pumpBundle (syncDone (sendSyncs s i b) i b) i b

/-- A link's STATE set, with READY, LNK_READY and GEN, which are those of a ready link alone (R368, R370). -/
def setLinkState (s : State) (i l st gen : Nat) : State :=
  let off := Reg.lnkStat i l
  let s := setFld (setFld s off 2 0 st) off 4 3 (if st = 2 then gen else 0)
  let s := setFlag (setFlag s off 5 (st = 2)) (Reg.lnkReady i) l (st = 2)
  let s := if st = 2 then modLinkSt s i l fun x => { x with phase := 7 * now s, freeAt := 7 * now s } else s
  noteLive s i (linkBundle s i l)

/-- A link ends in STATE failed with a status (R352, R359). -/
def linkFail (s : State) (i l status : Nat) : State := setFld (setLinkState s i l 4 0) (Reg.lnkStat i l) 15 8 status

/-- The generation a link advertises (R351). -/
def linkAdvert (s : State) (i l : Nat) : Nat :=
  Nat.min (fld s (Reg.lnkCtl i l) 3 2) (if bit s.pkg.sraCap 11 then 2 else 1)

/-- A ready link starts to retrain (R359). -/
def linkRetrain (s : State) (i l : Nat) : State :=
  if linkState s i l ≠ 2 then s
  else
    let s := modLinkSt s i l fun x => { x with attempt := 0, crcTimes := [], stuckAt := now s }
    setLinkState (countSat s (Reg.lnkRetrains i l)) i l 3 0

/-- A write of LNK_CTL (R352, R359, R367). -/
def linkCtlWrite (s : State) (i l : Nat) (v : Word) : State × Nat :=
  let off := Reg.lnkCtl i l
  let was := flag s off 0
  let s := storeFields s off (if was then putBit (reg s off) 0 (bit v 0) else v)
  if !was && bit v 0 then
    let s := setFlag (setFld s (Reg.lnkStat i l) 15 8 0) (Reg.lnkStat i l) 6 false
    (setLinkState (modLinkSt s i l fun x => { x with stuckAt := now s, crcTimes := [] }) i l 1 0, 0)
  else if was && !bit v 0 then (setLinkState s i l 0 0, 0)
  else if was && bit v 1 then (linkRetrain s i l, 0)
  else (s, 0)

/-- LINK_ENABLE (R352). -/
def execLinkEnable (o : Origin) (serai l : Nat) (s : State) : Host.Outcome State Fault Refusal :=
  let v := reg s (Reg.lnkCtl serai l) ||| 1
  when s (decide (serai < 2) && decide (l < 32)) (writeAt s o (Reg.lnkCtl serai l) v (linkCtlWrite s serai l v)).1

/-- LINK_TRAINING_END: an aligned TRAIN frame within 50,000 ns of the time base after EN was set ends training, and so does the
end of that time (R3, R351, R352). -/
def execLinkTrainingEnd (serai l : Nat) (r : TrainResult) (s : State) : Host.Outcome State Fault Refusal :=
  let limit := (linkSt s serai l).stuckAt + 50000
  if !linkRuns s serai l || decide (linkState s serai l ≠ 1) then .next s
  else
    match r with
    | .noFrame => when s (decide (limit ≤ now s)) (linkFail s serai l 0x05)
    | .aligned gen chip link lat =>
      if limit < now s then .next s else
      let off := Reg.lnkStat serai l
      let peer := fld s (Reg.lnkBndCfg serai (linkBundle s serai l)) 6 1
      let s := setFld (setFld s off 21 16 chip.toNat) off 27 22 link.toNat
      if decide (chip.toNat = fld s Reg.lnkChip 5 0) || decide (chip.toNat ≠ peer) then .next (linkFail s serai l 0x0B)
      else
        let g := Nat.min (linkAdvert s serai l) gen.toNat
        let s := setReg s (Reg.lnkLat serai l) (lat.setWidth 32)
        .next (setLinkState (modLinkSt s serai l fun x => { x with lastGen := BitVec.ofNat 2 g }) serai l 2 g)

/-- RETRAIN (R359). -/
def execRetrain (serai l : Nat) (s : State) : Host.Outcome State Fault Refusal :=
  when s (linkRuns s serai l) (linkRetrain s serai l)

/-- RETRAIN_ATTEMPT_END: two attempts at the last generation, and one at generation 1 after generation 2; an attempt does not
succeed later than 10,000 ns of the time base after it began (R359). -/
def execRetrainAttemptEnd (serai l : Nat) (ok : Bool) (s : State) : Host.Outcome State Fault Refusal :=
  if !linkRuns s serai l || decide (linkState s serai l ≠ 3) then .next s
  else
    let x := linkSt s serai l
    if ok && decide (now s ≤ x.stuckAt + 10000) then
      let down := decide (2 ≤ x.attempt)
      let g := if down then 1 else x.lastGen.toNat
      let s := if down then setFlag s (Reg.lnkStat serai l) 6 true else s
      .next (setLinkState (modLinkSt s serai l fun x => { x with lastGen := BitVec.ofNat 2 g }) serai l 2 g)
    else if x.attempt + 1 < 2 + (decide (x.lastGen = 2)).toNat then
      .next (modLinkSt s serai l fun x => { x with attempt := x.attempt + 1, stuckAt := now s })
    else .next (linkFail s serai l 0x05)

/-- TRAIN_FRAME: it belongs to a training in progress, and makes a ready link retrain (R352, R359). -/
def execTrainFrame (serai l : Nat) (_chip _link : BitVec 6) (_gen : BitVec 2) (s : State) : Host.Outcome State Fault Refusal :=
  when s (linkRuns s serai l) (linkRetrain s serai l)

/-! ### Ends of transactions (R225, R360, R362) -/

/-- An access of an agent ends with bytes and a status. -/
def answerRequester (s : State) (rq : Requester) (bytes : List Byte) (status : Nat) : State :=
  match rq with
  | .lane c id =>
    laneMod s c id fun a => { a with
      result := some (if status = 0 then .ok (if a.isStore then [] else bytes) [] else .fail (BitVec.ofNat 8 status)) }
  | .dma ch serial piece slot =>
    if creadSlot ≤ slot then
      match descOf s ch serial with
      | none => s
      | some d => (d.waits.filter fun w => !w.write && w.piece == piece && w.got.isNone).foldl
          (fun s w => engineAnswer s ch serial piece w.slot bytes status) s
    else engineAnswer s ch serial piece slot bytes status
  | .drover id => droverAnswer s id bytes status
  | .queue q line => ledgerAnswer s q line status
  | .serai => s

/-- A bundle is lost, steps 1, 2 and 4 of R360: its buffers are discarded, its transactions end with LINK_LOST, an alert goes to
Serai 0. Step 3 is the state itself. -/
def loseBundle (s : State) (i b : Nat) : State :=
  let ends := (bundle s i b).itags
  let s := modBundle s i b fun x => { x with
    replay := []
    reorder := []
    outbox := []
    itags := []
    gapAt := none
    replayRq := false
    syncSent := false
    syncGot := false
    deadAt := none }
  let s := setBundleState s i b 2
  let s := ends.foldl (fun s e => answerRequester s e.2.1 [] 0x08) s
  sendAlert s (0x300 + i) 0x08 0 0

/-- BUNDLE_LOST: no live link of a bundle in use for LNK_BND_DL (R360). -/
def execBundleLost (serai b : Nat) (s : State) : Host.Outcome State Fault Refusal :=
  match (bundle s serai b).deadAt with
  | none => .next s
  | some t =>
    when s (partUp s && decide (bundleState s serai b ≠ 2) && (liveLinks s serai b).isEmpty &&
        decide (t + (reg s (Reg.lnkBndDl serai b)).toNat ≤ now s))
      (loseBundle s serai b)

/-- A write of LNK_BND_CFG: RESYNC of a lost or idle bundle enters syncing (R361, R369). -/
def bndCfgWrite (s : State) (i b : Nat) (v : Word) : State × Nat :=
  let s := storeFields s (Reg.lnkBndCfg i b) v
  let st := bundleState s i b
  if bit v 12 && (decide (st = 2) || decide (st = 0)) then
    (noteLive (setBundleState (modBundle s i b fun x => { x with syncSent := false, syncGot := false }) i b 3) i b, 0)
  else (noteLive s i b, 0)

/-- RESYNC (R361). -/
def execResync (o : Origin) (serai b : Nat) (s : State) : Host.Outcome State Fault Refusal :=
  let v := reg s (Reg.lnkBndCfg serai b) ||| 0x1000
  when s (decide (serai < 2) && decide (b < 16)) (writeAt s o (Reg.lnkBndCfg serai b) v (bndCfgWrite s serai b v)).1

/-! ### Frames (R353 to R358) -/

/-- A frame that failed its CRC, or carries a reserved value: discarded and counted; a CRC failure asks for a replay, and 16 of
them within 10,000 ns retrain the link (R354, R357, R358, R359). -/
def badFrame (s : State) (i l : Nat) (crc : Bool) : State :=
  let s := countSat s (Reg.lnkCrcerr i l)
  if !crc then s
  else
    let recent := ((linkSt s i l).crcTimes ++ [now s]).filter fun t => decide (now s < t + 10000)
    let s := modLinkSt s i l fun x => { x with crcTimes := recent }
    let s := pumpBundle (modBundle s i (linkBundle s i l) fun x => { x with replayRq := true }) i (linkBundle s i l)
    if 16 ≤ recent.length then linkRetrain s i l else s

/-- Frames below an acknowledged number leave the replay buffer (R358). -/
def ackFrames (s : State) (i b : Nat) (a : BitVec 16) : State :=
  modBundle s i b fun x => { x with
    replay := x.replay.dropWhile fun f => decide ((a - f.seq).toNat ≠ 0) && decide ((a - f.seq).toNat < 32768) }

/-- A frame of the replay buffer sent again, on the live link that can begin it soonest (R356, R358). -/
def resendFrame (i b : Nat) (x : State × List SentFrame) (f : SentFrame) : State × List SentFrame :=
  match nextLink x.1 i b with
  | none => (x.1, x.2 ++ [f])
  | some l => (giveFrame x.1 i b l 0 f.seq f.units, x.2 ++ [⟨f.seq, now x.1, f.units, l⟩])

/-- Every unacknowledged frame is sent again, in SEQ order, and counted (R358). -/
def replayFrames (s : State) (i b : Nat) : State :=
  let fs := (bundle s i b).replay
  let off := Reg.lnkBndReplays i b
  let r := fs.foldl (resendFrame i b) (s, [])
  modBundle (setReg r.1 off (BitVec.ofNat 32 (Nat.min ((reg s off).toNat + fs.length) (2 ^ 32 - 1)))) i b fun x => { x with
    replay := r.2 }

/-- Held frames delivered in order, each after every earlier one (R357). -/
def deliver : Nat → Bundle → Bundle
  | 0, x => x
  | n + 1, x =>
    match x.reorder.find? fun f => f.1 == x.expect with
    | none => x
    | some f => deliver n { x with
        expect := x.expect + 1
        inbox := x.inbox ++ f.2
        reorder := x.reorder.filter fun g => g.1 != f.1
        replayRq := false }

/-- The time since when a bundle shows a gap: kept while it does, forgotten when it does not (R358). -/
def noteGap (s : State) (i b : Nat) (gap : Bool) : State :=
  modBundle s i b fun x => { x with gapAt := if gap then some (x.gapAt.getD (now s)) else none }

/-- A frame can be received: the link is live (R356). -/
def linkHears (s : State) (i l : Nat) : Bool := linkRuns s i l && decide (linkState s i l = 2)

/-- The bundle of a link is up: it takes the frames that pass their CRC (R357, R361). -/
def frameTaken (s : State) (i l : Nat) : Bool := decide (bundleState s i (linkBundle s i l) = 1)

/-- A frame of a kind that a link receives: its CRC and its fields are checked, and `k` says what it does. A frame of another
kind is no frame of the command that names this one (R353, R354, R357; log entry 61). -/
def receive (s : State) (i l kind : Nat) (bs : List Byte) (k : Frame → State) : Host.Outcome State Fault Refusal :=
  if !linkHears s i l then .next s
  else if !frameCrcOk bs then .next (badFrame s i l true)
  else
    match frameOf? bs with
    | none => .next (badFrame s i l true)
    | some f => when s (decide (f.kind = kind)) (k f)

/-- What a DATA frame does at a bundle that is up: it acknowledges, and is held, delivered in order, or dropped (R357, R358). -/
def takeData (s : State) (i l : Nat) (f : Frame) : State :=
  let b := linkBundle s i l
  let s := pumpBundle (ackFrames s i b f.ackSeq) i b
  let x := bundle s i b
  let d := (f.seq - x.expect).toNat
  if 32768 ≤ d ∨ x.reorder.any fun g => g.1 == f.seq then s
  else if 128 ≤ d then badFrame s i l false
  else
    let y := deliver 128 { x with reorder := x.reorder ++ [(f.seq, f.units)] }
    let s := modBundle s i b fun _ => { y with gapAt := if y.expect = x.expect then x.gapAt else none }
    noteGap s i b (!y.reorder.isEmpty)

/-- DATA_FRAME (R353, R354, R357, R358). -/
def execDataFrame (serai l : Nat) (frame : List Byte) (s : State) : Host.Outcome State Fault Refusal :=
  receive s serai l 0 frame fun f => if frameTaken s serai l then takeData s serai l f else s

/-- What a NULL frame does at a bundle that is up: it acknowledges, and its SEQ may show a gap (R358). -/
def takeNull (s : State) (i l : Nat) (f : Frame) : State :=
  let b := linkBundle s i l
  let s := pumpBundle (ackFrames s i b f.ackSeq) i b
  let x := bundle s i b
  let d := (f.seq - x.expect).toNat
  noteGap s i b (!x.reorder.isEmpty || (decide (0 < d) && decide (d < 32768)))

/-- NULL_FRAME: its SEQ is the next number the sender will use (R353, R357, R358). -/
def execNullFrame (serai l : Nat) (frame : List Byte) (s : State) : Host.Outcome State Fault Refusal :=
  receive s serai l 1 frame fun f => if frameTaken s serai l then takeNull s serai l f else s

/-- REPLAY_FRAME: what it acknowledges is freed, and every other frame is sent again before any new one (R358). -/
def execReplayFrame (serai l : Nat) (frame : List Byte) (s : State) : Host.Outcome State Fault Refusal :=
  let b := linkBundle s serai l
  receive s serai l 2 frame fun f =>
    if frameTaken s serai l then pumpBundle (replayFrames (ackFrames s serai b f.ackSeq) serai b) serai b else s

/-- What a SYNC frame does: a syncing bundle takes it; one that is up is lost first and then answers (R361). -/
def takeSync (s : State) (i b : Nat) : State :=
  let st := bundleState s i b
  if st = 3 then syncDone (modBundle s i b fun x => { x with syncGot := true }) i b
  else if st = 1 then
    let s := sendSyncs (setBundleState (loseBundle s i b) i b 3) i b
    syncDone (modBundle s i b fun x => { x with syncGot := true }) i b
  else s

/-- SYNC_FRAME (R361). -/
def execSyncFrame (serai l : Nat) (frame : List Byte) (s : State) : Host.Outcome State Fault Refusal :=
  receive s serai l 3 frame fun _ => takeSync s serai (linkBundle s serai l)

/-- Four frame times of a bundle's slowest live link, in whole nanoseconds from above (R350, R358). -/
def gapTime (s : State) (i b : Nat) : Nat :=
  if (liveLinks s i b).any fun l => decide (fld s (Reg.lnkStat i l) 4 3 = 1) then 165 else 83

/-- GAP_TIMER: a gap that has lasted 4 frame times makes the receiver send a REPLAY frame (R358). -/
def execGapTimer (serai b : Nat) (s : State) : Host.Outcome State Fault Refusal :=
  match (bundle s serai b).gapAt with
  | none => .next s
  | some t =>
    when s (partUp s && decide (bundleState s serai b = 1) && !(liveLinks s serai b).isEmpty && decide (t + gapTime s serai b ≤ now s))
      (pumpBundle (modBundle s serai b fun x => { x with gapAt := some (now s), replayRq := true }) serai b)

/-- REPLAY_TIMER: the oldest unacknowledged frame has waited longer than LNK_BND_RTMR (R358). -/
def execReplayTimer (serai b : Nat) (s : State) : Host.Outcome State Fault Refusal :=
  match (bundle s serai b).replay with
  | [] => .next s
  | f :: _ =>
    when s (partUp s && decide (bundleState s serai b = 1) && !(liveLinks s serai b).isEmpty &&
        decide (f.sentAt + fld s (Reg.lnkBndRtmr serai b) 15 0 < now s))
      (replayFrames s serai b)

/-! ### Inbound requests (R355, R362, R363) -/

/-- The line of a request; none for a response. -/
def unitLine (u : LinkUnit) : Option Nat :=
  match u with
  | .write _ l _ _ => some l.toNat
  | .read _ l _ _ => some l.toNat
  | .share _ l _ _ => some l.toNat
  | .rawblk _ l _ _ => some l.toNat
  | .cread _ l _ => some l.toNat
  | _ => none

/-- A number for each kind of unit (R354). -/
def unitOp (u : LinkUnit) : Nat :=
  match u with
  | .write .. => 1
  | .read .. => 2
  | .rdata .. => 3
  | .resp .. => 4
  | .share .. => 5
  | .rawblk .. => 6
  | .cread .. => 7

/-- Two units are requests to one point of coherence, whose order holds (R363). -/
def samePoc (s : State) (u v : LinkUnit) : Bool :=
  match unitLine u, unitLine v with
  | some a, some b => decide ((unitOf s (128 * a)).1 = (unitOf s (128 * b)).1)
  | _, _ => false

/-- The place of the first delivered unit of a kind that no earlier one holds back (R363). -/
def nextUnit (s : State) (inbox : List LinkUnit) (op : Nat) : Option Nat :=
  (List.range inbox.length).find? fun j =>
    match inbox[j]? with
    | none => false
    | some u => decide (unitOp u = op) && !((inbox.take j).any (samePoc s u))

/-- The next delivered unit of a kind, and the state without it. -/
def takeUnit (s : State) (i b op : Nat) : Option (LinkUnit × State) :=
  if !partUp s || !decide (i < s.pkg.nSerai) then none
  else
    let x := bundle s i b
    match nextUnit s x.inbox op with
    | none => none
    | some j => (x.inbox[j]?).map fun u => (u, modBundle s i b fun y => { y with inbox := y.inbox.eraseIdx j })

/-- A response sent back; a bundle that is not up sends nothing (R360, R362). -/
def respond (s : State) (i b : Nat) (u : LinkUnit) : State := if bundleState s i b = 1 then sendUnit s i b u else s

/-- The check of an inbound access, of `n` bytes at an offset (R362): 0 or the status. -/
def inboundCheck (s : State) (i b off n : Nat) : Nat :=
  let cfg := reg s (Reg.lnkBndCfg i b)
  let tag := bits cfg 10 7
  if decide (nearSize s < off + n) || !unitReady s (unitOf s off).1 then 0x01
  else if !rectOn s tag || !inWindow s tag off then 0x07
  else if inGuardedRange s off && !bit cfg 11 then 0x07
  else 0

/-- The outstanding CREAD of a bundle that a unit with a tag and a line answers: its requester's channel, descriptor and piece,
and the mask of the blocks that have arrived (R355). -/
def creadOf (s : State) (i b : Nat) (t : BitVec 12) (line : Nat) : Option (Chan × Nat × Nat × Nat) :=
  match (bundle s i b).itags.find? fun e => e.1 == t with
  | some (_, .dma ch serial piece slot, l) =>
    let rate := match descOf s ch serial with
      | some d => dCodec d.words
      | none => 2
    if decide (creadSlot ≤ slot) && decide (l ≤ line) && decide (line < l + groupBlocks rate) then some (ch, serial, piece, slot - creadSlot)
    else none
  | _ => none

/-- The bytes of this part's memory that a request names: offset and length; none for the answer to a CREAD of this part (R354,
R355, R362). -/
def unitRange (s : State) (i b : Nat) (u : LinkUnit) : Option (Nat × Nat) :=
  match u with
  | .write _ l f bs => some (128 * l.toNat + f.toNat, bs.length)
  | .read _ l f n => some (128 * l.toNat + f.toNat, n.toNat + 1)
  | .share t l r _ => if (creadOf s i b t l.toNat).isSome then none else some (128 * l.toNat, 128 * groupBlocks r.toNat)
  | .rawblk t l _ _ => if (creadOf s i b t l.toNat).isSome then none else some (128 * l.toNat, 128)
  | .cread _ l r => some (128 * l.toNat, 128 * groupBlocks r.toNat)
  | _ => none

/-- The Serai as the engine of a bundle's inbound accesses, with the tag INTAG (R362, R369). -/
def inboundAgent (s : State) (i b : Nat) : Agent := ⟨.serai i, fld s (Reg.lnkBndCfg i b) 10 7⟩

/-- A request that passes its checks waits while its unit drains, and while INTAG has no usable slot on the path (R194, R256,
R362). -/
def inboundWaits (s : State) (i b : Nat) (u : LinkUnit) : Bool :=
  match unitRange s i b u with
  | none => false
  | some (a, n) => decide (inboundCheck s i b a n = 0) && (pocWaits s a n || !agentServed s (inboundAgent s i b) a)

/-- The lane beats of a request that passes its checks, counted for INTAG (R340, R362). -/
def countInbound (s : State) (i b : Nat) (u : LinkUnit) : State :=
  match unitRange s i b u with
  | none => s
  | some (a, n) => if inboundCheck s i b a n = 0 then countTrip s (inboundAgent s i b) a else s

/-- An inbound request performs once it need not wait: `f` gives the state after it, checked or refused (R256, R362). -/
def inbound (s : State) (i b op : Nat) (f : LinkUnit → State → State) : Host.Outcome State Fault Refusal :=
  match takeUnit s i b op with
  | none => .next s
  | some (u, s1) => if inboundWaits s i b u then .next s else .next (f u (countInbound s1 i b u))

/-- WRITE (R362). -/
def execLinkWrite (serai b : Nat) (s : State) : Host.Outcome State Fault Refusal :=
  inbound s serai b 1 fun u s =>
    match u with
    | .write t l f bs =>
      let a := 128 * l.toNat + f.toNat
      let st := inboundCheck s serai b a bs.length
      respond (if st = 0 then pocWrite s a bs false else s) serai b (.resp [(t, BitVec.ofNat 8 st)])
    | _ => s

/-- READ (R362). -/
def execLinkRead (serai b : Nat) (s : State) : Host.Outcome State Fault Refusal :=
  inbound s serai b 2 fun u s =>
    match u with
    | .read t l f n =>
      let a := 128 * l.toNat + f.toNat
      let len := n.toNat + 1
      let st := inboundCheck s serai b a len
      if st ≠ 0 then respond s serai b (.rdata t (BitVec.ofNat 8 st) [])
      else
        let s := pocRead s a len
        respond s serai b (.rdata t (BitVec.ofNat 8 (poisonStatus s a len)) (placeBytes f.toNat (readMem s a len)))
    | _ => s

/-- A tag whose transaction has ended. -/
def dropItag (s : State) (i b : Nat) (t : BitVec 12) : State :=
  modBundle s i b fun x => { x with itags := x.itags.filter fun e => e.1 != t }

/-- A block that a CREAD brought goes to the read that waits for it: its slot's bytes and its header. -/
def creadBlock (s : State) (ch : Chan) (serial piece line : Nat) (cb : CodedBlock) : State :=
  match descOf s ch serial with
  | none => s
  | some d =>
    match d.waits.find? fun w => !w.write && w.piece == piece && w.got.isNone &&
        decide (physOf d.pages w.addr % 2 ^ 38 / 128 = line) with
    | none => s
    | some w =>
      engineAnswer s ch serial piece w.slot (cb.bytes ++ leBytes (128 - cb.bytes.length) 0 ++ leBytes 2 cb.header.toNat) 0

/-- SHARE: the answer to a CREAD, or a group stored with its headers (R355, R362). -/
def execLinkShare (serai b : Nat) (s : State) : Host.Outcome State Fault Refusal :=
  inbound s serai b 5 fun u s =>
    match u with
    | .share t l r bs =>
      let blocks := (shareBlocks r.toNat bs).zipIdx
      match creadOf s serai b t l.toNat with
      | some (ch, serial, piece, _) =>
        blocks.foldl (fun s p => creadBlock s ch serial piece (l.toNat + p.2) p.1) (dropItag s serai b t)
      | none =>
        let a := 128 * l.toNat
        let st := inboundCheck s serai b a (128 * groupBlocks r.toNat)
        let s := if st = 0 then blocks.foldl (fun s p => storeCoded s (a + 128 * p.2) p.1 false) s else s
        respond s serai b (.resp [(t, BitVec.ofNat 8 st)])
    | _ => s

/-- RAWBLK: one block of the answer to a CREAD, or a block stored with its header; a header with RAW = 0 stores the share alone
(R297, R355, R362; log entry 26). -/
def execLinkRawblk (serai b : Nat) (s : State) : Host.Outcome State Fault Refusal :=
  inbound s serai b 6 fun u s =>
    match u with
    | .rawblk t l h bs =>
      let cb : CodedBlock := ⟨h, bs.take (codedLen (bits h 1 0) h)⟩
      match creadOf s serai b t l.toNat with
      | some (ch, serial, piece, mask) =>
        let rate := match descOf s ch serial with
          | some d => dCodec d.words
          | none => 2
        let m := mask ||| 2 ^ (l.toNat % groupBlocks rate)
        let s := if m + 1 = 2 ^ groupBlocks rate then dropItag s serai b t
          else modBundle s serai b fun x => { x with
            itags := x.itags.map fun e => if e.1 = t then (e.1, .dma ch serial piece (creadSlot + m), e.2.2) else e }
        creadBlock s ch serial piece l.toNat cb
      | none =>
        let a := 128 * l.toNat
        let st := inboundCheck s serai b a 128
        respond (if st = 0 then storeCoded s a cb false else s) serai b (.resp [(t, BitVec.ofNat 8 st)])
    | _ => s

/-- CREAD: a group read and returned as one SHARE, or as one RAWBLK for each block; a refusal or poison returns as RDATA (R355,
R362; log entry 26). -/
def execLinkCread (serai b : Nat) (s : State) : Host.Outcome State Fault Refusal :=
  inbound s serai b 7 fun u s =>
    match u with
    | .cread t l r =>
      let rate := r.toNat
      let a := 128 * l.toNat
      let as := (List.range (groupBlocks rate)).map fun i => a + 128 * i
      let st := inboundCheck s serai b a (128 * groupBlocks rate)
      if st ≠ 0 then respond s serai b (.rdata t (BitVec.ofNat 8 st) [])
      else
        let hd := fun a : Nat => sget s.side (a / 128) (0 : BitVec 16)
        let s := as.foldl (fun s a => pocRead s a (codedLen rate (hd a))) s
        if as.any fun a => isPoisoned s a (codedLen rate (hd a)) then respond s serai b (.rdata t 0x02 [])
        else if as.all fun a => !headerRaw (hd a) then
          respond s serai b (.share t l r (shareBytes rate (as.map fun a => ⟨hd a, readMem s a (shareSize rate)⟩)))
        else as.foldl (fun s a =>
          let n := codedLen rate (hd a)
          respond s serai b (.rawblk t (BitVec.ofNat 31 (a / 128)) (hd a) (readMem s a n ++ leBytes (128 - n) 0))) s
    | _ => s

/-! ### Responses (R362, R363) -/

/-- The bytes of the line an RDATA unit carries that its requester asked for (R354). -/
def askedBytes (s : State) (rq : Requester) (line : List Byte) : List Byte :=
  let cut := fun a n : Nat => (line.drop (a % 128)).take n
  match rq with
  | .lane c id =>
    match laneFind s c id with
    | some a => cut a.addr a.size
    | none => []
  | .dma ch serial piece slot =>
    match (descOf s ch serial).bind fun d => (d.waits.find? fun w => w.piece == piece && w.slot == slot).map fun w => (d, w) with
    | some (d, w) => cut (physOf d.pages w.addr) w.len
    | none => []
  | .drover id =>
    match s.drv.access.find? fun x => x.id == id with
    | some x => cut x.addr x.len
    | none => []
  | .queue .. => []
  | .serai => []

/-- The transaction of a tag ends (R363). -/
def endItag (s : State) (i b : Nat) (t : BitVec 12) (bytes : List Byte) (status : Nat) : State :=
  match (bundle s i b).itags.find? fun e => e.1 == t with
  | none => s
  | some e => answerRequester (dropItag s i b t) e.2.1 (askedBytes s e.2.1 bytes) status

/-- RDATA: the bytes and status go to the waiting agent (R362). -/
def execLinkRdata (serai b : Nat) (s : State) : Host.Outcome State Fault Refusal :=
  match takeUnit s serai b 3 with
  | some (.rdata t st bs, s) => .next (pumpBundle (endItag s serai b t bs st.toNat) serai b)
  | _ => .next s

/-- A late NAK recorded: the first is kept (R362, R369). -/
def recordNak (s : State) (i b : Nat) (t : BitVec 12) (status : Nat) : State :=
  let off := Reg.lnkNaklog i b
  if flag s off 31 then s
  else
    let line := match (bundle s i b).itags.find? fun e => e.1 == t with
      | some e => e.2.2
      | none => 0
    setReg (setReg s off (BitVec.ofNat 32 (status % 256 + 256 * t.toNat + 2 ^ 31))) (Reg.lnkNakline i b) (BitVec.ofNat 32 line)

/-- One record of a RESP: an acknowledgement, or a late NAK, which reaches the agent as LATE_NAK (R225, R362). -/
def takeResp (i b : Nat) (s : State) (r : BitVec 12 × Byte) : State :=
  if r.2 = 0 then endItag s i b r.1 [] 0 else endItag (recordNak s i b r.1 r.2.toNat) i b r.1 [] 0x13

/-- RESP (R362). -/
def execLinkResp (serai b : Nat) (s : State) : Host.Outcome State Fault Refusal :=
  match takeUnit s serai b 4 with
  | some (.resp rs, s) => .next (pumpBundle (rs.foldl (takeResp serai b) s) serai b)
  | _ => .next s

end Sys2Proof.Machine
end

