-- ==== Sys2Proof/Machine/Reset.lean ====
section
/-! DEFINITION. The resets that reach more than a core or a context: package and Drover POR, PACKAGE and FUNCTION resets,
the Drover's boot (R32, R399, R429 to R436, R443). -/

namespace Sys2Proof.Machine

/-! ### What every package reset does -/

/-- The Drover's cores among the cores. -/
def drvCores (s : State) : Sparse Core := s.cores.filter fun e => isDrvCore e.1

/-- The registers of the Drover block among a register map. -/
def drvRegs (m : Sparse Word) : Sparse Word := sdrop m fun k => decide (k < 0x3000000)

/-- Near-tier and local memory of the mesh zeroed with valid ECC, the memories outside the package left (R429, R430). -/
def zeroPackage (s : State) : State := zeroMem (zeroMem s 0 0x100000000000) 0x400000000000 (2 ^ 48 - 0x400000000000)

/-- Everything of the compute die and the Serai dies at its reset value but the memories: registers, staged halves, cores,
engines, queues and links; the Drover keeps its own (R431, R443). -/
def clearDies (s : State) : State :=
  { s with
    regs := drvRegs s.regs
    staged := drvRegs s.staged
    cores := drvCores s
    convoys := []
    slotNow := []
    courier := []
    units := []
    sdma := []
    events := []
    evq := []
    errq := []
    errOvf := []
    errCons := []
    alerts := []
    msix := []
    queues := []
    kernels := []
    ledger := []
    sweeps := []
    sweepAt := 0
    links := []
    bundles := [] }

/-- Every block of the part is ready (R427, R430). -/
def readyAll (s : State) : State := (List.range s.pkg.nBlocks).foldl (fun s b => setBlockReady s b true) s

/-! ### POR (R32, R431, R432) -/

/-- PWROK_LOW: package POR. Every die but the Drover returns to its reset state; near-tier and local memory are zeroed, and
the time base is held at 0 (R32, R429 to R432, R443; log entry 3). -/
def execPwrokLow (s : State) : Host.Outcome State Fault Refusal :=
  let s := { zeroPackage (clearDies s) with side := sdrop s.side fun k => decide (128 * k < 0x100000000000) }
  .next { s with
    tb := 0
    pkg := { s.pkg with
      pwrok := false
      hostUp := false
      d3hot := false
      slumber := false
      fromPor := true
      memStart := false
      resetAt := 0 } }

/-- PWROK_HIGH: package POR ends, and the time base counts from 0; the blocks are ready once PERST_N is high too (R32,
R430). -/
def execPwrokHigh (s : State) : Host.Outcome State Fault Refusal :=
  if s.pkg.pwrok then .next s
  else
    let s := { s with tb := 0, pkg := { s.pkg with pwrok := true, resetAt := 0 } }
    .next (if s.pkg.perst then readyAll s else s)

/-- DROVER_POR: every register, unit and core of the Drover at its reset value, every output off (R399, R431, R432). -/
def execDroverPor (s : State) : Host.Outcome State Fault Refusal :=
  when s s.pkg.hasDrover
    (zeroMem { s with
      regs := sdrop s.regs fun k => decide (0x3000000 ≤ k)
      staged := sdrop s.staged fun k => decide (0x3000000 ≤ k)
      cores := sdrop s.cores isDrvCore
      drv := Drover.reset } (localBase Config.drvPair) (2 * 0x80000))

/-- The bytes of the board flash from `lo`, as the boot ROM copies them to a core's local memory (R432). -/
def copyFlash (s : State) (c lo : Nat) (flash : List (Nat × Byte)) : State :=
  flash.foldl (fun s e => if lo ≤ e.1 ∧ e.1 < lo + localSize c then writeLocal s c (e.1 - lo) [e.2] else s) s

/-- One thread in the world its core runs in (R372). -/
def worldThread (guarded : Bool) (t : Thread) : Thread :=
  { t with mode := if guarded then (if t.mode.super then .gs else .gu) else (if t.mode.super then .ps else .pu) }

/-- A core of the Drover copied from the flash and started from its image header, in the world it runs in; DRV_READY shows
that it runs (R371, R372, R402, R432). -/
def bootCore (s : State) (c lo bit : Nat) (flash : List (Nat × Byte)) : State :=
  let s := releaseCore (copyFlash (zeroMem s (localBase c) 0x80000) c lo flash) c
  if (core s c).run = .running then
    setFlag (modThr s ⟨c, 0⟩ (worldThread (c == Config.drvPair))) Reg.drvReady bit true
  else s

/-- DROVER_BOOT: after a Drover POR or a watchdog reset the boot ROM copies the flash, given as the bytes that are not 0,
and starts the cores; the housekeeping core alone after its own halt (R432, R436). -/
def execDroverBoot (flash : List (Nat × Byte)) (s : State) : Host.Outcome State Fault Refusal :=
  when s s.pkg.hasDrover (
    if s.drv.por || s.drv.resetting then
      let s := modDrv s fun d => { d with por := false, resetting := false }
      bootCore (bootCore s Config.drvPair 0 0 flash) Config.drvHk 0x40000 1 flash
    else if (core s Config.drvHk).run = .running then s
    else bootCore s Config.drvHk 0x40000 1 flash)

/-! ### PACKAGE (R431, R443) -/

/-- A far-view store in flight when PERST_N falls performs or does not: one of these (log entry 31). -/
def settleStore (c : Nat) (s : State) (a : LaneAccess) : State :=
  match a.kind with
  | .store bs =>
    if a.sent && a.result.isNone && Config.resetPerforms s.tb c a.id then
      match target s a.addr with
      | .near u => if unitReady s u then pocWrite s a.addr bs false else s
      | .far _ => writeMem s a.addr bs
      | .host => writeMem s (hostCell s a.addr) bs
      | .localMem d _ => if coreDown s d then s else writeMem s a.addr bs
      | _ => s
    else s
  | _ => s

/-- The stores in flight of every core of the mesh, core by core. -/
def settleStores (s : State) : State :=
  s.cores.foldl (fun s e => if isDrvCore e.1 then s else e.2.lane.foldl (settleStore e.1) s) s

/-- What a PACKAGE reset leaves of a core: its HALTS counter (R443). -/
def packageCore (t : Nat) (e : Nat × Core) : Nat × Core :=
  if isDrvCore e.1 then e
  else (e.1, { Core.reset with csr := e.2.csr.filter fun x => decide (x.1 = 0x11D), cycStamp := t })

/-- The global registers that a PACKAGE reset keeps: the time base with its rate, and CMP_DBG_LOCK (R443). -/
def packageKeeps (off : Nat) : Bool :=
  decide (0x3000000 ≤ off) || decide (off = Reg.cmpTimeHi) || decide (off = Reg.cmpTimeRate) || decide (off = Reg.cmpDbgLock)

/-- A unit after a PACKAGE reset: its cache empty, its stack in self-refresh if it had trained (R429, R443). -/
def packageUnit (e : Nat × Unit) : Nat × Unit := (e.1, { Unit.reset with selfRef := e.2.trained || e.2.selfRef })

/-- PERST_LOW: a PACKAGE reset. Dirty lines are written back; near-tier and local memory, the time base, HALTS and
CMP_DBG_LOCK are kept, everything else of the compute die and the Serai dies is reset (R431, R443). -/
def execPerstLow (s : State) : Host.Outcome State Fault Refusal :=
  let s := settleStores s
  let s := (List.range s.pkg.nUnits).foldl emptyCache s
  let kept := s.regs.filter fun e => packageKeeps e.1
  let cores := s.cores.map (packageCore (now s))
  let units := s.units.map packageUnit
  .next { clearDies s with
    regs := kept
    cores := cores
    units := units
    pkg := { s.pkg with
      perst := false
      hostUp := false
      d3hot := false
      slumber := false
      fromPor := false
      memStart := false } }

/-- PERST_HIGH: the PACKAGE reset ends; the blocks become ready, and the second of R429 runs from here (R429, R430). -/
def execPerstHigh (s : State) : Host.Outcome State Fault Refusal :=
  when s (!s.pkg.perst) (
    let s := { s with pkg := { s.pkg with perst := true, resetAt := now s } }
    if s.pkg.pwrok then readyAll s else s)

/-! ### FUNCTION (R431, R435, R443) -/

/-- A rectangle that a FUNCTION reset spares with its cores (R435). -/
def rectSpared (s : State) (n : Nat) : Bool := tenLocked s && rectOn s n && rectGuarded s n

/-- A core that a FUNCTION reset spares (R435). -/
def coreSpared (s : State) (c : Nat) : Bool := tenLocked s && coreGuarded s c

/-- What a FUNCTION reset keeps of a slot-table word: the entries tagged with a spared rectangle (R435). -/
def flrSlots (s : State) (w : Word) : Word :=
  BitVec.ofNat 32 (leNat ((List.range 4).map fun j =>
    let e := byteOf w j
    if e / 16 % 2 = 1 ∧ rectSpared s (e % 16) then BitVec.ofNat 8 e else 0))

/-- A register of the compute die's global block after a FUNCTION reset (R443). -/
def flrGlobal (s : State) (off : Nat) (v : Word) : Option Word :=
  if 0x1001000 ≤ off ∧ off < 0x1001040 then
    if tenLocked s && rectGuarded s ((off - 0x1001000) / 4) then some v else none
  else if 0x1001100 ≤ off ∧ off < 0x1001300 then
    if tenLocked s && rectGuarded s ((off - 0x1001100) / 0x20) then some v else none
  else if 0x1001400 ≤ off ∧ off < 0x1001440 then if tenLocked s then some v else none
  else if 0x1080000 ≤ off ∧ off < 0x1100000 then
    if (members s ((off - 0x1080000) / 0x10)).all (coreSpared s) then some v else none
  else if 0x1100000 ≤ off ∧ off < 0x1102000 then some (flrSlots s v)
  else if off = Reg.cmpLaneCommit then none
  else some v

/-- A register of a memory controller after a FUNCTION reset: its state and scrub log are kept, the RW-L fields where
HBM_CTL.LOCK is set (R443). -/
def flrUnit (s : State) (off : Nat) (v : Word) : Option Word :=
  let o := off % 0x100000
  if o = 0 ∨ o = 0x44 ∨ (0xC4 ≤ o ∧ o < 0x200) then some v
  else if flag s (Reg.hbmCtl ((off - 0x2000000) / 0x100000)) 0 then
    match regRow off with
    | some r => if r.rwl = 0 then none else some ((v &&& r.rwl) ||| (s.pkg.resetWord off &&& ~~~r.rwl))
    | none => none
  else none

/-- A register after a FUNCTION reset; none where it has its reset value (R443). -/
def flrReg (s : State) (e : Nat × Word) : Option (Nat × Word) :=
  if e.1 < 0x1000000 then
    if e.1 = Reg.sraAlertOvf ∨ (e.1 = Reg.lnkChip ∧ flag s Reg.lnkChip 8 = true) then some e else none
  else if e.1 < 0x1400000 then (flrGlobal s e.1 e.2).map fun v => (e.1, v)
  else if 0x2000000 ≤ e.1 ∧ e.1 < 0x3000000 then (flrUnit s e.1 e.2).map fun v => (e.1, v)
  else some e

/-- A unit after a FUNCTION reset: the masks in force return to those of reset unless they are locked, and a preload in
progress ends (R443). -/
def flrUnitState (s : State) (e : Nat × Unit) : Nat × Unit :=
  let locked := flag s (Reg.hbmCtl e.1) 0
  (e.1, { e.2 with
    refNow := if locked then e.2.refNow else []
    gearNow := if locked then e.2.gearNow else []
    preNext := 0 })

/-- A spared core goes on as a resident kernel (R435, R437). -/
def spareCore (s : State) (c : Nat) : State :=
  if coreSpared s c then modCore s c fun k => { k with resident := k.resident || decide (k.run ≠ .parked), kernel := false } else s

/-- FLR: a FUNCTION reset. Every core but the spared ones takes R433; caches are written back; contexts, queues, events,
memory objects, links and the Serai's other set-up are reset (R431, R435, R443). -/
def execFlr (s : State) : Host.Outcome State Fault Refusal :=
  when s (partUp s && s.pkg.hostUp && !s.pkg.slumber) (
    let cs := List.range s.pkg.nCores
    let spared := fun c => coreSpared s c
    let s := cs.foldl (fun s c => if spared c then spareCore s c else beginCoreReset s c ⟨false, false, false⟩) s
    let s := (List.range s.pkg.nUnits).foldl emptyCache s
    { s with
      regs := s.regs.filterMap (flrReg s)
      staged := sdrop s.staged fun k => decide (k < 0x1000000)
      slotNow := s.slotNow.map fun e => (e.1, flrSlots s e.2)
      units := s.units.map (flrUnitState s)
      convoys := s.convoys.filter fun e => (members s e.1).all (coreSpared s)
      sdma := []
      events := []
      evq := []
      errq := s.errq.filter fun r => r.ctx.isNone
      errOvf := []
      errCons := []
      msix := []
      queues := []
      kernels := []
      ledger := []
      sweeps := []
      sweepAt := 0
      links := []
      bundles := [] })

end Sys2Proof.Machine
end

