-- ==== Sys2Proof/Machine/Package.lean ====
section
/-! DEFINITION. Bring-up and power: near-tier training, CXL enumeration, block power states, SLUMBER, the host port, the
TAP, the time base's read, alerts (R30, R48, R206, R240, R427 to R446). -/

namespace Sys2Proof.Machine

/-! ### Bring-up (R240, R427 to R430) -/

/-- A write of CMP_MEM_START: GO starts training, which locks ILV (R238, R429). -/
def memStartWrite (s : State) (v : Word) : State × Nat :=
  (if bit v 0 then { setFlag s Reg.cmpMemStart 0 true with pkg := { s.pkg with memStart := true } } else s, 0)

/-- MEM_START_GO (R429). -/
def execMemStartGo (o : Origin) (s : State) : Host.Outcome State Fault Refusal :=
  .next (writeAt s o Reg.cmpMemStart 1 (memStartWrite s 1)).1

/-- MEM_START_TIMEOUT: training starts 1 s after the reset (R429). -/
def execMemStartTimeout (s : State) : Host.Outcome State Fault Refusal :=
  when s (partUp s && !s.pkg.memStart && decide (s.pkg.resetAt + 1000000000 ≤ now s))
    { s with pkg := { s.pkg with memStart := true } }

/-- A unit's READY bit set: it has trained, or has left self-refresh (R427, R429, R442). -/
def unitUp (s : State) (u : Nat) : State :=
  setFlag (modUnit s u fun m => { m with trained := true, selfRef := false }) (Reg.hbmStat u) 0 true

/-- UNIT_TRAINED (R427, R429). -/
def execUnitTrained (unit : Nat) (s : State) : Host.Outcome State Fault Refusal :=
  when s (unitRuns s unit && s.pkg.memStart && !unitReady s unit) (unitUp s unit)

/-- CXL_ENUMERATED: the port's tier entry is populated with the capacity its device reports (R240, R265, R427). -/
def execCxlEnumerated (port gib : Nat) (s : State) : Host.Outcome State Fault Refusal :=
  when s (seraiRuns s && decide (port < 2 * s.pkg.nSerai) && decide (0 < gib) && decide (gib ≤ 1024))
    (setFld (setFld s (Reg.cmpTierW0 port) 3 0 3) (Reg.cmpTierW2 (port + 1)) 15 0 gib)

/-- HOST_PORT_LINK_UP (R428, R430). -/
def execHostPortLinkUp (s : State) : Host.Outcome State Fault Refusal :=
  when s (partUp s) { s with pkg := { s.pkg with hostUp := true } }

/-! ### Block power (R439 to R441, R445) -/

/-- A core keeps its block from being idle (R440). -/
def coreBusy (s : State) (c : Nat) : Bool :=
  let k := core s c
  decide (k.run = .running) || k.kernel || k.resident || k.resetJob.isSome ||
    ((List.range 16).any fun n => flag s (Reg.cmpCvCfg n) 31 && (members s n).contains c) ||
    decide (wbState s c = 1) || decide (wbState s c = 2) || decide (fld s (Reg.cmpTdmaCfg c) 17 16 ≠ 0) || !k.lane.isEmpty

/-- A block is idle (R440). -/
def blockIdle (s : State) (b : Nat) : Bool := (List.range s.pkg.nCores).all fun c => decide (blockOf c ≠ b) || !coreBusy s c

/-- A write of CMP_BLK_PWR: a request for NAP, DOZE or OFF needs an idle block; one that is accepted starts a transition
(R439, R440, R445). -/
def blkPwrWrite (s : State) (b : Nat) (v : Word) : State × Nat :=
  let off := Reg.cmpBlkPwr b
  let req := bits v 1 0
  if decide (req ≠ 0) && !blockIdle s b then (setFld s off 15 8 0x0B, 0)
  else
    let s := setFld (setFld s off 15 8 0) off 1 0 req
    (if blockState s b = req then s else setFlag s off 6 true, 0)

/-- A power request for a block. -/
def blockRequest (o : Origin) (b req : Nat) (s : State) : Host.Outcome State Fault Refusal :=
  when s (decide (b < 48)) (writeAt s o (Reg.cmpBlkPwr b) (BitVec.ofNat 32 req) (blkPwrWrite s b (BitVec.ofNat 32 req))).1

/-- BLOCK_RUN (R439). -/
def execBlockRun (o : Origin) (b : Nat) (s : State) : Host.Outcome State Fault Refusal := blockRequest o b 0 s

/-- BLOCK_NAP (R439, R440). -/
def execBlockNap (o : Origin) (b : Nat) (s : State) : Host.Outcome State Fault Refusal := blockRequest o b 1 s

/-- BLOCK_DOZE (R439, R440). -/
def execBlockDoze (o : Origin) (b : Nat) (s : State) : Host.Outcome State Fault Refusal := blockRequest o b 2 s

/-- BLOCK_OFF (R439, R440). -/
def execBlockOff (o : Origin) (b : Nat) (s : State) : Host.Outcome State Fault Refusal := blockRequest o b 3 s

/-- A core whose block enters DOZE or OFF: its state is lost, in OFF its local memory too (R443). -/
def powerDownCore (off : Bool) (s : State) (c : Nat) : State :=
  let s := wipeCore s c false
  if off then zeroMem s (localBase c) (localSize c) else s

/-- One move of a block's transition ends: it enters `st`, or leaves DOZE or OFF, where its cores return the credits of the
beats that came meanwhile (R438, R439, R443). -/
def blockMove (s : State) (b st : Nat) : State :=
  let old := blockState s b
  let cs := blocksCores s (· == b)
  let s := setFld s (Reg.cmpBlkPwr b) 5 4 st
  let s := if 2 ≤ st then cs.foldl (powerDownCore (st == 3)) s else if 2 ≤ old then cs.foldl landingReset s else s
  setBlockReady s b (blockUp s b)

/-- BLOCK_POWER_TRANSITION_END: a move ends, and moves between NAP, DOZE and OFF go through RUN; a block that is idle no
longer stays in RUN (R439, R440; DESIGN CHOICE, log entry 32). -/
def execBlockPowerTransitionEnd (b : Nat) (s : State) : Host.Outcome State Fault Refusal :=
  let off := Reg.cmpBlkPwr b
  let req := fld s off 1 0
  if !decide (b < s.pkg.nBlocks) || !partUp s || s.pkg.slumber || !flag s off 6 then .next s
  else if blockState s b = req then .next (setFlag s off 6 false)
  else if blockState s b ≠ 0 then .next (setFlag (blockMove s b 0) off 6 (decide (req ≠ 0)))
  else if !blockIdle s b then .next (setFlag (setFld (setFld s off 1 0 0) off 15 8 0x0B) off 6 false)
  else .next (setFlag (blockMove s b req) off 6 false)

/-! ### SLUMBER (R439, R442, R446) -/

/-- A block put in OFF (R442). -/
def blockToOff (s : State) (b : Nat) : State := setReg (blockMove s b 3) (Reg.cmpBlkPwr b) 0x33

/-- A stack put in self-refresh: its unit is not ready (R442). -/
def unitDown (s : State) (u : Nat) : State :=
  if unitReady s u then setFlag (modUnit s u fun m => { m with selfRef := true }) (Reg.hbmStat u) 0 false else s

/-- Every link of the part, by Serai and number. -/
def allLinks (s : State) : List (Nat × Nat) :=
  (List.range s.pkg.nSerai).flatMap fun i => (List.range 32).map fun l => (i, l)

/-- A link taken down (R442). -/
def linkDown (s : State) (x : Nat × Nat) : State :=
  let off := Reg.lnkStat x.1 x.2
  setFlag (setFlag (setFld (setFld s off 2 0 0) off 4 3 0) off 5 false) (Reg.lnkReady x.1) x.2 false

/-- A bundle left idle (R442). -/
def bundleDown (s : State) (x : Nat × Nat) : State := setBundleState s x.1 x.2 0

/-- SLUMBER is entered, in the order of R442. -/
def enterSlumber (s : State) : State :=
  let s := (List.range s.pkg.nUnits).foldl emptyCache s
  let s := (List.range s.pkg.nBlocks).foldl blockToOff s
  let s := (allLinks s).foldl linkDown s
  let s := { (((allLinks s).filter fun x => decide (x.2 < 16)).foldl bundleDown s) with links := [], bundles := [] }
  let s := (List.range s.pkg.nUnits).foldl unitDown s
  { s with pkg := { s.pkg with d3hot := true, slumber := true } }

/-- D3HOT_ENTRY: the function enters D3hot; with SLUMBER_EN the part enters SLUMBER unless a context is not free (R442,
R446). -/
def execD3hotEntry (s : State) : Host.Outcome State Fault Refusal :=
  let stay := { s with pkg := { s.pkg with d3hot := true } }
  if !partUp s || !s.pkg.hostUp || s.pkg.d3hot then .next s
  else if !flag s Reg.sraPwr 0 then .next stay
  else if (List.range 64).any fun c => decide (ctxState s c ≠ 0) then .next (setFlag stay Reg.sraPwr 9 true)
  else .next (enterSlumber s)

/-- A unit leaves self-refresh (R442). -/
def unitWake (s : State) (u : Nat) : State := if (memUnit s u).selfRef then unitUp s u else s

/-- A link whose EN is 1 trains again (R442). -/
def linkWake (s : State) (x : Nat × Nat) : State :=
  if flag s (Reg.lnkCtl x.1 x.2) 0 then
    modLinkSt (setFld s (Reg.lnkStat x.1 x.2) 2 0 1) x.1 x.2 fun k => { k with stuckAt := now s }
  else s

/-- SLUMBER_EXIT: a transition to D0. From SLUMBER the units are ready again without the start of R429, enabled links train,
CXL enumeration is done again, and SLUMBERED is set; the blocks stay in OFF (R439, R442, R443). -/
def execSlumberExit (s : State) : Host.Outcome State Fault Refusal :=
  if !partUp s || !s.pkg.d3hot then .next s
  else
    let awake := { s with pkg := { s.pkg with d3hot := false, slumber := false } }
    if !s.pkg.slumber then .next awake
    else
      let s := (List.range s.pkg.nUnits).foldl unitWake awake
      let s := (allLinks s).foldl linkWake s
      let s := (List.range (2 * s.pkg.nSerai)).foldl (fun s p => setFld s (Reg.cmpTierW0 p) 3 0 0) s
      .next (setFlag s Reg.sraPwr 8 true)

/-! ### The TAP, the time base's registers, alerts -/

/-- What the TAP shifts out: the manual describes no register of it (R48; log entry 10). -/
def tapShift (s : State) : State := { s with tapOut := Config.tapValue s.tapCount, tapCount := s.tapCount + 1 }

/-- TAP_ACCESS: Guarded debug access is refused once CMP_DBG_LOCK is set (R48). -/
def execTapAccess (op : TapOp) (s : State) : Host.Outcome State Fault Refusal :=
  match op with
  | .boundaryScan => .next (tapShift s)
  | .debugPlain => .next (tapShift s)
  | .debugGuarded => when s (!flag s Reg.cmpDbgLock 0) (tapShift s)

/-- A read of CMP_TIME_LO latches the high word (R30). -/
def latchTime (s : State) : State := setReg s Reg.cmpTimeHi (BitVec.ofNat 32 (now s / 2 ^ 32))

/-- CMP_TIME_LO_READ: the host reads the low word of the time base (R30). -/
def execCmpTimeLoRead (s : State) : Host.Outcome State Fault Refusal :=
  when s (hostReaches s) { latchTime s with barData := BitVec.ofNat 32 (now s) }

/-- ALERT: one that reaches Serai 0 is recorded; the Drover's copy changes no state the manual gives the Drover (R206, R207,
R339). -/
def execAlert (k : Nat) (s : State) : Host.Outcome State Fault Refusal :=
  match takeMsg s k 5 with
  | none => .next s
  | some (m, s') =>
    if m.dest = 0x300 then (if seraiRuns s then .next (alertAtSerai s' m) else .next s) else .next s'

end Sys2Proof.Machine
end

