-- ==== Sys2Proof/Machine/RegWrite.lean ====
section
/-! DEFINITION. Register accesses as a whole: what each register's write does, the values hardware computes, BAR0 and
courier accesses (R12 to R15, R30, R38, R45, R206, R291, R348, R369, R404, R438). -/

namespace Sys2Proof.Machine

/-! ### Writes with conditions of their own -/

/-- A write of LNK_CHIP: CHIP_ID only while no link is ready (R365, R370). -/
def chipWrite (s : State) (v : Word) : State × Nat :=
  let ready := decide (reg s (Reg.lnkReady 0) ≠ 0) || decide (reg s (Reg.lnkReady 1) ≠ 0)
  (plainWrite s Reg.lnkChip (if ready then putBits v 5 0 (fld s Reg.lnkChip 5 0) else v), 0)

/-- A write of LNK_ROUTEk: VALID = 1 for the part's own number has no effect (R370). -/
def routeWrite (s : State) (k : Nat) (v : Word) : State × Nat :=
  (if bit v 0 && decide (k = fld s Reg.lnkChip 5 0) then s else plainWrite s (Reg.lnkRoute k) v, 0)

/-- A write of CMP_TIME_RATE: where DRV_OWNED is 1, only the Drover's (R30). -/
def timeRateWrite (s : State) (o : Origin) (v : Word) : State × Nat :=
  let drover := match o with
    | .node n _ => decide (n = 0x302)
    | .host => false
  (if flag s Reg.cmpTimeRate 16 && !drover then s else plainWrite s Reg.cmpTimeRate v, 0)

/-- A write of CMP_CR_OUTBOX: every busy bit is 0 once EN goes from 0 to 1 (R208, R217). -/
def crOutboxWrite (s : State) (c : Nat) (v : Word) : State × Nat :=
  let off := Reg.cmpCrOutbox c
  let s' := plainWrite s off v
  (if !flag s off 16 && flag s' off 16 then
    [0, 1, 2, 3].foldl (fun s t => modThr s ⟨c, BitVec.ofNat 2 t⟩ fun x => { x with outbox := none }) s'
  else s', 0)

/-- A write of SRA_CXL_LATMAX: a 1 in any bit clears it (R293). -/
def latmaxWrite (s : State) (off : Nat) (v : Word) : State × Nat := (if v = 0 then s else setReg s off 0, 0)

/-- A courier write of SRA_KDONE is a core's report; a write of the host has no effect (R333, R336). -/
def kdoneWrite (s : State) (o : Origin) : State × Nat :=
  match o with
  | .node n _ => (if n < s.pkg.nCores then kernelDone s n else s, 0)
  | .host => (s, 0)

/-- A write of SRA_EVSIG: a courier write signals an event; one of the host has no effect (R336). -/
def evsigAccess (s : State) (o : Origin) (v : Word) : State × Nat :=
  match o with
  | .node n _ => evsigWrite s n v
  | .host => (s, 0)

/-- A write that has no effect where `c` holds. -/
def keepIf (s : State) (c : Bool) (k : State) : State × Nat := (if c then s else k, 0)

/-! ### What each register's write does -/

/-- A write of a register of a Serai's block. -/
def seraiWrite (s : State) (o : Origin) (off : Nat) (v : Word) : State × Nat :=
  let i := off / 0x800000
  let x := off % 0x800000
  if off = Reg.sraIso then isoWrite s v
  else if off = Reg.sraEvsig then evsigAccess s o v
  else if off = Reg.sraKdone then kdoneWrite s o
  else if 0x1000 ≤ off ∧ off < 0x2000 ∧ off % 0x40 = 0 then ctxCfgWrite s o ((off - 0x1000) / 0x40) v
  else if 0x1000 ≤ off ∧ off < 0x2000 ∧ off % 0x40 = 4 then ctxRectsWrite s ((off - 0x1000) / 0x40) v
  else if 0x20000 ≤ off ∧ off < 0x20400 ∧ off % 0x10 = 0xC then msixCtrlWrite s ((off - 0x20000) / 0x10) v
  else if 0x10000 ≤ off ∧ off < 0x12000 ∧ off % 0x20 = 0 then qCfgWrite s ((off - 0x10000) / 0x20) v
  else if 0x100000 ≤ off ∧ off < 0x110000 ∧ off % 0x10 = 0 then evWrite s ((off - 0x100000) / 0x10) v
  else if 0x200000 ≤ off ∧ off < 0x400000 ∧ off % 0x20 = 0 then moCfgWrite s ((off - 0x200000) / 0x20) v
  else if 0x200000 ≤ off ∧ off < 0x400000 then moWordWrite s ((off - 0x200000) / 0x20) off v
  else if 0x40000 ≤ x ∧ x < 0x40400 ∧ x % 0x20 = 0 then dmaCtlWrite s i ((x - 0x40000) / 0x20) v
  else if 0x41000 ≤ x ∧ x < 0x41040 then gtrRsvWrite s (.far i) ((x - 0x41000) / 4) v
  else if x = 0x41048 ∨ x = 0x4104C then latmaxWrite s off v
  else if 0x500000 ≤ x ∧ x < 0x500800 ∧ x % 0x40 = 0 then linkCtlWrite s i ((x - 0x500000) / 0x40) v
  else if 0x501000 ≤ x ∧ x < 0x501200 ∧ x % 0x20 = 0 then bndCfgWrite s i ((x - 0x501000) / 0x20) v
  else if off = Reg.lnkChip then chipWrite s v
  else if 0x502100 ≤ off ∧ off < 0x502200 then routeWrite s ((off - 0x502100) / 4) v
  else (plainWrite s off v, 0)

/-- A write of a register of the compute die's global block. -/
def globalWrite (s : State) (o : Origin) (off : Nat) (v : Word) : State × Nat :=
  if off = Reg.cmpTimeRate then timeRateWrite s o v
  else if off = Reg.cmpMemStart then memStartWrite s v
  else if off = Reg.cmpCoreRst then coreRstWrite s o v
  else if off = Reg.cmpRgnRstLo then regionWrite s o v
  else if off = Reg.cmpRgnRstHi then ({ s with staged := sput s.staged off v }, 0)
  else if 0x1000400 ≤ off ∧ off < 0x10004C0 then blkPwrWrite s ((off - 0x1000400) / 4) v
  else if 0x1001000 ≤ off ∧ off < 0x1001040 then tenRectWrite s ((off - 0x1001000) / 4) v
  else if 0x1001100 ≤ off ∧ off < 0x1001300 then
    keepIf s (tenLocked s && rectGuarded s ((off - 0x1001100) / 0x20)) (plainWrite s off v)
  else if 0x1001400 ≤ off ∧ off < 0x1001440 then keepIf s (tenLocked s) (plainWrite s off v)
  else if 0x1080000 ≤ off ∧ off < 0x1080100 ∧ off % 0x10 = 0 then convoyCfgWrite s ((off - 0x1080000) / 0x10) v
  else if 0x1100000 ≤ off ∧ off < 0x1102000 then
    laneSlotWrite s o ((off - 0x1100000) / 0x40) ((off - 0x1100000) % 0x40 / 4) v
  else if off = Reg.cmpLaneCommit then laneCommitWrite s v
  else (plainWrite s off v, 0)

/-- A write of a register of a core's block. -/
def coreBlockWrite (s : State) (o : Origin) (off : Nat) (v : Word) : State × Nat :=
  let c := (off - 0x1400000) / 0x40
  let x := off % 0x40
  if x = 0 then wbCtlWrite s o c v
  else if x = 0x18 then icCtlWrite s c v
  else if x = 0x1C then tdmaCfgWrite s o c v
  else if x = 0x34 then crOutboxWrite s c v
  else (plainWrite s off v, 0)

/-- A write of a register of a memory controller. -/
def unitWrite (s : State) (off : Nat) (v : Word) : State × Nat :=
  let u := (off - 0x2000000) / 0x100000
  let x := off % 0x100000
  if x = 0x40 then maskCommitWrite s u v
  else if x = 0x50 then bcCtlWrite s u v
  else if x = 0x54 then bcLockWrite s u v
  else if x = 0x68 then preCmdWrite s u v
  else if 0x200 ≤ x ∧ x < 0x240 then gtrRsvWrite s (.near u) ((x - 0x200) / 4) v
  else (plainWrite s off v, 0)

/-- A write of a register of an Ethernet port (R407). -/
def ethWrite (s : State) (off : Nat) (v : Word) : State × Nat :=
  let p := (off - 0x3002000) / 0x400
  let x := (off - 0x3002000) % 0x400
  let ring := (x - 0x100) / 0x10
  if x = 0 then ethCtlWrite s p v
  else if x = 4 ∨ x = 8 then keepIf s (flag s (Reg.drvEthCtl p) 0) (plainWrite s off v)
  else if 0x100 ≤ x ∧ x < 0x1C0 ∧ x % 0x10 = 0 then keepIf s (flag s (Reg.drvEthRingcfg p ring) 31) (plainWrite s off v)
  else if 0x100 ≤ x ∧ x < 0x1C0 ∧ x % 0x10 = 4 then ringCfgWrite s p ring v
  else if x = 0x1C0 then gclCtlWrite s p v
  else keepIf s (gclLocked s p off) (plainWrite s off v)

/-- A write of a register of a CAN port (R408). -/
def canWrite (s : State) (off : Nat) (v : Word) : State × Nat :=
  let c := (off - 0x3003000) / 0x400
  let x := (off - 0x3003000) % 0x400
  if x = 0 then canEnWrite s c v
  else if x = 4 ∨ x = 8 ∨ x = 0xC then keepIf s (flag s (Reg.drvCanCtl c) 0) (plainWrite s off v)
  else if 0x140 ≤ x ∧ x < 0x340 ∧ x % 0x20 = 4 then canCtlWrite s c ((x - 0x140) / 0x20) v
  else if x = 0x390 then canPopWrite s c v
  else (plainWrite s off v, 0)

/-- A write of a register of the units of R426. -/
def twinBlockWrite (s : State) (o : Origin) (off : Nat) (v : Word) : State × Nat :=
  let x := off - 0x3008000
  if x < 0x80 ∧ x % 0x20 = 0 then prmCfgWrite s (x / 0x20) v
  else if 0x100 ≤ x ∧ x < 0x180 ∧ x % 0x20 = 0 then twinCfgWrite s ((x - 0x100) / 0x20) v
  else if 0x100 ≤ x ∧ x < 0x180 ∧ (x % 0x20 = 4 ∨ x % 0x20 = 8) then twinWrite s o ((x - 0x100) / 0x20) (x % 0x20 == 8) v
  else if 0x200 ≤ x ∧ x < 0x300 ∧ x % 0x20 = 0 then wdCfgWrite s ((x - 0x200) / 0x20) v
  else if 0x200 ≤ x ∧ x < 0x300 ∧ x % 0x20 = 8 then wdOpenWrite s ((x - 0x200) / 0x20) v
  else if 0x200 ≤ x ∧ x < 0x300 ∧ x % 0x20 = 0xC then wdKickWrite s o ((x - 0x200) / 0x20) v
  else if off = Reg.drvEstopCfg then estopCfgWrite s v
  else if off = Reg.drvEstopStat then estopStatWrite s v
  else if 0x310 ≤ x ∧ x < 0x320 then safeMapWrite s off v
  else (plainWrite s off v, 0)

/-- A write of a register of the Drover. -/
def droverWrite (s : State) (o : Origin) (off : Nat) (v : Word) : State × Nat :=
  if 0x3001000 ≤ off ∧ off < 0x3002000 ∧ off % 0x100 = 0 then csiCfgWrite s ((off - 0x3001000) / 0x100) v
  else if 0x3002000 ≤ off ∧ off < 0x3003000 then ethWrite s off v
  else if 0x3003000 ≤ off ∧ off < 0x3004000 then canWrite s off v
  else if 0x3004000 ≤ off ∧ off < 0x3005000 then dinWrite s off v
  else if off = Reg.drvEncSnaptLo then snaptWrite s v
  else if 0x3006000 ≤ off ∧ off < 0x3006200 ∧ off % 0x40 = 0 then adcCfgWrite s ((off - 0x3006000) / 0x40) v
  else if off = Reg.drvAdcCtl then adcCtlWrite s v
  else if 0x3006200 ≤ off ∧ off < 0x300620C then adcTimeWrite s off v
  else if 0x3007000 ≤ off ∧ off < 0x3007020 then doutCfgWrite s ((off - 0x3007000) / 4) v
  else if off = Reg.drvDoutCtl then rearmWrite s v
  else if 0x3007040 ≤ off ∧ off < 0x3007060 then doutStatWrite s ((off - 0x3007040) / 4) v
  else if 0x3008000 ≤ off then twinBlockWrite s o off v
  else (plainWrite s off v, 0)

/-- The effect of a write of a register, with the status a courier response carries. -/
def regEffect (s : State) (o : Origin) (off : Nat) (v : Word) : State × Nat :=
  if off < 0x1000000 then seraiWrite s o off v
  else if off < 0x1400000 then globalWrite s o off v
  else if off < 0x2000000 then coreBlockWrite s o off v
  else if off < 0x3000000 then unitWrite s off v
  else droverWrite s o off v

/-- A register write: presence, the rule of the worlds, then the register's own effect. -/
def regWrite (s : State) (o : Origin) (off : Nat) (v : Word) : State × Nat := writeAt s o off v (regEffect s o off v)

/-! ### Reads -/

/-- Units of a bundle that await their responses (R354, R369). -/
def bundleOutstanding (s : State) (i b : Nat) : Nat := (bundle s i b).itags.length

/-- The value of a register of a Serai's block, with the fields hardware computes (R291, R293, R348, R369). -/
def seraiValue (s : State) (off : Nat) : Word :=
  let i := off / 0x800000
  let x := off % 0x800000
  let w := reg s off
  if 0x10000 ≤ off ∧ off < 0x12000 ∧ off % 0x20 = 0x14 then
    if bits w 1 0 = 1 ∧ (queueOf s ((off - 0x10000) / 0x20)).ctl ≠ .ready then putBits w 1 0 2 else w
  else if 0x40000 ≤ x ∧ x < 0x40400 then
    let d := chan s (.sys i ((x - 0x40000) / 0x20))
    if x % 0x20 = 4 then BitVec.ofNat 32 (chanState d + 256 * d.last.toNat + 65536 * (inFlight d % 64))
    else if x % 0x20 = 8 then d.ccount
    else if x % 0x20 = 0xC then d.okcount
    else w
  else if x = 0x41040 then BitVec.ofNat 32 (gatherInUse s (.far i) % 4096)
  else if 0x501000 ≤ x ∧ x < 0x501200 ∧ x % 0x20 = 4 then
    let b := (x - 0x501000) / 0x20
    putBits (putBits w 7 2 (liveLinks s i b).length) 20 8 (bundleOutstanding s i b)
  else w

/-- The value of a register of a core's block: CMP_LP_STAT is computed (R217, R287). -/
def coreBlockValue (s : State) (off : Nat) : Word :=
  let c := (off - 0x1400000) / 0x40
  if off % 0x40 = 0x20 then
    match rectOf s c with
    | some n => BitVec.ofNat 32 (laneUsed s c % 32 + 256 * n + 4096)
    | none => BitVec.ofNat 32 (laneUsed s c % 32)
  else reg s off

/-- The value of a register of the Drover, with the bits hardware computes (R402, R404, R422). -/
def droverValue (s : State) (off : Nat) : Word :=
  if off = Reg.drvReady then putBit (reg s off) 14 (drvMemUp s)
  else if off = Reg.drvDinStat then (List.range 16).foldl (fun w i => putBit w i (dinValue s i)) 0
  else if off = Reg.drvEstopStat then putBit (reg s off) 0 (estopDemanded s)
  else reg s off

/-- What a register that the part has reads as; an absent block and a reserved offset read 0 (R14, R45). -/
def regValue (s : State) (off : Nat) : Word :=
  if presence s off ≠ .present then 0
  else if off < 0x1000000 then seraiValue s off
  else if 0x1400000 ≤ off ∧ off < 0x2000000 then coreBlockValue s off
  else if 0x2000000 ≤ off ∧ off < 0x3000000 ∧ off % 0x100000 = 0x240 then
    BitVec.ofNat 32 (gatherInUse s (.near ((off - 0x2000000) / 0x100000)) % 4096)
  else if 0x3000000 ≤ off then droverValue s off
  else reg s off

/-- A register read, with what it latches or pops (R30, R404, R405). -/
def regRead (s : State) (off : Nat) : State × Word :=
  if off = Reg.cmpTimeLo then (latchTime s, BitVec.ofNat 32 (now s))
  else if presence s off ≠ .present then (s, 0)
  else if off = Reg.drvDinEvt0 then dinEvtRead s
  else if 0x3005000 ≤ off ∧ off < 0x3005100 ∧ off % 0x40 = 0xC then encZtimeRead s ((off - 0x3005000) / 0x40)
  else (s, regValue s off)

/-! ### BAR0 (R38, R45) -/

/-- An access of the host that is not an aligned word: recorded; a read returns 0. Its KIND is 1 whatever is at the offset
(R45; DESIGN CHOICE, log entry 66). -/
def badBarAccess (s : State) (off : Nat) (write : Bool) : State :=
  let s := recordBadAccess s off 1
  if write then s else { s with barData := 0 }

/-- A read of the host, recorded where the offset belongs to an absent block or is reserved (R45). -/
def barRead (s : State) (off : Nat) : State :=
  let s := match presence s off with
    | .absent => recordBadAccess s off 0
    | .reserved => recordBadAccess s off 2
    | .present => s
  let r := regRead s off
  { r.1 with barData := r.2 }

/-- REGISTER_WRITE: one access of a register, by the host through the 64 MiB of BAR0, or a courier write (R13, R38, R45). -/
def execRegisterWrite (o : Origin) (offset : Nat) (a : BarAccess) (s : State) : Host.Outcome State Fault Refusal :=
  if 0x4000000 ≤ offset then .next s
  else
    match a with
    | .write32 v =>
      if offset % 4 = 0 then .next (regWrite s o offset v).1
      else when s (decide (o = .host) && hostReaches s) (badBarAccess s offset true)
    | .read32 =>
      if offset % 4 ≠ 0 then when s (decide (o = .host) && hostReaches s) (badBarAccess s offset false)
      else when s (decide (o = .host) && reaches s .host offset) (barRead s offset)
    | .badSize w => when s (decide (o = .host) && hostReaches s) (badBarAccess s offset w)

/-! ### Courier configuration accesses (R206, R438) -/

/-- An offset of the global block that no core of the part owns (R206). -/
def globalOwns (s : State) (off : Nat) : Bool :=
  decide (0x1000000 ≤ off) && decide (off < 0x2000000) &&
    (decide (off < 0x1400000) || decide (s.pkg.nCores ≤ (off - 0x1400000) / 0x40))

/-- The offset belongs to a node's own block (R206). -/
def nodeOwns (s : State) (node off : Nat) : Bool :=
  if node < 0x300 then decide (0x1400000 + 0x40 * node ≤ off) && decide (off < 0x1400000 + 0x40 * (node + 1))
  else if node = 0x300 then decide (off < 0x800000)
  else if node = 0x301 then decide (0x800000 ≤ off) && decide (off < 0x1000000)
  else if node = 0x302 then decide (0x3000000 ≤ off) && decide (off < 0x4000000)
  else if node = 0x320 then globalOwns s off
  else decide (0x2000000 + 0x100000 * (node - 0x310) ≤ off) && decide (off < 0x2000000 + 0x100000 * (node - 0x30F))

/-- The node can act on a message now. -/
def nodeUp (s : State) (node : Nat) : Bool := if node = 0x302 then drvUp s else partUp s && !s.pkg.slumber

/-- The BAR0 offset of a CFG message (R205). -/
def cfgOffset (m : Msg) : Nat := 4 * bits m.p1 23 0

/-- What refuses a CFG message before its register: a guarded core and a Plain sender, an offset that is not the node's, a
core that is down (R206, R438). -/
def cfgRefused (s : State) (m : Msg) : Nat :=
  if !m.g && nodeGuarded s m.dest then 0x07
  else if !nodeOwns s m.dest (cfgOffset m) || (decide (m.dest < 0x300) && coreDown s m.dest) then 0x01
  else 0

/-- The response to a CFG message, counted for the context of a core that sends it (R205, R206, R340). -/
def cfgRespond (s : State) (m : Msg) (data : Word) (status : Nat) : State :=
  sendFrom s ⟨m.src, 4, nodeGuarded s m.dest, m.dest, data, BitVec.ofNat 32 (status + 256 * bits m.p1 31 24)⟩

/-- CFG_RD (R206). -/
def execCfgRd (k : Nat) (s : State) : Host.Outcome State Fault Refusal :=
  match takeMsg s k 2 with
  | none => .next s
  | some (m, s') =>
    if !nodeUp s m.dest then .next s
    else
      let st := cfgRefused s' m
      if st ≠ 0 then .next (cfgRespond s' m 0 st)
      else
        let r := regRead s' (cfgOffset m)
        .next (cfgRespond r.1 m r.2 0)

/-- CFG_WR (R206). -/
def execCfgWr (k : Nat) (s : State) : Host.Outcome State Fault Refusal :=
  match takeMsg s k 3 with
  | none => .next s
  | some (m, s') =>
    if !nodeUp s m.dest then .next s
    else
      let st := cfgRefused s' m
      if st ≠ 0 then .next (cfgRespond s' m 0 st)
      else
        let r := regWrite s' (.node m.src m.g) (cfgOffset m) m.p2
        .next (cfgRespond r.1 m 0 r.2)

end Sys2Proof.Machine
end

