-- ==== Sys2Proof/Machine/ScalarMem.lean ====
section
/-! DEFINITION. Loads, prefetches, stores and atomics of the scalar core, and the spill and fill of a register window
(R58, R64 to R70, R93, R94, R203, R223, R371). -/

namespace Sys2Proof.Machine

/-! ### The Drover register block in a Drover core's view (R371) -/

/-- A read of the Drover register block through the core's view: whole words are read, anything else reads 0 (R13,
R371; DESIGN CHOICE, log entry 16). -/
def drvRegRead (s : State) (off n : Nat) : State × List Byte :=
  if n % 4 = 0 then
    (List.range (n / 4)).foldl (fun r i =>
      let x := regRead r.1 (off + 4 * i)
      (x.1, r.2 ++ leBytes 4 x.2.toNat)) (s, [])
  else (s, List.replicate n 0)

/-- A write to the Drover register block through the core's view: whole words are written with the thread's world,
anything else is discarded (R13, R371, R373; DESIGN CHOICE, log entry 16). -/
def drvRegWrite (s : State) (h : Hart) (off : Nat) (bs : List Byte) : State :=
  if bs.length % 4 = 0 then
    (List.range (bs.length / 4)).foldl (fun r i =>
      (regWrite r (.node 0x302 (thr s h).mode.guarded) (off + 4 * i)
        (BitVec.ofNat 32 (leNat ((bs.drop (4 * i)).take 4)))).1) s
  else s

/-! ### Loads (R64 to R69, R93, R203, R223) -/

/-- The address of a load or store: a register and a signed offset. -/
def memAddr (s : State) (h : Hart) (rb : GReg) (off : BitVec 13) : Word := greg s h rb + sext off

/-- The traps that an access of `n` bytes raises at its issue, in their order (R453). -/
def issueTraps (s : State) (h : Hart) (va : Word) (n : Nat) : Option Trap :=
  if misaligned va n then some (trapMisaligned va) else viewTrap s h va n

/-- A load that takes its bytes at once (R68, R92). -/
def commitLoad (s : State) (h : Hart) (rd : GReg) (bs : List Byte) (signed : Bool) : State :=
  retire (setGreg s h rd (extendBytes bs signed)) h

/-- The bytes that the line buffer serves to a load: only one without .V, and none that a store of the thread has yet to
write (R220, R223, R224; log entry 14). -/
def bufferServed (s : State) (h : Hart) (dev n : Nat) (volat : Bool) : Option (List Byte) :=
  if volat || ownStoreOpen s h dev n || !Config.bufferServes (laneId s h.core) then none
  else (bufferLine s h.core dev).map fun line => (line.drop (dev % 128)).take n

/-- A far-view load goes over the lane port and is held until its answer: it commits then, and younger instructions may
issue behind it; with 16 accesses outstanding it waits (R69, R74, R202, R203). -/
def sendLoad (s : State) (h : Hart) (rd : GReg) (va : Word) (dev n : Nat) (signed volat : Bool) : State :=
  if laneFull s h.core then s
  else
    holdIssued (laneSend s h (.load rd n signed) va dev volat) h rd (.load (laneId s h.core)) ((thr s h).pc + 4)

/-- A far-view load: served by the line buffer where a load without .V may be and is, else sent (R74, R223). -/
def farLoad (s : State) (h : Hart) (rd : GReg) (va : Word) (dev n : Nat) (signed volat : Bool) : State :=
  match bufferServed s h dev n volat with
  | some bs => commitLoad s h rd bs signed
  | none => sendLoad s h rd va dev n signed volat

/-- A load of `n` bytes (R64 to R69, R203). -/
def load (s : State) (h : Hart) (rd : GReg) (va : Word) (n : Nat) (signed volat : Bool) : Res :=
  match issueTraps s h va n with
  | some t => .trap s t
  | none =>
    match coreView s h va with
    | .own off =>
      let s := demandRead s (localBase h.core + off) n
      if isPoisoned s (localBase h.core + off) n then .trap s (trapPoison va)
      else .ok (commitLoad s h rd (readLocal s h.core off n) signed)
    | .drvReg off => .ok (commitLoad (drvRegRead s off n).1 h rd (drvRegRead s off n).2 signed)
    | .far d => .ok (farLoad s h rd va d n signed volat)
    | .hole => .ok s

/-- A load behind older instructions that have not committed: a local load performs at once, unless an older store to its
bytes has not; a far-view load is sent unless it is a .V load; where it would trap it waits for its turn (R69 to R71, R74,
R220, R221). -/
def loadBehind (s : State) (h : Hart) (rd : GReg) (va : Word) (n : Nat) (signed volat : Bool) : State :=
  let keep := fun (s : State) (bs : List Byte) => holdIssued s h rd (.ready (extendBytes bs signed)) ((thr s h).pc + 4)
  if (issueTraps s h va n).isSome then s
  else
    match coreView s h va with
    | .own off =>
      let s' := demandRead s (localBase h.core + off) n
      if storeHeld s h off n || isPoisoned s' (localBase h.core + off) n then s
      else keep s' (readLocal s' h.core off n)
    | .far d =>
      if volat then s
      else
        match bufferServed s h d n volat with
        | some bs => keep s bs
        | none => sendLoad s h rd va d n signed volat
    | _ => s

/-- A load instruction (R64 to R70, R92). -/
def loadInsn (s : State) (h : Hart) (rd rb : GReg) (off : BitVec 13) (n : Nat) (signed volat : Bool) :
    Host.Outcome State Fault Refusal :=
  let va := memAddr s h rb off
  if canFollow s h then
    if (thr s h).ready rb then .next (loadBehind s h rd va n signed volat) else .next s
  else issue s h (load s h rd va n signed volat)

/-- LD.B (R92). -/
def execLdB (h : Hart) (rd rb : GReg) (v : Bool) (off : BitVec 13) (s : State) : Host.Outcome State Fault Refusal :=
  loadInsn s h rd rb off 1 true v

/-- LD.BU (R92). -/
def execLdBu (h : Hart) (rd rb : GReg) (v : Bool) (off : BitVec 13) (s : State) : Host.Outcome State Fault Refusal :=
  loadInsn s h rd rb off 1 false v

/-- LD.H (R92). -/
def execLdH (h : Hart) (rd rb : GReg) (v : Bool) (off : BitVec 13) (s : State) : Host.Outcome State Fault Refusal :=
  loadInsn s h rd rb off 2 true v

/-- LD.HU (R92). -/
def execLdHu (h : Hart) (rd rb : GReg) (v : Bool) (off : BitVec 13) (s : State) : Host.Outcome State Fault Refusal :=
  loadInsn s h rd rb off 2 false v

/-- LD.W (R92). -/
def execLdW (h : Hart) (rd rb : GReg) (v : Bool) (off : BitVec 13) (s : State) : Host.Outcome State Fault Refusal :=
  loadInsn s h rd rb off 4 true v

/-- PFH: a hint to the near tier, in a usable slot of its tag; no effect elsewhere, without such a slot, on a refused address
or on a poisoned line, and no trap of its own (R93, R194, R255). -/
def execPfh (h : Hart) (kind : BitVec 5) (rb : GReg) (off : BitVec 13) (s : State) : Host.Outcome State Fault Refusal :=
  let va := memAddr s h rb off
  let s' :=
    match coreView s h va with
    | .far d =>
      if laneRefuses s h d || unreachable s d || isPoisoned s (d / 128 * 128) 128 || !beatServed s h.core d true then s
      else hint (countLaneBeats s h.core d) d kind.toNat
    | _ => s
  issue s h (.ok (retire s' h))

/-! ### Stores (R66, R67, R70, R203) -/

/-- A store past its checks: local memory at once, the far view over the lane port; with 16 accesses outstanding it waits
(R202, R203). -/
def storeTo (s : State) (h : Hart) (va : Word) (bs : List Byte) : Option State :=
  match coreView s h va with
  | .own off => some (storeLocal s h off bs)
  | .drvReg off => some (drvRegWrite s h off bs)
  | .far d => if laneFull s h.core then none else some (laneSend s h (.store bs) va d false)
  | .hole => some s

/-- A store of the low `n` bytes of a register (R66, R67, R70, R203). -/
def store (s : State) (h : Hart) (va : Word) (n : Nat) (v : Word) : Res :=
  match issueTraps s h va n with
  | some t => .trap s t
  | none =>
    match storeTo s h va (leBytes n v.toNat) with
    | some s' => .ok (retire s' h)
    | none => .ok s

/-- A store to local memory behind older instructions that have not committed: it stores its bytes at its commit; where it
would trap, and for any other address, it waits for its turn (R69 to R71, R74). -/
def storeBehind (s : State) (h : Hart) (va : Word) (n : Nat) (v : Word) : State :=
  if (issueTraps s h va n).isSome then s
  else
    match coreView s h va with
    | .own off => holdIssued s h 0 (.store off (leBytes n v.toNat)) ((thr s h).pc + 4)
    | _ => s

/-- A store instruction (R66, R67, R70, R92, R203). -/
def storeInsn (s : State) (h : Hart) (rs rb : GReg) (off : BitVec 13) (n : Nat) : Host.Outcome State Fault Refusal :=
  let va := memAddr s h rb off
  if canFollow s h then
    if (thr s h).ready rb && (thr s h).ready rs then .next (storeBehind s h va n (greg s h rs)) else .next s
  else issue s h (store s h va n (greg s h rs))

/-- ST.B (R92). -/
def execStB (h : Hart) (rs rb : GReg) (off : BitVec 13) (s : State) : Host.Outcome State Fault Refusal :=
  storeInsn s h rs rb off 1

/-- ST.H (R92). -/
def execStH (h : Hart) (rs rb : GReg) (off : BitVec 13) (s : State) : Host.Outcome State Fault Refusal :=
  storeInsn s h rs rb off 2

/-- ST.W (R92). -/
def execStW (h : Hart) (rs rb : GReg) (off : BitVec 13) (s : State) : Host.Outcome State Fault Refusal :=
  storeInsn s h rs rb off 4

/-! ### Atomics (R94) -/

/-- An atomic on the word rs1 names: `f` gives what it stores from the old value, or nothing (R94). -/
def atomic (s : State) (h : Hart) (i : Instr) (rd rs1 : GReg) (f : Word → Option Word) : Res :=
  let va := greg s h rs1
  if localSize h.core ≤ va.toNat + 3 then .trap s (trapOperand (insnWord i))
  else
    match issueTraps s h va 4 with
    | some t => .trap s t
    | none =>
      let s := demandRead s (localBase h.core + va.toNat) 4
      if isPoisoned s (localBase h.core + va.toNat) 4 then .trap s (trapPoison va)
      else
        let old := localWord s h.core va.toNat
        let s' := match f old with
          | some v => storeLocal s h va.toNat (leBytes 4 v.toNat)
          | none => s
        .ok (retire (setGreg s' h rd old) h)

/-- AMOSWAP.W (R94). -/
def execAmoswapW (h : Hart) (rd rs1 rs2 : GReg) (s : State) : Host.Outcome State Fault Refusal :=
  issue s h (atomic s h (.amoswapW h rd rs1 rs2) rd rs1 fun _ => some (greg s h rs2))

/-- AMOADD.W (R94). -/
def execAmoaddW (h : Hart) (rd rs1 rs2 : GReg) (s : State) : Host.Outcome State Fault Refusal :=
  issue s h (atomic s h (.amoaddW h rd rs1 rs2) rd rs1 fun old => some (old + greg s h rs2))

/-- AMOAND.W (R94). -/
def execAmoandW (h : Hart) (rd rs1 rs2 : GReg) (s : State) : Host.Outcome State Fault Refusal :=
  issue s h (atomic s h (.amoandW h rd rs1 rs2) rd rs1 fun old => some (old &&& greg s h rs2))

/-- AMOOR.W (R94). -/
def execAmoorW (h : Hart) (rd rs1 rs2 : GReg) (s : State) : Host.Outcome State Fault Refusal :=
  issue s h (atomic s h (.amoorW h rd rs1 rs2) rd rs1 fun old => some (old ||| greg s h rs2))

/-- AMOCAS.W: stores only where the old value is the one rd held before (R94). -/
def execAmocasW (h : Hart) (rd rs1 rs2 : GReg) (s : State) : Host.Outcome State Fault Refusal :=
  issue s h (atomic s h (.amocasW h rd rs1 rs2) rd rs1 fun old =>
    if old = greg s h rd then some (greg s h rs2) else none)

/-! ### Spilling and filling a window (R58) -/

/-- The traps of WSPILL and WFILL: level 0, then RESIDENT at the value `bad`, then those of an access of 64 bytes (R58,
R453). -/
def windowTraps (s : State) (h : Hart) (i : Instr) (bad : Nat) (va : Word) : Option Trap :=
  if (thr s h).level = 0 then some (trapIllegal (insnWord i))
  else if (thr s h).resident = bad then some (trapOperand (insnWord i))
  else issueTraps s h va 64

/-- WSPILL: the oldest resident window goes to memory (R58). -/
def execWspill (h : Hart) (rs1 : GReg) (s : State) : Host.Outcome State Fault Refusal :=
  let va := greg s h rs1
  let t := thr s h
  issue s h (
    match windowTraps s h (.wspill h rs1) 1 va with
    | some tr => .trap s tr
    | none =>
      match storeTo s h va (windowBytes t ((t.cwp + 8 - t.resident + 1) % 8)) with
      | some s' => .ok (retire (modThr s' h fun t => t.setWstat t.cwp (t.resident - 1)) h)
      | none => .ok s)

/-- WFILL: the window under the oldest resident one comes back from memory (R58). -/
def execWfill (h : Hart) (rs1 : GReg) (s : State) : Host.Outcome State Fault Refusal :=
  let va := greg s h rs1
  issue s h (
    match windowTraps s h (.wfill h rs1) 8 va with
    | some tr => .trap s tr
    | none =>
      match coreView s h va with
      | .own off =>
        let s := demandRead s (localBase h.core + off) 64
        if isPoisoned s (localBase h.core + off) 64 then .trap s (trapPoison va)
        else
          let bs := readLocal s h.core off 64
          .ok (retire (modThr s h fun t => commitFill t bs) h)
      | .drvReg off =>
        let r := drvRegRead s off 64
        .ok (retire (modThr r.1 h fun t => commitFill t r.2) h)
      | .far d =>
        if laneFull s h.core then .ok s
        else
          let id := laneId s h.core
          .ok (modThr (laneSend s h .window va d false) h fun t => { t with wait := .farLoad id })
      | .hole => .ok s)

end Sys2Proof.Machine
end

