-- ==== Sys2Proof/Machine/Long.lean ====
section
/-! DEFINITION. The resumable long instructions MEMCPYV, GATHERV and SCANV, and their steps (R83 to R88). -/

namespace Sys2Proof.Machine

/-! ### PROG (R61, R85) -/

/-- PROG of the thread's current level. -/
def prog (s : State) (h : Hart) : Word := thrCsr s h (progKey (thr s h))

/-- PROG written. -/
def setProg (s : State) (h : Hart) (v : Word) : State := setThrCsr s h (progKey (thr s h)) v

/-- PROG.COUNT. -/
def progCount (s : State) (h : Hart) : Nat := bits (prog s h) 23 0

/-- PROG.KIND of a long instruction (R61). -/
def longKind : Instr → Nat
  | .memcpyv .. => 1
  | .gatherv .. => 2
  | .scanv .. => 3
  | _ => 0

/-- The bytes of one element of SCANV (R83). -/
def scanBytes : ScanType → Nat
  | .satQ15 => 2
  | _ => 4

/-- The running sum as rc holds it: the low half sign-extended for Q1.15 (R83). -/
def scanSum (ty : ScanType) (v : Word) : Word :=
  match ty with
  | .satQ15 => sext (v.setWidth 16)
  | _ => v

/-- A long instruction completes: PROG becomes 0, and SCANV leaves its running sum in rc (R83, R85). -/
def endLong (s : State) (h : Hart) (i : Instr) (rc : Word) : State :=
  let s := endWait (setProg s h 0) h
  match i with
  | .scanv _ _ _ r _ ty => setGreg s h r (scanSum ty rc)
  | _ => s

/-- A long instruction begins or resumes (R85). One with nothing left to do completes at once. -/
def beginLong (s : State) (h : Hart) (i : Instr) (ra rb rc rn : Word) : State :=
  let p := prog s h
  let s := if bit p 31 && decide (bits p 25 24 = longKind i) then s
    else
      let dir := decide (longKind i = 1) && decide (rb.toNat < ra.toNat) && decide (ra.toNat < rb.toNat + rn.toNat)
      setProg s h (BitVec.ofNat 32 (2 ^ 24 * longKind i + 2 ^ 26 * dir.toNat))
  if rn.toNat ≤ progCount s h then endLong s h i rc
  else modThr s h fun t => { t with wait := .long ra rb rc rn, cur := some i }

/-- The misaligned trap of the lowest misaligned address among those given with their alignments (R84; the choice of
EVAL is log entry 33). -/
def misalignedOf (l : List (Word × Nat)) : List (Bool × Trap) :=
  match (l.filter fun e => misaligned e.1 e.2).map Prod.fst with
  | [] => []
  | a :: r => [(true, trapMisaligned (r.foldl (fun x y => if y.toNat < x.toNat then y else x) a))]

/-- A long instruction issues: the checks of R84 come before any step. -/
def startLong (s : State) (h : Hart) (i : Instr) (ra rb rc rn : GReg) (al : List (Word × Nat)) : Res :=
  firstTrap s ((decide (bits (greg s h rn) 31 24 ≠ 0), trapOperand (insnWord i)) :: misalignedOf al)
    (.ok (beginLong s h i (greg s h ra) (greg s h rb) (greg s h rc) (greg s h rn)))

/-- MEMCPYV (R83 to R85). -/
def execMemcpyv (h : Hart) (ra rb rn : GReg) (s : State) : Host.Outcome State Fault Refusal :=
  issue s h (startLong s h (.memcpyv h ra rb rn) ra rb 0 rn [])

/-- GATHERV (R83 to R85). -/
def execGatherv (h : Hart) (ra rb rc rn : GReg) (k : BitVec 3) (s : State) : Host.Outcome State Fault Refusal :=
  issue s h (startLong s h (.gatherv h ra rb rc rn k) ra rb rc rn
    [(greg s h rb, 4), (greg s h rc, 2 ^ k.toNat), (greg s h ra, 2 ^ k.toNat)])

/-- SCANV (R83 to R85). -/
def execScanv (h : Hart) (ra rb rc rn : GReg) (ty : ScanType) (s : State) : Host.Outcome State Fault Refusal :=
  issue s h (startLong s h (.scanv h ra rb rc rn ty) ra rb rc rn
    [(greg s h rb, scanBytes ty), (greg s h ra, scanBytes ty)])

/-! ### The accesses of a step -/

/-- A byte range of the core's view in pieces that stay within 64-byte lines; at most three lie in 128 bytes. -/
def cutLines : Nat → Word → Nat → List (Word × Nat)
  | 0, _, _ => []
  | f + 1, va, n =>
    if n = 0 then []
    else
      let k := Nat.min n (64 - va.toNat % 64)
      (va, k) :: cutLines f (va + BitVec.ofNat 32 k) (n - k)

/-- The pieces of a range. -/
def stepPieces (va : Word) (n : Nat) : List (Word × Nat) := cutLines 4 va n

/-- The lowest address of a class among the ranges of a step (R151). -/
def lowestOfClass (s : State) (h : Hart) (l : List (Word × Nat)) (k : ViewClass) : Option Nat :=
  (l.filterMap fun e => (firstOfClass s h e.1 e.2 k).map BitVec.toNat).min?

/-- The tenancy and bus-error traps of a step's ranges, tenancy before bus errors over all of them; EVAL is the lowest
refused or faulting address (R151, R453). -/
def rangesTrap (s : State) (h : Hart) (l : List (Word × Nat)) : Option Trap :=
  match lowestOfClass s h l .tenancy with
  | some a => some (trapTenancy (BitVec.ofNat 32 a))
  | none => (lowestOfClass s h l .bus).map fun a => trapBus (BitVec.ofNat 32 a) 0x01

/-- The access in the lane port that reads a piece for the thread's step. -/
def stepAccess (s : State) (h : Hart) (p : Word × Nat) : Option LaneAccess :=
  (core s h.core).lane.find? fun a => decide (a.tid = h.tid) && decide (a.kind = .longStep p.2) && decide (a.vaddr = p.1)

/-- The step has reads in flight. -/
def stepReading (s : State) (h : Hart) : Bool :=
  (core s h.core).lane.any fun a => decide (a.tid = h.tid) && a.kind.isLongStep

/-- The reads of a step forgotten. -/
def dropStepReads (s : State) (h : Hart) : State :=
  modCore s h.core fun k => { k with lane := k.lane.filter fun a => decide (a.tid ≠ h.tid) || !a.kind.isLongStep }

/-- What a step's reads came to. -/
inductive StepRead where
  | bytes (s : State) (bs : List Byte)
  | waits (s : State)
  | trap (s : State) (t : Trap)

/-- The device address of a piece in the far view. -/
def farOf (s : State) (h : Hart) (p : Word × Nat) : Option Nat :=
  match coreView s h p.1 with
  | .far d => some d
  | _ => none

/-- The address in the model's memory of a piece in the core's own local memory. -/
def ownOf (s : State) (h : Hart) (p : Word × Nat) : Option Nat :=
  match coreView s h p.1 with
  | .own off => some (localBase h.core + off)
  | _ => none

/-- The bytes of one piece, once they are at hand. -/
def pieceBytes (s : State) (h : Hart) (p : Word × Nat) : Option (State × List Byte) :=
  match coreView s h p.1 with
  | .own off => some (s, readLocal s h.core off p.2)
  | .drvReg off => some (drvRegRead s off p.2)
  | .hole => some (s, [])
  | .far _ =>
    match stepAccess s h p with
    | some a =>
      match a.result with
      | some (.ok data _) => some (s, data)
      | _ => none
    | none => none

/-- The bytes of a range in order, once all are at hand. -/
def gatherBytes (s : State) (h : Hart) : List (Word × Nat) → Option (State × List Byte)
  | [] => some (s, [])
  | p :: r =>
    match pieceBytes s h p with
    | none => none
    | some (s, bs) => (gatherBytes s h r).map fun x => (x.1, bs ++ x.2)

/-- The reads of one range of a step: local pieces are read and may be poisoned (R68), far ones go over the lane port and
are waited for (R87, R203). -/
def stepRead (s : State) (h : Hart) (va : Word) (n : Nat) : StepRead :=
  let ps := stepPieces va n
  let s := ps.foldl (fun s p =>
    match ownOf s h p with
    | some a => demandRead s a p.2
    | none => s) s
  let bad := ps.find? fun p =>
    match ownOf s h p with
    | some a => isPoisoned s a p.2
    | none => false
  match bad with
  | some p => .trap s (trapPoison p.1)
  | none =>
    let out := ps.filter fun p => (farOf s h p).isSome && (stepAccess s h p).isNone
    if out.isEmpty then
      match gatherBytes s h ps with
      | some x => .bytes x.1 x.2
      | none => .waits s
    else if 16 < laneUsed s h.core + out.length then .waits s
    else .waits (out.foldl (fun s p => laneSend s h (.longStep p.2) p.1 ((farOf s h p).getD 0) false) s)

/-- The writes of a step, in pieces; they wait while the lane port has no room for the far ones. -/
def stepWrite (s : State) (h : Hart) (va : Word) (bs : List Byte) : Option State :=
  let ps := stepPieces va bs.length
  let far := ps.filter fun p => (farOf s h p).isSome
  if 16 < laneUsed s h.core + far.length then none
  else
    (ps.foldl (fun (r : Option State × List Byte) p =>
      (r.1.bind fun s => storeTo s h p.1 (r.2.take p.2), r.2.drop p.2)) (some s, bs)).1

/-! ### Steps (R83, R86, R87) -/

/-- What one step came to: it waits for its accesses, traps, or is done with so many bytes or elements more and a running
sum. -/
inductive StepEnd where
  | waits (s : State)
  | trap (s : State) (t : Trap)
  | done (s : State) (n : Nat) (rc : Word)

/-- The writes of a step close it. -/
def closeStep (s : State) (h : Hart) (va : Word) (bs : List Byte) (n : Nat) (rc : Word) : StepEnd :=
  match stepWrite (dropStepReads s h) h va bs with
  | some s' => .done s' n rc
  | none => .waits s

/-- One step of MEMCPYV: at most 64 bytes, from the low or the high end (R83). -/
def memcpyStep (s : State) (h : Hart) (ra rb rn : Word) (count : Nat) : StepEnd :=
  let n := Nat.min 64 (rn.toNat - count)
  let off := BitVec.ofNat 32 (if bit (prog s h) 26 then rn.toNat - count - n else count)
  match rangesTrap s h [(rb + off, n), (ra + off, n)] with
  | some t => .trap s t
  | none =>
    match stepRead s h (rb + off) n with
    | .trap s t => .trap s t
    | .waits s => .waits s
    | .bytes s bs => closeStep s h (ra + off) bs n 0

/-- One step of GATHERV: the index, then one element; the traps of the element's source and destination come in the order of
R453, once the index is at hand (R83, R453). -/
def gatherStep (s : State) (h : Hart) (ra rb rc : Word) (k : BitVec 3) (count : Nat) : StepEnd :=
  let n := 2 ^ k.toNat
  let dst := ra + BitVec.ofNat 32 (count * n)
  let idx := rb + BitVec.ofNat 32 (4 * count)
  match rangesTrap s h [(idx, 4)] with
  | some t => .trap s ((rangesTrap s h [(idx, 4), (dst, n)]).getD t)
  | none =>
    match stepRead s h idx 4 with
    | .trap s t => .trap s ((rangesTrap s h [(dst, n)]).getD t)
    | .waits s => .waits s
    | .bytes s ib =>
      let src := rc + BitVec.ofNat 32 (leNat ib * n)
      match rangesTrap s h [(src, n), (dst, n)] with
      | some t => .trap s t
      | none =>
        match stepRead s h src n with
        | .trap s t => .trap s t
        | .waits s => .waits s
        | .bytes s bs => closeStep s h dst bs 1 0

/-- One addition of SCANV and whether it saturated (R83). -/
def scanAdd (ty : ScanType) (sum x : Word) : Word × Bool :=
  match ty with
  | .wrap32 => (sum + x, false)
  | .sat32 => let v := sum.toInt + x.toInt; (wordOf (satTo 32 v), saturates 32 v)
  | .satQ15 => let v := lowInt 16 sum + lowInt 16 x; (wordOf (satTo 16 v), saturates 16 v)

/-- Where an element lies: its place in the model's memory, so that two names of one place agree (R66). -/
def placeOf (s : State) (h : Hart) (va : Word) : Nat :=
  match coreView s h va with
  | .own off => localBase h.core + off
  | .drvReg off => 2 ^ 60 + off
  | .far d => d
  | .hole => 2 ^ 61 + va.toNat

/-- The running sums of one step's elements in ascending order. An element that an earlier element of the step has
overwritten is read with its new value (DEDUCED, log entry 33). -/
def scanElems (s : State) (h : Hart) (ty : ScanType) (src dst : Word) (bs : List Byte) (n : Nat) (rc : Word) :
    List Byte × Word × Bool :=
  let w := scanBytes ty
  let r := (List.range n).foldl (fun (r : Sparse Word × List Byte × Word × Bool) i =>
    let d := BitVec.ofNat 32 (w * i)
    let x := sget r.1 (placeOf s h (src + d)) (BitVec.ofNat 32 (leNat ((bs.drop (w * i)).take w)))
    let y := scanAdd ty r.2.2.1 x
    (sput r.1 (placeOf s h (dst + d)) y.1, r.2.1 ++ leBytes w y.1.toNat, y.1, r.2.2.2 || y.2)) ([], [], rc, false)
  r.2

/-- One step of SCANV: 16 words or 32 halfwords (R83). -/
def scanStep (s : State) (h : Hart) (ty : ScanType) (ra rb rc rn : Word) (count : Nat) : StepEnd :=
  let w := scanBytes ty
  let n := Nat.min (64 / w) (rn.toNat - count)
  let off := BitVec.ofNat 32 (w * count)
  match rangesTrap s h [(rb + off, w * n), (ra + off, w * n)] with
  | some t => .trap s t
  | none =>
    match stepRead s h (rb + off) (w * n) with
    | .trap s t => .trap s t
    | .waits s => .waits s
    | .bytes s bs =>
      let r := scanElems s h ty (rb + off) (ra + off) bs n rc
      match closeStep s h (ra + off) r.1 n r.2.1 with
      | .done s n rc => .done (flagIf s h r.2.2 satfAdd) n rc
      | e => e

/-- What the next step of a thread's long instruction comes to. -/
def nextStep (s : State) (h : Hart) (i : Instr) (ra rb rc rn : Word) : StepEnd :=
  match i with
  | .memcpyv .. => memcpyStep s h ra rb rn (progCount s h)
  | .gatherv _ _ _ _ _ k => gatherStep s h ra rb rc k (progCount s h)
  | .scanv _ _ _ _ _ ty => scanStep s h ty ra rb rc rn (progCount s h)
  | _ => .waits s

/-- The boundary after a step: PROG.COUNT, and for SCANV the running sum in rc; the last step completes the instruction
(R83, R85, R86). -/
def stepBoundary (s : State) (h : Hart) (i : Instr) (ra rb rc rn : Word) (count : Nat) : State :=
  if rn.toNat ≤ count then endLong s h i rc
  else
    let s := setProg s h (putBits (prog s h) 23 0 count)
    match i with
    | .scanv _ _ _ r _ ty =>
      modThr (setGreg s h r (scanSum ty rc)) h fun t => { t with wait := .long ra rb (scanSum ty rc) rn }
    | _ => s

/-- LONG_STEP: the next step of a thread's long instruction, or a further part of a step whose far accesses are in
flight. No step begins while an interrupt line is to be taken (R83, R86 to R88). -/
def execLongStep (h : Hart) (s : State) : Host.Outcome State Fault Refusal :=
  match (thr s h).wait, (thr s h).cur with
  | .long ra rb rc rn, some i =>
    if !coreRuns s h.core || !threadNamed s h || ((takeableLine s h).isSome && !stepReading s h) then .next s
    else
      match nextStep s h i ra rb rc rn with
      | .waits s' => .next s'
      | .trap s' t => .next (takeTrap (stopLong s' h) h t (thr s h).pc)
      | .done s' n rc' => .next (stepBoundary s' h i ra rb rc' rn (progCount s h + n))
  | _, _ => .next s

end Sys2Proof.Machine
end

