-- ==== Sys2Proof/Machine/Vector.lean ====
section
/-! DEFINITION. The vector unit (R97 to R102, R126, R127). -/

namespace Sys2Proof.Machine

/-- A core of the Drover has no vector, tile or matrix unit (R371). -/
def noWide (h : Hart) (w : Word) : Bool × Trap := (isDrvCore h.core, trapIllegal w)

/-- Signed elements of a vector register (R98). -/
def elems (et : ElemType) (v : Line) : List Int := (List.range (elemCount et)).map (elemS et v)

/-- A vector instruction with one result (R99). -/
def writeVd (s : State) (h : Hart) (w : Word) (vd : VReg) (v : Line) : Host.Outcome State Fault Refusal :=
  issue s h (firstTrap s [noWide h w] (.ok (retire (setVreg s h vd v) h)))

/-- An element-wise operation of two registers, modulo the element width (R99). -/
def mapElems (et : ElemType) (f : Int → Int → Int) (a b : Line) : Line :=
  packElems et (List.zipWith f (elems et a) (elems et b))

/-- SATF.VEC and its counter where an instruction saturated (R62, R99, R125). -/
def vecSat (s : State) (h : Hart) (c : Bool) : State := if c then countCore (setSatf s h satfVec) h.core 0x107 1 else s

/-- A saturating element-wise operation (R99). -/
def satElems (s : State) (h : Hart) (w : Word) (et : ElemType) (vd : VReg) (f : Int → Int → Int) (a b : Line) :
    Host.Outcome State Fault Refusal :=
  let xs := List.zipWith f (elems et a) (elems et b)
  let n := elemWidth et
  issue s h (firstTrap s [noWide h w]
    (.ok (retire (vecSat (setVreg s h vd (packElems et (xs.map (satTo n)))) h (xs.any (saturates n))) h)))

/-- A narrowing of elements in ascending order into elements of type `et` (R99, R100). -/
def narrowElems (s : State) (h : Hart) (w : Word) (pre : List (Bool × Trap)) (et : ElemType) (vd : VReg) (d : Nat)
    (xs : List Int) : Host.Outcome State Fault Refusal :=
  let r := narrowAll (startNarrow s h) (rmode s h) d (elemWidth et) xs
  let s' := endNarrow (setVreg s h vd (packElems et r.1)) h ⟨r.2.seed, false⟩ satfVec
  issue s h (firstTrap s (noWide h w :: pre) (.ok (retire (vecSat s' h r.2.sat) h)))

/-- All ones or 0 (R99). -/
def maskOf (b : Bool) : Int := if b then -1 else 0

/-- A shift of one element: `left`, or right with the sign or with zeros, an amount of the width or more as R99 states. -/
def shiftElem (w : Nat) (left arith : Bool) (n : Nat) (x : Int) : Int :=
  if left then if w ≤ n then 0 else x * 2 ^ n
  else if arith then if w ≤ n then (if x < 0 then -1 else 0) else x / 2 ^ n
  else if w ≤ n then 0 else (x % 2 ^ w) / 2 ^ n

/-- A shift by a scalar (R99). -/
def shiftElems (s : State) (h : Hart) (w : Word) (et : ElemType) (left arith : Bool) (vd vs1 : VReg) (rs2 : GReg) :
    Host.Outcome State Fault Refusal :=
  writeVd s h w vd (packElems et ((elems et (vreg s h vs1)).map (shiftElem (elemWidth et) left arith (greg s h rs2).toNat)))

/-- VADD, modulo the element width (R99). -/
def execVadd (h : Hart) (et : ElemType) (vd vs1 vs2 : VReg) (s : State) :
    Host.Outcome State Fault Refusal :=
  writeVd s h (insnWord (.vadd h et vd vs1 vs2)) vd (mapElems et (fun x y => x + y) (vreg s h vs1) (vreg s h vs2))

/-- VSUB, modulo the element width (R99). -/
def execVsub (h : Hart) (et : ElemType) (vd vs1 vs2 : VReg) (s : State) :
    Host.Outcome State Fault Refusal :=
  writeVd s h (insnWord (.vsub h et vd vs1 vs2)) vd (mapElems et (fun x y => x - y) (vreg s h vs1) (vreg s h vs2))

/-- VMUL: the low half of the product (R99). -/
def execVmul (h : Hart) (et : ElemType) (vd vs1 vs2 : VReg) (s : State) :
    Host.Outcome State Fault Refusal :=
  writeVd s h (insnWord (.vmul h et vd vs1 vs2)) vd (mapElems et (fun x y => x * y) (vreg s h vs1) (vreg s h vs2))

/-- VMIN, signed (R99). -/
def execVmin (h : Hart) (et : ElemType) (vd vs1 vs2 : VReg) (s : State) :
    Host.Outcome State Fault Refusal :=
  writeVd s h (insnWord (.vmin h et vd vs1 vs2)) vd (mapElems et (min) (vreg s h vs1) (vreg s h vs2))

/-- VMAX, signed (R99). -/
def execVmax (h : Hart) (et : ElemType) (vd vs1 vs2 : VReg) (s : State) :
    Host.Outcome State Fault Refusal :=
  writeVd s h (insnWord (.vmax h et vd vs1 vs2)) vd (mapElems et (max) (vreg s h vs1) (vreg s h vs2))

/-- VCMPEQ (R99). -/
def execVcmpeq (h : Hart) (et : ElemType) (vd vs1 vs2 : VReg) (s : State) :
    Host.Outcome State Fault Refusal :=
  writeVd s h (insnWord (.vcmpeq h et vd vs1 vs2)) vd (mapElems et (fun x y => maskOf (decide (x = y))) (vreg s h vs1) (vreg s h vs2))

/-- VCMPLT, signed (R99). -/
def execVcmplt (h : Hart) (et : ElemType) (vd vs1 vs2 : VReg) (s : State) :
    Host.Outcome State Fault Refusal :=
  writeVd s h (insnWord (.vcmplt h et vd vs1 vs2)) vd (mapElems et (fun x y => maskOf (decide (x < y))) (vreg s h vs1) (vreg s h vs2))

/-- VAND (R99). -/
def execVand (h : Hart) (et : ElemType) (vd vs1 vs2 : VReg) (s : State) :
    Host.Outcome State Fault Refusal :=
  writeVd s h (insnWord (.vand h et vd vs1 vs2)) vd (vreg s h vs1 &&& vreg s h vs2)

/-- VOR (R99). -/
def execVor (h : Hart) (et : ElemType) (vd vs1 vs2 : VReg) (s : State) :
    Host.Outcome State Fault Refusal :=
  writeVd s h (insnWord (.vor h et vd vs1 vs2)) vd (vreg s h vs1 ||| vreg s h vs2)

/-- VXOR (R99). -/
def execVxor (h : Hart) (et : ElemType) (vd vs1 vs2 : VReg) (s : State) :
    Host.Outcome State Fault Refusal :=
  writeVd s h (insnWord (.vxor h et vd vs1 vs2)) vd (vreg s h vs1 ^^^ vreg s h vs2)

/-- VADDS: saturated to the element width (R99). -/
def execVadds (h : Hart) (et : ElemType) (vd vs1 vs2 : VReg) (s : State) :
    Host.Outcome State Fault Refusal :=
  satElems s h (insnWord (.vadds h et vd vs1 vs2)) et vd (fun x y => x + y) (vreg s h vs1) (vreg s h vs2)

/-- VSUBS: saturated to the element width (R99). -/
def execVsubs (h : Hart) (et : ElemType) (vd vs1 vs2 : VReg) (s : State) :
    Host.Outcome State Fault Refusal :=
  satElems s h (insnWord (.vsubs h et vd vs1 vs2)) et vd (fun x y => x - y) (vreg s h vs1) (vreg s h vs2)

/-- VSLL (R99). -/
def execVsll (h : Hart) (et : ElemType) (vd vs1 : VReg) (rs2 : GReg) (s : State) :
    Host.Outcome State Fault Refusal :=
  shiftElems s h (insnWord (.vsll h et vd vs1 rs2)) et true false vd vs1 rs2

/-- VSRL (R99). -/
def execVsrl (h : Hart) (et : ElemType) (vd vs1 : VReg) (rs2 : GReg) (s : State) :
    Host.Outcome State Fault Refusal :=
  shiftElems s h (insnWord (.vsrl h et vd vs1 rs2)) et false false vd vs1 rs2

/-- VSRA (R99). -/
def execVsra (h : Hart) (et : ElemType) (vd vs1 : VReg) (rs2 : GReg) (s : State) :
    Host.Outcome State Fault Refusal :=
  shiftElems s h (insnWord (.vsra h et vd vs1 rs2)) et false true vd vs1 rs2

/-- VMULQ: the product narrowed with d one less than the element width; 32-bit elements are reserved (R99, R100). -/
def execVmulq (h : Hart) (et : ElemType) (vd vs1 vs2 : VReg) (s : State) :
    Host.Outcome State Fault Refusal :=
  let wd := (insnWord (.vmulq h et vd vs1 vs2))
  narrowElems s h wd [(decide (et = .b32), trapIllegal wd)] et vd (elemWidth et - 1)
    (List.zipWith (fun x y => x * y) (elems et (vreg s h vs1)) (elems et (vreg s h vs2)))

/-- VSEL: bitwise choice by the old vd (R99). -/
def execVsel (h : Hart) (vd vs1 vs2 : VReg) (s : State) :
    Host.Outcome State Fault Refusal :=
  let m := vreg s h vd
  writeVd s h (insnWord (.vsel h vd vs1 vs2)) vd ((vreg s h vs1 &&& m) ||| (vreg s h vs2 &&& ~~~m))

/-- VBCAST: every element takes the low bits of rs2 (R99). -/
def execVbcast (h : Hart) (et : ElemType) (vd : VReg) (rs2 : GReg) (s : State) :
    Host.Outcome State Fault Refusal :=
  writeVd s h (insnWord (.vbcast h et vd rs2)) vd
    (packElems et (List.replicate (elemCount et) ((greg s h rs2).toNat : Int)))

/-- VEXT: one element, sign-extended, to a scalar register (R99). -/
def execVext (h : Hart) (et : ElemType) (rd : GReg) (vs1 : VReg) (rs2 : GReg) (s : State) :
    Host.Outcome State Fault Refusal :=
  issue s h (firstTrap s [noWide h (insnWord (.vext h et rd vs1 rs2))] (.ok (retire
    (setGreg s h rd (wordOf (elemS et (vreg s h vs1) ((greg s h rs2).toNat % elemCount et)))) h)))

/-- VCVT.HB: bytes 0 to 31 take the narrowed halfwords, bytes 32 to 63 take 0 (R99, R100). -/
def execVcvtHb (h : Hart) (vd vs1 : VReg) (s : State) :
    Host.Outcome State Fault Refusal :=
  narrowElems s h (insnWord (.vcvtHb h vd vs1)) [] .b8 vd 8 (elems .b16 (vreg s h vs1))

/-- VCVT.BH: halfword i takes byte i times 2^8 (R99). -/
def execVcvtBh (h : Hart) (vd vs1 : VReg) (s : State) :
    Host.Outcome State Fault Refusal :=
  writeVd s h (insnWord (.vcvtBh h vd vs1)) vd
    (packElems .b16 (((elems .b8 (vreg s h vs1)).take 32).map fun x => x * 2 ^ 8))

/-- The address of a vector memory access (R102). -/
def vecAddr (s : State) (h : Hart) (rb : GReg) (off : BitVec 13) : Word := greg s h rb + 64 * sext off

/-- The traps of a vector memory access before its line is read: misaligned, the guarded local region, outside local
memory (R102, R144, R453). -/
def vecTraps (s : State) (h : Hart) (w va : Word) : List (Bool × Trap) :=
  [noWide h w, (misaligned va 64, trapMisaligned va),
    (decide (va.toNat < 0x60000) && !(thr s h).mode.guarded && inGlmem s h.core va.toNat, trapTenancy va),
    (decide (0x60000 ≤ va.toNat), trapBus va 0x01)]

/-- VLD: one line of local memory (R102). -/
def execVld (h : Hart) (vd : VReg) (rb : GReg) (off : BitVec 13) (s : State) :
    Host.Outcome State Fault Refusal :=
  let va := vecAddr s h rb off
  let a := localBase h.core + va.toNat
  let s1 := demandRead s a 64
  issue s h (firstTrap s (vecTraps s h (insnWord (.vld h vd rb off)) va)
    (firstTrap s1 [(isPoisoned s1 a 64, trapPoison va)] (.ok (retire (setVreg s1 h vd (bytesLine (readMem s1 a 64))) h))))

/-- VST: all 64 bytes of a line of local memory (R102). -/
def execVst (h : Hart) (vs : VReg) (rb : GReg) (off : BitVec 13) (s : State) :
    Host.Outcome State Fault Refusal :=
  let va := vecAddr s h rb off
  issue s h (firstTrap s (vecTraps s h (insnWord (.vst h vs rb off)) va)
    (.ok (retire (storeLocal s h va.toNat (lineBytes (vreg s h vs))) h)))

end Sys2Proof.Machine
end

