-- ==== Sys2Proof/Machine/Dispatch.lean ====
section
/-! DEFINITION. The one arm of every command: a direct call of its meaning. -/

namespace Sys2Proof.Machine

def exec (i : Instr) (s : State) : Host.Outcome State Fault Refusal :=
  match i with
  | .registerWrite o offset a => Sys2Proof.Machine.execRegisterWrite o offset a s
  | .cmpTimeLoRead => Sys2Proof.Machine.execCmpTimeLoRead s
  | .pwrokLow => Sys2Proof.Machine.execPwrokLow s
  | .pwrokHigh => Sys2Proof.Machine.execPwrokHigh s
  | .droverPor => Sys2Proof.Machine.execDroverPor s
  | .droverBoot flash => Sys2Proof.Machine.execDroverBoot flash s
  | .tapAccess op => Sys2Proof.Machine.execTapAccess op s
  | .clkselWrite h v => Sys2Proof.Machine.execClkselWrite h v s
  | .relockComplete core => Sys2Proof.Machine.execRelockComplete core s
  | .instructionFetch h => Sys2Proof.Machine.execInstructionFetch h s
  | .add h rd rs1 rs2 => Sys2Proof.Machine.execAdd h rd rs1 rs2 s
  | .sub h rd rs1 rs2 => Sys2Proof.Machine.execSub h rd rs1 rs2 s
  | .and h rd rs1 rs2 => Sys2Proof.Machine.execAnd h rd rs1 rs2 s
  | .or h rd rs1 rs2 => Sys2Proof.Machine.execOr h rd rs1 rs2 s
  | .xor h rd rs1 rs2 => Sys2Proof.Machine.execXor h rd rs1 rs2 s
  | .sll h rd rs1 rs2 => Sys2Proof.Machine.execSll h rd rs1 rs2 s
  | .srl h rd rs1 rs2 => Sys2Proof.Machine.execSrl h rd rs1 rs2 s
  | .sra h rd rs1 rs2 => Sys2Proof.Machine.execSra h rd rs1 rs2 s
  | .slt h rd rs1 rs2 => Sys2Proof.Machine.execSlt h rd rs1 rs2 s
  | .sltu h rd rs1 rs2 => Sys2Proof.Machine.execSltu h rd rs1 rs2 s
  | .min h rd rs1 rs2 => Sys2Proof.Machine.execMin h rd rs1 rs2 s
  | .max h rd rs1 rs2 => Sys2Proof.Machine.execMax h rd rs1 rs2 s
  | .minu h rd rs1 rs2 => Sys2Proof.Machine.execMinu h rd rs1 rs2 s
  | .maxu h rd rs1 rs2 => Sys2Proof.Machine.execMaxu h rd rs1 rs2 s
  | .mul h rd rs1 rs2 => Sys2Proof.Machine.execMul h rd rs1 rs2 s
  | .mulh h rd rs1 rs2 => Sys2Proof.Machine.execMulh h rd rs1 rs2 s
  | .mulhu h rd rs1 rs2 => Sys2Proof.Machine.execMulhu h rd rs1 rs2 s
  | .clz h rd rs1 => Sys2Proof.Machine.execClz h rd rs1 s
  | .popc h rd rs1 => Sys2Proof.Machine.execPopc h rd rs1 s
  | .addi h rd rs1 imm => Sys2Proof.Machine.execAddi h rd rs1 imm s
  | .slti h rd rs1 imm => Sys2Proof.Machine.execSlti h rd rs1 imm s
  | .sltiu h rd rs1 imm => Sys2Proof.Machine.execSltiu h rd rs1 imm s
  | .andi h rd rs1 imm => Sys2Proof.Machine.execAndi h rd rs1 imm s
  | .ori h rd rs1 imm => Sys2Proof.Machine.execOri h rd rs1 imm s
  | .xori h rd rs1 imm => Sys2Proof.Machine.execXori h rd rs1 imm s
  | .slli h rd rs1 sh => Sys2Proof.Machine.execSlli h rd rs1 sh s
  | .sri h rd rs1 arith sh => Sys2Proof.Machine.execSri h rd rs1 arith sh s
  | .lui h rd imm => Sys2Proof.Machine.execLui h rd imm s
  | .auipc h rd imm => Sys2Proof.Machine.execAuipc h rd imm s
  | .ldB h rd rb v off => Sys2Proof.Machine.execLdB h rd rb v off s
  | .ldBu h rd rb v off => Sys2Proof.Machine.execLdBu h rd rb v off s
  | .ldH h rd rb v off => Sys2Proof.Machine.execLdH h rd rb v off s
  | .ldHu h rd rb v off => Sys2Proof.Machine.execLdHu h rd rb v off s
  | .ldW h rd rb v off => Sys2Proof.Machine.execLdW h rd rb v off s
  | .pfh h kind rb off => Sys2Proof.Machine.execPfh h kind rb off s
  | .stB h rs rb off => Sys2Proof.Machine.execStB h rs rb off s
  | .stH h rs rb off => Sys2Proof.Machine.execStH h rs rb off s
  | .stW h rs rb off => Sys2Proof.Machine.execStW h rs rb off s
  | .farLoadAnswer core id => Sys2Proof.Machine.execFarLoadAnswer core id s
  | .farStoreAck core id => Sys2Proof.Machine.execFarStoreAck core id s
  | .laneAccessDeadline core id => Sys2Proof.Machine.execLaneAccessDeadline core id s
  | .amoswapW h rd rs1 rs2 => Sys2Proof.Machine.execAmoswapW h rd rs1 rs2 s
  | .amoaddW h rd rs1 rs2 => Sys2Proof.Machine.execAmoaddW h rd rs1 rs2 s
  | .amoandW h rd rs1 rs2 => Sys2Proof.Machine.execAmoandW h rd rs1 rs2 s
  | .amoorW h rd rs1 rs2 => Sys2Proof.Machine.execAmoorW h rd rs1 rs2 s
  | .amocasW h rd rs1 rs2 => Sys2Proof.Machine.execAmocasW h rd rs1 rs2 s
  | .beq h ht rs1 rs2 disp => Sys2Proof.Machine.execBeq h ht rs1 rs2 disp s
  | .bne h ht rs1 rs2 disp => Sys2Proof.Machine.execBne h ht rs1 rs2 disp s
  | .blt h ht rs1 rs2 disp => Sys2Proof.Machine.execBlt h ht rs1 rs2 disp s
  | .bge h ht rs1 rs2 disp => Sys2Proof.Machine.execBge h ht rs1 rs2 disp s
  | .bltu h ht rs1 rs2 disp => Sys2Proof.Machine.execBltu h ht rs1 rs2 disp s
  | .bgeu h ht rs1 rs2 disp => Sys2Proof.Machine.execBgeu h ht rs1 rs2 disp s
  | .jmp h disp => Sys2Proof.Machine.execJmp h disp s
  | .call h disp => Sys2Proof.Machine.execCall h disp s
  | .callw h disp => Sys2Proof.Machine.execCallw h disp s
  | .dbnz h rc disp => Sys2Proof.Machine.execDbnz h rc disp s
  | .jr h rs1 => Sys2Proof.Machine.execJr h rs1 s
  | .callr h rs1 => Sys2Proof.Machine.execCallr h rs1 s
  | .callwr h rs1 => Sys2Proof.Machine.execCallwr h rs1 s
  | .retw h => Sys2Proof.Machine.execRetw h s
  | .wspill h rs1 => Sys2Proof.Machine.execWspill h rs1 s
  | .wfill h rs1 => Sys2Proof.Machine.execWfill h rs1 s
  | .addsH h rd rs1 rs2 => Sys2Proof.Machine.execAddsH h rd rs1 rs2 s
  | .subsH h rd rs1 rs2 => Sys2Proof.Machine.execSubsH h rd rs1 rs2 s
  | .addsB h rd rs1 rs2 => Sys2Proof.Machine.execAddsB h rd rs1 rs2 s
  | .subsB h rd rs1 rs2 => Sys2Proof.Machine.execSubsB h rd rs1 rs2 s
  | .addsW h rd rs1 rs2 => Sys2Proof.Machine.execAddsW h rd rs1 rs2 s
  | .subsW h rd rs1 rs2 => Sys2Proof.Machine.execSubsW h rd rs1 rs2 s
  | .mulqH h rd rs1 rs2 => Sys2Proof.Machine.execMulqH h rd rs1 rs2 s
  | .mulqB h rd rs1 rs2 => Sys2Proof.Machine.execMulqB h rd rs1 rs2 s
  | .macH h rs1 rs2 => Sys2Proof.Machine.execMacH h rs1 rs2 s
  | .macB h rs1 rs2 => Sys2Proof.Machine.execMacB h rs1 rs2 s
  | .msuH h rs1 rs2 => Sys2Proof.Machine.execMsuH h rs1 rs2 s
  | .msuB h rs1 rs2 => Sys2Proof.Machine.execMsuB h rs1 rs2 s
  | .aclr h => Sys2Proof.Machine.execAclr h s
  | .amovlo h rd => Sys2Proof.Machine.execAmovlo h rd s
  | .amovhi h rd => Sys2Proof.Machine.execAmovhi h rd s
  | .amovw h rs1 rs2 => Sys2Proof.Machine.execAmovw h rs1 rs2 s
  | .anarrowH h rd sh => Sys2Proof.Machine.execAnarrowH h rd sh s
  | .anarrowB h rd sh => Sys2Proof.Machine.execAnarrowB h rd sh s
  | .cvtHb h rd rs1 => Sys2Proof.Machine.execCvtHb h rd rs1 s
  | .cvtBh h rd rs1 => Sys2Proof.Machine.execCvtBh h rd rs1 s
  | .memcpyv h ra rb rn => Sys2Proof.Machine.execMemcpyv h ra rb rn s
  | .gatherv h ra rb rc rn k => Sys2Proof.Machine.execGatherv h ra rb rc rn k s
  | .scanv h ra rb rc rn ty => Sys2Proof.Machine.execScanv h ra rb rc rn ty s
  | .longStep h => Sys2Proof.Machine.execLongStep h s
  | .csrr h rd n => Sys2Proof.Machine.execCsrr h rd n s
  | .csrw h rd rs1 n => Sys2Proof.Machine.execCsrw h rd rs1 n s
  | .csrs h rd rs1 n => Sys2Proof.Machine.execCsrs h rd rs1 n s
  | .csrc h rd rs1 n => Sys2Proof.Machine.execCsrc h rd rs1 n s
  | .trap h imm => Sys2Proof.Machine.execTrap h imm s
  | .eret h => Sys2Proof.Machine.execEret h s
  | .wgate h n => Sys2Proof.Machine.execWgate h n s
  | .hold h n => Sys2Proof.Machine.execHold h n s
  | .holdWindowEnd h => Sys2Proof.Machine.execHoldWindowEnd h s
  | .wfe h rd rs1 mask idle => Sys2Proof.Machine.execWfe h rd rs1 mask idle s
  | .wfeTimeout h => Sys2Proof.Machine.execWfeTimeout h s
  | .trel h rs1 => Sys2Proof.Machine.execTrel h rs1 s
  | .threadStart h => Sys2Proof.Machine.execThreadStart h s
  | .fence h rd ll fv fin => Sys2Proof.Machine.execFence h rd ll fv fin s
  | .twait h rs1 => Sys2Proof.Machine.execTwait h rs1 s
  | .twaitDone h => Sys2Proof.Machine.execTwaitDone h s
  | .iflush h => Sys2Proof.Machine.execIflush h s
  | .iflushDone core => Sys2Proof.Machine.execIflushDone core s
  | .interruptEntry h kept ran cycles => Sys2Proof.Machine.execInterruptEntry h kept ran cycles s
  | .weaveTableUpdate core => Sys2Proof.Machine.execWeaveTableUpdate core s
  | .isetWrite h v => Sys2Proof.Machine.execIsetWrite h v s
  | .stormWindowEnd core => Sys2Proof.Machine.execStormWindowEnd core s
  | .vadd h et vd vs1 vs2 => Sys2Proof.Machine.execVadd h et vd vs1 vs2 s
  | .vsub h et vd vs1 vs2 => Sys2Proof.Machine.execVsub h et vd vs1 vs2 s
  | .vadds h et vd vs1 vs2 => Sys2Proof.Machine.execVadds h et vd vs1 vs2 s
  | .vsubs h et vd vs1 vs2 => Sys2Proof.Machine.execVsubs h et vd vs1 vs2 s
  | .vand h et vd vs1 vs2 => Sys2Proof.Machine.execVand h et vd vs1 vs2 s
  | .vor h et vd vs1 vs2 => Sys2Proof.Machine.execVor h et vd vs1 vs2 s
  | .vxor h et vd vs1 vs2 => Sys2Proof.Machine.execVxor h et vd vs1 vs2 s
  | .vmin h et vd vs1 vs2 => Sys2Proof.Machine.execVmin h et vd vs1 vs2 s
  | .vmax h et vd vs1 vs2 => Sys2Proof.Machine.execVmax h et vd vs1 vs2 s
  | .vsll h et vd vs1 rs2 => Sys2Proof.Machine.execVsll h et vd vs1 rs2 s
  | .vsrl h et vd vs1 rs2 => Sys2Proof.Machine.execVsrl h et vd vs1 rs2 s
  | .vsra h et vd vs1 rs2 => Sys2Proof.Machine.execVsra h et vd vs1 rs2 s
  | .vmulq h et vd vs1 vs2 => Sys2Proof.Machine.execVmulq h et vd vs1 vs2 s
  | .vmul h et vd vs1 vs2 => Sys2Proof.Machine.execVmul h et vd vs1 vs2 s
  | .vcmpeq h et vd vs1 vs2 => Sys2Proof.Machine.execVcmpeq h et vd vs1 vs2 s
  | .vcmplt h et vd vs1 vs2 => Sys2Proof.Machine.execVcmplt h et vd vs1 vs2 s
  | .vsel h vd vs1 vs2 => Sys2Proof.Machine.execVsel h vd vs1 vs2 s
  | .vbcast h et vd rs2 => Sys2Proof.Machine.execVbcast h et vd rs2 s
  | .vext h et rd vs1 rs2 => Sys2Proof.Machine.execVext h et rd vs1 rs2 s
  | .vcvtHb h vd vs1 => Sys2Proof.Machine.execVcvtHb h vd vs1 s
  | .vcvtBh h vd vs1 => Sys2Proof.Machine.execVcvtBh h vd vs1 s
  | .vld h vd rb off => Sys2Proof.Machine.execVld h vd rb off s
  | .vst h vs rb off => Sys2Proof.Machine.execVst h vs rb off s
  | .stencil h t rs1 => Sys2Proof.Machine.execStencil h t rs1 s
  | .tld h t rs1 rs2 => Sys2Proof.Machine.execTld h t rs1 rs2 s
  | .tst h t rs1 rs2 => Sys2Proof.Machine.execTst h t rs1 rs2 s
  | .tzero h t => Sys2Proof.Machine.execTzero h t s
  | .tmov h t ts => Sys2Proof.Machine.execTmov h t ts s
  | .texps h t rs1 => Sys2Proof.Machine.execTexps h t rs1 s
  | .texpld h t rs1 => Sys2Proof.Machine.execTexpld h t rs1 s
  | .texpst h t rs1 => Sys2Proof.Machine.execTexpst h t rs1 s
  | .trdsh h t rd => Sys2Proof.Machine.execTrdsh h t rd s
  | .trv h t rs1 vd => Sys2Proof.Machine.execTrv h t rs1 vd s
  | .vtr h t rs1 vs => Sys2Proof.Machine.execVtr h t rs1 vs s
  | .mma h a ta tb => Sys2Proof.Machine.execMma h a ta tb s
  | .mms h a ta tb => Sys2Proof.Machine.execMms h a ta tb s
  | .azero h a rs => Sys2Proof.Machine.execAzero h a rs s
  | .mnarrow h td a k => Sys2Proof.Machine.execMnarrow h td a k s
  | .ast h a rs => Sys2Proof.Machine.execAst h a rs s
  | .ald h a rs => Sys2Proof.Machine.execAld h a rs s
  | .tileInstructionComplete h cycles rows => Sys2Proof.Machine.execTileInstructionComplete h cycles rows s
  | .cvmma h a ta tb => Sys2Proof.Machine.execCvmma h a ta tb s
  | .cvmms h a ta tb => Sys2Proof.Machine.execCvmms h a ta tb s
  | .cvsync h => Sys2Proof.Machine.execCvsync h s
  | .cvquery h rd => Sys2Proof.Machine.execCvquery h rd s
  | .convoyLaunch n => Sys2Proof.Machine.execConvoyLaunch n s
  | .convoyLaunchTimeout n => Sys2Proof.Machine.execConvoyLaunchTimeout n s
  | .convoyOperationComplete n => Sys2Proof.Machine.execConvoyOperationComplete n s
  | .convoyEnable o n v => Sys2Proof.Machine.execConvoyEnable o n v s
  | .convoyLocked n => Sys2Proof.Machine.execConvoyLocked n s
  | .convoyDisable o n => Sys2Proof.Machine.execConvoyDisable o n s
  | .convoyUnlocked n => Sys2Proof.Machine.execConvoyUnlocked n s
  | .waybillGo o core => Sys2Proof.Machine.execWaybillGo o core s
  | .waybillClear o core => Sys2Proof.Machine.execWaybillClear o core s
  | .waybillLoad o core => Sys2Proof.Machine.execWaybillLoad o core s
  | .waybillLoadComplete core => Sys2Proof.Machine.execWaybillLoadComplete core s
  | .wbEnd core => Sys2Proof.Machine.execWbEnd core s
  | .wbSend core => Sys2Proof.Machine.execWbSend core s
  | .wbRecv core => Sys2Proof.Machine.execWbRecv core s
  | .wbFwd core => Sys2Proof.Machine.execWbFwd core s
  | .wbWaitw core => Sys2Proof.Machine.execWbWaitw core s
  | .wbWaitwMatch core => Sys2Proof.Machine.execWbWaitwMatch core s
  | .wbSignal core => Sys2Proof.Machine.execWbSignal core s
  | .wbLoop core => Sys2Proof.Machine.execWbLoop core s
  | .beatArrival core dir => Sys2Proof.Machine.execBeatArrival core dir s
  | .creditReturn core dir => Sys2Proof.Machine.execCreditReturn core dir s
  | .completionHandshake core dir => Sys2Proof.Machine.execCompletionHandshake core dir s
  | .waybillDeadline core => Sys2Proof.Machine.execWaybillDeadline core s
  | .laneBeatArrival core id lane index => Sys2Proof.Machine.execLaneBeatArrival core id lane index s
  | .laneSlotWrite o lane w v => Sys2Proof.Machine.execLaneSlotWrite o lane w v s
  | .laneCommit o => Sys2Proof.Machine.execLaneCommit o s
  | .frameBoundary => Sys2Proof.Machine.execFrameBoundary s
  | .outboxGo h => Sys2Proof.Machine.execOutboxGo h s
  | .event k => Sys2Proof.Machine.execEvent k s
  | .irq k => Sys2Proof.Machine.execIrq k s
  | .cfgRd k => Sys2Proof.Machine.execCfgRd k s
  | .cfgWr k => Sys2Proof.Machine.execCfgWr k s
  | .cfgRsp k => Sys2Proof.Machine.execCfgRsp k s
  | .alert k => Sys2Proof.Machine.execAlert k s
  | .outboxDeadline h => Sys2Proof.Machine.execOutboxDeadline h s
  | .tenRectEnable o n v => Sys2Proof.Machine.execTenRectEnable o n v s
  | .tenRectDisable o n => Sys2Proof.Machine.execTenRectDisable o n s
  | .finishWriteRelease h => Sys2Proof.Machine.execFinishWriteRelease h s
  | .thermalSample unit temp => Sys2Proof.Machine.execThermalSample unit temp s
  | .cattrip unit => Sys2Proof.Machine.execCattrip unit s
  | .maskCommit o unit => Sys2Proof.Machine.execMaskCommit o unit s
  | .nearTierAccess unit core id => Sys2Proof.Machine.execNearTierAccess unit core id s
  | .bcLockWrite o unit v => Sys2Proof.Machine.execBcLockWrite o unit v s
  | .preloadGo o unit => Sys2Proof.Machine.execPreloadGo o unit s
  | .preloadLine unit => Sys2Proof.Machine.execPreloadLine unit s
  | .preloadComplete unit => Sys2Proof.Machine.execPreloadComplete unit s
  | .preloadStop o unit => Sys2Proof.Machine.execPreloadStop o unit s
  | .prefetchFetch unit => Sys2Proof.Machine.execPrefetchFetch unit s
  | .cacheDrainStart o unit => Sys2Proof.Machine.execCacheDrainStart o unit s
  | .cacheDrainComplete unit => Sys2Proof.Machine.execCacheDrainComplete unit s
  | .icCtlWrite o core v => Sys2Proof.Machine.execIcCtlWrite o core v s
  | .scrubLine unit => Sys2Proof.Machine.execScrubLine unit s
  | .localScrubLine core => Sys2Proof.Machine.execLocalScrubLine core s
  | .memStartGo o => Sys2Proof.Machine.execMemStartGo o s
  | .memStartTimeout => Sys2Proof.Machine.execMemStartTimeout s
  | .unitTrained unit => Sys2Proof.Machine.execUnitTrained unit s
  | .cxlEnumerated port gib => Sys2Proof.Machine.execCxlEnumerated port gib s
  | .dmaChannelEnable o serai n => Sys2Proof.Machine.execDmaChannelEnable o serai n s
  | .descriptorFetch ch => Sys2Proof.Machine.execDescriptorFetch ch s
  | .copy ch => Sys2Proof.Machine.execCopy ch s
  | .fill ch => Sys2Proof.Machine.execFill ch s
  | .compare ch => Sys2Proof.Machine.execCompare ch s
  | .gather ch => Sys2Proof.Machine.execGather ch s
  | .nop ch => Sys2Proof.Machine.execNop ch s
  | .triggerFire ch => Sys2Proof.Machine.execTriggerFire ch s
  | .pacePeriod ch => Sys2Proof.Machine.execPacePeriod ch s
  | .rowFetchDispatch ch => Sys2Proof.Machine.execRowFetchDispatch ch s
  | .rowFetchComplete e k => Sys2Proof.Machine.execRowFetchComplete e k s
  | .cxlResponse core id a latency => Sys2Proof.Machine.execCxlResponse core id a latency s
  | .cxlTimeout core id => Sys2Proof.Machine.execCxlTimeout core id s
  | .dmaDeadline ch => Sys2Proof.Machine.execDmaDeadline ch s
  | .descriptorComplete ch => Sys2Proof.Machine.execDescriptorComplete ch s
  | .dmaAbort o serai n => Sys2Proof.Machine.execDmaAbort o serai n s
  | .tdmaEnable o core c => Sys2Proof.Machine.execTdmaEnable o core c s
  | .tdmaDoorbell core c => Sys2Proof.Machine.execTdmaDoorbell core c s
  | .create o c => Sys2Proof.Machine.execCreate o c s
  | .kill o c => Sys2Proof.Machine.execKill o c s
  | .contextQuiesced c => Sys2Proof.Machine.execContextQuiesced c s
  | .free o c => Sys2Proof.Machine.execFree o c s
  | .moValidate o m v => Sys2Proof.Machine.execMoValidate o m v s
  | .moRemove o m => Sys2Proof.Machine.execMoRemove o m s
  | .isoWrite o v => Sys2Proof.Machine.execIsoWrite o v s
  | .queueEnable o q v => Sys2Proof.Machine.execQueueEnable o q v s
  | .queueDisable o q => Sys2Proof.Machine.execQueueDisable o q s
  | .sweep => Sys2Proof.Machine.execSweep s
  | .sweepReadReturn line words => Sys2Proof.Machine.execSweepReadReturn line words s
  | .sweepReadTimeout line => Sys2Proof.Machine.execSweepReadTimeout line s
  | .ringFetchReturn q slots => Sys2Proof.Machine.execRingFetchReturn q slots s
  | .ringReadTimeout q => Sys2Proof.Machine.execRingReadTimeout q s
  | .dispatch q => Sys2Proof.Machine.execDispatch q s
  | .kernelStart rect => Sys2Proof.Machine.execKernelStart rect s
  | .kernelDoneReport core => Sys2Proof.Machine.execKernelDoneReport core s
  | .dispatchComplete rect => Sys2Proof.Machine.execDispatchComplete rect s
  | .dispatchTimeout rect => Sys2Proof.Machine.execDispatchTimeout rect s
  | .evsignal q => Sys2Proof.Machine.execEvsignal q s
  | .evwait q => Sys2Proof.Machine.execEvwait q s
  | .evwaitTimeout q => Sys2Proof.Machine.execEvwaitTimeout q s
  | .evreset q => Sys2Proof.Machine.execEvreset q s
  | .ledger q => Sys2Proof.Machine.execLedger q s
  | .sraEvsigWrite core v => Sys2Proof.Machine.execSraEvsigWrite core v s
  | .evReset o e => Sys2Proof.Machine.execEvReset o e s
  | .eventChange => Sys2Proof.Machine.execEventChange s
  | .errorRecordWrite => Sys2Proof.Machine.execErrorRecordWrite s
  | .linkEnable o serai l => Sys2Proof.Machine.execLinkEnable o serai l s
  | .linkTrainingEnd serai l r => Sys2Proof.Machine.execLinkTrainingEnd serai l r s
  | .retrain serai l => Sys2Proof.Machine.execRetrain serai l s
  | .retrainAttemptEnd serai l ok => Sys2Proof.Machine.execRetrainAttemptEnd serai l ok s
  | .dataFrame serai l frame => Sys2Proof.Machine.execDataFrame serai l frame s
  | .nullFrame serai l frame => Sys2Proof.Machine.execNullFrame serai l frame s
  | .replayFrame serai l frame => Sys2Proof.Machine.execReplayFrame serai l frame s
  | .syncFrame serai l frame => Sys2Proof.Machine.execSyncFrame serai l frame s
  | .trainFrame serai l chip link gen => Sys2Proof.Machine.execTrainFrame serai l chip link gen s
  | .gapTimer serai b => Sys2Proof.Machine.execGapTimer serai b s
  | .replayTimer serai b => Sys2Proof.Machine.execReplayTimer serai b s
  | .bundleLost serai b => Sys2Proof.Machine.execBundleLost serai b s
  | .resync o serai b => Sys2Proof.Machine.execResync o serai b s
  | .linkWrite serai b => Sys2Proof.Machine.execLinkWrite serai b s
  | .linkRead serai b => Sys2Proof.Machine.execLinkRead serai b s
  | .linkRdata serai b => Sys2Proof.Machine.execLinkRdata serai b s
  | .linkResp serai b => Sys2Proof.Machine.execLinkResp serai b s
  | .linkShare serai b => Sys2Proof.Machine.execLinkShare serai b s
  | .linkRawblk serai b => Sys2Proof.Machine.execLinkRawblk serai b s
  | .linkCread serai b => Sys2Proof.Machine.execLinkCread serai b s
  | .lockstepMismatch => Sys2Proof.Machine.execLockstepMismatch s
  | .drvMemDeadline k => Sys2Proof.Machine.execDrvMemDeadline k s
  | .routeAccept n => Sys2Proof.Machine.execRouteAccept n s
  | .ptpSync offset adj => Sys2Proof.Machine.execPtpSync offset adj s
  | .ptpSyncMiss => Sys2Proof.Machine.execPtpSyncMiss s
  | .csiFrameStart r stamp => Sys2Proof.Machine.execCsiFrameStart r stamp s
  | .csiLongPacket r p => Sys2Proof.Machine.execCsiLongPacket r p s
  | .csiFrameEnd r stamp ecc crcOk => Sys2Proof.Machine.execCsiFrameEnd r stamp ecc crcOk s
  | .csiFrameRecord r => Sys2Proof.Machine.execCsiFrameRecord r s
  | .csiFsTimeout r => Sys2Proof.Machine.execCsiFsTimeout r s
  | .ethRxFrame p f => Sys2Proof.Machine.execEthRxFrame p f s
  | .ethTxDoorbell o p ring v => Sys2Proof.Machine.execEthTxDoorbell o p ring v s
  | .ethRingEnable o p ring v => Sys2Proof.Machine.execEthRingEnable o p ring v s
  | .ethTxFrame p stamp => Sys2Proof.Machine.execEthTxFrame p stamp s
  | .gateEdge p => Sys2Proof.Machine.execGateEdge p s
  | .gclEnable o p => Sys2Proof.Machine.execGclEnable o p s
  | .gclSwapArm o p => Sys2Proof.Machine.execGclSwapArm o p s
  | .gclSwap p => Sys2Proof.Machine.execGclSwap p s
  | .canMbReq o c m => Sys2Proof.Machine.execCanMbReq o c m s
  | .canMbLaunch c m => Sys2Proof.Machine.execCanMbLaunch c m s
  | .canTxDone c m errs => Sys2Proof.Machine.execCanTxDone c m errs s
  | .canMbTimeout c m => Sys2Proof.Machine.execCanMbTimeout c m s
  | .canRxFrame c f errs => Sys2Proof.Machine.execCanRxFrame c f errs s
  | .canRxPop o c => Sys2Proof.Machine.execCanRxPop o c s
  | .canBusOff c => Sys2Proof.Machine.execCanBusOff c s
  | .vfieldSample mv => Sys2Proof.Machine.execVfieldSample mv s
  | .dinChange n raw stamp => Sys2Proof.Machine.execDinChange n raw stamp s
  | .dinStormWindowEnd => Sys2Proof.Machine.execDinStormWindowEnd s
  | .dinHighmax n => Sys2Proof.Machine.execDinHighmax n s
  | .dinOpen n => Sys2Proof.Machine.execDinOpen n s
  | .dinOpenClear n => Sys2Proof.Machine.execDinOpenClear n s
  | .dinEvtRead => Sys2Proof.Machine.execDinEvtRead s
  | .encoderEdge e a b since => Sys2Proof.Machine.execEncoderEdge e a b since s
  | .encoderZEdge e stamp => Sys2Proof.Machine.execEncoderZEdge e stamp s
  | .encoderOpen e => Sys2Proof.Machine.execEncoderOpen e s
  | .encPosWrite o e v => Sys2Proof.Machine.execEncPosWrite o e v s
  | .encZtimeRead e => Sys2Proof.Machine.execEncZtimeRead e s
  | .snaptArm o v => Sys2Proof.Machine.execSnaptArm o v s
  | .encoderSnapshot => Sys2Proof.Machine.execEncoderSnapshot s
  | .adcRun o => Sys2Proof.Machine.execAdcRun o s
  | .adcEnable o a => Sys2Proof.Machine.execAdcEnable o a s
  | .adcSample microunits => Sys2Proof.Machine.execAdcSample microunits s
  | .adcOverrange a => Sys2Proof.Machine.execAdcOverrange a s
  | .adcShuntReconnect a => Sys2Proof.Machine.execAdcShuntReconnect a s
  | .adcOpen a => Sys2Proof.Machine.execAdcOpen a s
  | .doutShortTrip n => Sys2Proof.Machine.execDoutShortTrip n s
  | .doutOvertemp n => Sys2Proof.Machine.execDoutOvertemp n s
  | .doutReadback n pinMv vfMv openFor10ms => Sys2Proof.Machine.execDoutReadback n pinMv vfMv openFor10ms s
  | .doutRetry n => Sys2Proof.Machine.execDoutRetry n s
  | .doutTestPulse n pinMv => Sys2Proof.Machine.execDoutTestPulse n pinMv s
  | .rearm o => Sys2Proof.Machine.execRearm o s
  | .primerReadback r => Sys2Proof.Machine.execPrimerReadback r s
  | .primerCheckComplete r => Sys2Proof.Machine.execPrimerCheckComplete r s
  | .twinSubmit o k sideB digest => Sys2Proof.Machine.execTwinSubmit o k sideB digest s
  | .twinSkewTimeout k => Sys2Proof.Machine.execTwinSkewTimeout k s
  | .twinDisable o k => Sys2Proof.Machine.execTwinDisable o k s
  | .watchdogArm o n => Sys2Proof.Machine.execWatchdogArm o n s
  | .watchdogKick o n v => Sys2Proof.Machine.execWatchdogKick o n v s
  | .watchdogExpire n => Sys2Proof.Machine.execWatchdogExpire n s
  | .estopDemand a b => Sys2Proof.Machine.execEstopDemand a b s
  | .estopDiscrepancy => Sys2Proof.Machine.execEstopDiscrepancy s
  | .perstLow => Sys2Proof.Machine.execPerstLow s
  | .perstHigh => Sys2Proof.Machine.execPerstHigh s
  | .flr => Sys2Proof.Machine.execFlr s
  | .regionReset o v => Sys2Proof.Machine.execRegionReset o v s
  | .coreReset o core => Sys2Proof.Machine.execCoreReset o core s
  | .coreRelease o core => Sys2Proof.Machine.execCoreRelease o core s
  | .coreResetRelease o core => Sys2Proof.Machine.execCoreResetRelease o core s
  | .coreResetComplete core => Sys2Proof.Machine.execCoreResetComplete core s
  | .blockRun o b => Sys2Proof.Machine.execBlockRun o b s
  | .blockNap o b => Sys2Proof.Machine.execBlockNap o b s
  | .blockDoze o b => Sys2Proof.Machine.execBlockDoze o b s
  | .blockOff o b => Sys2Proof.Machine.execBlockOff o b s
  | .blockPowerTransitionEnd b => Sys2Proof.Machine.execBlockPowerTransitionEnd b s
  | .d3hotEntry => Sys2Proof.Machine.execD3hotEntry s
  | .slumberExit => Sys2Proof.Machine.execSlumberExit s
  | .hostPortLinkUp => Sys2Proof.Machine.execHostPortLinkUp s
  | .ethBlockLock p up => Sys2Proof.Machine.execEthBlockLock p up s
  | .csiLanesStopState r => Sys2Proof.Machine.execCsiLanesStopState r s
  | .canBusIntegration c => Sys2Proof.Machine.execCanBusIntegration c s
  | .canBusOffRecovery c => Sys2Proof.Machine.execCanBusOffRecovery c s

end Sys2Proof.Machine
end

