-- ==== Sys2Proof/Machine/Step.lean ====
section
/-! DEFINITION. One step: the command at the front of the queue, or an idle cycle of the courier clock on an empty queue. -/

namespace Sys2Proof.Machine

/-- One step of the block: the command at the front of the queue runs on the state with the queue's rest; with no
command waiting, the time base advances one cycle of the courier clock, and the Drover's waiting memory-port accesses try
again (R30, R374; DESIGN CHOICE, log entry 2). -/
def step (s : State) : Host.Outcome State Fault Refusal :=
  match s.pending with
  | [] => .next (idle s)
  | i :: r => exec i { s with pending := r }

/-- The state with the command that a word spells put at the front of its queue; unchanged where the word spells none
(log entry 3). -/
def State.withFetchWord (s : State) (nbits w : Nat) : State :=
  match Sys2Proof.decodeTableWord nbits w with
  | some i => { s with pending := i :: s.pending }
  | none => s

end Sys2Proof.Machine
end

