-- ==== Sys2Proof/Safety.lean ====
section
/-! DEFINITION. What claims are stated in: a state whose memory is canonical, and the frames of a step. -/

namespace Sys2Proof.Machine

/-- The invariant of every step: memory keeps its one canonical form (log entry 6). -/
def MemoryCanonical (s : State) : Prop := Memory.wf s.mem = true

/-- A byte of the model's memory, as software would find it by a read that meets no error. -/
def byteAt (s : State) (a : Nat) : Byte := memGet s.mem a

/-- Every byte of memory reads as before. -/
def SameMemory (s t : State) : Prop := ∀ a, byteAt t a = byteAt s a

/-- Every byte of memory outside `n` bytes from `a` reads as before. -/
def SameMemoryBut (s t : State) (a n : Nat) : Prop := ∀ x, x < a ∨ a + n ≤ x → byteAt t x = byteAt s x

/-- Every register of the part reads as before. -/
def SameRegs (s t : State) : Prop := ∀ o, reg t o = reg s o

/-- Every register of the part but those listed reads as before. -/
def SameRegsBut (s t : State) (l : List Nat) : Prop := ∀ o, o ∉ l → reg t o = reg s o

/-- Every core is as before. -/
def SameCores (s t : State) : Prop := ∀ c, core t c = core s c

/-- Every core but one is as before. -/
def SameCoresBut (s t : State) (c : Nat) : Prop := ∀ d, d ≠ c → core t d = core s d

/-- Nothing but registers of the part has changed, and of those only the ones listed. -/
def OnlyRegs (s t : State) (l : List Nat) : Prop := t = { s with regs := t.regs } ∧ SameRegsBut s t l

/-- Nothing but one core, and of the registers of the part only those listed, has changed. -/
def OnlyCoreRegs (s t : State) (c : Nat) (l : List Nat) : Prop :=
  t = { s with cores := t.cores, regs := t.regs } ∧ SameCoresBut s t c ∧ SameRegsBut s t l

/-- A write of a register reaches it, and neither the part's extent nor the worlds refuse it (R14, R45, R144). -/
def AllowedWrite (s : State) (o : Origin) (off : Nat) (v : Word) : Prop :=
  reaches s o off = true ∧ presence s off = .present ∧ (guardedOrigin o = true ∨ worldDenies s off v = false) ∧
    drvDenies s o off = false

/-- The number of the CSR that counts a thread's committed instructions (R162). -/
def issuedCsr (h : Hart) : Nat := 0x108 + h.tid.toNat

/-- Nothing but one thread, and CSRs of its core, has changed. -/
def OnlyThread (s t : State) (h : Hart) : Prop :=
  t = { s with cores := t.cores } ∧ SameCoresBut s t h.core ∧
    (∀ j, j.core = h.core → j ≠ h → thr t j = thr s j) ∧
    core t h.core = { core s h.core with threads := (core t h.core).threads, csr := (core t h.core).csr }

/-- Nothing but one thread has changed, and one instruction more has committed there; INT_LAT_MAX may change only where it is
the first of an interrupt handler (R162). -/
def OneCommit (s t : State) (h : Hart) : Prop :=
  OnlyThread s t h ∧ coreCsr t h.core (issuedCsr h) = coreCsr s h.core (issuedCsr h) + 1 ∧
    (∀ n, n ≠ issuedCsr h → n ≠ 0x11C → coreCsr t h.core n = coreCsr s h.core n) ∧
    ((thr s h).latFrom = none → coreCsr t h.core 0x11C = coreCsr s h.core 0x11C)

/-- A thread once an instruction has committed in it: the program counter at `pc`, the fetched word used up, and what was kept
for this one instruction forgotten. -/
def afterCommit (u : Thread) (pc : Word) : Thread :=
  { u with pc := pc, fetched := none, hovr := 0, tileWait := none, latFrom := none }

/-- One commit that leaves its thread as `u`, with the program counter at `pc` and the fetched word used up. -/
def CommitsAs (s t : State) (h : Hart) (u : Thread) (pc : Word) : Prop :=
  OneCommit s t h ∧ thr t h = afterCommit u pc

/-- One commit that writes `v` to the scalar register `rd` and goes on at `pc`: a write to g0 is discarded, every other
scalar register keeps its value, and nothing else of the thread changes (R50). -/
def CommitsReg (s t : State) (h : Hart) (rd : GReg) (v pc : Word) : Prop :=
  CommitsAs s t h ((thr s h).wr rd v) pc ∧ greg t h rd = (if rd = 0 then 0 else v) ∧
    ∀ r, r ≠ rd → greg t h r = greg s h r

/-- One commit that writes `v` to the vector register `vd`, moves on by 4, and changes nothing else. -/
def CommitsVec (s t : State) (h : Hart) (vd : VReg) (v : Line) : Prop :=
  OneCommit s t h ∧ vreg t h vd = v ∧ (∀ r, r ≠ vd → vreg t h r = vreg s h r) ∧
    thr t h = afterCommit { thr s h with v := (thr t h).v } ((thr s h).pc + 4)

/-- What a synchronous trap at level 0, 1 or 2 leaves of its thread (R146, R151): the save registers of the next level
hold `epc`, the status, cause and value; the thread runs in the supervisor of its world at the vector. -/
def TrapTakenAt (s t : State) (h : Hart) (tr : Trap) (epc : Word) : Prop :=
  let u := thr s h
  let w := thr t h
  let n := u.level.toNat
  let base := coreCsr s h.core (if u.mode.guarded then 0x800 else 0x401)
  w.level.toNat = n + 1 ∧ w.mode = (if u.mode.guarded then .gs else .ps) ∧ w.prio = u.prio ∧
    w.pc = (base &&& ~~~(0xFFF : Word)) + BitVec.ofNat 32 (64 * tr.vec) ∧
    w.getCsr (0x414 + 4 * n) = epc &&& ~~~(3 : Word) ∧
    bits (w.getCsr (0x415 + 4 * n)) 1 0 = u.mode.code ∧
    bits (w.getCsr (0x415 + 4 * n)) 5 2 = u.prio.toNat ∧
    bit (w.getCsr (0x415 + 4 * n)) 6 = u.mode.guarded ∧
    w.getCsr (0x416 + 4 * n) = BitVec.ofNat 32 (tr.cause % 256 + 256 * (tr.status % 256)) ∧
    w.getCsr (0x417 + 4 * n) = tr.eval ∧
    w.g = u.g ∧ w.win = u.win ∧ w.shadow = u.shadow ∧ w.v = u.v ∧ w.acc = u.acc ∧ w.hold = none

/-- A synchronous trap taken with EPC at the instruction (R146). -/
def TrapTaken (s t : State) (h : Hart) (tr : Trap) : Prop := TrapTakenAt s t h tr (thr s h).pc

/-- A new entry of the Drover log: written at LOG_HEAD, which moves on, or, where that entry is VALID, counted as lost
(R375). -/
def Logged (s t : State) (status detail unit index : Nat) : Prop :=
  let i := fld s Reg.drvLogHead 4 0
  let w := Reg.drvLogW0 i
  if flag s w 31 = true then reg t Reg.drvLogOvf = satInc (reg s Reg.drvLogOvf)
  else reg t w = BitVec.ofNat 32 (status + 256 * detail + 2 ^ 16 * unit + 2 ^ 24 * index + 2 ^ 31) ∧
    reg t Reg.drvLogHead = BitVec.ofNat 32 ((i + 1) % 32)

/-- The Drover's memory port serves an access of `n` bytes at once: it passes the checks, its path has service, and it lies
in one line of a near-tier unit that is ready, does not drain and has no error in its cache array (R194, R256, R262, R374). -/
def PortServes (s : State) (a n : Nat) : Prop :=
  drvMemUp s = true ∧ drvCheck s a n = 0 ∧ 0 < n ∧ a % 128 + n ≤ 128 ∧ agentServed s (drvAgent s) a = true ∧
    ∃ u, target s a = .near u ∧ unitReady s u = true ∧ draining s u = false ∧ (memUnit s u).ways.all (fun e => !e.2.bad) = true

/-- No access, received frame or mailbox of the Drover waits for its memory port. -/
def PortQuiet (s : State) : Prop :=
  s.drv.access = [] ∧ (∀ p, (ethOf s p).rx = []) ∧ ∀ c, (canOf s c).mbs = []

/-- A safe-state cause has occurred: it is latched, and every output that its map names is FORCED (R420). -/
def SafeEntered (s t : State) (c : Nat) : Prop :=
  flag t Reg.drvSafeLatch c = true ∧ ∀ o, o < 8 → flag s (Reg.drvSafeMap c) o = true → doutForced t o = true

end Sys2Proof.Machine
end

