-- ==== Sys2Proof/WellFormed.lean ====
section
/-! DEFINITION. Which commands are well formed: every index within the largest variant, every instruction one the
encodings of the manual can spell. -/

namespace Sys2Proof

/-- A core of the mesh, or one of the Drover's two scalar cores (R17, R371). -/
def coreOk (c : Nat) : Bool := decide (c < 768) || decide (c = Config.drvPair) || decide (c = Config.drvHk)

/-- A thread of a core of the mesh (R49), or the one thread of a Drover core (R371). -/
def Hart.ok (h : Hart) : Bool := coreOk h.core && (decide (h.core < 768) || decide (h.tid = 0))

/-- A thread of a core of the mesh: the wide classes are illegal on Drover cores (R371). -/
def Hart.mesh (h : Hart) : Bool := decide (h.core < 768)

/-- A DMA channel of a Serai or of a core (R267). -/
def Chan.ok : Chan → Bool
  | .sys s n => decide (s < 2) && decide (n < 32)
  | .tile c n => decide (c < 768) && decide (n < 2)

/-- A gather engine of a unit or of a Serai (R267). -/
def GatherEngine.ok : GatherEngine → Bool
  | .near u => decide (u < 8)
  | .far s => decide (s < 2)

/-- The host, or a courier node identifier of 12 bits (R204). -/
def Origin.ok : Origin → Bool
  | .host => true
  | .node n _ => decide (n < 4096)

/-- The well-formedness of a command. -/
def Instr.wf (i : Instr) : Bool :=
  match i with
  | .registerWrite o offset _ => o.ok && decide (offset < 0x4000000)
  | .cmpTimeLoRead => true
  | .pwrokLow => true
  | .pwrokHigh => true
  | .droverPor => true
  | .droverBoot _ => true
  | .tapAccess _ => true
  | .clkselWrite h _ => h.ok
  | .relockComplete core => coreOk core
  | .instructionFetch h => h.ok
  | .add h _ _ _ => h.ok
  | .sub h _ _ _ => h.ok
  | .and h _ _ _ => h.ok
  | .or h _ _ _ => h.ok
  | .xor h _ _ _ => h.ok
  | .sll h _ _ _ => h.ok
  | .srl h _ _ _ => h.ok
  | .sra h _ _ _ => h.ok
  | .slt h _ _ _ => h.ok
  | .sltu h _ _ _ => h.ok
  | .min h _ _ _ => h.ok
  | .max h _ _ _ => h.ok
  | .minu h _ _ _ => h.ok
  | .maxu h _ _ _ => h.ok
  | .mul h _ _ _ => h.ok
  | .mulh h _ _ _ => h.ok
  | .mulhu h _ _ _ => h.ok
  | .clz h _ _ => h.ok
  | .popc h _ _ => h.ok
  | .addi h _ _ _ => h.ok
  | .slti h _ _ _ => h.ok
  | .sltiu h _ _ _ => h.ok
  | .andi h _ _ _ => h.ok
  | .ori h _ _ _ => h.ok
  | .xori h _ _ _ => h.ok
  | .slli h _ _ _ => h.ok
  | .sri h _ _ _ _ => h.ok
  | .lui h _ _ => h.ok
  | .auipc h _ _ => h.ok
  | .ldB h _ _ _ _ => h.ok
  | .ldBu h _ _ _ _ => h.ok
  | .ldH h _ _ _ _ => h.ok
  | .ldHu h _ _ _ _ => h.ok
  | .ldW h _ _ _ _ => h.ok
  | .pfh h _ _ _ => h.ok
  | .stB h _ _ _ => h.ok
  | .stH h _ _ _ => h.ok
  | .stW h _ _ _ => h.ok
  | .farLoadAnswer core _ => coreOk core
  | .farStoreAck core _ => coreOk core
  | .laneAccessDeadline core _ => coreOk core
  | .amoswapW h _ _ _ => h.ok
  | .amoaddW h _ _ _ => h.ok
  | .amoandW h _ _ _ => h.ok
  | .amoorW h _ _ _ => h.ok
  | .amocasW h _ _ _ => h.ok
  | .beq h _ _ _ _ => h.ok
  | .bne h _ _ _ _ => h.ok
  | .blt h _ _ _ _ => h.ok
  | .bge h _ _ _ _ => h.ok
  | .bltu h _ _ _ _ => h.ok
  | .bgeu h _ _ _ _ => h.ok
  | .jmp h _ => h.ok
  | .call h _ => h.ok
  | .callw h _ => h.ok
  | .dbnz h rc _ => h.ok && decide (rc ≠ 0)
  | .jr h _ => h.ok
  | .callr h _ => h.ok
  | .callwr h _ => h.ok
  | .retw h => h.ok
  | .wspill h _ => h.ok
  | .wfill h _ => h.ok
  | .addsH h _ _ _ => h.ok
  | .subsH h _ _ _ => h.ok
  | .addsB h _ _ _ => h.ok
  | .subsB h _ _ _ => h.ok
  | .addsW h _ _ _ => h.ok
  | .subsW h _ _ _ => h.ok
  | .mulqH h _ _ _ => h.ok
  | .mulqB h _ _ _ => h.ok
  | .macH h _ _ => h.ok
  | .macB h _ _ => h.ok
  | .msuH h _ _ => h.ok
  | .msuB h _ _ => h.ok
  | .aclr h => h.ok
  | .amovlo h _ => h.ok
  | .amovhi h _ => h.ok
  | .amovw h _ _ => h.ok
  | .anarrowH h _ _ => h.ok
  | .anarrowB h _ _ => h.ok
  | .cvtHb h _ _ => h.ok
  | .cvtBh h _ _ => h.ok
  | .memcpyv h _ _ _ => h.ok
  | .gatherv h _ _ _ _ _ => h.ok
  | .scanv h _ _ _ _ _ => h.ok
  | .longStep h => h.ok
  | .csrr h _ _ => h.ok
  | .csrw h _ _ _ => h.ok
  | .csrs h _ _ _ => h.ok
  | .csrc h _ _ _ => h.ok
  | .trap h _ => h.ok
  | .eret h => h.ok
  | .wgate h _ => h.ok
  | .hold h n => h.ok && decide (1 ≤ n.toNat) && decide (n.toNat ≤ 512)
  | .holdWindowEnd h => h.ok
  | .wfe h _ _ _ _ => h.ok
  | .wfeTimeout h => h.ok
  | .trel h _ => h.ok
  | .threadStart h => h.ok
  | .fence h _ ll fv fin => h.ok && (ll || fv || fin)
  | .twait h _ => h.ok
  | .twaitDone h => h.ok
  | .iflush h => h.ok
  | .iflushDone core => coreOk core
  | .interruptEntry h _ _ _ => h.ok
  | .weaveTableUpdate core => coreOk core
  | .isetWrite h _ => h.ok
  | .stormWindowEnd core => coreOk core
  | .vadd h _ _ _ _ => h.mesh
  | .vsub h _ _ _ _ => h.mesh
  | .vadds h _ _ _ _ => h.mesh
  | .vsubs h _ _ _ _ => h.mesh
  | .vand h _ _ _ _ => h.mesh
  | .vor h _ _ _ _ => h.mesh
  | .vxor h _ _ _ _ => h.mesh
  | .vmin h _ _ _ _ => h.mesh
  | .vmax h _ _ _ _ => h.mesh
  | .vsll h _ _ _ _ => h.mesh
  | .vsrl h _ _ _ _ => h.mesh
  | .vsra h _ _ _ _ => h.mesh
  | .vmulq h et _ _ _ => h.mesh && decide (et ≠ .b32)
  | .vmul h _ _ _ _ => h.mesh
  | .vcmpeq h _ _ _ _ => h.mesh
  | .vcmplt h _ _ _ _ => h.mesh
  | .vsel h _ _ _ => h.mesh
  | .vbcast h _ _ _ => h.mesh
  | .vext h _ _ _ _ => h.mesh
  | .vcvtHb h _ _ => h.mesh
  | .vcvtBh h _ _ => h.mesh
  | .vld h _ _ _ => h.mesh
  | .vst h _ _ _ => h.mesh
  | .stencil h _ _ => h.mesh
  | .tld h _ _ _ => h.mesh
  | .tst h _ _ _ => h.mesh
  | .tzero h _ => h.mesh
  | .tmov h _ _ => h.mesh
  | .texps h _ _ => h.mesh
  | .texpld h _ _ => h.mesh
  | .texpst h _ _ => h.mesh
  | .trdsh h _ _ => h.mesh
  | .trv h _ _ _ => h.mesh
  | .vtr h _ _ _ => h.mesh
  | .mma h _ _ _ => h.mesh
  | .mms h _ _ _ => h.mesh
  | .azero h _ _ => h.mesh
  | .mnarrow h _ _ _ => h.mesh
  | .ast h _ _ => h.mesh
  | .ald h _ _ => h.mesh
  | .tileInstructionComplete h _ _ => h.mesh
  | .cvmma h _ _ _ => h.mesh
  | .cvmms h _ _ _ => h.mesh
  | .cvsync h => h.mesh
  | .cvquery h _ => h.mesh
  | .convoyLaunch n => decide (n < 16)
  | .convoyLaunchTimeout n => decide (n < 16)
  | .convoyOperationComplete n => decide (n < 16)
  | .convoyEnable o n _ => o.ok && decide (n < 16)
  | .convoyLocked n => decide (n < 16)
  | .convoyDisable o n => o.ok && decide (n < 16)
  | .convoyUnlocked n => decide (n < 16)
  | .waybillGo o core => o.ok && coreOk core
  | .waybillClear o core => o.ok && coreOk core
  | .waybillLoad o core => o.ok && coreOk core
  | .waybillLoadComplete core => coreOk core
  | .wbEnd core => coreOk core
  | .wbSend core => coreOk core
  | .wbRecv core => coreOk core
  | .wbFwd core => coreOk core
  | .wbWaitw core => coreOk core
  | .wbWaitwMatch core => coreOk core
  | .wbSignal core => coreOk core
  | .wbLoop core => coreOk core
  | .beatArrival core _ => coreOk core
  | .creditReturn core _ => coreOk core
  | .completionHandshake core _ => coreOk core
  | .waybillDeadline core => coreOk core
  | .laneBeatArrival core _ lane index => coreOk core && decide (lane < 122) && decide (index < 64)
  | .laneSlotWrite o lane w _ => o.ok && decide (lane < 122) && decide (w < 16)
  | .laneCommit o => o.ok
  | .frameBoundary => true
  | .outboxGo h => h.ok
  | .event _ => true
  | .irq _ => true
  | .cfgRd _ => true
  | .cfgWr _ => true
  | .cfgRsp _ => true
  | .alert _ => true
  | .outboxDeadline h => h.ok
  | .tenRectEnable o n _ => o.ok && decide (n < 16)
  | .tenRectDisable o n => o.ok && decide (n < 16)
  | .finishWriteRelease h => h.ok
  | .thermalSample unit _ => decide (unit < 8)
  | .cattrip unit => decide (unit < 8)
  | .maskCommit o unit => o.ok && decide (unit < 8)
  | .nearTierAccess unit core _ => decide (unit < 8) && coreOk core
  | .bcLockWrite o unit _ => o.ok && decide (unit < 8)
  | .preloadGo o unit => o.ok && decide (unit < 8)
  | .preloadLine unit => decide (unit < 8)
  | .preloadComplete unit => decide (unit < 8)
  | .preloadStop o unit => o.ok && decide (unit < 8)
  | .prefetchFetch unit => decide (unit < 8)
  | .cacheDrainStart o unit => o.ok && decide (unit < 8)
  | .cacheDrainComplete unit => decide (unit < 8)
  | .icCtlWrite o core _ => o.ok && coreOk core
  | .scrubLine unit => decide (unit < 8)
  | .localScrubLine core => coreOk core
  | .memStartGo o => o.ok
  | .memStartTimeout => true
  | .unitTrained unit => decide (unit < 8)
  | .cxlEnumerated port _ => decide (port < 4)
  | .dmaChannelEnable o serai n => o.ok && decide (serai < 2) && decide (n < 32)
  | .descriptorFetch ch => ch.ok
  | .copy ch => ch.ok
  | .fill ch => ch.ok
  | .compare ch => ch.ok
  | .gather ch => ch.ok
  | .nop ch => ch.ok
  | .triggerFire ch => ch.ok
  | .pacePeriod ch => ch.ok
  | .rowFetchDispatch ch => ch.ok
  | .rowFetchComplete e _ => e.ok
  | .cxlResponse core _ _ _ => coreOk core
  | .cxlTimeout core _ => coreOk core
  | .dmaDeadline ch => ch.ok
  | .descriptorComplete ch => ch.ok
  | .dmaAbort o serai n => o.ok && decide (serai < 2) && decide (n < 32)
  | .tdmaEnable o core c => o.ok && coreOk core && decide (c < 2)
  | .tdmaDoorbell core c => coreOk core && decide (c < 2)
  | .create o c => o.ok && decide (c < 64)
  | .kill o c => o.ok && decide (c < 64)
  | .contextQuiesced c => decide (c < 64)
  | .free o c => o.ok && decide (c < 64)
  | .moValidate o m _ => o.ok && decide (m < 65536)
  | .moRemove o m => o.ok && decide (m < 65536)
  | .isoWrite o _ => o.ok
  | .queueEnable o q _ => o.ok && decide (q < 256)
  | .queueDisable o q => o.ok && decide (q < 256)
  | .sweep => true
  | .sweepReadReturn line _ => decide (line < 32)
  | .sweepReadTimeout line => decide (line < 32)
  | .ringFetchReturn q _ => decide (q < 256)
  | .ringReadTimeout q => decide (q < 256)
  | .dispatch q => decide (q < 256)
  | .kernelStart rect => decide (rect < 16)
  | .kernelDoneReport core => coreOk core
  | .dispatchComplete rect => decide (rect < 16)
  | .dispatchTimeout rect => decide (rect < 16)
  | .evsignal q => decide (q < 256)
  | .evwait q => decide (q < 256)
  | .evwaitTimeout q => decide (q < 256)
  | .evreset q => decide (q < 256)
  | .ledger q => decide (q < 256)
  | .sraEvsigWrite core _ => coreOk core
  | .evReset o e => o.ok && decide (e < 4096)
  | .eventChange => true
  | .errorRecordWrite => true
  | .linkEnable o serai l => o.ok && decide (serai < 2) && decide (l < 32)
  | .linkTrainingEnd serai l _ => decide (serai < 2) && decide (l < 32)
  | .retrain serai l => decide (serai < 2) && decide (l < 32)
  | .retrainAttemptEnd serai l _ => decide (serai < 2) && decide (l < 32)
  | .dataFrame serai l f => decide (serai < 2) && decide (l < 32) && decide (f.length = 288)
  | .nullFrame serai l f => decide (serai < 2) && decide (l < 32) && decide (f.length = 288)
  | .replayFrame serai l f => decide (serai < 2) && decide (l < 32) && decide (f.length = 288)
  | .syncFrame serai l f => decide (serai < 2) && decide (l < 32) && decide (f.length = 288)
  | .trainFrame serai l _ _ _ => decide (serai < 2) && decide (l < 32)
  | .gapTimer serai b => decide (serai < 2) && decide (b < 16)
  | .replayTimer serai b => decide (serai < 2) && decide (b < 16)
  | .bundleLost serai b => decide (serai < 2) && decide (b < 16)
  | .resync o serai b => o.ok && decide (serai < 2) && decide (b < 16)
  | .linkWrite serai b => decide (serai < 2) && decide (b < 16)
  | .linkRead serai b => decide (serai < 2) && decide (b < 16)
  | .linkRdata serai b => decide (serai < 2) && decide (b < 16)
  | .linkResp serai b => decide (serai < 2) && decide (b < 16)
  | .linkShare serai b => decide (serai < 2) && decide (b < 16)
  | .linkRawblk serai b => decide (serai < 2) && decide (b < 16)
  | .linkCread serai b => decide (serai < 2) && decide (b < 16)
  | .lockstepMismatch => true
  | .drvMemDeadline _ => true
  | .routeAccept n => decide (n < 16)
  | .ptpSync _ _ => true
  | .ptpSyncMiss => true
  | .csiFrameStart r _ => decide (r < 4)
  | .csiLongPacket r _ => decide (r < 4)
  | .csiFrameEnd r _ _ _ => decide (r < 4)
  | .csiFrameRecord r => decide (r < 4)
  | .csiFsTimeout r => decide (r < 4)
  | .ethRxFrame p _ => decide (p < 2)
  | .ethTxDoorbell o p ring _ => o.ok && decide (p < 2) && decide (ring < 8)
  | .ethRingEnable o p ring _ => o.ok && decide (p < 2) && decide (ring < 12)
  | .ethTxFrame p _ => decide (p < 2)
  | .gateEdge p => decide (p < 2)
  | .gclEnable o p => o.ok && decide (p < 2)
  | .gclSwapArm o p => o.ok && decide (p < 2)
  | .gclSwap p => decide (p < 2)
  | .canMbReq o c m => o.ok && decide (c < 4) && decide (m < 16)
  | .canMbLaunch c m => decide (c < 4) && decide (m < 16)
  | .canTxDone c m _ => decide (c < 4) && decide (m < 16)
  | .canMbTimeout c m => decide (c < 4) && decide (m < 16)
  | .canRxFrame c _ _ => decide (c < 4)
  | .canRxPop o c => o.ok && decide (c < 4)
  | .canBusOff c => decide (c < 4)
  | .vfieldSample _ => true
  | .dinChange n _ _ => decide (n < 16)
  | .dinStormWindowEnd => true
  | .dinHighmax i => decide (i < 16)
  | .dinOpen i => decide (i < 16)
  | .dinOpenClear i => decide (i < 16)
  | .dinEvtRead => true
  | .encoderEdge e _ _ _ => decide (e < 4)
  | .encoderZEdge e _ => decide (e < 4)
  | .encoderOpen e => decide (e < 4)
  | .encPosWrite o e _ => o.ok && decide (e < 4)
  | .encZtimeRead e => decide (e < 4)
  | .snaptArm o _ => o.ok
  | .encoderSnapshot => true
  | .adcRun o => o.ok
  | .adcEnable o a => o.ok && decide (a < 8)
  | .adcSample _ => true
  | .adcOverrange a => decide (a < 8)
  | .adcShuntReconnect a => decide (a < 8)
  | .adcOpen a => decide (a < 8)
  | .doutShortTrip n => decide (n < 8)
  | .doutOvertemp n => decide (n < 8)
  | .doutReadback n _ _ _ => decide (n < 8)
  | .doutRetry n => decide (n < 8)
  | .doutTestPulse n _ => decide (n < 8)
  | .rearm o => o.ok
  | .primerReadback r => decide (r < 4)
  | .primerCheckComplete r => decide (r < 4)
  | .twinSubmit o k _ _ => o.ok && decide (k < 4)
  | .twinSkewTimeout k => decide (k < 4)
  | .twinDisable o k => o.ok && decide (k < 4)
  | .watchdogArm o n => o.ok && decide (n < 8)
  | .watchdogKick o n _ => o.ok && decide (n < 8)
  | .watchdogExpire n => decide (n < 8)
  | .estopDemand _ _ => true
  | .estopDiscrepancy => true
  | .perstLow => true
  | .perstHigh => true
  | .flr => true
  | .regionReset o _ => o.ok
  | .coreReset o core => o.ok && coreOk core
  | .coreRelease o core => o.ok && coreOk core
  | .coreResetRelease o core => o.ok && coreOk core
  | .coreResetComplete core => coreOk core
  | .blockRun o b => o.ok && decide (b < 48)
  | .blockNap o b => o.ok && decide (b < 48)
  | .blockDoze o b => o.ok && decide (b < 48)
  | .blockOff o b => o.ok && decide (b < 48)
  | .blockPowerTransitionEnd b => decide (b < 48)
  | .d3hotEntry => true
  | .slumberExit => true
  | .hostPortLinkUp => true
  | .ethBlockLock p _ => decide (p < 2)
  | .csiLanesStopState r => decide (r < 4)
  | .canBusIntegration c => decide (c < 4)
  | .canBusOffRecovery c => decide (c < 4)

end Sys2Proof
end

