-- ==== Sys2Proof/Certificates/Slice0/Obligations.lean ====
section
/-! DEFINITION. The statements for the provers. -/

open Sys2Proof Sys2Proof.Machine

/-! ### The queue of commands -/

/-- A step runs the command at the front of the queue on the state with the queue's rest -/
def Obligations.FrontCommandRuns : Prop :=
  (∀ (c : Instr) (r : List Instr) (s : State), step { s with pending := c :: r } = exec c { s with pending := r }) ∧
  ∀ s : State, s.pending = [] → step s = .next (idle s) ∧
    (PortQuiet s → idle s = tick s ∧ SameRegs s (idle s) ∧ SameCores s (idle s) ∧ SameMemory s (idle s) ∧ (idle s).pending = [])

/-! ### The scalar core -/

/-- Each register-register scalar instruction commits with its result in rd and changes nothing else -/
def Obligations.RegisterArithmeticResults : Prop :=
  ∀ (h : Hart) (rd rs1 rs2 : GReg) (s : State), canIssue s h = true →
    let a := greg s h rs1
    let b := greg s h rs2
    let gives := fun (i : Instr) (v : Word) => ∃ t, exec i s = .next t ∧ CommitsReg s t h rd v ((thr s h).pc + 4)
    gives (.add h rd rs1 rs2) (a + b) ∧ gives (.sub h rd rs1 rs2) (a - b) ∧ gives (.and h rd rs1 rs2) (a &&& b) ∧
    gives (.or h rd rs1 rs2) (a ||| b) ∧ gives (.xor h rd rs1 rs2) (a ^^^ b) ∧
    gives (.sll h rd rs1 rs2) (a <<< (b.setWidth 5).toNat) ∧ gives (.srl h rd rs1 rs2) (a >>> (b.setWidth 5).toNat) ∧
    gives (.sra h rd rs1 rs2) (a.sshiftRight (b.setWidth 5).toNat) ∧
    gives (.slt h rd rs1 rs2) (if a.slt b then 1 else 0) ∧ gives (.sltu h rd rs1 rs2) (if a.ult b then 1 else 0) ∧
    gives (.min h rd rs1 rs2) (if a.sle b then a else b) ∧ gives (.max h rd rs1 rs2) (if a.sle b then b else a) ∧
    gives (.minu h rd rs1 rs2) (if a.ule b then a else b) ∧ gives (.maxu h rd rs1 rs2) (if a.ule b then b else a) ∧
    gives (.mul h rd rs1 rs2) (a * b) ∧
    gives (.mulh h rd rs1 rs2) ((a.signExtend 64 * b.signExtend 64).extractLsb' 32 32) ∧
    gives (.mulhu h rd rs1 rs2) ((a.setWidth 64 * b.setWidth 64).extractLsb' 32 32) ∧
    gives (.clz h rd rs1) (BitVec.ofNat 32 (((List.range 32).takeWhile fun i => !a.getMsbD i).length)) ∧
    gives (.popc h rd rs1) (BitVec.ofNat 32 ((List.range 32).countP fun i => a.getLsbD i))

/-- Each immediate scalar instruction commits with its result in rd and changes nothing else -/
def Obligations.ImmediateArithmeticResults : Prop :=
  ∀ (h : Hart) (rd rs1 : GReg) (imm : BitVec 14) (sh : BitVec 5) (up : BitVec 22) (s : State), canIssue s h = true →
    let a := greg s h rs1
    let gives := fun (i : Instr) (v : Word) => ∃ t, exec i s = .next t ∧ CommitsReg s t h rd v ((thr s h).pc + 4)
    gives (.addi h rd rs1 imm) (a + imm.signExtend 32) ∧
    gives (.slti h rd rs1 imm) (if a.slt (imm.signExtend 32) then 1 else 0) ∧
    gives (.sltiu h rd rs1 imm) (if a.ult (imm.signExtend 32) then 1 else 0) ∧
    gives (.andi h rd rs1 imm) (a &&& imm.setWidth 32) ∧ gives (.ori h rd rs1 imm) (a ||| imm.setWidth 32) ∧
    gives (.xori h rd rs1 imm) (a ^^^ imm.setWidth 32) ∧ gives (.slli h rd rs1 sh) (a <<< sh.toNat) ∧
    gives (.sri h rd rs1 true sh) (a.sshiftRight sh.toNat) ∧ gives (.sri h rd rs1 false sh) (a >>> sh.toNat) ∧
    gives (.lui h rd up) (up ++ (0 : BitVec 10)) ∧ gives (.auipc h rd up) ((thr s h).pc + (up ++ (0 : BitVec 10)))

/-- Branches, jumps and calls commit at the address their condition and displacement give -/
def Obligations.BranchesAndJumpsGoOn : Prop :=
  ∀ (h : Hart) (ht : Bool) (rs1 rs2 : GReg) (d : BitVec 13) (d22 : BitVec 22) (d25 : BitVec 25) (s : State),
    canIssue s h = true →
    let a := greg s h rs1
    let b := greg s h rs2
    let pc := (thr s h).pc
    let br := fun (i : Instr) (c : Bool) =>
      ∃ t, exec i s = .next t ∧ CommitsReg s t h 0 0 (if c then pc + 4 * d.signExtend 32 else pc + 4)
    br (.beq h ht rs1 rs2 d) (a == b) ∧ br (.bne h ht rs1 rs2 d) (a != b) ∧ br (.blt h ht rs1 rs2 d) (a.slt b) ∧
    br (.bge h ht rs1 rs2 d) (b.sle a) ∧ br (.bltu h ht rs1 rs2 d) (a.ult b) ∧ br (.bgeu h ht rs1 rs2 d) (b.ule a) ∧
    (∃ t, exec (.jmp h d25) s = .next t ∧ CommitsReg s t h 0 0 (pc + 4 * d25.signExtend 32)) ∧
    (∃ t, exec (.call h d25) s = .next t ∧ CommitsReg s t h 15 (pc + 4) (pc + 4 * d25.signExtend 32)) ∧
    (a.toNat % 4 = 0 → ∃ t, exec (.jr h rs1) s = .next t ∧ CommitsReg s t h 0 0 a) ∧
    (a.toNat % 4 = 0 → ∃ t, exec (.callr h rs1) s = .next t ∧ CommitsReg s t h 15 (pc + 4) a) ∧
    (rs1 ≠ 0 → ∃ t, exec (.dbnz h rs1 d22) s = .next t ∧
      CommitsReg s t h rs1 (a - 1) (if a = 1 then pc + 4 else pc + 4 * d22.signExtend 32))

/-- CALLW and CALLWR enter a fresh window with the return address in w15, RETW leaves it, and their traps -/
def Obligations.WindowCallsAndReturns : Prop :=
  ∀ (h : Hart) (d25 : BitVec 25) (rs1 : GReg) (s : State), canIssue s h = true →
    let u := thr s h
    let pc := u.pc
    let called := fun (i : Instr) (tgt : Word) => ∃ t, exec i s = .next t ∧ OneCommit s t h ∧
      (thr t h).pc = tgt ∧ (thr t h).cwp = (u.cwp + 1) % 8 ∧ (thr t h).resident = u.resident + 1 ∧
      (thr t h).winReg (u.cwp + 1) 15 = pc + 4 ∧ (thr t h).g = u.g ∧ (thr t h).acc = u.acc ∧ (thr t h).v = u.v ∧
      (∀ k j, j < 16 → k % 8 ≠ (u.cwp + 1) % 8 ∨ j ≠ 15 → (thr t h).winReg k j = u.winReg k j) ∧
      ∀ n, n ≠ 0x400 → (thr t h).getCsr n = u.getCsr n
    (u.resident < 8 → called (.callw h d25) (pc + 4 * d25.signExtend 32)) ∧
    (u.resident < 8 → (greg s h rs1).toNat % 4 = 0 → called (.callwr h rs1) (greg s h rs1)) ∧
    (u.resident = 8 → u.level ≠ 3 → ∃ t, exec (.callw h d25) s = .next t ∧
      TrapTaken s t h (if u.level = 0 then trapWinOver else trapDouble 0) ∧ t.mem = s.mem) ∧
    (2 ≤ u.resident → u.resident ≤ 8 → (u.winReg u.cwp 15).toNat % 4 = 0 → ∃ t, exec (.retw h) s = .next t ∧ OneCommit s t h ∧
      (thr t h).pc = u.winReg u.cwp 15 ∧ (thr t h).cwp = (u.cwp + 7) % 8 ∧ (thr t h).resident = u.resident - 1 ∧
      (thr t h).win = u.win ∧ (thr t h).g = u.g ∧ (thr t h).acc = u.acc ∧ (thr t h).v = u.v ∧
      ∀ n, n ≠ 0x400 → (thr t h).getCsr n = u.getCsr n) ∧
    (u.resident = 1 → (u.winReg u.cwp 15).toNat % 4 = 0 → u.level ≠ 3 → ∃ t, exec (.retw h) s = .next t ∧
      TrapTaken s t h (if u.level = 0 then trapWinUnder else trapDouble 1) ∧ t.mem = s.mem) ∧
    ((u.winReg u.cwp 15).toNat % 4 ≠ 0 → u.level ≠ 3 → ∃ t, exec (.retw h) s = .next t ∧
      TrapTaken s t h (trapMisaligned (u.winReg u.cwp 15)) ∧ t.mem = s.mem)

/-- WSPILL stores the oldest resident window in local memory and WFILL brings one back -/
def Obligations.WindowSpillAndFill : Prop :=
  ∀ (h : Hart) (rs1 : GReg) (s : State), canIssue s h = true → MemoryCanonical s →
    let u := thr s h
    let a := greg s h rs1
    let base := localBase h.core + a.toNat
    let usable := a.toNat % 64 = 0 ∧ a.toNat + 64 ≤ localSize h.core ∧ viewTrap s h a 64 = none
    (u.level ≠ 0 → usable → 2 ≤ u.resident → u.resident ≤ 8 → outboxOff s h ≠ a.toNat →
      ∃ t, exec (.wspill h rs1) s = .next t ∧ (thr t h).pc = u.pc + 4 ∧ (thr t h).cwp = u.cwp ∧
        (thr t h).resident = u.resident - 1 ∧ (thr t h).win = u.win ∧ (thr t h).g = u.g ∧ SameMemoryBut s t base 64 ∧
        ∀ j k, j < 16 → k < 4 →
          byteAt t (base + 4 * j + k) = (u.winReg ((u.cwp + 8 - u.resident + 1) % 8) j).extractLsb' (8 * k) 8) ∧
    (u.level ≠ 0 → usable → 1 ≤ u.resident → u.resident ≤ 7 → s.latent = [] → isPoisoned s base 64 = false →
      ∃ t, exec (.wfill h rs1) s = .next t ∧ (thr t h).pc = u.pc + 4 ∧ (thr t h).cwp = u.cwp ∧
        (thr t h).resident = u.resident + 1 ∧ (thr t h).g = u.g ∧ SameMemory s t ∧
        (∀ j, j < 16 → (thr t h).winReg ((u.cwp + 8 - u.resident) % 8) j =
          byteAt s (base + 4 * j + 3) ++ byteAt s (base + 4 * j + 2) ++ byteAt s (base + 4 * j + 1) ++ byteAt s (base + 4 * j)) ∧
        ∀ k j, j < 16 → k % 8 ≠ (u.cwp + 8 - u.resident) % 8 → (thr t h).winReg k j = u.winReg k j) ∧
    (u.level = 0 → ∃ t, exec (.wspill h rs1) s = .next t ∧ TrapTaken s t h (trapIllegal (insnWord (.wspill h rs1))) ∧
      t.mem = s.mem) ∧
    (u.level = 0 → ∃ t, exec (.wfill h rs1) s = .next t ∧ TrapTaken s t h (trapIllegal (insnWord (.wfill h rs1))) ∧
      t.mem = s.mem)

/-- A load of the core's own local memory commits with the bytes it names, extended, and stores nothing -/
def Obligations.LocalLoadsRead : Prop :=
  ∀ (h : Hart) (rd rb : GReg) (v : Bool) (off : BitVec 13) (kind : BitVec 5) (s : State), canIssue s h = true →
    let va := greg s h rb + off.signExtend 32
    let base := localBase h.core + va.toNat
    let b := fun i => byteAt s (base + i)
    let gives := fun (i : Instr) (n : Nat) (w : Word) =>
      va.toNat % n = 0 → va.toNat + n ≤ localSize h.core → viewTrap s h va n = none → s.latent = [] →
      isPoisoned s base n = false → ∃ t, exec i s = .next t ∧ CommitsReg s t h rd w ((thr s h).pc + 4)
    gives (.ldB h rd rb v off) 1 ((b 0).signExtend 32) ∧ gives (.ldBu h rd rb v off) 1 ((b 0).setWidth 32) ∧
    gives (.ldH h rd rb v off) 2 ((b 1 ++ b 0).signExtend 32) ∧ gives (.ldHu h rd rb v off) 2 ((b 1 ++ b 0).setWidth 32) ∧
    gives (.ldW h rd rb v off) 4 (b 3 ++ b 2 ++ b 1 ++ b 0) ∧
    ∃ t, exec (.pfh h kind rb off) s = .next t ∧ SameMemory s t ∧ SameRegs s t ∧ (thr t h).pc = (thr s h).pc + 4 ∧
      ∀ r, greg t h r = greg s h r

/-- A store to the core's own local memory writes the low bytes of its register there and nothing else in memory -/
def Obligations.LocalStoresWrite : Prop :=
  ∀ (h : Hart) (rs rb : GReg) (off : BitVec 13) (s : State), canIssue s h = true → MemoryCanonical s →
    let va := greg s h rb + off.signExtend 32
    let base := localBase h.core + va.toNat
    let puts := fun (i : Instr) (n : Nat) =>
      va.toNat % n = 0 → va.toNat + n ≤ localSize h.core → viewTrap s h va n = none →
      (va.toNat + n ≤ outboxOff s h ∨ outboxOff s h + 64 ≤ va.toNat) →
      ∃ t, exec i s = .next t ∧ SameMemoryBut s t base n ∧
        (∀ k, k < n → byteAt t (base + k) = (greg s h rs).extractLsb' (8 * k) 8) ∧
        thr t h = afterCommit (thr s h) ((thr s h).pc + 4) ∧ (∀ j, j ≠ h → thr t j = thr s j)
    puts (.stB h rs rb off) 1 ∧ puts (.stH h rs rb off) 2 ∧ puts (.stW h rs rb off) 4

/-- A misaligned halfword or word access raises the misaligned trap, whatever its target, and has no other effect -/
def Obligations.MisalignedAccessTraps : Prop :=
  ∀ (h : Hart) (rd rb : GReg) (v : Bool) (off : BitVec 13) (s : State), canIssue s h = true → (thr s h).level ≠ 3 →
    let va := greg s h rb + off.signExtend 32
    let traps := fun (i : Instr) => ∃ t, exec i s = .next t ∧ TrapTaken s t h (trapMisaligned va) ∧ SameMemory s t ∧
      SameRegs s t ∧ ∀ j, j ≠ h → thr t j = thr s j
    (va.toNat % 2 ≠ 0 → traps (.ldH h rd rb v off) ∧ traps (.ldHu h rd rb v off) ∧ traps (.stH h rd rb off)) ∧
    (va.toNat % 4 ≠ 0 → traps (.ldW h rd rb v off) ∧ traps (.stW h rd rb off))

/-- An atomic returns the old word in rd and stores its result in the same word of local memory -/
def Obligations.AtomicsReadAndWrite : Prop :=
  ∀ (h : Hart) (rd rs1 rs2 : GReg) (s : State), canIssue s h = true → MemoryCanonical s →
    let a := greg s h rs1
    let b := greg s h rs2
    let base := localBase h.core + a.toNat
    let old : Word := byteAt s (base + 3) ++ byteAt s (base + 2) ++ byteAt s (base + 1) ++ byteAt s base
    let gives := fun (i : Instr) (w : Word) =>
      (a.toNat % 4 = 0 → a.toNat + 4 ≤ localSize h.core → viewTrap s h a 4 = none → s.latent = [] →
        isPoisoned s base 4 = false → (a.toNat + 4 ≤ outboxOff s h ∨ outboxOff s h + 64 ≤ a.toNat) →
        ∃ t, exec i s = .next t ∧ SameMemoryBut s t base 4 ∧
          (∀ k, k < 4 → byteAt t (base + k) = w.extractLsb' (8 * k) 8) ∧
          thr t h = afterCommit ((thr s h).wr rd old) ((thr s h).pc + 4)) ∧
      (localSize h.core < a.toNat + 4 → (thr s h).level ≠ 3 →
        ∃ t, exec i s = .next t ∧ TrapTaken s t h (trapOperand (insnWord i)) ∧ SameMemory s t)
    gives (.amoswapW h rd rs1 rs2) b ∧ gives (.amoaddW h rd rs1 rs2) (old + b) ∧ gives (.amoandW h rd rs1 rs2) (old &&& b) ∧
    gives (.amoorW h rd rs1 rs2) (old ||| b) ∧ gives (.amocasW h rd rs1 rs2) (if old = greg s h rd then b else old)

/-- ADDS and SUBS write the sum or difference clamped to the format and set SATF.ADD exactly where it clamps -/
def Obligations.SaturatingAddsClampAndFlag : Prop :=
  ∀ (h : Hart) (rd rs1 rs2 : GReg) (s : State), canIssue s h = true →
    let a := greg s h rs1
    let b := greg s h rs2
    let gives := fun (i : Instr) (w : Nat) (x : Int) => ∃ t, exec i s = .next t ∧ OneCommit s t h ∧
      (thr t h).pc = (thr s h).pc + 4 ∧
      greg t h rd = (if rd = 0 then 0 else BitVec.ofInt 32 (max (-2 ^ (w - 1)) (min (2 ^ (w - 1) - 1) x))) ∧
      (∀ r, r ≠ rd → greg t h r = greg s h r) ∧
      (thr t h).getCsr 0x001 = (thr s h).getCsr 0x001 ||| (if x < -2 ^ (w - 1) ∨ 2 ^ (w - 1) ≤ x then 1 else 0) ∧
      (∀ n, n ≠ 0x001 → (thr t h).getCsr n = (thr s h).getCsr n) ∧
      (thr t h).acc = (thr s h).acc ∧ (thr t h).v = (thr s h).v ∧ (thr t h).mode = (thr s h).mode
    gives (.addsH h rd rs1 rs2) 16 ((a.setWidth 16).toInt + (b.setWidth 16).toInt) ∧
    gives (.subsH h rd rs1 rs2) 16 ((a.setWidth 16).toInt - (b.setWidth 16).toInt) ∧
    gives (.addsB h rd rs1 rs2) 8 ((a.setWidth 8).toInt + (b.setWidth 8).toInt) ∧
    gives (.subsB h rd rs1 rs2) 8 ((a.setWidth 8).toInt - (b.setWidth 8).toInt) ∧
    gives (.addsW h rd rs1 rs2) 32 (a.toInt + b.toInt) ∧ gives (.subsW h rd rs1 rs2) 32 (a.toInt - b.toInt)

/-- MAC and MSU add the exact product into the 40-bit accumulator with saturation and SATF.ACC; the moves read and write it -/
def Obligations.AccumulatorProductsSaturate : Prop :=
  ∀ (h : Hart) (rd rs1 rs2 : GReg) (s : State), canIssue s h = true →
    let a := greg s h rs1
    let b := greg s h rs2
    let old := (thr s h).acc
    let keeps := fun (t : State) => OneCommit s t h ∧ (thr t h).pc = (thr s h).pc + 4 ∧ (∀ r, greg t h r = greg s h r) ∧
      (∀ n, n ≠ 0x001 → (thr t h).getCsr n = (thr s h).getCsr n) ∧ (thr t h).v = (thr s h).v
    let adds := fun (i : Instr) (p : Int) => ∃ t, exec i s = .next t ∧ keeps t ∧
      (thr t h).acc = BitVec.ofInt 40 (if 2 ^ 39 - 1 < old.toInt + p then 2 ^ 39 - 1
        else if old.toInt + p < -2 ^ 39 then -2 ^ 39 else old.toInt + p) ∧
      (thr t h).getCsr 0x001 = (thr s h).getCsr 0x001 |||
        (if 2 ^ 39 - 1 < old.toInt + p ∨ old.toInt + p < -2 ^ 39 then 2 else 0)
    let q15 := (a.setWidth 16).toInt * (b.setWidth 16).toInt
    let q7 := (a.setWidth 8).toInt * (b.setWidth 8).toInt * 2 ^ 16
    adds (.macH h rs1 rs2) q15 ∧ adds (.macB h rs1 rs2) q7 ∧ adds (.msuH h rs1 rs2) (-q15) ∧ adds (.msuB h rs1 rs2) (-q7) ∧
    (∃ t, exec (.aclr h) s = .next t ∧ keeps t ∧ (thr t h).acc = 0 ∧ (thr t h).getCsr 0x001 = (thr s h).getCsr 0x001) ∧
    (∃ t, exec (.amovw h rs1 rs2) s = .next t ∧ keeps t ∧ (thr t h).acc = (b.setWidth 8) ++ a ∧
      (thr t h).getCsr 0x001 = (thr s h).getCsr 0x001) ∧
    (∃ t, exec (.amovlo h rd) s = .next t ∧ CommitsReg s t h rd (old.setWidth 32) ((thr s h).pc + 4)) ∧
    (∃ t, exec (.amovhi h rd) s = .next t ∧ CommitsReg s t h rd ((old.extractLsb' 32 8).signExtend 32) ((thr s h).pc + 4)) ∧
    (∃ t, exec (.cvtBh h rd rs1) s = .next t ∧
      CommitsReg s t h rd ((a.setWidth 8 ++ (0 : BitVec 8)).signExtend 32) ((thr s h).pc + 4))

/-- Narrowing rounds as RMODE says, saturates after rounding, and draws once under STOCH and never otherwise -/
def Obligations.NarrowingRoundsThenSaturates : Prop :=
  (∀ (v : Int) (d r : Nat), 1 ≤ d →
    roundShift v d 0 r = v / 2 ^ d ∧ roundShift v d 1 r = (v + 2 ^ (d - 1)) / 2 ^ d ∧
    (2 * (roundShift v d 2 r * 2 ^ d - v) ≤ 2 ^ d ∧ -(2 ^ d : Int) ≤ 2 * (roundShift v d 2 r * 2 ^ d - v) ∧
      (2 * (roundShift v d 2 r * 2 ^ d - v) = 2 ^ d ∨ 2 * (roundShift v d 2 r * 2 ^ d - v) = -(2 ^ d : Int) →
        roundShift v d 2 r % 2 = 0)) ∧
    (r < 2 ^ 16 → roundShift v d 3 r = (v + ((r * 2 ^ d / 2 ^ 16 : Nat) : Int)) / 2 ^ d)) ∧
  ∀ (h : Hart) (rd rs1 rs2 : GReg) (sh : BitVec 4) (s : State), canIssue s h = true →
    let a := greg s h rs1
    let b := greg s h rs2
    let mode := bits (thrCsr s h 0x000) 1 0
    let seed := coreCsr s h.core 0x004
    let seed' := if mode = 3 then nextRandom seed else seed
    let gives := fun (i : Instr) (v : Int) (d w : Nat) => ∃ t, exec i s = .next t ∧ OnlyThread s t h ∧
      (thr t h).pc = (thr s h).pc + 4 ∧
      (let q := roundShift v d mode (seed'.toNat / 65536)
       greg t h rd = (if rd = 0 then 0 else BitVec.ofInt 32 (max (-2 ^ (w - 1)) (min (2 ^ (w - 1) - 1) q))) ∧
       (thr t h).getCsr 0x001 = (thr s h).getCsr 0x001 ||| (if q < -2 ^ (w - 1) ∨ 2 ^ (w - 1) ≤ q then 4 else 0)) ∧
      coreCsr t h.core 0x004 = seed' ∧ (∀ r, r ≠ rd → greg t h r = greg s h r) ∧ (thr t h).acc = (thr s h).acc ∧
      ∀ n, n ≠ 0x001 → (thr t h).getCsr n = (thr s h).getCsr n
    gives (.mulqH h rd rs1 rs2) ((a.setWidth 16).toInt * (b.setWidth 16).toInt) 15 16 ∧
    gives (.mulqB h rd rs1 rs2) ((a.setWidth 8).toInt * (b.setWidth 8).toInt) 7 8 ∧
    gives (.anarrowH h rd sh) (thr s h).acc.toInt (15 + sh.toNat) 16 ∧
    gives (.anarrowB h rd sh) (thr s h).acc.toInt (23 + sh.toNat) 8 ∧
    gives (.cvtHb h rd rs1) (a.setWidth 16).toInt 8 8

/-- A long instruction begins at 0 or resumes from PROG, and its steps move at most 64 bytes, one element or 16 or 32 sums -/
def Obligations.LongInstructionsBeginAndStep : Prop :=
  ∀ (h : Hart) (ra rb rc rn : GReg) (k : BitVec 3) (ty : ScanType) (s : State),
    let a := greg s h ra
    let b := greg s h rb
    let c := greg s h rc
    let n := greg s h rn
    let al := fun (x : Word) (m : Nat) => x.toNat % m = 0
    let begins := fun (i : Instr) (kind : Nat) (ok : Prop) =>
      canIssue s h = true → (thr s h).level ≠ 3 → bit (prog s h) 31 = false →
      (n.toNat < 2 ^ 24 → ok → ∃ t, exec i s = .next t ∧ SameMemory s t ∧
        (n ≠ 0 → (∃ w, (thr t h).wait = .long a b w n) ∧ (thr t h).cur = some i ∧ (thr t h).pc = (thr s h).pc ∧
          bits (prog t h) 25 24 = kind ∧ bits (prog t h) 23 0 = 0 ∧
          bit (prog t h) 26 = decide (kind = 1 ∧ b.toNat < a.toNat ∧ a.toNat < b.toNat + n.toNat)) ∧
        (n = 0 → (thr t h).wait = .none ∧ prog t h = 0 ∧ (thr t h).pc = (thr s h).pc + 4)) ∧
      (2 ^ 24 ≤ n.toNat → ∃ t, exec i s = .next t ∧ TrapTaken s t h (trapOperand (insnWord i)) ∧ SameMemory s t)
    begins (.memcpyv h ra rb rn) 1 True ∧
    begins (.gatherv h ra rb rc rn k) 2 (al b 4 ∧ al a (2 ^ k.toNat) ∧ al c (2 ^ k.toNat)) ∧
    begins (.scanv h ra rb rc rn ty) 3 (al a (if ty = .satQ15 then 2 else 4) ∧ al b (if ty = .satQ15 then 2 else 4)) ∧
    ∀ (x y w m : Word), (thr s h).wait = .long x y w m → (thr s h).cur = some (.memcpyv h ra rb rn) →
      coreRuns s h.core = true → threadNamed s h = true → takeableLine s h = none → stepReading s h = false →
      MemoryCanonical s → s.latent = [] → bits (prog s h) 23 0 = 0 → 0 < m.toNat → m.toNat ≤ 64 →
      laneUsed s h.core ≤ 16 →
      x.toNat + m.toNat ≤ localSize h.core → y.toNat + m.toNat ≤ localSize h.core →
      viewTrap s h x m.toNat = none → viewTrap s h y m.toNat = none →
      isPoisoned s (localBase h.core + y.toNat) m.toNat = false →
      (x.toNat + m.toNat ≤ outboxOff s h ∨ outboxOff s h + 64 ≤ x.toNat) →
      ∃ t, exec (.longStep h) s = .next t ∧ (thr t h).wait = .none ∧ (thr t h).pc = (thr s h).pc + 4 ∧
        prog t h = 0 ∧ SameMemoryBut s t (localBase h.core + x.toNat) m.toNat ∧
        (∀ i, i < m.toNat → byteAt t (localBase h.core + x.toNat + i) = byteAt s (localBase h.core + y.toNat + i)) ∧
        ∀ r, greg t h r = greg s h r

/-! ### Control registers, traps, worlds and waits -/

/-- CSRR, CSRW, CSRS and CSRC return the old value and write each field by its access code, or trap -/
def Obligations.CsrAccessesReadAndWrite : Prop :=
  ∀ (h : Hart) (rd rs1 : GReg) (n : BitVec 12) (s : State), canIssue s h = true →
    let x := greg s h rs1
    let reads := fun (i : Instr) (n : Nat) (P : State → Prop) => ∃ t, exec i s = .next t ∧ (thr t h).pc = (thr s h).pc + 4 ∧
      SameMemory s t ∧ SameRegs s t ∧ (∀ j, j ≠ h → thr t j = thr s j) ∧ P t ∧
      (n ≠ 0x400 → greg t h rd = (if rd = 0 then 0 else csrValue s h n) ∧ ∀ r, r ≠ rd → greg t h r = greg s h r)
    (csrListed n.toNat = true → csrAllowed (thr s h).mode n.toNat = true →
      reads (.csrr h rd n) n.toNat fun t => ∀ k, (thr t h).getCsr k = (thr s h).getCsr k) ∧
    (csrListed n.toNat = true → csrAllowed (thr s h).mode n.toNat = true → csrGuardedWrite s h n.toNat = false →
      reads (.csrw h rd rs1 n) n.toNat (fun _ => True) ∧ reads (.csrs h rd rs1 n) n.toNat (fun _ => True) ∧
      reads (.csrc h rd rs1 n) n.toNat (fun _ => True)) ∧
    reads (.csrw h rd rs1 0x003) 3 (fun t => csrValue t h 3 &&& 0x1FFFF = x &&& 0x1FFFF) ∧
    reads (.csrs h rd rs1 0x003) 3 (fun t => csrValue t h 3 = csrValue s h 3 ||| (x &&& 0x1FFFF)) ∧
    reads (.csrc h rd rs1 0x003) 3 (fun t => csrValue t h 3 = csrValue s h 3 &&& ~~~(x &&& 0x1FFFF)) ∧
    reads (.csrw h rd rs1 0x001) 1 (fun t => csrValue t h 1 = csrValue s h 1 &&& ~~~(x &&& 0x3F)) ∧
    reads (.csrs h rd rs1 0x001) 1 (fun t => csrValue t h 1 = csrValue s h 1 &&& ~~~(x &&& 0x3F)) ∧
    reads (.csrc h rd rs1 0x001) 1 (fun t => csrValue t h 1 = csrValue s h 1) ∧
    reads (.csrw h rd rs1 0x004) 4 (fun t => csrValue t h 4 = if x = 0 then 1 else x) ∧
    ((thr s h).mode.super = true → bits x 7 4 = 0 ∨ 8 < bits x 7 4 →
      reads (.csrw h rd rs1 0x400) 0x400 (fun t => (thr t h).resident = (thr s h).resident ∧ (thr t h).cwp = bits x 2 0)) ∧
    ((thr s h).level ≠ 3 → csrListed n.toNat = false →
      ∀ i ∈ [Instr.csrr h rd n, .csrw h rd rs1 n, .csrs h rd rs1 n, .csrc h rd rs1 n],
        ∃ t, exec i s = .next t ∧ TrapTaken s t h (trapIllegal (insnWord i)) ∧ SameMemory s t ∧ SameRegs s t) ∧
    ((thr s h).level ≠ 3 → csrListed n.toNat = true → csrAllowed (thr s h).mode n.toNat = false →
      ∀ i ∈ [Instr.csrr h rd n, .csrw h rd rs1 n, .csrs h rd rs1 n, .csrc h rd rs1 n],
        ∃ t, exec i s = .next t ∧ TrapTaken s t h (trapPrivilege (insnWord i)) ∧ SameMemory s t ∧ SameRegs s t)

/-- A CLKSEL write starts a relock that RELOCK_COMPLETE ends; ISET makes lines pending; weave table and storm counts -/
def Obligations.ClockStepsInterruptSettingAndTables : Prop :=
  (∀ (h : Hart) (v : Word) (s : State), canIssue s h = true → (thr s h).mode.super = true → coreGuarded s h.core = false →
    bits v 5 0 ≤ 32 → bits v 5 0 ≠ bits (coreCsr s h.core 0x404) 5 0 → bit (coreCsr s h.core 0x404) 8 = false →
    bit (coreCsr s h.core 0x404) 9 = false → isDrvCore h.core = false →
    ∃ t, exec (.clkselWrite h v) s = .next t ∧ bits (coreCsr t h.core 0x404) 5 0 = bits v 5 0 ∧
      (thr t h).pc = (thr s h).pc + 4 ∧ SameMemory s t ∧ SameRegs s t ∧
      (linksQuiet s h.core = true → bits v 5 0 ≠ (core s h.core).stepNow.toNat →
        bit (coreCsr t h.core 0x404) 9 = true ∧ (core t h.core).stepNow.toNat = bits v 5 0 ∧
        ∀ x, canIssue t ⟨h.core, x⟩ = false) ∧
      (linksQuiet s h.core = false → bit (coreCsr t h.core 0x404) 9 = false ∧ (core t h.core).clkWait = true ∧
        (core t h.core).stepNow = (core s h.core).stepNow)) ∧
  (∀ (h : Hart) (v : Word) (s : State), relockWrite s h = true → bits v 5 0 ≤ 32 →
    ∃ t, exec (.clkselWrite h v) s = .next t ∧ bits (coreCsr t h.core 0x404) 5 0 = bits v 5 0 ∧
      bit (coreCsr t h.core 0x404) 9 = true ∧ (core t h.core).stepNow = (core s h.core).stepNow ∧
      (thr t h).pc = (thr s h).pc + 4 ∧ SameMemory s t ∧ SameRegs s t) ∧
  (∀ (c : Nat) (s : State), coreExists s c = true → dieUp s c = true → bit (coreCsr s c 0x404) 9 = true →
    bits (coreCsr s c 0x404) 5 0 = (core s c).stepNow.toNat →
    ∃ t, exec (.relockComplete c) s = .next t ∧ bit (coreCsr t c 0x404) 9 = false ∧
      bits (coreCsr t c 0x404) 5 0 = bits (coreCsr s c 0x404) 5 0 ∧ SameCoresBut s t c ∧ SameMemory s t) ∧
  (∀ (h : Hart) (v : Word) (s : State), canIssue s h = true → (thr s h).mode = .gs →
    ∃ t, exec (.isetWrite h v) s = .next t ∧ (thr t h).pc = (thr s h).pc + 4 ∧ SameMemory s t ∧ SameRegs s t ∧
      (∀ l, l < 32 → bit v l = true → bit (coreCsr t h.core 0x804) l = true) ∧
      ∀ l, l < 32 → bit (coreCsr s h.core 0x804) l = true → bit (coreCsr t h.core 0x804) l = true) ∧
  (∀ (c : Nat) (s : State), coreExists s c = true → dieUp s c = true →
    (∃ t, exec (.weaveTableUpdate c) s = .next t ∧ (core t c).thslotNow = coreCsr s c 0x403 ∧
      (core t c).weaveNow = bit (coreCsr s c 0x801) 0 ∧ (core t c).threads = (core s c).threads ∧ SameCoresBut s t c) ∧
    ((core s c).stormAt ≠ stormNow s c → ∃ t, exec (.stormWindowEnd c) s = .next t ∧
      (∀ l, sget (core t c).stormCnt l 0 = 0) ∧ (core t c).stormAt = stormNow s c ∧
      (core t c).csr = (core s c).csr ∧ (core t c).threads = (core s c).threads ∧ SameCoresBut s t c))

/-- TRAP enters the supervisor of its world past itself, ERET undoes the entry, WGATE crosses where its gate is valid -/
def Obligations.TrapAndReturn : Prop :=
  ∀ (h : Hart) (imm : BitVec 12) (n : BitVec 4) (s : State), canIssue s h = true →
    let u := thr s h
    let l := u.level.toNat
    let est := u.getCsr (0x415 + 4 * (l - 1))
    let back : Mode := if bits est 1 0 = 0 then .pu else if bits est 1 0 = 1 then .ps else if bits est 1 0 = 2 then .gu else .gs
    let gate := coreCsr s h.core (0x810 + n.toNat)
    (u.level ≠ 3 → ∃ t, exec (.trap h imm) s = .next t ∧
      TrapTakenAt s t h ⟨0x0D, 0, imm.setWidth 32, 1⟩ (u.pc + 4) ∧ SameMemory s t ∧ SameRegs s t) ∧
    (u.level ≠ 0 → ∃ t, exec (.eret h) s = .next t ∧ (thr t h).pc = u.getCsr (0x414 + 4 * (l - 1)) ∧
      (thr t h).mode = back ∧ (thr t h).prio.toNat = bits est 5 2 ∧ (thr t h).level.toNat = l - 1 ∧
      (thr t h).g = u.g ∧ (thr t h).win = u.win ∧ (thr t h).v = u.v ∧ (thr t h).acc = u.acc ∧ (thr t h).csr = u.csr ∧
      (∀ j, j < 8 → sget (thr t h).shadow (8 * (l - 1) + j) 0 =
        if bit est 6 = true ∧ (back = .pu ∨ back = .ps) then 0 else sget u.shadow (8 * (l - 1) + j) 0) ∧
      SameMemory s t ∧ SameRegs s t) ∧
    (u.level = 0 → ∃ t, exec (.eret h) s = .next t ∧ TrapTaken s t h (trapIllegal (insnWord (.eret h)))) ∧
    (u.level = 0 → bit gate 0 = true → bit gate 1 = u.mode.guarded →
      ∃ t, exec (.wgate h n) s = .next t ∧ OneCommit s t h ∧
        thr t h = afterCommit { u with mode := Mode.ofCode ((u.mode.code + 2) % 4) } (gate &&& ~~~(3 : Word))) ∧
    (u.level = 0 → bit gate 0 = false ∨ bit gate 1 ≠ u.mode.guarded →
      ∃ t, exec (.wgate h n) s = .next t ∧ TrapTaken s t h ⟨0x0E, 0, n.setWidth 32, 0⟩) ∧
    (u.level ≠ 0 → u.level ≠ 3 → ∃ t, exec (.wgate h n) s = .next t ∧ TrapTaken s t h (trapIllegal (insnWord (.wgate h n))))

/-- HOLD opens a bounded window; WFE consumes flags or times out; TWAIT waits for the time base; a released thread starts -/
def Obligations.WaitsEndAsTheManualSays : Prop :=
  ∀ (h : Hart) (rd rs1 : GReg) (n : BitVec 12) (mask : BitVec 8) (idle : Bool) (s : State),
    let u := thr s h
    let mx := bits (coreCsr s h.core 0x402) 9 0
    let c := coreCycle s h.core
    (canIssue s h = true → 1 ≤ n.toNat → n.toNat ≤ 512 → u.hold = none → ∃ t, exec (.hold h n) s = .next t ∧
      CommitsAs s t h { u with hold := some ⟨c, c + Nat.min n.toNat mx, decide (mx < n.toNat)⟩ } (u.pc + 4)) ∧
    (∀ w, canIssue s h = true → 1 ≤ n.toNat → n.toNat ≤ 512 → u.hold = some w → ∃ t, exec (.hold h n) s = .next t ∧
      CommitsAs s t h { u with hold := some ⟨w.opened, Nat.min (c + n.toNat) (w.opened + mx), decide (mx < n.toNat)⟩ }
        (u.pc + 4)) ∧
    (∀ w, u.hold = some w → w.ends ≤ c → ∃ t, exec (.holdWindowEnd h) s = .next t ∧ (thr t h).hold = none ∧
      coreCsr t h.core 0x119 = coreCsr s h.core 0x119 + (if w.clipped then 1 else 0) ∧
      bit (coreCsr t h.core 0x402) (16 + h.tid.toNat) = (w.clipped || bit (coreCsr s h.core 0x402) (16 + h.tid.toNat)) ∧
      SameMemory s t ∧ SameRegs s t) ∧
    (canIssue s h = true → u.evf &&& mask ≠ 0 → ∃ t, exec (.wfe h rd rs1 mask idle) s = .next t ∧
      CommitsReg { s with cores := (modThr s h fun x => { x with evf := u.evf &&& ~~~mask }).cores } t h rd
        ((u.evf &&& mask).setWidth 32) (u.pc + 4)) ∧
    (canIssue s h = true → u.evf &&& mask = 0 → mask ≠ 0 ∨ idle = true → greg s h rs1 ≠ 0 →
      ∃ t, exec (.wfe h rd rs1 mask idle) s = .next t ∧ (thr t h).wait = .wfe rd mask idle (now s + (greg s h rs1).toNat) ∧
        (thr t h).pc = u.pc ∧ SameMemory s t) ∧
    (∀ dl, u.wait = .wfe rd mask idle dl → u.window = [] → (core s h.core).run = .running → dl ≤ now s →
      takeableLine s h = none →
      (idle = true → ∃ t, exec (.wfeTimeout h) s = .next t ∧ (thr t h).wait = .none ∧ (thr t h).pc = u.pc + 4 ∧
        greg t h rd = 0 ∧ ∀ r, r ≠ rd → greg t h r = greg s h r) ∧
      (idle = false → u.level ≠ 3 → ∃ t, exec (.wfeTimeout h) s = .next t ∧
        TrapTaken s t h (trapWait mask.toNat (waitSender s h mask)))) ∧
    (canIssue s h = true → ∃ t, exec (.twait h rs1) s = .next t ∧ (thr t h).timer = greg s h rs1 ∧
      (0 ≤ (BitVec.ofNat 32 (now s) - greg s h rs1).toInt → (thr t h).wait = .none ∧ (thr t h).pc = u.pc + 4) ∧
      ((BitVec.ofNat 32 (now s) - greg s h rs1).toInt < 0 → (thr t h).wait = .twait (greg s h rs1) ∧ (thr t h).pc = u.pc) ∧
      (∀ r, greg t h r = greg s h r) ∧ SameMemory s t) ∧
    (∀ cmp, u.wait = .twait cmp → (core s h.core).run = .running → 0 ≤ (BitVec.ofNat 32 (now s) - cmp).toInt →
      takeableLine s h = none →
      ∃ t, exec (.twaitDone h) s = .next t ∧ (thr t h).wait = .none ∧ (thr t h).pc = u.pc + 4 ∧
        ∀ r, greg t h r = greg s h r) ∧
    ((core s h.core).run ≠ .running → exec (.wfeTimeout h) s = .next s ∧ exec (.twaitDone h) s = .next s) ∧
    (u.wait = .start → ∃ t, exec (.threadStart h) s = .next t ∧ thr t h = { u with wait := .none } ∧
      ∀ j, j ≠ h → thr t j = thr s j)

/-- TREL by thread 0 in a supervisor mode starts an unreleased thread with the registers of its start block -/
def Obligations.ThreadReleaseStartsTheNamedThread : Prop :=
  ∀ (c : Nat) (rs1 : GReg) (s : State),
    let h : Hart := ⟨c, 0⟩
    let x := greg s h rs1
    let off := (x &&& ~~~(63 : Word)).toNat
    let tgt : Hart := ⟨c, x.setWidth 2⟩
    let word := fun i => localWord s c (off + 4 * i)
    (canIssue s h = true → (thr s h).mode = .ps → off + 64 ≤ localSize c → inGlmem s c off = false →
      inGlmem s c (off + 63) = false → s.latent = [] → isPoisoned s (localBase c + off) 64 = false →
      bits x 5 2 = 0 → tgt.tid ≠ 0 → (thr s tgt).status = .unreleased → (word 0).toNat % 4 = 0 → (word 1).toNat ≤ 1 →
      ∃ t, exec (.trel h rs1) s = .next t ∧ (thr t h).pc = (thr s h).pc + 4 ∧
        (thr t tgt).status = .started ∧ (thr t tgt).pc = word 0 ∧ (thr t tgt).level = 0 ∧
        (thr t tgt).mode = (if word 1 = 0 then .pu else .ps) ∧ (thr t tgt).wait = .start ∧ (thr t tgt).prio = 0 ∧
        (thr t tgt).cwp = 0 ∧ (thr t tgt).resident = 1 ∧ greg t tgt 15 = 0 ∧
        (∀ i, 1 ≤ i → i ≤ 14 → greg t tgt (BitVec.ofNat 5 i) = word (i + 1)) ∧ SameMemory s t) ∧
    ∀ k : BitVec 2, k ≠ 0 → canIssue s ⟨c, k⟩ = true → (thr s ⟨c, k⟩).level ≠ 3 →
      ∃ t, exec (.trel ⟨c, k⟩ rs1) s = .next t ∧ TrapTaken s t ⟨c, k⟩ (trapIllegal (insnWord (.trel ⟨c, k⟩ rs1)))

/-- The highest takeable line is entered at its vector in its world, with priority, mode and pc saved -/
def Obligations.InterruptEntrySavesAndVectors : Prop :=
  ∀ (h : Hart) (kept ran cycles l : Nat) (s : State), coreRuns s h.core = true → takeableLine s h = some l →
    (thr s h).wait = .none → (thr s h).window = [] →
    let u := thr s h
    let n := u.level.toNat
    let p := bits (coreCsr s h.core (0x820 + l)) 3 0
    let base := coreCsr s h.core (if 8 ≤ p then 0x800 else 0x401)
    ∃ t, exec (.interruptEntry h kept ran cycles) s = .next t ∧
      bit (coreCsr t h.core 0x804) l = false ∧ (thr t h).level.toNat = n + 1 ∧ (thr t h).prio.toNat = p ∧
      (thr t h).mode = (if 8 ≤ p then .gs else .ps) ∧
      (thr t h).pc = (base &&& ~~~(0xFFF : Word)) + BitVec.ofNat 32 (64 * (16 + l)) ∧
      (thr t h).getCsr (0x414 + 4 * n) = u.pc &&& ~~~(3 : Word) ∧
      bits ((thr t h).getCsr (0x415 + 4 * n)) 1 0 = u.mode.code ∧
      bits ((thr t h).getCsr (0x415 + 4 * n)) 5 2 = u.prio.toNat ∧
      bit ((thr t h).getCsr (0x415 + 4 * n)) 6 = decide (8 ≤ p) ∧
      (thr t h).getCsr (0x416 + 4 * n) = BitVec.ofNat 32 (0x40 + l) ∧
      (thr t h).getCsr (0x417 + 4 * n) = sget (core s h.core).lineEval l 0 ∧
      coreCsr t h.core 0x118 = coreCsr s h.core 0x118 + 1 ∧ (thr t h).latFrom = some (coreCycle s h.core, cycles) ∧
      (thr t h).g = u.g ∧ (thr t h).win = u.win ∧ (thr t h).shadow = u.shadow ∧ SameMemory s t ∧ SameRegs s t ∧
      ∀ j, j ≠ h → thr t j = thr s j

/-- A fetch brings the word at pc or its trap; IFLUSH empties the instruction cache; FENCE reports a failed store and arms -/
def Obligations.FetchFlushAndFence : Prop :=
  ∀ (h : Hart) (rd : GReg) (ll fv fin : Bool) (s : State),
    let u := thr s h
    let pc := u.pc
    let w := localWord s h.core pc.toNat
    let legal := (Sys2Proof.decode h w).isSome = true ∧ (isDrvCore h.core = true → bits w 31 27 < 24)
    (canIssue s h = true → u.fetched = none → (core s h.core).iflush = false → pc.toNat % 4 = 0 →
      pc.toNat + 4 ≤ localSize h.core → viewTrap s h pc 4 = none → (core s h.core).icache = [] → s.latent = [] →
      isPoisoned s ((localBase h.core + pc.toNat) / 64 * 64) 64 = false →
      (legal → ∃ t, exec (.instructionFetch h) s = .next t ∧ (thr t h).fetched = some w ∧ (thr t h).pc = pc ∧
        SameMemory s t ∧ (∀ r, greg t h r = greg s h r) ∧ ∀ j, j ≠ h → thr t j = thr s j) ∧
      (¬legal → u.level ≠ 3 → ∃ t, exec (.instructionFetch h) s = .next t ∧ TrapTaken s t h (trapIllegal w))) ∧
    (canIssue s h = true → ∃ t, exec (.iflush h) s = .next t ∧ (core t h.core).iflush = true ∧ (thr t h).pc = pc + 4 ∧
      SameMemory s t) ∧
    ((core s h.core).iflush = true → ∃ t, exec (.iflushDone h.core) s = .next t ∧ (core t h.core).iflush = false ∧
      (core t h.core).icache = [] ∧ SameMemory s t ∧ ∀ j, thr t j = thr s j) ∧
    (canIssue s h = true → fv = true → laneClear s h = true → ∃ t, exec (.fence h rd ll fv fin) s = .next t ∧
      (thr t h).pc = pc + 4 ∧ (thr t h).wait = .none ∧ (thr t h).pendFail = none ∧ (core t h.core).readBuf = [] ∧
      greg t h rd = (if rd = 0 then 0 else match u.pendFail with | some f => f.status.setWidth 32 | none => 0) ∧
      (∀ r, r ≠ rd → greg t h r = greg s h r) ∧ SameMemory s t) ∧
    (canIssue s h = true → fv = false → ll = true ∨ fin = true → ∃ t, exec (.fence h rd ll fv fin) s = .next t ∧
      (thr t h).pc = pc + 4 ∧ greg t h rd = 0 ∧ (thr t h).pendFail = u.pendFail ∧
      (∀ r, r ≠ rd → greg t h r = greg s h r) ∧
      (∀ l, l < 4 → bit (thr t h).finArmed l = (bit u.finArmed l || (fin && decide (l = u.level.toNat)))) ∧ SameMemory s t)

/-- Lane-port accesses are sent, answered, acknowledged, timed out, released and policed -/
def Obligations.LanePortAccessesEnd : Prop :=
  (∀ (h : Hart) (rd rb : GReg) (off : BitVec 13) (d : Nat) (s : State), canIssue s h = true →
    let va := greg s h rb + off.signExtend 32
    va.toNat % 4 = 0 → viewTrap s h va 4 = none → coreView s h va = .far d → laneUsed s h.core < 16 →
    (∃ t, exec (.ldW h rd rb true off) s = .next t ∧
      (thr t h).window = [⟨(thr s h).pc, rd, .load (core s h.core).laneNext⟩] ∧
      (∃ a, (core t h.core).lane = (core s h.core).lane ++ [a] ∧ a.kind = .load rd 4 true ∧ a.addr = d ∧ a.sent = true) ∧
      (thr t h).pc = (thr s h).pc + 4 ∧ coreCsr t h.core (issuedCsr h) = coreCsr s h.core (issuedCsr h) ∧ SameMemory s t) ∧
    (bit (thr s h).finArmed (thr s h).level.toNat = false →
      ∃ t, exec (.stW h rd rb off) s = .next t ∧ (thr t h).pc = (thr s h).pc + 4 ∧ SameMemory s t ∧
      ∃ a, (core t h.core).lane = (core s h.core).lane ++ [a] ∧ a.kind = .store (leBytes 4 (greg s h rd).toNat) ∧
        a.addr = d ∧ a.sent = true)) ∧
  ∀ (c id : Nat) (a : LaneAccess) (s : State), laneFind s c id = some a →
    let h := hartOf c a.tid
    (∀ rd n sg data line p, a.kind = .load rd n sg → a.result = some (.ok data line) → beatServed s c a.addr false = true →
      (core s c).run = .running → (thr s h).window = [⟨p, rd, .load id⟩] →
      ∃ t, exec (.farLoadAnswer c id) s = .next t ∧ laneFind t c id = none ∧ (thr t h).window = [] ∧
        (thr t h).pc = (thr s h).pc ∧ greg t h rd = (if rd = 0 then 0 else extendBytes data sg) ∧
        (∀ r, r ≠ rd → greg t h r = greg s h r) ∧
        coreCsr t c (issuedCsr h) = coreCsr s c (issuedCsr h) + 1 ∧ SameMemory s t) ∧
    (∀ bs data line, a.kind = .store bs → a.result = some (.ok data line) → (∀ rd, (thr s h).wait ≠ .fence rd) →
      beatServed s c a.addr false = true → ∃ t, exec (.farStoreAck c id) s = .next t ∧ laneFind t c id = none ∧ thr t h = thr s h ∧ SameMemory s t ∧
        SameRegs s t) ∧
    (beatServed s c a.addr false = false → exec (.farLoadAnswer c id) s = .next s ∧ exec (.farStoreAck c id) s = .next s) ∧
    (∀ bs, a.kind = .store bs → a.sent = true → a.issued + laneDeadline s c ≤ now s → (∀ rd, (thr s h).wait ≠ .fence rd) →
      (thr s h).pendFail = none → isDrvCore c = false → flag s (Reg.cmpLpFault c) 31 = false →
      ∃ t, exec (.laneAccessDeadline c id) s = .next t ∧ laneFind t c id = none ∧
        (thr t h).pendFail = some ⟨0x05, a.addr⟩ ∧ fld t (Reg.cmpLpFault c) 7 0 = 0x05 ∧
        flag t (Reg.cmpLpFault c) 31 = true ∧ bit (coreCsr t c 0x804) 30 = true ∧ SameMemory s t) ∧
    (∀ rd n sg p l, a.kind = .load rd n sg → a.sent = true → a.issued + laneDeadline s c ≤ now s → (thr s h).level ≠ 3 →
      (core s c).run = .running → (thr s h).window = ⟨p, rd, .load id⟩ :: l →
      ∃ t, exec (.laneAccessDeadline c id) s = .next t ∧ laneFind t c id = none ∧ (thr t h).window = [] ∧
        TrapTakenAt s t h (trapWait 0 (targetNode s c a.addr)) p ∧ SameMemory s t) ∧
    (∀ bs, a.kind = .store bs → a.finish = true → a.sent = false → a.covers = [] →
      (core s c).lane.find? (fun b => decide (b.tid = a.tid) && b.finish && !b.sent) = some a →
      ((thr s h).pendFail = none → a.covFail = none → ∃ t, exec (.finishWriteRelease h) s = .next t ∧
        (∃ b, laneFind t c id = some b ∧ b.sent = true ∧ b.issued = now s) ∧ thr t h = thr s h ∧ SameMemory s t) ∧
      (∀ f, (thr s h).pendFail = some f → (∀ rd, (thr s h).wait ≠ .fence rd) →
        ∃ t, exec (.finishWriteRelease h) s = .next t ∧ laneFind t c id = none ∧
        (thr t h).pendFail = none ∧ bit (coreCsr t c 0x804) 30 = true ∧ SameMemory s t)) ∧
    (∀ lane index, a.sent = true → a.result = none → isDrvCore c = false → lane < 122 → index < 64 →
      slotEntry s lane index % 16 ≠ (rectOf s c).getD 16 → flag s Reg.cmpLanePolice 31 = false →
      ∃ t, exec (.laneBeatArrival c id lane index) s = .next t ∧
        (∃ b, laneFind t c id = some b ∧ b.result = some (.fail 0x07)) ∧ flag t Reg.cmpLanePolice 31 = true ∧
        fld t Reg.cmpLanePolice 7 0 = lane ∧ fld t Reg.cmpLanePolice 13 8 = index ∧ SameMemory s t)

/-! ### Vectors, tiles, the matrix unit and convoys -/

/-- Each non-narrowing vector instruction writes vd element by element as its operation gives and changes nothing else -/
def Obligations.VectorOperationsWorkPerElement : Prop :=
  ∀ (h : Hart) (et : ElemType) (vd vs1 vs2 : VReg) (rd rs2 : GReg) (s : State), canIssue s h = true →
    let w := elemWidth et
    let a := vreg s h vs1
    let b := vreg s h vs2
    let m := vreg s h vd
    let n := (greg s h rs2).toNat
    let el := fun (v : Line) (i : Nat) => v.extractLsb' (i * w) w
    let gives := fun (i : Instr) (f : Nat → BitVec w) =>
      (isDrvCore h.core = false → ∃ t v, exec i s = .next t ∧ CommitsVec s t h vd v ∧ ∀ k, k < 512 / w → el v k = f k) ∧
      (isDrvCore h.core = true → (thr s h).level ≠ 3 →
        ∃ t, exec i s = .next t ∧ TrapTaken s t h (trapIllegal (insnWord i)))
    gives (.vadd h et vd vs1 vs2) (fun k => el a k + el b k) ∧ gives (.vsub h et vd vs1 vs2) (fun k => el a k - el b k) ∧
    gives (.vmul h et vd vs1 vs2) (fun k => el a k * el b k) ∧
    gives (.vmin h et vd vs1 vs2) (fun k => if (el a k).sle (el b k) then el a k else el b k) ∧
    gives (.vmax h et vd vs1 vs2) (fun k => if (el a k).sle (el b k) then el b k else el a k) ∧
    gives (.vcmpeq h et vd vs1 vs2) (fun k => if el a k = el b k then BitVec.allOnes w else 0) ∧
    gives (.vcmplt h et vd vs1 vs2) (fun k => if (el a k).slt (el b k) then BitVec.allOnes w else 0) ∧
    gives (.vand h et vd vs1 vs2) (fun k => el (a &&& b) k) ∧ gives (.vor h et vd vs1 vs2) (fun k => el (a ||| b) k) ∧
    gives (.vxor h et vd vs1 vs2) (fun k => el (a ^^^ b) k) ∧
    gives (.vsel h vd vs1 vs2) (fun k => el ((a &&& m) ||| (b &&& ~~~m)) k) ∧
    gives (.vsll h et vd vs1 rs2) (fun k => el a k <<< n) ∧ gives (.vsrl h et vd vs1 rs2) (fun k => el a k >>> n) ∧
    gives (.vsra h et vd vs1 rs2) (fun k => (el a k).sshiftRight n) ∧
    gives (.vbcast h et vd rs2) (fun _ => (greg s h rs2).setWidth w) ∧
    (et = .b16 → gives (.vcvtBh h vd vs1) (fun k => (a.extractLsb' (8 * k) 8 ++ (0 : BitVec 8)).setWidth w)) ∧
    (isDrvCore h.core = false → ∃ t, exec (.vext h et rd vs1 rs2) s = .next t ∧
      CommitsReg s t h rd ((el a (n % (512 / w))).signExtend 32) ((thr s h).pc + 4))

/-- VADDS, VSUBS, VMULQ and VCVT.HB clamp each element, set SATF.VEC and draw once per narrowed element under STOCH -/
def Obligations.VectorNarrowingSaturatesAndDraws : Prop :=
  ∀ (h : Hart) (et : ElemType) (vd vs1 vs2 : VReg) (s : State), canIssue s h = true → isDrvCore h.core = false →
    let a := vreg s h vs1
    let b := vreg s h vs2
    let el := fun (w : Nat) (v : Line) (i : Nat) => (v.extractLsb' (i * w) w).toInt
    let clamp := fun (w : Nat) (x : Int) => max (-2 ^ (w - 1)) (min (2 ^ (w - 1) - 1) x)
    let mode := bits (thrCsr s h 0x000) 1 0
    let seed := coreCsr s h.core 0x004
    let gives := fun (i : Instr) (w n draws : Nat) (f : Nat → Int) => ∃ t, exec i s = .next t ∧ OnlyThread s t h ∧
      (thr t h).pc = (thr s h).pc + 4 ∧ (∀ k, k < n → el w (vreg t h vd) k = clamp w (f k)) ∧
      (∀ r, r ≠ vd → vreg t h r = vreg s h r) ∧ (∀ r, greg t h r = greg s h r) ∧ (thr t h).acc = (thr s h).acc ∧
      (let sat := (List.range n).any fun k => decide (clamp w (f k) ≠ f k)
       (thr t h).getCsr 0x001 = (thr s h).getCsr 0x001 ||| (if sat then 8 else 0) ∧
       coreCsr t h.core 0x107 = coreCsr s h.core 0x107 + (if sat then 1 else 0)) ∧
      coreCsr t h.core 0x004 = nextRandom^[draws] seed
    let rnd := fun (v : Int) (d k : Nat) => roundShift v d mode (if mode = 3 then (nextRandom^[k + 1] seed).toNat / 65536 else 0)
    let w := elemWidth et
    gives (.vadds h et vd vs1 vs2) w (512 / w) 0 (fun k => el w a k + el w b k) ∧
    gives (.vsubs h et vd vs1 vs2) w (512 / w) 0 (fun k => el w a k - el w b k) ∧
    (et ≠ .b32 → gives (.vmulq h et vd vs1 vs2) w (512 / w) (if mode = 3 then 512 / w else 0)
      (fun k => rnd (el w a k * el w b k) (w - 1) k)) ∧
    (et = .b32 → (thr s h).level ≠ 3 → ∃ t, exec (.vmulq h et vd vs1 vs2) s = .next t ∧
      TrapTaken s t h (trapIllegal (insnWord (.vmulq h et vd vs1 vs2)))) ∧
    gives (.vcvtHb h vd vs1) 8 32 (if mode = 3 then 32 else 0) (fun k => rnd (el 16 a k) 8 k) ∧
    ∀ t, exec (.vcvtHb h vd vs1) s = .next t → (vreg t h vd).extractLsb' 256 256 = 0

/-- VLD reads and VST writes one 64-byte line of the core's own local memory; elsewhere they trap -/
def Obligations.VectorMemoryMovesOneLine : Prop :=
  ∀ (h : Hart) (vd : VReg) (rb : GReg) (off : BitVec 13) (s : State), canIssue s h = true → isDrvCore h.core = false →
    let va := greg s h rb + 64 * off.signExtend 32
    let base := localBase h.core + va.toNat
    let usable := va.toNat % 64 = 0 ∧ va.toNat + 64 ≤ localSize h.core ∧
      ((thr s h).mode.guarded = true ∨ inGlmem s h.core va.toNat = false)
    (usable → s.latent = [] → isPoisoned s base 64 = false → ∃ t v, exec (.vld h vd rb off) s = .next t ∧ CommitsVec s t h vd v ∧
      ∀ k, k < 64 → v.extractLsb' (8 * k) 8 = byteAt s (base + k)) ∧
    (usable → MemoryCanonical s → outboxOff s h ≠ va.toNat → ∃ t, exec (.vst h vd rb off) s = .next t ∧
      SameMemoryBut s t base 64 ∧ (∀ k, k < 64 → byteAt t (base + k) = (vreg s h vd).extractLsb' (8 * k) 8) ∧
      thr t h = afterCommit (thr s h) ((thr s h).pc + 4)) ∧
    ((thr s h).level ≠ 3 → ∀ i ∈ [Instr.vld h vd rb off, .vst h vd rb off],
      (va.toNat % 64 ≠ 0 → ∃ t, exec i s = .next t ∧ TrapTaken s t h (trapMisaligned va) ∧ SameMemory s t) ∧
      (va.toNat % 64 = 0 → localSize h.core ≤ va.toNat → ∃ t, exec i s = .next t ∧
        TrapTaken s t h (trapBus va 0x01) ∧ SameMemory s t))

/-- A tile or matrix instruction whose checks pass waits in its thread; a failed stencil check traps -/
def Obligations.TileInstructionsIssueOrTrap : Prop :=
  ∀ (h : Hart) (t ts : TReg) (a : AReg) (rs1 rs2 rd : GReg) (vd : VReg) (k : Option (BitVec 4)) (s : State),
    canIssue s h = true → isDrvCore h.core = false →
    let x := tile s h.core t
    let y := tile s h.core ts
    let r := (greg s h rs1).toNat
    let waited := match (thr s h).tileWait with
      | some e => BitVec.ofNat 32 (coreCycle s h.core - e.2)
      | none => 0
    let waits := fun (i : Instr) => tileFree s h i = true → ∃ u, exec i s = .next u ∧ OnlyThread s u h ∧
      thr u h = { thr s h with
        wait := .tile, cur := some i, tileWait := none, curAt := coreCycle s h.core, rowsDone := 0 } ∧
      coreCsr u h.core 0x105 = coreCsr s h.core 0x105 + waited
    let inside := fun (al n : Nat) => r % al = 0 ∧ r + n ≤ 0x60000 ∧
      ((thr s h).mode.guarded = true ∨ bits (coreCsr s h.core 0x802) 14 8 = 0)
    let products := x.etype ≠ 2 ∧ x.etype = y.etype ∧ x.bpr = y.bpr ∧ badRow x = none ∧ badRow y = none
    (shapeOk (greg s h rs1) = true → waits (.stencil h t rs1)) ∧ waits (.tzero h t) ∧ waits (.tmov h t ts) ∧
    waits (.texps h t rs1) ∧ waits (.trdsh h t rd) ∧ waits (.azero h a rs1) ∧
    (r % 32 < x.rows → x.bad (r % 32) = false → waits (.trv h t rs1 vd)) ∧ (r % 32 < x.rows → waits (.vtr h t rs1 vd)) ∧
    ((rowTraps s h t rs1 rs2).all (fun e => !e.1) = true → waits (.tld h t rs1 rs2) ∧ waits (.tst h t rs1 rs2)) ∧
    (inside 32 x.rows → waits (.texpld h t rs1) ∧ waits (.texpst h t rs1)) ∧
    (inside 64 8224 → waits (.ast h a rs1) ∧ waits (.ald h a rs1)) ∧
    (products → waits (.mma h a t ts) ∧ waits (.mms h a t ts)) ∧
    (x.etype ≠ 2 → x.cols ≤ 32 → waits (.mnarrow h t a k)) ∧
    (tileFree s h (.tzero h t) = false → ∃ u, exec (.tzero h t) s = .next u ∧ OnlyThread s u h ∧
      thr u h = { thr s h with tileWait := some (.tzero h t, readySince s h (.tzero h t)) }) ∧
    ((thr s h).level ≠ 3 → tileFree s h (.stencil h t rs1) = true → shapeOk (greg s h rs1) = false →
      ∃ u, exec (.stencil h t rs1) s = .next u ∧ TrapTaken s u h (trapStencil (BitVec.ofNat 32 (1 + 16 * t.toNat)))) ∧
    ((thr s h).level ≠ 3 → tileFree s h (.mma h a t ts) = true → x.etype ≠ y.etype →
      ∃ u, exec (.mma h a t ts) s = .next u ∧
        TrapTaken s u h (trapStencil (BitVec.ofNat 32 (2 + 16 * (if x.etype = 2 then t else ts).toNat))))

/-- The completion of a tile instruction writes its whole result and lets its thread go on; AST may be seen part-way -/
def Obligations.TileInstructionsCompleteInOneStep : Prop :=
  ∀ (h : Hart) (t ts : TReg) (a : AReg) (rs1 rd : GReg) (vd : VReg) (n : Nat) (s : State), (thr s h).wait = .tile →
    (thr s h).window = [] → (core s h.core).run = .running →
    let x := tile s h.core t
    let w := greg s h rs1
    let i := w.toNat % 32
    let ends := fun (c : Instr) (P : State → Prop) => (thr s h).cur = some c →
      ∃ u, exec (.tileInstructionComplete h n none) s = .next u ∧ (thr u h).wait = .none ∧ (thr u h).pc = (thr s h).pc + 4 ∧ P u
    let quiet := fun (u : State) => SameMemory s u ∧ SameRegs s u ∧ ∀ q, q ≠ t → tile u h.core q = tile s h.core q
    ends (.stencil h t rs1) (fun u => quiet u ∧ (tile u h.core t).rows = bits w 5 0 ∧ (tile u h.core t).bpr = bits w 12 6 ∧
      (tile u h.core t).etype.toNat = bits w 14 13 ∧
      ∀ k, (tile u h.core t).row k = 0 ∧ (tile u h.core t).exp k = 0 ∧ (tile u h.core t).bad k = false) ∧
    ends (.tzero h t) (fun u => quiet u ∧ (tile u h.core t).shape = x.shape ∧
      ∀ k, (tile u h.core t).row k = 0 ∧ (tile u h.core t).exp k = 0 ∧ (tile u h.core t).bad k = false) ∧
    ends (.tmov h t ts) (fun u => quiet u ∧ tile u h.core t = tile s h.core ts) ∧
    ends (.texps h t rs1) (fun u => quiet u ∧ (tile u h.core t).data = x.data ∧
      ∀ k, k < 32 → (tile u h.core t).exp k = w.setWidth 6) ∧
    ends (.trdsh h t rd) (fun u => SameMemory s u ∧ greg u h rd = (if rd = 0 then 0 else
      BitVec.ofNat 32 (x.rows + 64 * x.bpr + 8192 * x.etype.toNat)) ∧ ∀ r, r ≠ rd → greg u h r = greg s h r) ∧
    (x.bpr ≤ 64 → ends (.trv h t rs1 vd) (fun u => SameMemory s u ∧ (∀ r, r ≠ vd → vreg u h r = vreg s h r) ∧
      ∀ k, k < 64 → (vreg u h vd).extractLsb' (8 * k) 8 = if k < x.bpr then (x.row i).extractLsb' (8 * k) 8 else 0)) ∧
    (x.bpr ≤ 64 → ends (.vtr h t rs1 vd) (fun u => quiet u ∧ (tile u h.core t).bad i = false ∧
      (∀ k, k ≠ i → (tile u h.core t).row k = x.row k) ∧
      ∀ k, k < 64 → ((tile u h.core t).row i).extractLsb' (8 * k) 8 =
        if k < x.bpr then (vreg s h vd).extractLsb' (8 * k) 8 else (x.row i).extractLsb' (8 * k) 8)) ∧
    ends (.azero h a rs1) (fun u => SameMemory s u ∧ (∀ p q, (accTile u h.core a).get p q = 0) ∧
      (∀ p, p < 32 → (accTile u h.core a).exp p = w.setWidth 6) ∧ ∀ b, b ≠ a → accTile u h.core b = accTile s h.core b) ∧
    (MemoryCanonical s → ends (.texpst h t rs1) (fun u => SameMemoryBut s u (localBase h.core + w.toNat) x.rows ∧
      ∀ k, k < x.rows → byteAt u (localBase h.core + w.toNat + k) = (x.exp k).signExtend 8)) ∧
    (MemoryCanonical s → (thr s h).rowsDone = 0 → ends (.ast h a rs1) (fun u =>
      SameMemoryBut s u (localBase h.core + w.toNat) 8224 ∧
      ∀ p q b, p < 32 → q < 32 → b < 8 → byteAt u (localBase h.core + w.toNat + 256 * p + 8 * q + b) =
        (BitVec.ofInt 64 ((accTile s h.core a).get p q)).extractLsb' (8 * b) 8)) ∧
    (∀ k, MemoryCanonical s → (thr s h).rowsDone = 0 → (thr s h).cur = some (.ast h a rs1) → 0 < k → k ≤ 128 →
      ∃ u, exec (.tileInstructionComplete h n (some k)) s = .next u ∧ (thr u h).wait = .tile ∧ (thr u h).rowsDone = k ∧
        (thr u h).pc = (thr s h).pc ∧ SameMemoryBut s u (localBase h.core + w.toNat) (64 * k))

/-- MMA and MMS add or subtract each aligned dot product into its accumulator element with one saturation -/
def Obligations.MatrixProductsAccumulate : Prop :=
  ∀ (h : Hart) (a : AReg) (ta tb : TReg) (n : Nat) (sub : Bool) (s : State), (thr s h).wait = .tile →
    (thr s h).cur = some (if sub then .mms h a ta tb else .mma h a ta tb) →
    let x := tile s h.core ta
    let y := tile s h.core tb
    let c := accTile s h.core a
    let exact := fun i j => c.get i j + (if sub then -1 else 1) *
      align (dot x y i j) ((x.exp i).toInt + (y.exp j).toInt - (c.exp i).toInt)
    x.rows ≤ 32 → y.rows ≤ 32 → (thr s h).window = [] → (core s h.core).run = .running →
    ∃ t, exec (.tileInstructionComplete h n none) s = .next t ∧ (thr t h).wait = .none ∧ (thr t h).pc = (thr s h).pc + 4 ∧
      (∀ i j, i < x.rows → j < y.rows → (accTile t h.core a).get i j = max (-2 ^ 39) (min (2 ^ 39 - 1) (exact i j))) ∧
      (∀ i j, j < 32 → ¬(i < x.rows ∧ j < y.rows) → (accTile t h.core a).get i j = c.get i j) ∧
      (∀ i, (accTile t h.core a).exp i = c.exp i) ∧ (∀ b, b ≠ a → accTile t h.core b = accTile s h.core b) ∧
      (∀ q, tile t h.core q = tile s h.core q) ∧ (core t h.core).latch = some tb ∧
      (thr t h).getCsr 0x001 = (thr s h).getCsr 0x001 |||
        (if ∃ i < x.rows, ∃ j < y.rows, exact i j < -2 ^ 39 ∨ 2 ^ 39 ≤ exact i j then 0x10 else 0) ∧ SameMemory s t

/-- A convoy forms, locks, arms, launches, completes and dissolves as its registers record -/
def Obligations.ConvoyLifeCycle : Prop :=
  (∀ (o : Origin) (n : Nat) (v : Word) (s : State), n < 16 → reaches s o (Reg.cmpCvCfg n) = true →
    presence s (Reg.cmpCvCfg n) = .present → (guardedOrigin o = true ∨ worldDenies s (Reg.cmpCvCfg n) (putBit v 31 true) = false) →
    flag s (Reg.cmpCvCfg n) 31 = false → (convoy s n).launched = false → convoyState s n ≠ 3 →
    (let p := plainWrite s (Reg.cmpCvCfg n) (putBit v 31 false)
     formationStatus p n (reg p (Reg.cmpCvCfg n)) = none) →
    ∃ t, exec (.convoyEnable o n v) s = .next t ∧ flag t (Reg.cmpCvCfg n) 31 = true ∧ convoyState t n = 1 ∧ SameMemory s t) ∧
  (∀ (n : Nat) (s : State), convoyState s n = 1 → matrixIdle s n = true →
    (members s n).all (fun c => !bit (coreCsr s c 0x404) 9) = true →
    ∃ t, exec (.convoyLocked n) s = .next t ∧ convoyState t n = 2 ∧ SameMemory s t) ∧
  (∀ (h : Hart) (a : AReg) (ta tb : TReg) (rd : GReg) (n : Nat) (s : State), canIssue s h = true → isDrvCore h.core = false →
    (∃ t, exec (.cvquery h rd) s = .next t ∧ CommitsReg s t h rd (cvqueryValue s h.core) ((thr s h).pc + 4)) ∧
    (lockedConvoy s h.core = some n → armedHart s h.core = none →
      ∀ i ∈ [Instr.cvmma h a ta tb, .cvmms h a ta tb, .cvsync h], tileFree s h i = true →
        ∃ t, exec i s = .next t ∧ thr t h = { thr s h with wait := .convoy, cur := some i } ∧
          (convoy t n).firstArm = some ((convoy s n).firstArm.getD (now s)) ∧ SameMemory s t ∧ SameRegs s t)) ∧
  (∀ (n : Nat) (s : State), convoyState s n = 2 → (convoy s n).launched = false → matrixIdle s n = true → members s n ≠ [] →
    (armedMembers s n).length = (members s n).length → (∀ m ∈ armedMembers s n, m.fn = 10) →
    ∃ t, exec (.convoyLaunch n) s = .next t ∧ (convoy t n).launched = true ∧ flag t (Reg.cmpCvStat n) 16 = true ∧
      SameCores s t ∧ SameMemory s t) ∧
  (∀ (n : Nat) (s : State), (convoy s n).launched = true → (convoy s n).disabling = false →
    (∀ m ∈ armedMembers s n, m.fn = 10) → ((armedMembers s n).map Member.hart).Nodup →
    ∃ t, exec (.convoyOperationComplete n) s = .next t ∧ (convoy t n).launched = false ∧
      flag t (Reg.cmpCvStat n) 16 = false ∧ SameMemory s t ∧
      ∀ m ∈ armedMembers s n, (thr t m.hart).wait = .none ∧ (thr t m.hart).pc = (thr s m.hart).pc + 4) ∧
  (∀ (n c d : Nat) (s : State), (convoy s n).launched = false → (convoy s n).firstArm = some d →
    (members s n).find? (fun c => (armedHart s c).isNone) = some c → d + (reg s (Reg.cmpCvDl n)).toNat ≤ now s →
    (∀ h ∈ armedHarts s n, (thr s h).level ≠ 3) → (armedHarts s n).Nodup →
    ∃ t, exec (.convoyLaunchTimeout n) s = .next t ∧ (convoy t n).firstArm = none ∧ SameMemory s t ∧
      ∀ h ∈ armedHarts s n, TrapTaken s t h (trapWait 0 c)) ∧
  (∀ (o : Origin) (n : Nat) (s : State), n < 16 → reaches s o (Reg.cmpCvCfg n) = true → presence s (Reg.cmpCvCfg n) = .present →
    (guardedOrigin o = true ∨ worldDenies s (Reg.cmpCvCfg n) (putBit (reg s (Reg.cmpCvCfg n)) 31 false) = false) →
    flag s (Reg.cmpCvCfg n) 31 = true → (convoy s n).launched = false → armedHarts s n = [] →
    ∃ t, exec (.convoyDisable o n) s = .next t ∧ flag t (Reg.cmpCvCfg n) 31 = false ∧ convoyState t n = 3 ∧ SameMemory s t) ∧
  (∀ (n : Nat) (s : State), convoyState s n = 3 →
    ∃ t, exec (.convoyUnlocked n) s = .next t ∧ convoyState t n = 0 ∧ SameMemory s t)

/-! ### Waybills -/

/-- GO, CLEAR, LOAD and the end of a load put a waybill engine in the states its registers show -/
def Obligations.WaybillCommandsDriveTheEngine : Prop :=
  ∀ (o : Origin) (c : Nat) (s : State),
    let ctl := Reg.cmpWbCtl c
    let stat := Reg.cmpWbStat c
    let kept := reg s ctl &&& 0x3FF18
    let line := bits (reg s (Reg.cmpWbBase c)) 18 6
    let len := bits (reg s (Reg.cmpWbBase c)) 29 19
    let engine := fun (t : State) (l : List Nat) =>
      OnlyCoreRegs s t c l ∧ core t c = { core s c with wb := (core t c).wb } ∧ SameMemory s t
    (AllowedWrite s o ctl (kept ||| 1) → wbState s c = 0 → ∃ t, exec (.waybillGo o c) s = .next t ∧
      engine t [ctl, stat] ∧ wbState t c = 2 ∧ wbPc t c = fld s ctl 17 8 ∧ flag t stat 2 = false ∧
      (wbOf t c).store = (wbOf s c).store ∧ (wbOf t c).started = none) ∧
    (AllowedWrite s o ctl (kept ||| 2) → ∃ t, exec (.waybillClear o c) s = .next t ∧ SameMemory s t ∧
      SameRegsBut s t [ctl, stat, Reg.cmpWbFault c, Reg.cmpWbDrop c] ∧ wbState t c = 0 ∧
      reg t (Reg.cmpWbFault c) = 0x3FF00000 ∧ reg t (Reg.cmpWbDrop c) = 0 ∧
      ∀ d, d < 4 → (link t c d).landing = [] ∧ (link t c d).dropped = 0 ∧
        ∀ n, neighbour s c d = some n → (link t n (opposite d)).creditBack =
          (link s n (opposite d)).creditBack + (link s c d).landing.length + (link s c d).dropped) ∧
    (AllowedWrite s o ctl (kept ||| 4) → wbState s c = 0 → line + (len + 7) / 8 ≤ 6144 →
      (∀ l, line ≤ l → l < line + (len + 7) / 8 → wbGuarded s c = true ∨ inGlmem s c (64 * l) = false) →
      ∃ t, exec (.waybillLoad o c) s = .next t ∧ engine t [ctl, stat] ∧ wbState t c = 1 ∧ (wbOf t c).load = (line, len) ∧
        (wbOf t c).store = (wbOf s c).store) ∧
    (islandRuns s c = true → wbState s c = 1 → s.latent = [] →
      let base := localBase c + 64 * (wbOf s c).load.1
      let n := (wbOf s c).load.2
      (∀ k, k < (n + 7) / 8 → isPoisoned s (base + 64 * k) 64 = false) →
      ∃ t, exec (.waybillLoadComplete c) s = .next t ∧ engine t [stat] ∧ wbState t c = 0 ∧
        (∀ i, i < n → sget (wbOf t c).store i 0 = BitVec.ofNat 64 (leNat (readMem s (base + 8 * i) 8))) ∧
        ∀ i, n ≤ i → sget (wbOf t c).store i 0 = sget (wbOf s c).store i 0)

/-- END, WAITW, SIGNAL and LOOP do what their entry says, and a deadline that has passed faults the engine -/
def Obligations.WaybillEntriesWithoutTransfers : Prop :=
  ∀ (c : Nat) (s : State),
    let e := wbEntry s c
    let pc := wbPc s c
    let w := wbOf s c
    let stat := Reg.cmpWbStat c
    let starts := fun (op : Nat) => wbAt s c op = true ∧ w.started = none ∧ wbCheck s c e = none
    let line29 := fun (t : State) => bit (coreCsr t c 0x804) 29 = true
    (starts 0 → ∃ t, exec (.wbEnd c) s = .next t ∧ SameRegsBut s t [stat] ∧ SameMemory s t ∧ SameCoresBut s t c ∧
      wbState t c = 0 ∧ flag t stat 2 = true ∧ (flag s (Reg.cmpWbCtl c) 3 = true → line29 t) ∧
      (flag s (Reg.cmpWbCtl c) 3 = false → core t c = { core s c with wb := (core t c).wb })) ∧
    (s.latent = [] → isPoisoned s (waitwAddr s c) 4 = false →
      let word : Word := byteAt s (waitwAddr s c + 3) ++ byteAt s (waitwAddr s c + 2) ++ byteAt s (waitwAddr s c + 1) ++
        byteAt s (waitwAddr s c)
      (starts 4 → ∃ t, exec (.wbWaitw c) s = .next t ∧ OnlyCoreRegs s t c [] ∧
        core t c = { core s c with wb := { w with started := some (now s) } }) ∧
      (wbAt s c 4 = true → w.started ≠ none → pc < 1023 → ∃ t, exec (.wbWaitwMatch c) s = .next t ∧ SameMemory s t ∧
        SameRegsBut s t [stat] ∧ wbState t c = 2 ∧
        wbPc t c = if waitwHolds e word then pc + 1 else pc)) ∧
    (starts 5 → pc < 1023 →
      let h := hartOf c (BitVec.ofNat 2 (wbDir e))
      ∃ t, exec (.wbSignal c) s = .next t ∧ SameMemory s t ∧ SameRegsBut s t [stat] ∧ SameCoresBut s t c ∧
        wbState t c = 2 ∧ wbPc t c = pc + 1 ∧
        ((thr s h).wait = .none → thr t h = { thr s h with evf := (thr s h).evf ||| BitVec.ofNat 8 (2 ^ bits e 54 52) })) ∧
    (starts 6 →
      let left := if w.loopLeft.map Prod.fst = some pc then (w.loopLeft.map Prod.snd).getD 0 else wbBeats e - 1
      ∃ t, exec (.wbLoop c) s = .next t ∧ SameMemory s t ∧ SameRegsBut s t [stat] ∧ SameCoresBut s t c ∧
        (0 < left → wbPc t c = wbTarget e ∧ wbState t c = 2 ∧ (wbOf t c).loopLeft = some (pc, left - 1) ∧
          (wbOf t c).offset = w.offset + wbStride e) ∧
        (left = 0 → pc < 1023 → wbPc t c = pc + 1 ∧ wbState t c = 2 ∧ (wbOf t c).loopLeft = none ∧ (wbOf t c).offset = 0)) ∧
    (∀ t0, wbState s c = 2 → w.started = some t0 → t0 + (reg s (Reg.cmpWbDl c)).toNat ≤ now s →
      ∃ t, exec (.waybillDeadline c) s = .next t ∧ SameMemory s t ∧ SameRegsBut s t [stat, Reg.cmpWbFault c] ∧
        SameCoresBut s t c ∧ wbState t c = 3 ∧ fld t (Reg.cmpWbFault c) 7 0 = (if wbOp e = 4 then 0x05 else 0x0A) ∧
        fld t (Reg.cmpWbFault c) 17 8 = pc ∧ flag t (Reg.cmpWbFault c) 31 = true ∧ line29 t)

/-- SEND, RECV and FWD move beats for credits, and landings, credits and handshakes reach their ends -/
def Obligations.WaybillTransfersMoveBeats : Prop :=
  ∀ (c : Nat) (s : State),
    let e := wbEntry s c
    let w := wbOf s c
    let d := wbDir e
    let going := fun (op : Nat) => wbAt s c op = true ∧ w.started ≠ none ∧ w.blocked = false
    let next := fun (t : State) => wbPc t c = wbPc s c + 1 ∧ wbState t c = 2 ∧ (wbOf t c).started = none
    (∀ p, going 1 → neighbour s c d = some p →
      let n := min (wbBeats e - w.done) (link s c d).credits
      ∃ t, exec (.wbSend c) s = .next t ∧ SameMemory s t ∧ (wbOf t c).done = w.done + n ∧
        (link t c d).credits = (link s c d).credits - n ∧
        (link t p (opposite d)).inWire.length = (link s p (opposite d)).inWire.length + n ∧
        ((wbOf t c).awaitHs = true ↔ wbBeats e ≤ w.done + n)) ∧
    (∀ p b, going 2 → bit e 55 = false → wbBeats e = 1 → w.received = 0 → neighbour s c d = some p → MemoryCanonical s →
      (link s c d).landing = [b] → b.header = some (wbHeader e) → b.poison = false → wbPc s c < 1023 →
      let a := localBase c + 64 * (wbLineAt s c e 0).toNat
      ∃ t, exec (.wbRecv c) s = .next t ∧ next t ∧ SameMemoryBut s t a 64 ∧
        (∀ k, k < 64 → byteAt t (a + k) = b.payload.extractLsb' (8 * k) 8) ∧ (link t c d).landing = [] ∧
        (link t p (opposite d)).creditBack = (link s p (opposite d)).creditBack + 1 ∧
        (link t p (opposite d)).hsBack = (link s p (opposite d)).hsBack + 1) ∧
    (∀ p q, going 3 → d ≠ wbDir2 e → wbMismatch s c e = false →
      (link s c d).landing.all (fun b => !beatForeign e b) = true → neighbour s c d = some p → neighbour s c (wbDir2 e) = some q →
      let n := min (min (wbBeats e - w.received) (link s c (wbDir2 e)).credits) (link s c d).landing.length
      ∃ t, exec (.wbFwd c) s = .next t ∧ SameMemory s t ∧ (wbOf t c).received = w.received + n ∧
        (link t c d).landing = (link s c d).landing.drop n ∧
        (link t c (wbDir2 e)).credits = (link s c (wbDir2 e)).credits - n ∧
        (link t q (opposite (wbDir2 e))).inWire = (link s q (opposite (wbDir2 e))).inWire ++ (link s c d).landing.take n ∧
        (link t p (opposite d)).creditBack = (link s p (opposite d)).creditBack + n) ∧
    (∀ (x : BitVec 2) b r, (link s c x.toNat).inWire = b :: r → landingDiscards s c = false → wbState s c = 0 →
      (∀ k, (core s k).clkWait = false) →
      ∃ t, exec (.beatArrival c x) s = .next t ∧ OnlyCoreRegs s t c [] ∧
        link t c x.toNat = { link s c x.toNat with inWire := r, landing := (link s c x.toNat).landing ++ [b] } ∧
        ∀ y, y ≠ x.toNat → link t c y = link s c y) ∧
    (∀ x : BitVec 2, 0 < (link s c x.toNat).creditBack → (∀ k, (core s k).clkWait = false) → ∃ t, exec (.creditReturn c x) s = .next t ∧ OnlyCoreRegs s t c [] ∧
      (link t c x.toNat).credits = (link s c x.toNat).credits + 1 ∧
      (link t c x.toNat).creditBack = (link s c x.toNat).creditBack - 1 ∧ ∀ y, y ≠ x.toNat → link t c y = link s c y) ∧
    (∀ x : BitVec 2, c < s.pkg.nCores → 0 < (link s c x.toNat).hsBack → wbState s c = 2 → w.awaitHs = true → wbOp e = 1 →
      wbDir e = x.toNat → wbPc s c < 1023 → ∃ t, exec (.completionHandshake c x) s = .next t ∧ next t ∧ SameMemory s t ∧
        (link t c x.toNat).hsBack = (link s c x.toNat).hsBack - 1)

/-! ### Registers, lanes, courier and tenancy -/

/-- A register write changes each bit as its access code states; bad accesses are recorded; reads bring the register's value -/
def Obligations.RegisterAccessesObeyTheirCodes : Prop :=
  ∀ (o : Origin) (u c n off : Nat) (v : Word) (s : State),
    (∀ x r, x ∈ [Reg.hbmTherm u, Reg.hbmGearthr u, Reg.hbmBcFill u, Reg.hbmBcPreAddr u, Reg.cmpWbBase c, Reg.cmpWbDl c,
        Reg.cmpLpDl c, Reg.cmpCrDl c, Reg.cmpCvDl n] → u < 8 → c < 1024 → n < 16 →
      regRow x = some r → AllowedWrite s o x v → s.staged = [] → (r.lims.all fun l => limitOk l v) = true →
      ∃ t, exec (.registerWrite o x (.write32 v)) s = .next t ∧ OnlyRegs s t [x] ∧
        ∀ k, k < 32 → bit (reg t x) k =
          (((if bit r.rw k || (bit r.rwl k && !lockSet s r x) then bit v k else bit (reg s x) k) && !(bit v k && bit r.w1c k)) ||
            (bit v k && bit r.locks k))) ∧
    (off % 4 = 0 → off < 0x4000000 → presence s off = .present → guardedOrigin o = false → worldDenies s off v = true →
      exec (.registerWrite o off (.write32 v)) s = .next s) ∧
    (let recorded := fun (t : State) (kind : Nat) =>
       if flag s Reg.sraBadacc 31 then reg t Reg.sraBadacc = reg s Reg.sraBadacc ||| 0x40000000
       else fld t Reg.sraBadacc 25 0 = off ∧ fld t Reg.sraBadacc 27 26 = kind ∧ flag t Reg.sraBadacc 31 = true
     off < 0x4000000 → reaches s .host off = true → off % 4 = 0 → off ≠ Reg.cmpTimeLo →
     (∀ kind, (presence s off = .absent ∧ kind = 0) ∨ (presence s off = .reserved ∧ kind = 2) →
       (∃ t, exec (.registerWrite .host off (.write32 v)) s = .next t ∧ OnlyRegs s t [Reg.sraBadacc] ∧ recorded t kind) ∧
       ∃ t, exec (.registerWrite .host off .read32) s = .next t ∧ SameRegsBut s t [Reg.sraBadacc] ∧ recorded t kind ∧
         t.barData = 0 ∧ SameMemory s t) ∧
     (∀ w, ∃ t, exec (.registerWrite .host off (.badSize w)) s = .next t ∧ SameRegsBut s t [Reg.sraBadacc] ∧ recorded t 1 ∧
       t.barData = (if w then s.barData else 0) ∧ SameMemory s t) ∧
     (presence s off = .present → 0x1400000 ≤ off → off < 0x2000000 → off % 0x40 ≠ 0x20 →
       ∃ t, exec (.registerWrite .host off .read32) s = .next t ∧ t = { s with barData := reg s off })) ∧
    (hostReaches s = true → ∃ t, exec .cmpTimeLoRead s = .next t ∧ t.barData = BitVec.ofNat 32 (now s) ∧
      reg t Reg.cmpTimeHi = BitVec.ofNat 32 (now s / 2 ^ 32) ∧ SameRegsBut s t [Reg.cmpTimeHi] ∧ SameMemory s t ∧ SameCores s t) ∧
    (∀ op, (op = .debugGuarded → flag s Reg.cmpDbgLock 0 = false) → ∃ t, exec (.tapAccess op) s = .next t ∧
      t = { s with tapOut := t.tapOut, tapCount := s.tapCount + 1 }) ∧
    (flag s Reg.cmpDbgLock 0 = true → exec (.tapAccess .debugGuarded) s = .next s)

/-- Slot tables change entry by entry and take effect at frame boundaries; rectangles enable and disable -/
def Obligations.SlotTablesAndRectangles : Prop :=
  ∀ (o : Origin) (lane w n : Nat) (v : Word) (s : State),
    (lane < 122 → w < 16 → AllowedWrite s o (Reg.cmpLaneSlot lane w) v →
      let old := fun j => byteOf (reg s (Reg.cmpLaneSlot lane w)) j
      ∃ t, exec (.laneSlotWrite o lane w v) s = .next t ∧ OnlyRegs s t [Reg.cmpLaneSlot lane w] ∧
        ∀ j, j < 4 → byteOf (reg t (Reg.cmpLaneSlot lane w)) j =
          if guardedOrigin o = false ∧ (entryGuards s (old j) ∨ entryGuards s (byteOf v j) ∨
              entryGuards s (slotEntry s lane (4 * w + j))) then old j
          else if targetReserved lane (byteOf v j) then old j / 32 * 32 + byteOf v j % 32 else byteOf v j) ∧
    (AllowedWrite s o Reg.cmpLaneCommit 1 → ∃ t, exec (.laneCommit o) s = .next t ∧ OnlyRegs s t [Reg.cmpLaneCommit] ∧
      flag t Reg.cmpLaneCommit 1 = true ∧ flag t Reg.cmpLaneCommit 0 = true ∧ t.slotNow = s.slotNow) ∧
    (partUp s = true → ∃ t, exec .frameBoundary s = .next t ∧ SameMemory s t ∧ SameCores s t ∧ t.courier = s.courier ∧
      (flag s Reg.cmpLaneCommit 1 = false → t.slotNow = s.slotNow) ∧
      (flag s Reg.cmpLaneCommit 1 = true → firstOver s = none → flag t Reg.cmpLaneCommit 1 = false ∧
        ∀ l k, l < 122 → k < 64 → slotEntry t l k = byteOf (reg s (Reg.cmpLaneSlot l (k / 4))) (k % 4)) ∧
      (∀ r k, flag s Reg.cmpLaneCommit 1 = true → firstOver s = some (r, k) → t.slotNow = s.slotNow ∧
        fld t Reg.cmpLaneCommit 15 8 = 0x0B ∧ fld t Reg.cmpLaneCommit 19 16 = r ∧ fld t Reg.cmpLaneCommit 29 24 = k) ∧
      ∀ u, u < s.pkg.nUnits → fld t (Reg.hbmStat u) 4 3 = (memUnit s u).stepNext.toNat ∧
        fld t (Reg.hbmStat u) 6 5 = (memUnit s u).gearNext.toNat) ∧
    (let x := putBit v 31 true
     n < 16 → AllowedWrite s o (Reg.cmpTenRect n) x → rectOn s n = false →
     (¬(tenLocked s = true ∧ (rectGuarded s n = true ∨ bit v 12 = true)) → rectValid s n (v &&& 0x1FFF) = true →
       ∃ t, exec (.tenRectEnable o n v) s = .next t ∧ OnlyRegs s t [Reg.cmpTenRect n] ∧
         reg t (Reg.cmpTenRect n) = (v &&& 0x1FFF) ||| 0x80000000) ∧
     (tenLocked s = true → (rectGuarded s n = true ∨ bit v 12 = true) → exec (.tenRectEnable o n v) s = .next s)) ∧
    (let x := putBit (reg s (Reg.cmpTenRect n)) 31 false
     n < 16 → AllowedWrite s o (Reg.cmpTenRect n) x → rectOn s n = true → (tenLocked s = false ∨ rectGuarded s n = false) →
     (rectHasConvoy s n = false → ∃ t, exec (.tenRectDisable o n) s = .next t ∧ OnlyRegs s t [Reg.cmpTenRect n] ∧
       reg t (Reg.cmpTenRect n) = x) ∧
     (rectHasConvoy s n = true → ∃ t, exec (.tenRectDisable o n) s = .next t ∧ OnlyRegs s t [Reg.cmpTenStat] ∧
       (flag s Reg.cmpTenStat 31 = false → fld t Reg.cmpTenStat 7 0 = 0x0B ∧ fld t Reg.cmpTenStat 11 8 = n ∧
        flag t Reg.cmpTenStat 31 = true) ∧
      (flag s Reg.cmpTenStat 31 = true → reg t Reg.cmpTenStat = reg s Reg.cmpTenStat)))

/-- Outbox messages leave or report their failed check; events, interrupts, configuration accesses and alerts arrive -/
def Obligations.CourierMessagesReachTheirNodes : Prop :=
  ∀ (k : Nat) (h : Hart) (s : State), MemoryCanonical s → s.latent = [] →
    let word := fun (t : State) (i : Nat) => localWord t h.core (outboxOff s h + 4 * i)
    let line := localBase h.core + outboxOff s h
    let took := fun (kind : Nat) (m : Msg) => s.courier[k]? = some m ∧ m.kind.toNat = kind
    (∀ b, (thr s h).outbox = some b → b.phase = .go →
      let w := nth b.words 0 0
      let m : Msg := ⟨bits w 11 0, BitVec.ofNat 4 (bits w 15 12), b.mode.guarded, nodeOf h.core, nth b.words 1 0, nth b.words 2 0⟩
      (∀ st, outboxCheck s h b = some st → ∃ t, exec (.outboxGo h) s = .next t ∧ word t 5 = BitVec.ofNat 32 (st + 2 ^ 31) ∧
        (thr t h).outbox = none ∧ t.courier = s.courier ∧ SameMemoryBut s t (line + 20) 4 ∧ SameRegs s t) ∧
      (outboxCheck s h b = none → bits w 15 12 ≤ 1 → ∃ t, exec (.outboxGo h) s = .next t ∧ word t 5 = 0x80000000 ∧
        (thr t h).outbox = none ∧ t.courier = s.courier ++ [m] ∧ SameMemoryBut s t (line + 20) 4 ∧ SameRegs s t) ∧
      (outboxCheck s h b = none → 1 < bits w 15 12 →
        let tag := (core s (tagCore h.core)).outTag
        ∃ t, exec (.outboxGo h) s = .next t ∧ SameMemory s t ∧ SameRegs s t ∧
          (thr t h).outbox = some { b with phase := .waiting tag (now s) } ∧ (core t (tagCore h.core)).outTag = tag + 1 ∧
          t.courier = s.courier ++ [{ m with p1 := putBits m.p1 31 24 tag.toNat }])) ∧
    (∀ b tag t0, (thr s h).outbox = some b → b.phase = .waiting tag t0 → t0 + crDeadline s h.core ≤ now s →
      ∃ t, exec (.outboxDeadline h) s = .next t ∧ word t 5 = BitVec.ofNat 32 (5 + 256 * tag.toNat + 2 ^ 31) ∧
        (thr t h).outbox = none ∧ SameMemoryBut s t (line + 20) 4 ∧ SameRegs s t) ∧
    (∀ m, coreDown s m.dest = false →
      (let j := hartOf m.dest (BitVec.ofNat 2 (bits m.p1 1 0))
       took 0 m → coreRefuses s m = false → (thr s j).wait = .none → ∃ t, exec (.event k) s = .next t ∧
         thr t j = { thr s j with evf := (thr s j).evf ||| BitVec.ofNat 8 (2 ^ bits m.p1 4 2) } ∧
         t.courier = s.courier.eraseIdx k ∧ SameMemory s t ∧ SameRegs s t) ∧
      (took 0 m → coreRefuses s m = true → ∃ t, exec (.event k) s = .next t ∧ SameCores s t ∧
        reg t (Reg.cmpCrDrop m.dest) = satInc (reg s (Reg.cmpCrDrop m.dest))) ∧
      (took 1 m → coreRefuses s m = false → bits m.p1 4 0 < 27 → ∃ t, exec (.irq k) s = .next t ∧
        bit (coreCsr t m.dest 0x804) (bits m.p1 4 0) = true ∧ SameMemory s t ∧ SameRegs s t ∧
        t.courier = s.courier.eraseIdx k)) ∧
    (∀ m, nodeUp s m.dest = true →
      let reply := fun (data : Word) (st : Nat) => (⟨m.src, 4, nodeGuarded s m.dest, m.dest, data,
        BitVec.ofNat 32 (st + 256 * bits m.p1 31 24)⟩ : Msg)
      (took 2 m → cfgRefused s m ≠ 0 → ∃ t, exec (.cfgRd k) s = .next t ∧ SameRegs s t ∧ SameMemory s t ∧
        t.courier = s.courier.eraseIdx k ++ [reply 0 (cfgRefused s m)]) ∧
      (took 2 m → cfgRefused s m = 0 → m.dest < s.pkg.nCores → cfgOffset m % 0x40 ≠ 0x20 →
        ∃ t, exec (.cfgRd k) s = .next t ∧ SameRegs s t ∧ SameMemory s t ∧
          t.courier = s.courier.eraseIdx k ++ [reply (reg s (cfgOffset m)) 0]) ∧
      (took 3 m → cfgRefused s m = 0 → m.dest < s.pkg.nCores → cfgOffset m = Reg.cmpWbDl m.dest → s.staged = [] → m.p2 ≠ 0 →
        AllowedWrite s (.node m.src m.g) (cfgOffset m) m.p2 →
        ∃ t, exec (.cfgWr k) s = .next t ∧ SameRegsBut s t [cfgOffset m] ∧ reg t (cfgOffset m) = m.p2 ∧
          t.courier = s.courier.eraseIdx k ++ [reply 0 0])) ∧
    (∀ m b tag t0, took 4 m → h ∈ nodeHarts m.dest → (thr s h).outbox = some b →
      b.phase = .waiting tag t0 → bits m.p2 15 8 = tag.toNat → (∀ j, j ≠ h → waitsTag s tag.toNat j = false) →
      ∃ t, exec (.cfgRsp k) s = .next t ∧ (thr t h).outbox = none ∧ word t 4 = m.p1 ∧
        word t 5 = BitVec.ofNat 32 (bits m.p2 7 0 + 256 * tag.toNat + 2 ^ 31) ∧ SameMemoryBut s t (line + 16) 8 ∧
        t.courier = s.courier.eraseIdx k) ∧
    (∀ m, took 5 m → m.dest = 0x300 → partUp s = true → s.pkg.slumber = false →
      ∃ t, exec (.alert k) s = .next t ∧ t.courier = s.courier.eraseIdx k ∧ SameMemory s t ∧ SameCores s t ∧
        (alertsHeld s < 16 → reg t Reg.sraAlertOvf = reg s Reg.sraAlertOvf) ∧
        (16 ≤ alertsHeld s → reg t Reg.sraAlertOvf = satInc (reg s Reg.sraAlertOvf)) ∧
        (alertFinding s m ≠ none → t.alerts = s.alerts ∧ s.errq.length < t.errq.length) ∧
        (alertFinding s m = none → alertsHeld s < 16 → t.alerts = s.alerts ++ [(m, now s)] ∧ SameRegs s t) ∧
        (alertFinding s m = none → 16 ≤ alertsHeld s → t.alerts = s.alerts ∧ SameRegsBut s t [Reg.sraAlertOvf]))

/-! ### The near tier -/

/-- Samples select the next step and gear, CATTRIP alerts, masks commit later, and units, CXL ports and caches come up -/
def Obligations.TemperatureAndBringUp : Prop :=
  ∀ (o : Origin) (u c port gib : Nat) (v : Word) (s : State),
    let st := Reg.hbmStat u
    (unitRuns s u = true →
      (∀ x : BitVec 8,
        let t2 := fld s (Reg.hbmTherm u) 7 0
        let t4 := fld s (Reg.hbmTherm u) 15 8
        let hyst := fld s (Reg.hbmTherm u) 19 16
        let g3 := fld s (Reg.hbmGearthr u) 23 16
        let old := (memUnit s u).stepNext.toNat
        ∃ t, exec (.thermalSample u (some x)) s = .next t ∧ SameMemory s t ∧ SameCores s t ∧ SameRegsBut s t [st] ∧
          fld t st 23 16 = x.toNat ∧ flag t st 7 = false ∧ fld t st 6 3 = fld s st 6 3 ∧ (memUnit t u).missing = 0 ∧
          (t4 < x.toNat → old ≤ 2 → (memUnit t u).stepNext = 2#2) ∧
          (t2 < x.toNat → x.toNat ≤ t4 → old = 0 → (memUnit t u).stepNext = 1#2) ∧
          (x.toNat ≤ t4 → old = 2 → (memUnit t u).stepNext = if x.toNat + hyst ≤ t4 then 1#2 else 2#2) ∧
          (x.toNat ≤ t4 → x.toNat ≤ t2 → old = 1 → (memUnit t u).stepNext = if x.toNat + hyst ≤ t2 then 0#2 else 1#2) ∧
          (g3 < x.toNat ∨ flag s st 8 = true → (memUnit t u).gearNext = 3#2)) ∧
      ((memUnit s u).missing < 3 → ∃ t, exec (.thermalSample u none) s = .next t ∧ SameRegs s t ∧
        memUnit t u = { memUnit s u with missing := (memUnit s u).missing + 1 }) ∧
      (3 ≤ (memUnit s u).missing → ∃ t, exec (.thermalSample u none) s = .next t ∧ flag t st 7 = true ∧
        SameRegsBut s t [st] ∧ memUnit t u = { memUnit s u with missing := 4, stepNext := 2, gearNext := 3 }) ∧
      ∃ t, exec (.cattrip u) s = .next t ∧ flag t st 8 = true ∧ SameRegsBut s t [st] ∧
        memUnit t u = { memUnit s u with gearNext := 3 } ∧ t.courier = s.courier ++ [⟨0x300, 5, false, 0x310 + u, 0, 0⟩]) ∧
    (AllowedWrite s o (Reg.hbmMaskcommit u) 1 → ∃ t, exec (.maskCommit o u) s = .next t ∧
      OnlyRegs s t [Reg.hbmMaskcommit u] ∧ flag t (Reg.hbmMaskcommit u) 1 = true ∧
      flag t (Reg.hbmMaskcommit u) 0 = true) ∧
    (AllowedWrite s o Reg.cmpMemStart 1 → ∃ t, exec (.memStartGo o) s = .next t ∧ t.pkg = { s.pkg with memStart := true } ∧
      SameMemory s t ∧ SameCores s t ∧ SameRegsBut s t [Reg.cmpMemStart]) ∧
    (partUp s = true → s.pkg.memStart = false → s.pkg.resetAt + 1000000000 ≤ now s →
      ∃ t, exec .memStartTimeout s = .next t ∧ t = { s with pkg := { s.pkg with memStart := true } }) ∧
    (unitRuns s u = true → s.pkg.memStart = true → unitReady s u = false →
      ∃ t, exec (.unitTrained u) s = .next t ∧ unitReady t u = true ∧ SameRegsBut s t [st] ∧ (memUnit t u).trained = true ∧
        SameMemory s t) ∧
    (partUp s = true → s.pkg.slumber = false → port < 2 * s.pkg.nSerai → 0 < gib → gib ≤ 1024 →
      ∃ t, exec (.cxlEnumerated port gib) s = .next t ∧ OnlyRegs s t [Reg.cmpTierW0 port, Reg.cmpTierW2 (port + 1)] ∧
        fld t (Reg.cmpTierW0 port) 3 0 = 3 ∧ fld t (Reg.cmpTierW2 (port + 1)) 15 0 = gib) ∧
    (AllowedWrite s o (Reg.cmpIcCtl c) v → ∃ t, exec (.icCtlWrite o c v) s = .next t ∧ SameMemory s t ∧
      OnlyCoreRegs s t c [Reg.cmpIcCtl c] ∧ reg t (Reg.cmpIcCtl c) = v &&& 1 ∧
      core t c = (if bit v 0 then core s c else { core s c with icache := [] }))

/-- The buffer cache locks, preloads, prefetches and drains, its units serve accesses, and the scrubbers walk -/
def Obligations.BufferCachePreloadAndScrub : Prop :=
  ∀ (o : Origin) (u c id : Nat) (v : Word) (s : State),
    let cmd := Reg.hbmBcPreCmd u
    let ctl := Reg.hbmBcCtl u
    let i := (memUnit s u).preNext
    let l := fld s (Reg.hbmBcPreAddr u) 27 0 + i
    let w := nth (preWays s u) (i / 4096) 0
    let fits := preLines s u ≤ 4096 * (preWays s u).length ∧ fld s (Reg.hbmBcPreAddr u) 27 0 + preLines s u ≤ unitLines s ∧
      cacheOn s u = true ∧ flag s cmd 1 = false
    let placeable := wayOf s u l = none ∧ (flag s (Reg.hbmBcLock u) w = false ∨ wayAt s u (l % 4096) w = none) ∧ s.latent = []
    let sound := ∀ x, (memUnit s x).ways.all (fun e => !e.2.bad) = true
    (AllowedWrite s o (Reg.hbmBcLock u) v → sound → ∃ t, exec (.bcLockWrite o u v) s = .next t ∧ SameMemory s t ∧ SameCores s t ∧
      SameRegsBut s t [Reg.hbmBcLock u] ∧
      reg t (Reg.hbmBcLock u) = (if v &&& 0xFFFF = 0xFFFF then reg s (Reg.hbmBcLock u) else v &&& 0xFFFF)) ∧
    (AllowedWrite s o cmd 1 → ∃ t, exec (.preloadGo o u) s = .next t ∧ SameMemory s t ∧ SameRegsBut s t [cmd] ∧
      (fits → reg t cmd = (reg s cmd &&& 8) ||| 3 ∧ (memUnit t u).preNext = 0) ∧ (¬fits → fld t cmd 15 8 = 0x0B ∧ flag t cmd 1 = flag s cmd 1)) ∧
    (AllowedWrite s o cmd 8 → flag s cmd 1 = true → ∃ t, exec (.preloadStop o u) s = .next t ∧ OnlyRegs s t [cmd] ∧
      flag t cmd 1 = false ∧ flag t cmd 2 = true ∧ fld t cmd 15 8 = 0) ∧
    (preloadRuns s u = true → placeable → sound →
      (i + 1 < preLines s u → ∃ t, exec (.preloadLine u) s = .next t ∧ SameMemory s t ∧ SameRegs s t ∧
        (memUnit t u).preNext = i + 1 ∧ wayAt t u (l % 4096) w = some ⟨l, false, false⟩) ∧
      (preLines s u ≤ i + 1 → ∃ t, exec (.preloadComplete u) s = .next t ∧ SameMemory s t ∧ SameRegsBut s t [cmd] ∧
        flag t cmd 1 = false ∧ wayAt t u (l % 4096) w = some ⟨l, false, false⟩)) ∧
    (∀ x r, (memUnit s u).pfQueue = x :: r → unitRuns s u = true → unitReady s u = true → cacheOn s u = true →
      freeCapacity s u ≠ 0 → s.latent = [] → sound → canAllocate s u = true →
      ∃ t, exec (.prefetchFetch u) s = .next t ∧ SameMemory s t ∧ SameRegs s t ∧ (memUnit t u).pfQueue = r ∧
        wayOf t u x ≠ none) ∧
    (AllowedWrite s o ctl 0 → flag s ctl 1 = false → ∃ t, exec (.cacheDrainStart o u) s = .next t ∧
      OnlyRegs s t [ctl, cmd] ∧ flag t ctl 0 = false ∧ flag t ctl 1 = true ∧ flag t cmd 1 = false ∧
      (flag s cmd 1 = true → flag t cmd 2 = true ∧ fld t cmd 15 8 = 0x0B)) ∧
    (unitRuns s u = true → draining s u = true → sound → ∃ t, exec (.cacheDrainComplete u) s = .next t ∧ SameMemory s t ∧
      SameRegsBut s t [ctl, Reg.hbmBcLock u] ∧ flag t ctl 1 = false ∧ flag t ctl 0 = flag s ctl 0 ∧
      reg t (Reg.hbmBcLock u) = 0 ∧ (memUnit t u).ways = [] ∧ (memUnit t u).pfQueue = []) ∧
    (∀ a, laneFind s c id = some a → a.sent = true → a.result = none → target s a.addr = .near u → draining s u = false →
      laneBlocked s c a = false →
      (beatServed s c a.addr true = false → exec (.nearTierAccess u c id) s = .next s) ∧
      (beatServed s c a.addr true = true →
      (unitReady s u = false → ∃ t, exec (.nearTierAccess u c id) s = .next t ∧ SameMemory s t ∧ SameRegs s t ∧
        laneFind t c id = some { a with result := some (.fail 0x01) }) ∧
      (∀ rd n g, unitReady s u = true → a.kind = .load rd n g → s.latent = [] → sound → isPoisoned s a.addr n = false →
        ∃ t line, exec (.nearTierAccess u c id) s = .next t ∧ SameMemory s t ∧
          laneFind t c id = some { a with result := some (.ok (readMem s a.addr n) line) }) ∧
      (∀ bs, unitReady s u = true → a.kind = .store bs → MemoryCanonical s →
        ∃ t, exec (.nearTierAccess u c id) s = .next t ∧ SameMemoryBut s t a.addr bs.length ∧
          (∀ k, k < bs.length → byteAt t (a.addr + k) = nth bs k 0) ∧
          laneFind t c id = some { a with result := some (.ok [] []) }))) ∧
    (unitRuns s u = true → unitReady s u = true → flag s (Reg.hbmScrubCtl u) 0 = true → scrubFree s (some u) ≠ none →
      (memUnit s u).scrubFrom ≤ now s → freeCapacity s u ≠ 0 → s.latent = [] → sound → s.poison = [] →
      let n := (memUnit s u).scrubAt
      ∃ t, exec (.scrubLine u) s = .next t ∧ SameMemory s t ∧ SameRegsBut s t [Reg.hbmScrubPass u] ∧
        (memUnit t u).scrubAt = (if n + 1 < unitLines s then n + 1 else 0) ∧
        reg t (Reg.hbmScrubPass u) = (if n + 1 < unitLines s then reg s (Reg.hbmScrubPass u) else reg s (Reg.hbmScrubPass u) + 1)) ∧
    (c < s.pkg.nCores → partUp s = true → s.pkg.slumber = false → blockState s (blockOf c) ≠ 3 → flag s Reg.cmpScrubCtl 0 = true →
      scrubFree s none ≠ none → (core s c).scrubFrom ≤ now s → s.poison = [] →
      let ks := sectorsOf (localBase c + 64 * (core s c).scrubAt) 64
      (core s c).scrubAt < 6144 → latentOf s ks = [.single] →
      ∃ t, exec (.localScrubLine c) s = .next t ∧ SameMemory s t ∧ SameRegsBut s t [Reg.cmpEccCnt] ∧
        (core t c).scrubAt = ((core s c).scrubAt + 1) % 6144 ∧ reg t Reg.cmpEccCnt = satInc (reg s Reg.cmpEccCnt) ∧
        latentOf t ks = [])

/-! ### DMA and gather -/

/-- Channels are enabled, fetch descriptors that pass their checks, fire triggers, renew pacing, complete, abort and time out -/
def Obligations.DmaChannelsTakeAndEndDescriptors : Prop :=
  ∀ (o : Origin) (i n c k : Nat) (d : Desc) (s : State),
    let sys := Chan.sys i n
    let til := Chan.tile c k
    let ctl := Reg.sraDmaCtl i n
    let line := localBase c + ctlOff s c k
    let alone := fun (ch : Chan) => chanRuns s ch = true ∧ (chan s ch).descs = [d] ∧ (chan s ch).aborting = false
    let fetched := fun (t : State) (ch : Chan) (q : Option Nat) (w : List DWord) => ∃ x, (chan t ch).descs = (chan s ch).descs ++ [x] ∧
      x.words = w ∧ x.stage = .fetched ∧ x.queue = q ∧ x.next = 0 ∧ x.fail = none ∧ x.waits = [] ∧ x.rows = []
    (i < 2 → n < 32 → AllowedWrite s o ctl 1 → (chan s sys).aborting = false →
      ∃ t, exec (.dmaChannelEnable o i n) s = .next t ∧ SameRegsBut s t [ctl] ∧ flag t ctl 0 = true ∧ SameMemory s t ∧
        SameCores s t ∧ chan t sys = (if flag s ctl 0 = true then chan s sys else { chan s sys with barFail := none })) ∧
    (∀ q, chanRuns s sys = true → chanOn s sys = true → (chan s sys).aborting = false → feedOfChan s i n = some q →
      let e := nth (queueOf s q).entries (queueOf s q).inChan []
      entOp e ≤ 4 → (checkDesc s sys (some q) e).status = 0 →
      ∃ t, exec (.descriptorFetch sys) s = .next t ∧ SameMemory s t ∧ SameRegs s t ∧ SameCores s t ∧
        queueOf t q = { queueOf s q with inChan := (queueOf s q).inChan + 1 } ∧ fetched t sys (some q) e) ∧
    (let x := chan s til
     let slot := localBase c + 64 * (x.ringLine + x.tail)
     chanRuns s til = true → chanOn s til = true → x.aborting = false → x.faulted = false → x.tail ≠ x.head →
     tileGuardFault s c k = false → s.latent = [] → isPoisoned s slot 64 = false → MemoryCanonical s →
     (slot + 64 ≤ line ∨ line + 64 ≤ slot) → (checkDesc s til none (slotWords (readMem s slot 64))).status = 0 →
     ∃ t, exec (.descriptorFetch til) s = .next t ∧ SameMemoryBut s t line 64 ∧ SameRegs s t ∧
       (chan t til).tail = (x.tail + 1) % 2 ^ x.logN ∧ fetched t til none (slotWords (readMem s slot 64)) ∧
       localWord t c (ctlOff s c k + 4) = BitVec.ofNat 32 ((x.tail + 1) % 2 ^ x.logN)) ∧
    (∀ ch, s.latent = [] → chanRuns s ch = true → curDesc (chan s ch) = some d → descOf s ch d.serial = some d →
      (d.stage ≠ .issuing → dTrig d.words ≠ 0 → dBarrier d.words = false → triggerHolds s ch d.words = true →
        ∃ t, exec (.triggerFire ch) s = .next t ∧ SameRegs s t ∧
          descOf t ch d.serial = some { d with stage := .issuing, paceAt := now s, paceUsed := 0, eb := codecBound s (dCkind d.words) }) ∧
      (let p := dPaceNs d.words
       d.stage = .issuing → dPaceLines d.words ≠ 0 → d.paceAt + p ≤ now s →
       ∃ t, exec (.pacePeriod ch) s = .next t ∧ SameMemory s t ∧ SameRegs s t ∧
         descOf t ch d.serial = some { d with paceUsed := 0, paceAt := d.paceAt + (now s - d.paceAt) / p * p })) ∧
    (let st := (descResult d).1
     let ended := fun (x y : DmaChan) => y.descs = [] ∧ y.ccount = x.ccount + 1 ∧
       y.okcount = (if st = 0 then x.okcount + 1 else x.okcount) ∧ y.last = BitVec.ofNat 8 st
     d.stage = .drain → d.waits = [] → d.rows = [] → dCpl d.words = false → dSignal d.words = false → dIrq d.words = false →
     MemoryCanonical s →
     (∀ q e, alone sys → d.queue = some q → q < 256 → (queueOf s q).entries = [e] →
       (queueOf s q).old = 0 →
       let cons := (fld s (Reg.sraQStat q) 31 16 + 1) % 65536
       let a := regAddr s (Reg.sraQConsLo q)
       let p := hostCell s a
       target s a = .host → ∃ t, exec (.descriptorComplete sys) s = .next t ∧ ended (chan s sys) (chan t sys) ∧
         fld t (Reg.sraQStat q) 31 16 = cons ∧ fld t (Reg.sraQStat q) 15 8 = st % 256 ∧ (queueOf t q).entries = [] ∧
         SameMemoryBut s t p 8 ∧ leNat (readMem t p 8) = cons + 65536 * (st % 256)) ∧
     (alone til → ∃ t, exec (.descriptorComplete til) s = .next t ∧ ended (chan s til) (chan t til) ∧ SameMemoryBut s t (line + 16) 12 ∧
       localWord t c (ctlOff s c k + 16) = (chan s til).ccount + 1 ∧
       localWord t c (ctlOff s c k + 20) = (if st = 0 then (chan s til).okcount + 1 else (chan s til).okcount))) ∧
    (let v := (reg s ctl &&& 1) ||| 2
     i < 2 → n < 32 → AllowedWrite s o ctl v → (chan s sys).aborting = false →
     ((chan s sys).descs = [] → ∃ t, exec (.dmaAbort o i n) s = .next t ∧ SameRegsBut s t [ctl] ∧ flag t ctl 0 = false ∧
       chan t sys = chan s sys ∧ SameMemory s t) ∧
     ((chan s sys).descs = [d] → d.stage = .fetched ∨ d.stage = .trigger → ∃ t, exec (.dmaAbort o i n) s = .next t ∧ SameMemory s t ∧
       chan t sys = { chan s sys with aborting := true, descs := [{ d with aborted := true, stage := .drain }] })) ∧
    (∀ ch, s.latent = [] → alone ch → d.stage = .trigger → dTrig d.words = 2 → dBarrier d.words = false → triggerHolds s ch d.words = false →
      d.fetchedAt + chanDl s ch ≤ now s → d.waits = [] → d.rows = [] → ∃ t, exec (.dmaDeadline ch) s = .next t ∧ SameRegs s t ∧
        (chan t ch).descs = [{ d with stage := .drain, fail := some ⟨0, 0x05, 0, chanNode (chainOf ch (dChain d.words))⟩ }]) ∧
    (let cfg := Reg.cmpTdmaCfg c
     let v := putBit (reg s cfg) (16 + k) true
     let ring := localWord s c (ctlOff s c k + 8)
     let dl := localWord s c (ctlOff s c k + 12)
     c < 768 → k < 2 → AllowedWrite s o cfg v → chanOn s til = false → MemoryCanonical s → s.latent = [] →
     bits ring 19 16 ≤ 8 → bits ring 12 0 + 2 ^ bits ring 19 16 ≤ 6144 → dl ≠ 0 →
     (flag s cfg (18 + k) = true ∨ bits (coreCsr s c 0x802) 14 8 = 0) →
     ∃ t, exec (.tdmaEnable o c k) s = .next t ∧ SameRegsBut s t [cfg] ∧ reg t cfg = v ∧ SameMemoryBut s t line 64 ∧
       chan t til = { chan s til with
         ringLine := bits ring 12 0, logN := bits ring 19 16, dl := dl.toNat, tail := 0, head := 0, ccount := 0,
         okcount := 0, barFail := none, faulted := false } ∧
       localWord t c (ctlOff s c k + 4) = 0) ∧
    (chanRuns s til = true → chanOn s til = true → (chan s til).faulted = false →
      ∃ t, exec (.tdmaDoorbell c k) s = .next t ∧ SameMemory s t ∧ SameRegs s t ∧
        chan t til = { chan s til with head := (localWord s c (ctlOff s c k)).toNat % 2 ^ (chan s til).logN })

/-- COPY, FILL and COMPARE of one block do exactly what they name, NOP nothing, and each drains -/
def Obligations.DmaOperationsMoveData : Prop :=
  ∀ (ch : Chan) (d : Desc) (s : State), MemoryCanonical s → s.latent = [] → chanRuns s ch = true → (chan s ch).descs = [d] →
    d.stage = .fetched → d.next = 0 → d.fail = none → d.waits = [] → d.pages = [] → d.mism = none → dBarrier d.words = false →
    dTrig d.words = 0 → dCodec d.words = 0 → dPaceLines d.words = 0 → dDim2 d.words = false → dRows d.words = 1 →
    let n := dLen d.words
    let src := dSrc d.words
    let dst := dDst d.words
    let up := fun (a : Nat) => (∃ c x, target s a = .localMem c x ∧ coreDown s c = false) ∧
      agentServed s (chanAgent s ch d.queue) a = true ∧ portFull s ch a = false
    let drained := fun (t : State) (m : Nat) (f : Option Nat) => SameRegs s t ∧ ∃ x, (chan t ch).descs = [x] ∧ x.stage = .drain ∧
      x.next = m ∧ x.fail = none ∧ x.waits = [] ∧ x.mism = f ∧ x.words = d.words ∧ x.serial = d.serial
    let block := 0 < n ∧ dst % 64 + n ≤ 64 ∧ up dst
    (dOp d.words = 1 → block → up src → src % 128 + n ≤ 128 → descends d.words = false → isPoisoned s src n = false →
      ∃ t, exec (.copy ch) s = .next t ∧ drained t n none ∧ SameMemoryBut s t dst n ∧
        ∀ k, k < n → byteAt t (dst + k) = byteAt s (src + k)) ∧
    (dOp d.words = 2 → block → ∃ t, exec (.fill ch) s = .next t ∧ drained t n none ∧ SameMemoryBut s t dst n ∧
      ∀ k, k < n → byteAt t (dst + k) = (ent d.words 1).extractLsb' (8 * ((dst + k) % 8)) 8) ∧
    (dOp d.words = 3 → block → up src → src % 64 + n ≤ 64 → isPoisoned s src n = false → isPoisoned s dst n = false →
      ∃ t f, exec (.compare ch) s = .next t ∧ drained t n f ∧ SameMemory s t ∧
        (f = none → ∀ k, k < n → byteAt s (src + k) = byteAt s (dst + k)) ∧
        ∀ j, f = some j → j < n ∧ byteAt s (src + j) ≠ byteAt s (dst + j) ∧
          ∀ k, k < j → byteAt s (src + k) = byteAt s (dst + k)) ∧
    (dOp d.words = 0 → ∃ t, exec (.nop ch) s = .next t ∧ drained t 0 none ∧ SameMemory s t)

/-- A gather row is zeroed, fails or waits for an entry, is dispatched and written; CXL devices answer lane ports -/
def Obligations.GatherRowsAndFarAnswers : Prop :=
  (∀ (ch : Chan) (d : Desc) (s : State), MemoryCanonical s → s.latent = [] → chanRuns s ch = true → (chan s ch).descs = [d] →
    dOp d.words = 4 → d.pages = [] → d.fail = none → d.waits = [] →
    let idx := dIdx d.words
    let x := leNat (readMem s idx (dIdxSize d.words))
    let dst := dDst d.words
    let up := fun (ag : Agent) (a : Nat) => (∃ c y, target s a = .localMem c y ∧ coreDown s c = false) ∧
      agentServed s ag a = true ∧ portFull s ch a = false
    (d.stage = .fetched → d.next = 0 → d.rows = [] → dBarrier d.words = false → dTrig d.words = 0 → dPaceLines d.words = 0 →
      dCount d.words = 1 → isPoisoned s idx (dIdxSize d.words) = false →
      up (chanAgent s ch d.queue) idx →
      (x = 256 ^ dIdxSize d.words - 1 → dRow d.words = 64 → dst % 64 = 0 →
        up (chanAgent s ch d.queue) dst →
        ∃ t z, exec (.gather ch) s = .next t ∧ (chan t ch).descs = [z] ∧ z.stage = .drain ∧ z.fail = none ∧ z.next = 1 ∧
          SameMemoryBut s t dst 64 ∧ ∀ k, k < 64 → byteAt t (dst + k) = 0) ∧
      (x ≠ 256 ^ dIdxSize d.words - 1 → dLimit d.words ≤ x →
        ∃ t z, exec (.gather ch) s = .next t ∧ (chan t ch).descs = [z] ∧ z.stage = .drain ∧ z.fail = some ⟨0, 0x01, 0, 0xFFF⟩ ∧
          z.failed = d.failed + 1 ∧ SameMemory s t) ∧
      (∀ p, x ≠ 256 ^ dIdxSize d.words - 1 → x < dLimit d.words → rowSource s ch d x = .inr p →
        ∃ t z, exec (.gather ch) s = .next t ∧ (chan t ch).descs = [z] ∧ z.stage = .issuing ∧ z.next = 1 ∧ SameMemory s t ∧
          z.rows = [⟨0, p, dst, (chanRect s ch d.queue).getD 16, engineOf s p, false, false, false, now s, [], [], none⟩])) ∧
    (∀ r e, d.stage = .issuing → d.next = dCount d.words → d.rows = [r] → r.sent = false → freeEntry s r.engine r.tag = some e →
      paceFull d = false → dispatchServed s ch r = true →
      ∃ t z, exec (.rowFetchDispatch ch) s = .next t ∧ (chan t ch).descs = [z] ∧ z.stage = .drain ∧
        z.rows = [{ r with sent := true, pooled := e, turn := now s }] ∧ SameMemory s t ∧ SameRegs s t) ∧
    (∀ r u k, d.rows = [r] → r.sent = true → r.read = false → r.data = [] → r.faults = [] → r.reached = none → r.engine = .near u → (rowFetches s (.near u))[k]? = some (ch, d.serial, r) →
      dRow d.words = 64 → r.src % 64 = 0 → dst % 64 = 0 → target s r.src = .near u → unitReady s u = true → draining s u = false →
      agentServed s (gatherAgent r) r.src = true → (∀ x, (memUnit s x).ways.all (fun e => !e.2.bad) = true) →
      isPoisoned s r.src 64 = false → partUp s = true →
      let out := dst + 64 * r.row
      up (gatherAgent r) out →
      ∃ t z, exec (.rowFetchComplete (.near u) k) s = .next t ∧ (chan t ch).descs = [z] ∧ z.rows = [] ∧ z.fail = none ∧
        SameMemoryBut s t out 64 ∧ ∀ b, b < 64 → byteAt t (out + b) = byteAt s (r.src + b))) ∧
  ∀ (c id p ns : Nat) (x : LaneAccess) (s : State), laneFind s c id = some x → cxlPending s c x = some p → p < 4 → ns < 2 ^ 32 →
    let late := x.issued + (reg s (Reg.sraCxlDl (p / 2))).toNat ≤ now s
    let lat := Reg.sraCxlLatmax (p / 2) (p % 2)
    let answered := fun (t : State) (r : AccessResult) => laneFind t c id = some { x with result := some r }
    let raised := fun (t : State) => SameRegsBut s t [lat] ∧ (reg t lat).toNat = max (reg s lat).toNat ns
    (late → ∀ ans, exec (.cxlResponse c id ans ns) s = .next s) ∧
    (x.isStore = false →
      (¬late → isPoisoned s x.addr x.size = false → ∃ t, exec (.cxlResponse c id .ok ns) s = .next t ∧ raised t ∧ SameMemory s t ∧
        ∃ line, answered t (.ok (readMem s x.addr x.size) line)) ∧
      (¬late → isPoisoned s x.addr x.size = true → ∃ t, exec (.cxlResponse c id .ok ns) s = .next t ∧ raised t ∧ SameMemory s t ∧
        answered t (.fail 0x02)) ∧
      (¬late → ∃ t, exec (.cxlResponse c id .error ns) s = .next t ∧ raised t ∧ SameMemory s t ∧ answered t (.fail 0x01)) ∧
      (late → ∃ t, exec (.cxlTimeout c id) s = .next t ∧ SameRegs s t ∧ SameMemory s t ∧ answered t (.fail 0x05))) ∧
    (¬late → ∃ t, exec (.cxlResponse c id .poison ns) s = .next t ∧ raised t ∧ SameMemory s t ∧ answered t (.fail 0x02)) ∧
    (∀ bs, x.kind = .store bs → late → ∃ t, exec (.cxlTimeout c id) s = .next t ∧ SameRegs s t ∧ answered t (.fail 0x05)) ∧
    ∀ bs, x.kind = .store bs → ¬late → MemoryCanonical s → ∃ t, exec (.cxlResponse c id .ok ns) s = .next t ∧ answered t (.ok [] []) ∧
      SameMemoryBut s t x.addr bs.length ∧ ∀ k, k < bs.length → byteAt t (x.addr + k) = nth bs k 0

/-! ### Host objects, queues and kernels -/

/-- Contexts are created, killed, quiesced and freed, memory objects validated and removed, isolation chosen -/
def Obligations.ContextsObjectsAndIsolation : Prop :=
  ∀ (o : Origin) (c m : Nat) (v : Word) (s : State),
    let cfg := Reg.sraCtxCfg c
    let cmd := fun (b : Nat) => putBit (reg s cfg &&& 0xF80) b true
    let shows := fun (t : State) (st : Nat) => OnlyRegs s t [cfg] ∧ ctxState t c = ctxState s c ∧ fld t cfg 23 16 = st
    (c < 64 →
      (AllowedWrite s o cfg (cmd 4) →
        (ctxState s c = 0 → createCheck s c = 0 → ∃ t, exec (.create o c) s = .next t ∧ ctxState t c = 1 ∧ fld t cfg 23 16 = 0 ∧
          SameRegsBut s t [cfg] ∧ SameMemory s t ∧ SameCores s t ∧ ∀ k, k < 16 → sget t.ledger (16 * c + k) 0 = 0) ∧
        (ctxState s c = 0 → createCheck s c ≠ 0 → ∃ t, exec (.create o c) s = .next t ∧ shows t (createCheck s c)) ∧
        (ctxState s c ≠ 0 → ∃ t, exec (.create o c) s = .next t ∧ shows t 0x0B)) ∧
      (AllowedWrite s o cfg (cmd 5) →
        (ctxState s c = 1 → ∃ t, exec (.kill o c) s = .next t ∧ ctxState t c = 2 ∧ fld t cfg 23 16 = 0 ∧
          (∀ q ∈ ctxQueues s c, (queueOf t q).reading = 0) ∧ (∀ k ∈ ctxCores s c, (core t k).run ≠ .running) ∧
          ∀ e ∈ t.kernels, e.2.ctx ≠ c) ∧
        (ctxState s c ≠ 1 → ∃ t, exec (.kill o c) s = .next t ∧ shows t 0x0B)) ∧
      (partUp s = true → s.pkg.slumber = false → ctxState s c = 2 → ctxQuiet s c = true →
        ∃ t, exec (.contextQuiesced c) s = .next t ∧ ctxState t c = 3) ∧
      (AllowedWrite s o cfg (cmd 6) →
        (ctxState s c = 3 → ∃ t, exec (.free o c) s = .next t ∧ ctxState t c = 0 ∧ reg t cfg = 0 ∧
          (∀ q ∈ ctxQueues s c, queueOf t q = Queue.reset) ∧ (∀ k, k < 16 → sget t.ledger (16 * c + k) 0 = 0) ∧
          ∀ k ∈ ctxCores s c, ∃ j, (core t k).resetJob = some j ∧ j.zeroMemory = true) ∧
        (ctxState s c ≠ 3 → ∃ t, exec (.free o c) s = .next t ∧ shows t 0x0B))) ∧
    (let mo := Reg.sraMoCfg m
     let p := plainWrite s mo (putBit v 31 false)
     m < 65536 → s.staged = [] → AllowedWrite s o mo (putBit v 31 true) →
     (moCheck p m = 0 → ∃ t, exec (.moValidate o m v) s = .next t ∧ OnlyRegs s t [mo] ∧ flag t mo 31 = true ∧
       fld t mo 8 0 = bits v 8 0) ∧
     (moCheck p m ≠ 0 → flag s Reg.sraMoStat 31 = false → ∃ t, exec (.moValidate o m v) s = .next t ∧
       OnlyRegs s t [mo, Reg.sraMoStat] ∧ flag t mo 31 = false ∧ fld t Reg.sraMoStat 15 0 = m ∧
       fld t Reg.sraMoStat 23 16 = moCheck p m ∧ flag t Reg.sraMoStat 31 = true)) ∧
    (let mo := Reg.sraMoCfg m
     let w := putBit (reg s mo) 31 false
     m < 65536 → s.staged = [] → AllowedWrite s o mo w → ∃ t, exec (.moRemove o m) s = .next t ∧ OnlyRegs s t [mo] ∧ reg t mo = w) ∧
    (s.staged = [] → AllowedWrite s o Reg.sraIso v →
      (s.pkg.hasCtu = true → (∀ x, x < 64 → ctxState s x = 0) → ∃ t, exec (.isoWrite o v) s = .next t ∧ OnlyRegs s t [Reg.sraIso] ∧
        flag t Reg.sraIso 0 = bit v 0) ∧
      ((∃ x, x < 64 ∧ ctxState s x ≠ 0) → exec (.isoWrite o v) s = .next s))

/-- Queues start, stop and fetch; the sweeper reads doorbells and stops a queue whose index or ring is wrong -/
def Obligations.QueuesDoorbellsAndRings : Prop :=
  ∀ (o : Origin) (q : Nat) (v : Word) (s : State),
    let cfg := Reg.sraQCfg q
    let stat := Reg.sraQStat q
    let x := queueOf s q
    let up := partUp s = true ∧ s.pkg.slumber = false
    (let p := plainWrite s cfg (putBit v 0 false)
     q < 256 → s.staged = [] → AllowedWrite s o cfg (putBit v 0 true) → queueOn s q = false →
     (queueRefused p q = false → ∃ t, exec (.queueEnable o q v) s = .next t ∧ SameRegsBut s t [cfg, stat] ∧ queueOn t q = true ∧
       fld t stat 1 0 = 1 ∧ fld t stat 31 16 = fld s (Reg.sraQStart q) 15 0 ∧ SameMemory s t ∧
       queueOf t q = { x with prod := BitVec.ofNat 16 (fld s (Reg.sraQStart q) 15 0), reading := 0, old := x.entries.length }) ∧
     (queueRefused p q = true → ∃ t, exec (.queueEnable o q v) s = .next t ∧ OnlyRegs s t [cfg, stat] ∧ queueOn t q = false ∧
       fld t stat 1 0 = 0 ∧ fld t stat 15 8 = 0x0B)) ∧
    (q < 256 → AllowedWrite s o cfg (putBit v 0 true) → queueOn s q = true → queueStopped s q = true → queueRefused s q = false →
      ∃ t, exec (.queueEnable o q v) s = .next t ∧ SameRegsBut s t [cfg, stat] ∧ queueOn t q = true ∧ fld t stat 1 0 = 1 ∧
        fld t stat 31 16 = fld s (Reg.sraQStart q) 15 0 ∧ (queueOf t q).entries = x.entries) ∧
    (q < 256 → AllowedWrite s o cfg (putBit (reg s cfg) 0 false) → queueOn s q = true →
      ∃ t, exec (.queueDisable o q) s = .next t ∧ SameRegsBut s t [cfg, stat] ∧ SameMemory s t ∧ queueOn t q = false ∧
        queueOf t q = { x with reading := 0 } ∧ (x.entries = [] → fld t stat 1 0 = 0)) ∧
    (up → flag s Reg.sraSweep 8 = true → s.sweepAt + 250 * fld s Reg.sraSweep 6 0 ≤ now s →
      ∃ t, exec .sweep s = .next t ∧ t = { s with sweepAt := now s, sweeps := t.sweeps } ∧
        ∀ r, r ∈ t.sweeps ↔ r ∈ s.sweeps ∨ (r.issued = now s ∧ r.line < 32 ∧ ∃ i, i < 16 ∧ wordActive s (16 * r.line + i) = true)) ∧
    (∀ (r : SweepRead) (rest : List SweepRead) (ws : List Word) (i : Nat), up → s.sweeps = r :: rest → ws.length = 16 → i < 16 →
      (∀ j, j < 16 → j ≠ i → wordActive s (16 * r.line + j) = false) → wordActive s (16 * r.line + i) = true →
      let w := nth ws i 0
      (16 * r.line + i = q → q < 256 → queueMayFetch s q = true → bits w 31 16 = 0 →
        ringUsed (bits w 15 0) (fld s stat 31 16) ≤ ringSlots s q → ∃ t, exec (.sweepReadReturn r.line ws) s = .next t ∧
          t.sweeps = rest ∧ SameRegs s t ∧ SameMemory s t ∧ (queueOf t q).prod = BitVec.ofNat 16 w.toNat ∧
          (queueOf t q).entries = x.entries) ∧
      (16 * r.line + i = q → q < 256 → queueMayFetch s q = true →
        (bits w 31 16 ≠ 0 ∨ ringSlots s q < ringUsed (bits w 15 0) (fld s stat 31 16)) →
        ∃ t, exec (.sweepReadReturn r.line ws) s = .next t ∧ t.sweeps = rest ∧ SameRegsBut s t [stat] ∧
          fld t stat 1 0 = 3 ∧ fld t stat 15 8 = 0x0B ∧ (queueOf t q).reading = 0 ∧ (queueOf t q).entries = x.entries) ∧
      (256 ≤ 16 * r.line + i → ∃ t, exec (.sweepReadReturn r.line ws) s = .next t ∧ t.sweeps = rest ∧ SameRegs s t ∧
        ringCons t (16 * r.line + i - 256) = w.toNat % 65536)) ∧
    (∀ r : SweepRead, up → s.sweeps = [r] → r.issued + (reg s Reg.sraHostDl).toNat ≤ now s →
      ∃ t, exec (.sweepReadTimeout r.line) s = .next t ∧ t.sweeps = [] ∧ SameRegsBut s t [Reg.sraSweep] ∧
        fld t Reg.sraSweep 31 16 = min (fld s Reg.sraSweep 31 16 + 1) 65535) ∧
    (∀ slots : List (List DWord), up → q < 256 → x.entries = [] → x.inChan = 0 → slots ≠ [] → slots.length = x.reading →
      queueMayFetch s q = true → queueBound s q = true → (∀ e ∈ slots, entOp e ≤ 4) →
      ∃ t, exec (.ringFetchReturn q slots) s = .next t ∧ SameRegs s t ∧ SameMemory s t ∧
        (queueOf t q).entries = slots.map (slotEntryWords s q)) ∧
    (up → q < 256 → x.reading ≠ 0 → x.readAt + (reg s Reg.sraHostDl).toNat ≤ now s →
      ∃ t, exec (.ringReadTimeout q) s = .next t ∧ SameRegsBut s t [stat] ∧ fld t stat 1 0 = 3 ∧ fld t stat 15 8 = 0x05 ∧
        (queueOf t q).reading = 0 ∧ (queueOf t q).entries = x.entries ∧
        t.errq = s.errq ++ [⟨some (queueCtx s q), 0x05, 2, 0x300, 0, 0, BitVec.ofNat 32 q, now s, none, false⟩])

/-- Control entries signal, wait for, reset and snapshot; events change in order; error records reach their rings -/
def Obligations.ControlEntriesEventsAndRecords : Prop :=
  ∀ (o : Origin) (q c ev : Nat) (e : List DWord) (v : Word) (s : State),
    let stat := Reg.sraQStat q
    let up := partUp s = true ∧ s.pkg.slumber = false
    let front := fun (op : Nat) => ctlFront s q op = some e ∧ (queueOf s q).entries = [e] ∧ (queueOf s q).old = 0 ∧ s.evq = []
    let starts := fun (op : Nat) => front op ∧ (queueOf s q).ctl = .ready ∧ ctlCheck s q e = 0
    let completes := fun (t : State) (st : Nat) => fld t stat 31 16 = (fld s stat 31 16 + 1) % 65536 ∧ fld t stat 15 8 = st ∧
      (queueOf t q).entries = []
    let x := Reg.sraEv (entEvent e)
    (starts 9 → mayBeSignalled s (entEvent e) = true → ∃ t, exec (.evsignal q) s = .next t ∧ completes t 0 ∧
      eventSeq t (entEvent e) = eventSeq s (entEvent e) + 1 ∧ flag t x 8 = true ∧
      (bit (ent e 1) 0 = true → flag s x 9 = false → flag t x 9 = true ∧ fld t x 17 10 = 0x0B) ∧
      (bit (ent e 1) 0 = false → flag t x 9 = flag s x 9)) ∧
    (starts 10 →
      (flag s x 8 = false → ∃ t, exec (.evwait q) s = .next t ∧ SameRegs s t ∧ SameMemory s t ∧
        queueOf t q = { queueOf s q with ctl := .waiting (now s + bits (ent e 1) 31 0) }) ∧
      (flag s x 8 = true → ∃ t, exec (.evwait q) s = .next t ∧ completes t (eventStatus s (entEvent e)))) ∧
    (∀ d, front 10 → (queueOf s q).ctl = .waiting d → d ≤ now s → ∃ t, exec (.evwaitTimeout q) s = .next t ∧ completes t 0x05 ∧
      ∃ r ∈ t.errq, r.status = 0x05 ∧ r.addr = entEvent e ∧ r.ctx = some (queueCtx s q)) ∧
    (starts 11 → bit (ent e 0) 8 = false → ∃ t, exec (.evreset q) s = .next t ∧ completes t 0 ∧ flag t x 8 = false ∧
      flag t x 9 = (flag s x 9 && !bit (ent e 1) 0)) ∧
    (let a := bits (ent e 1) 47 0
     let k := queueCtx s q
     let w := regAddr s (Reg.sraQConsLo q)
     let p := hostCell s a
     starts 12 → bit (ent e 0) 8 = false → enforced s = false → ledgerTarget s k a = 0 → ledgerTarget s k (a + 64) = 0 →
     target s a = .host → target s (a + 64) = .host → target s w = .host → (a + 128 ≤ w ∨ w + 8 ≤ a) → MemoryCanonical s →
     ∃ t, exec (.ledger q) s = .next t ∧ completes t 0 ∧ ∀ j, j < 128 → byteAt t (p + j) = nth (ledgerBytes s k) j 0) ∧
    (up → c < s.pkg.nCores →
      let n := bits v 11 0
      let own := fld s (Reg.sraEv n) 5 0
      let ours := ctxState s own ≠ 0 ∧ ∃ r, rectOf s c = some r ∧ ctxHasRect s own r = true
      (ours → ∃ t, exec (.sraEvsigWrite c v) s = .next t ∧
        t = { s with evq := s.evq ++ [.signal n (if bit v 16 then some 0x0B else none)] }) ∧
      (¬ours → exec (.sraEvsigWrite c v) s = .next s)) ∧
    (let y := Reg.sraEv ev
     ev < 4096 → AllowedWrite s o y ((reg s y &&& 0x3FC00BF) ||| 0x4000000) → flag s y 7 = true → s.evq = [] →
     ∃ t, exec (.evReset o ev) s = .next t ∧ flag t y 8 = false ∧ flag t y 9 = false ∧ flag t y 7 = true ∧
       fld t y 5 0 = fld s y 5 0 ∧ fld t y 25 18 = fld s y 25 18 ∧ eventSeq t ev = eventSeq s ev) ∧
    (∀ rest, up → s.evq = .signal ev none :: rest → ev < 4096 → flag s (Reg.sraEv ev) 7 = true → mayBeSignalled s ev = true →
      ∃ t, exec .eventChange s = .next t ∧ t.evq = rest ∧ eventSeq t ev = eventSeq s ev + 1 ∧ flag t (Reg.sraEv ev) 8 = true) ∧
    (∀ r : ErrRec, up → s.errq = [r] → r.ctx = some c →
      let g := Reg.sraCtxErrcfg c
      let prod := fld s g 31 16
      let full := fld s g 3 0 = 0 ∨ 2 ^ fld s g 3 0 ≤ ringUsed prod (ringCons s c)
      let a := regAddr s (Reg.sraCtxErrLo c) + 32 * (prod % 2 ^ fld s g 3 0)
      (full → ∃ t, exec .errorRecordWrite s = .next t ∧ t.errq = [] ∧ SameMemory s t ∧ SameRegsBut s t [Reg.sraCtxErrlost c] ∧
        reg t (Reg.sraCtxErrlost c) = satInc (reg s (Reg.sraCtxErrlost c))) ∧
      (¬full → target s a = .host → MemoryCanonical s → ∃ t, exec .errorRecordWrite s = .next t ∧ t.errq = [] ∧
        fld t g 31 16 = (prod + 1) % 65536 ∧ SameMemoryBut s t (hostCell s a) 32 ∧
        readMem t (hostCell s a) 32 = errBytes r (s.errOvf.contains c) prod)) ∧
    (∀ (m : Msg) (t0 : Nat) (rest : List (Msg × Nat)), up → s.errq = [] → s.alerts = (m, t0) :: rest → deviceRoom s = true →
      let prod := fld s Reg.sraDerrCfg 31 16
      let a := regAddr s Reg.sraDerrLo + 32 * (prod % 2 ^ fld s Reg.sraDerrCfg 3 0)
      target s a = .host → MemoryCanonical s → ∃ t, exec .errorRecordWrite s = .next t ∧ t.alerts = rest ∧
        fld t Reg.sraDerrCfg 31 16 = (prod + 1) % 65536 ∧ SameMemoryBut s t (hostCell s a) 32 ∧
        readMem t (hostCell s a) 32 = errBytes (alertRecord m t0) false prod)

/-- A DISPATCH that passes its checks waits, starts every core of its rectangle, ends when all report, or times out -/
def Obligations.KernelsStartReportAndEnd : Prop :=
  (∀ (q : Nat) (e : List DWord) (s : State), ctlFront s q 8 = some e → (queueOf s q).ctl = .ready → (queueOf s q).entries = [e] →
    let n := bits (ent e 0) 19 16
    let stat := Reg.sraQStat q
    (ctlCheck s q e = 0 → dispatchCheck s q n = 0 → ∃ t, exec (.dispatch q) s = .next t ∧ SameMemory s t ∧ SameCores s t ∧
      kernelOf t n = some ⟨q, queueCtx s q, false, [], false, none, 0⟩ ∧ queueOf t q = { queueOf s q with ctl := .kernel }) ∧
    (ctlCheck s q e = 0 → dispatchCheck s q n ≠ 0 → (queueOf s q).old = 0 → ∃ t, exec (.dispatch q) s = .next t ∧ SameCores s t ∧ t.kernels = s.kernels ∧
      fld t stat 31 16 = (fld s stat 31 16 + 1) % 65536 ∧ fld t stat 15 8 = dispatchCheck s q n)) ∧
  ∀ (n : Nat) (k : Kernel) (s : State), kernelOf s n = some k →
    let cs := rectCores s n
    let stat := Reg.sraQStat k.queue
    let ends := fun (t : State) (st : Nat) => kernelOf t n = none ∧ fld t stat 31 16 = (fld s stat 31 16 + 1) % 65536 ∧
      fld t stat 15 8 = st
    (k.started = false → (∀ c ∈ cs, (core s c).resetJob = none ∧ (core s c).run = .parked ∧ storesDone s c = true) → s.latent = [] → n < 16 →
      ∃ t, exec (.kernelStart n) s = .next t ∧ SameMemory s t ∧
        (∀ e, ctlFront s k.queue 8 = some e →
          kernelOf t n = some { k with started := true, deadline := now s + bits (ent e 1) 31 0 }) ∧
        ∀ c ∈ cs, headerOk s c = true → isPoisoned s (localBase c) 32 = false → (core t c).run = .running ∧
          (core t c).kernel = true ∧ (thr t ⟨c, 0⟩).status = .started ∧ (thr t ⟨c, 0⟩).pc = headerWord s c 4 ∧
          (thr t ⟨c, 0⟩).level = 0#2) ∧
    (∀ c, partUp s = true → c < s.pkg.nCores → rectOf s c = some n → k.started = true → k.parked = false → c ∉ k.reported →
      (¬(∀ d ∈ cs, d = c ∨ d ∈ k.reported) → ∃ t, exec (.kernelDoneReport c) s = .next t ∧ SameMemory s t ∧ SameCores s t ∧
        kernelOf t n = some { k with reported := addKey k.reported c }) ∧
      ((∀ d ∈ cs, d = c ∨ d ∈ k.reported) → ∃ t, exec (.kernelDoneReport c) s = .next t ∧
        kernelOf t n = some { k with reported := addKey k.reported c, parked := true } ∧ ∀ d ∈ cs, (core t d).run ≠ .running)) ∧
    (∀ e, (queueOf s k.queue).entries = [e] → (queueOf s k.queue).old = 0 →
      let named := fun (t : State) (c : Nat) => ∃ r ∈ t.errq, r.status = 0x05 ∧ r.who = BitVec.ofNat 12 c
      (k.parked = true → (∀ c ∈ cs, storesDone s c = true) →
        (k.late = none → ∃ t, exec (.dispatchComplete n) s = .next t ∧ ends t 0) ∧
        ∀ c, k.late = some c → ∃ t, exec (.dispatchComplete n) s = .next t ∧ ends t 0x05 ∧ named t c) ∧
      (∀ c, k.started = true → k.parked = false → k.deadline ≤ now s → cs.find? (fun d => !k.reported.contains d) = some c →
        ((∀ d ∈ cs, storesDone s d = true) → ∃ t, exec (.dispatchTimeout n) s = .next t ∧ ends t 0x05 ∧
          (∀ d ∈ cs, (core t d).run ≠ .running) ∧ named t c) ∧
        ((∃ d ∈ cs, storesDone s d = false) → ∃ t, exec (.dispatchTimeout n) s = .next t ∧
          kernelOf t n = some { k with parked := true, late := some c } ∧ (∀ d ∈ cs, (core t d).run ≠ .running) ∧
          fld t stat 31 16 = fld s stat 31 16)))

/-! ### Chip-to-chip links -/

/-- A link trains when enabled, becomes ready or fails with its reason, retrains in up to three attempts, and downgrades -/
def Obligations.LinksTrainRetrainAndFail : Prop :=
  ∀ (o : Origin) (i l : Nat) (s : State),
    let ctl := Reg.lnkCtl i l
    let st := Reg.lnkStat i l
    let b := linkBundle s i l
    let frame := fun (t : State) (rs : List Nat) => t = { s with regs := t.regs, links := t.links, bundles := t.bundles } ∧
      SameRegsBut s t (rs ++ [st, Reg.lnkReady i, Reg.lnkBndStat i b])
    let ready := fun (t : State) (r : Bool) => flag t st 5 = r ∧ flag t (Reg.lnkReady i) l = r
    let fails := fun (t : State) (v : Nat) => linkState t i l = 4 ∧ fld t st 15 8 = v ∧ fld t st 4 3 = 0 ∧ ready t false ∧ frame t []
    let run := linkRuns s i l = true
    (i < 2 → l < 32 → AllowedWrite s o ctl (reg s ctl ||| 1) → flag s ctl 0 = false →
      ∃ t, exec (.linkEnable o i l) s = .next t ∧ linkState t i l = 1 ∧ flag t ctl 0 = true ∧ fld t st 15 8 = 0 ∧
        flag t st 6 = false ∧ ready t false ∧ frame t [ctl]) ∧
    (run → linkState s i l = 1 →
      let limit := (linkSt s i l).stuckAt + 50000
      (limit ≤ now s → ∃ t, exec (.linkTrainingEnd i l .noFrame) s = .next t ∧ fails t 0x05) ∧
      (now s < limit → exec (.linkTrainingEnd i l .noFrame) s = .next s) ∧
      ∀ (gen : BitVec 2) (chip link : BitVec 6) (lat : BitVec 16),
        let good := chip.toNat ≠ fld s Reg.lnkChip 5 0 ∧ chip.toNat = fld s (Reg.lnkBndCfg i b) 6 1
        (limit < now s → exec (.linkTrainingEnd i l (.aligned gen chip link lat)) s = .next s) ∧
        (now s ≤ limit → ¬good → ∃ t, exec (.linkTrainingEnd i l (.aligned gen chip link lat)) s = .next t ∧ fails t 0x0B ∧
          fld t st 21 16 = chip.toNat) ∧
        (now s ≤ limit → good → ∃ t, exec (.linkTrainingEnd i l (.aligned gen chip link lat)) s = .next t ∧ linkState t i l = 2 ∧
          ready t true ∧ fld t st 4 3 = min (min (fld s ctl 3 2) (if bit s.pkg.sraCap 11 then 2 else 1)) gen.toNat ∧
          fld t st 21 16 = chip.toNat ∧ fld t st 27 22 = link.toNat ∧ reg t (Reg.lnkLat i l) = lat.setWidth 32 ∧
          frame t [Reg.lnkLat i l])) ∧
    (run → linkState s i l = 2 → ∀ c, (c = .retrain i l ∨ ∃ chip link gen, c = .trainFrame i l chip link gen) →
      ∃ t, exec c s = .next t ∧ linkState t i l = 3 ∧ ready t false ∧ (linkSt t i l).attempt = 0 ∧
        reg t (Reg.lnkRetrains i l) = satInc (reg s (Reg.lnkRetrains i l)) ∧ frame t [Reg.lnkRetrains i l]) ∧
    (run → linkState s i l = 3 →
      let a := (linkSt s i l).attempt
      let g := (linkSt s i l).lastGen
      let late := (linkSt s i l).stuckAt + 10000 < now s
      (¬late → ∃ t, exec (.retrainAttemptEnd i l true) s = .next t ∧ linkState t i l = 2 ∧ ready t true ∧
        fld t st 4 3 = (if 2 ≤ a then 1 else g.toNat) ∧ flag t st 6 = (flag s st 6 || decide (2 ≤ a)) ∧ frame t []) ∧
      ∀ ok, ok = false ∨ late →
        (a = 0 ∨ (a = 1 ∧ g = 2#2) → ∃ t, exec (.retrainAttemptEnd i l ok) s = .next t ∧ SameRegs s t ∧
          (linkSt t i l).attempt = a + 1 ∧ (linkSt t i l).stuckAt = now s) ∧
        (2 ≤ a ∨ (a = 1 ∧ g ≠ 2#2) → ∃ t, exec (.retrainAttemptEnd i l ok) s = .next t ∧ fails t 0x05))

/-- DATA frames are delivered once and in SEQ order; acknowledgement, replay, loss and SYNC act on the bundle -/
def Obligations.FramesDeliverOnceInOrder : Prop :=
  ∀ (o : Origin) (i l n : Nat) (bs : List Byte) (hd : Frame) (s : State),
    let b := linkBundle s i l
    let x := bundle s i b
    let us := hd.units
    let err := Reg.lnkCrcerr i l
    let spells := fun (k : Nat) => frameCrcOk bs = true ∧ frameOf? bs = some hd ∧ hd.kind = k
    let resent := fun (t : State) (j : Nat) (old : List SentFrame) =>
      ((bundle t i j).replay.map fun f => (f.seq, f.sentAt, f.units)) = (old.map fun f => (f.seq, now s, f.units)) ∧
        ∀ f ∈ (bundle t i j).replay, f.link ∈ liveLinks s i j
    let d := (hd.seq - x.expect).toNat
    let counted := fun t : State => reg t err = satInc (reg s err) ∧ SameMemory s t ∧ (bundle t i b).inbox = x.inbox ∧
      (bundle t i b).expect = x.expect ∧ (bundle t i b).reorder = x.reorder
    let kept := x.replay.dropWhile fun f => decide ((hd.ackSeq - f.seq).toNat ≠ 0) && decide ((hd.ackSeq - f.seq).toNat < 32768)
    let gap := if x.reorder ≠ [] ∨ (0 < d ∧ d < 32768) then some (x.gapAt.getD (now s)) else none
    (linkHears s i l = true →
      (frameCrcOk bs = false ∨ frameOf? bs = none → (linkSt s i l).crcTimes = [] → ∃ t, exec (.dataFrame i l bs) s = .next t ∧
        exec (.nullFrame i l bs) s = .next t ∧ exec (.replayFrame i l bs) s = .next t ∧ exec (.syncFrame i l bs) s = .next t ∧
        counted t ∧ linkState t i l = 2)) ∧
    (linkHears s i l = true → frameTaken s i l = true →
      (spells 0 →
        (hd.seq = x.expect → x.reorder = [] → ∃ t, exec (.dataFrame i l bs) s = .next t ∧ SameRegs s t ∧ SameMemory s t ∧
          (bundle t i b).expect = x.expect + 1 ∧ (bundle t i b).inbox = x.inbox ++ us ∧ (bundle t i b).reorder = [] ∧
          (bundle t i b).gapAt = none) ∧
        (∀ vs, hd.seq = x.expect → x.reorder = [(x.expect + 1, vs)] → ∃ t, exec (.dataFrame i l bs) s = .next t ∧
          (bundle t i b).expect = x.expect + 2 ∧ (bundle t i b).inbox = x.inbox ++ us ++ vs ∧ (bundle t i b).reorder = []) ∧
        (0 < d → d < 128 → x.reorder = [] → ∃ t, exec (.dataFrame i l bs) s = .next t ∧ SameRegs s t ∧
          (bundle t i b).expect = x.expect ∧ (bundle t i b).inbox = x.inbox ∧ (bundle t i b).reorder = [(hd.seq, us)] ∧
          (bundle t i b).gapAt = some (x.gapAt.getD (now s))) ∧
        (32768 ≤ d ∨ (∃ vs, (hd.seq, vs) ∈ x.reorder) → ∃ t, exec (.dataFrame i l bs) s = .next t ∧ SameRegs s t ∧
          (bundle t i b).expect = x.expect ∧ (bundle t i b).inbox = x.inbox ∧ (bundle t i b).reorder = x.reorder) ∧
        (128 ≤ d → d < 32768 → x.reorder = [] → ∃ t, exec (.dataFrame i l bs) s = .next t ∧ counted t)) ∧
      (x.outbox = [] → x.replayRq = false →
        (spells 1 → ∃ t, exec (.nullFrame i l bs) s = .next t ∧ SameRegs s t ∧ SameMemory s t ∧
          bundle t i b = { x with replay := kept, gapAt := gap }) ∧
        (spells 2 → ∃ t, exec (.replayFrame i l bs) s = .next t ∧ SameRegsBut s t [Reg.lnkBndReplays i b] ∧
          (reg t (Reg.lnkBndReplays i b)).toNat = min ((reg s (Reg.lnkBndReplays i b)).toNat + kept.length) (2 ^ 32 - 1) ∧
          bundle t i b = { x with replay := (bundle t i b).replay } ∧ resent t b kept))) ∧
    (linkRuns s i l = true → linkState s i l = 2 → spells 3 →
      (bundleState s i b = 3 → x.syncSent = true → x.outbox = [] → x.replayRq = false → ∃ t, exec (.syncFrame i l bs) s = .next t ∧
        bundleState t i b = 1 ∧ bundle t i b = { x with seqNext := 0, expect := 0, syncSent := false, syncGot := false }) ∧
      (bundleState s i b = 3 → x.syncSent = false → ∃ t, exec (.syncFrame i l bs) s = .next t ∧ bundleState t i b = 3 ∧
        bundle t i b = { x with syncGot := true }) ∧
      (bundleState s i b = 1 → x.itags = [] → ∃ t, exec (.syncFrame i l bs) s = .next t ∧ bundleState t i b = 1 ∧
        bundle t i b = { Bundle.reset with inbox := x.inbox, itagNext := x.itagNext } ∧
        t.courier = s.courier ++ [⟨0x300, 5, false, 0x300 + i, 8, 0⟩])) ∧
    (let y := bundle s i n
     let cfg := Reg.lnkBndCfg i n
     (partUp s = true → bundleState s i n = 1 → liveLinks s i n ≠ [] →
       (∀ t0, y.gapAt = some t0 → t0 + gapTime s i n ≤ now s → y.outbox = [] → ∃ t l', exec (.gapTimer i n) s = .next t ∧
         SameRegs s t ∧ bundle t i n = { y with gapAt := some (now s), replayRq := false } ∧ nextLink s i n = some l' ∧
         (linkSt t i l').out =
           frameBytes ⟨0, y.expect, 2, BitVec.ofNat 6 (fld s Reg.lnkChip 5 0), BitVec.ofNat 6 (32 * i + l'), []⟩) ∧
       (∀ f rest, y.replay = f :: rest → f.sentAt + fld s (Reg.lnkBndRtmr i n) 15 0 < now s →
         ∃ t, exec (.replayTimer i n) s = .next t ∧ bundle t i n = { y with replay := (bundle t i n).replay } ∧ resent t n y.replay ∧
           (reg t (Reg.lnkBndReplays i n)).toNat = min ((reg s (Reg.lnkBndReplays i n)).toNat + y.replay.length) (2 ^ 32 - 1))) ∧
     (∀ t0, partUp s = true → bundleState s i n ≠ 2 → liveLinks s i n = [] → y.deadAt = some t0 →
       t0 + (reg s (Reg.lnkBndDl i n)).toNat ≤ now s → (∀ e ∈ y.itags, ∃ c id, e.2.1 = .lane c id) →
       ∃ t, exec (.bundleLost i n) s = .next t ∧ bundleState t i n = 2 ∧ SameMemory s t ∧ SameRegsBut s t [Reg.lnkBndStat i n] ∧
         bundle t i n = { Bundle.reset with seqNext := y.seqNext, expect := y.expect, inbox := y.inbox, itagNext := y.itagNext } ∧
         t.courier = s.courier ++ [⟨0x300, 5, false, 0x300 + i, 8, 0⟩] ∧
         ∀ e ∈ y.itags, ∀ c id, e.2.1 = .lane c id → ∀ a ∈ (core t c).lane, a.id = id → a.result = some (.fail 0x08)) ∧
     (i < 2 → n < 16 → AllowedWrite s o cfg (reg s cfg ||| 0x1000) →
       bundleState s i n = 0 ∨ bundleState s i n = 2 → ∃ t, exec (.resync o i n) s = .next t ∧ bundleState t i n = 3 ∧
         (bundle t i n).syncGot = false ∧ (bundle t i n).syncSent = !(liveLinks s i n).isEmpty))

/-- A far Serai checks and performs the accesses of a bundle and answers them; responses end the accesses that wait -/
def Obligations.LinkRequestsAndResponses : Prop :=
  ∀ (i b : Nat) (tag : BitVec 12) (s : State), partUp s = true → i < s.pkg.nSerai → bundleState s i b = 1 → liveLinks s i b ≠ [] →
    let x := bundle s i b
    let answers := fun (t : State) (u : LinkUnit) =>
      (∃ l ∈ liveLinks s i b, (bundle t i b).replay = x.replay ++ [⟨x.seqNext, now s, [u], l⟩]) ∧
      (bundle t i b).inbox = [] ∧ (bundle t i b).seqNext = x.seqNext + 1
    let st := fun (a n : Nat) => inboundCheck s i b a n
    let sound := ∀ u, (memUnit s u).ways.all (fun e => !e.2.bad) = true
    x.outbox = [] → x.replay.length < 128 →
    ((∀ a n, nearSize s < a + n → st a n = 0x01) ∧
     (∀ a n, a + n ≤ nearSize s → unitReady s (unitOf s a).1 = true → rectOn s (bits (reg s (Reg.lnkBndCfg i b)) 10 7) = false →
       st a n = 0x07)) ∧
    (∀ (ln : BitVec 31) (f : BitVec 7) (bs : List Byte), x.inbox = [.write tag ln f bs] →
      inboundWaits s i b (.write tag ln f bs) = false →
      let a := 128 * ln.toNat + f.toNat
      (st a bs.length ≠ 0 → ∃ t, exec (.linkWrite i b) s = .next t ∧ SameMemory s t ∧ SameRegs s t ∧
        answers t (.resp [(tag, BitVec.ofNat 8 (st a bs.length))])) ∧
      (st a bs.length = 0 → s.latent = [] → MemoryCanonical s → ∃ t, exec (.linkWrite i b) s = .next t ∧ SameMemoryBut s t a bs.length ∧
        readMem t a bs.length = bs ∧ answers t (.resp [(tag, 0x00)]))) ∧
    (∀ (ln : BitVec 31) (f n : BitVec 7), x.inbox = [.read tag ln f n] → inboundWaits s i b (.read tag ln f n) = false →
      let a := 128 * ln.toNat + f.toNat
      let k := n.toNat + 1
      (st a k ≠ 0 → ∃ t, exec (.linkRead i b) s = .next t ∧ SameMemory s t ∧ SameRegs s t ∧
        answers t (.rdata tag (BitVec.ofNat 8 (st a k)) [])) ∧
      (st a k = 0 → s.latent = [] → sound → ∃ t, exec (.linkRead i b) s = .next t ∧ SameMemory s t ∧
        answers t (.rdata tag (if isPoisoned s a k then 0x02 else 0x00) (placeBytes f.toNat (readMem s a k))))) ∧
    (∀ (ln : BitVec 31) (r : BitVec 2) (bs : List Byte), x.inbox = [.share tag ln r bs] →
      inboundWaits s i b (.share tag ln r bs) = false →
      r = 1 ∨ r = 2 → bs.length = 128 → x.itags = [] →
      let v := st (128 * ln.toNat) (128 * groupBlocks r.toNat)
      (v ≠ 0 → ∃ t, exec (.linkShare i b) s = .next t ∧ SameMemory s t ∧ answers t (.resp [(tag, BitVec.ofNat 8 v)])) ∧
      (v = 0 → s.latent = [] → MemoryCanonical s → ∃ t, exec (.linkShare i b) s = .next t ∧ answers t (.resp [(tag, 0x00)]) ∧
        ∀ p ∈ (shareBlocks r.toNat bs).zipIdx, sget t.side (ln.toNat + p.2) 0 = p.1.header ∧
          readMem t (128 * (ln.toNat + p.2)) p.1.bytes.length = p.1.bytes)) ∧
    (∀ (ln : BitVec 31) (hdr : BitVec 16) (bs : List Byte), x.inbox = [.rawblk tag ln hdr bs] →
      inboundWaits s i b (.rawblk tag ln hdr bs) = false → bs.length = 128 → x.itags = [] →
      let v := st (128 * ln.toNat) 128
      (v ≠ 0 → ∃ t, exec (.linkRawblk i b) s = .next t ∧ SameMemory s t ∧ answers t (.resp [(tag, BitVec.ofNat 8 v)])) ∧
      (v = 0 → headerRaw hdr = true → s.latent = [] → MemoryCanonical s → ∃ t, exec (.linkRawblk i b) s = .next t ∧
        answers t (.resp [(tag, 0x00)]) ∧ sget t.side ln.toNat 0 = hdr ∧ readMem t (128 * ln.toNat) 128 = bs ∧
        SameMemoryBut s t (128 * ln.toNat) 128)) ∧
    (∀ (ln : BitVec 31) (r : BitVec 2), x.inbox = [.cread tag ln r] → inboundWaits s i b (.cread tag ln r) = false →
      let k := groupBlocks r.toNat
      let v := st (128 * ln.toNat) (128 * k)
      let as := (List.range k).map fun j => 128 * ln.toNat + 128 * j
      (v ≠ 0 → ∃ t, exec (.linkCread i b) s = .next t ∧ SameMemory s t ∧ answers t (.rdata tag (BitVec.ofNat 8 v) [])) ∧
      (v = 0 → s.latent = [] → sound → s.poison = [] → (∀ a ∈ as, headerRaw (sget s.side (a / 128) 0) = false) →
        ∃ t, exec (.linkCread i b) s = .next t ∧ SameMemory s t ∧ answers t (.share tag ln r (shareBytes r.toNat
          (as.map fun a => ⟨sget s.side (a / 128) 0, readMem s a (shareSize r.toNat)⟩))))) ∧
    (∀ (c id line : Nat), x.itags = [(tag, .lane c id, line)] →
      let ends := fun (t : State) (f : LaneAccess → AccessResult) => SameMemory s t ∧ (bundle t i b).itags = [] ∧
        (bundle t i b).inbox = [] ∧ (core t c).lane = (core s c).lane.map fun a => if a.id = id then { a with result := some (f a) } else a
      let log := Reg.lnkNaklog i b
      (∀ v bs y, x.inbox = [.rdata tag v bs] → laneFind s c id = some y → ∃ t, exec (.linkRdata i b) s = .next t ∧ SameRegs s t ∧
        ends t fun a => if v = 0 then .ok (if a.isStore then [] else (bs.drop (y.addr % 128)).take y.size) [] else .fail v) ∧
      (x.inbox = [.resp [(tag, 0x00)]] → ∃ t, exec (.linkResp i b) s = .next t ∧ SameRegs s t ∧ ends t fun _ => .ok [] []) ∧
      (∀ v, v ≠ 0 → x.inbox = [.resp [(tag, v)]] → ∃ t, exec (.linkResp i b) s = .next t ∧ (ends t fun _ => .fail 0x13) ∧
        SameRegsBut s t [log, Reg.lnkNakline i b] ∧ (flag s log 31 = true → SameRegs s t) ∧
        (flag s log 31 = false → flag t log 31 = true ∧ fld t log 7 0 = v.toNat ∧ fld t log 19 8 = tag.toNat ∧
          reg t (Reg.lnkNakline i b) = BitVec.ofNat 32 line)))

/-! ### The Drover die -/

/-- A lockstep mismatch resets the Drover, routes send one message, port accesses end at their deadline, Syncs trim the time base -/
def Obligations.DroverPortRoutesAndTime : Prop :=
  ∀ s : State, drvUp s = true →
    (∃ t, exec .lockstepMismatch s = .next t ∧ Logged s t 0x11 0 0 0 ∧ t.drv.resetting = true ∧ t.drv.por = false ∧
      (∀ o, o < 8 → doutForced t o = true ∧ doutOn t o = false) ∧ SameMemory s t ∧
      (∀ c, isDrvCore c = false → core t c = core s c) ∧ ∀ c, isDrvCore c = true → core t c = Core.reset) ∧
    (∀ (n : Nat) (g : Bool), s.drv.routes.find? (fun e => e.1 == n) = some (n, g) →
      let w := reg s (Reg.drvRoute n)
      let left := { s.drv with routes := sdrop s.drv.routes (· == n) }
      (16 ≤ drvInFlight s → exec (.routeAccept n) s = .next s) ∧
      (drvInFlight s < 16 → s.pkg.pwrok = true → bits w 17 6 < s.pkg.nCores →
        (bit w 5 = true → ∃ e, exec (.routeAccept n) s = .next { s with
          drv := left, courier := s.courier ++ [⟨bits w 17 6, 1, g, 0x302, BitVec.ofNat 32 (bits w 22 18), e⟩] }) ∧
        (bit w 5 = false → exec (.routeAccept n) s = .next { s with
          drv := left
          courier := s.courier ++ [⟨bits w 17 6, 0, g, 0x302, BitVec.ofNat 32 (bits w 22 21 + 4 * bits w 20 18), 0⟩] })) ∧
      (drvInFlight s < 16 → s.pkg.nCores ≤ bits w 17 6 → exec (.routeAccept n) s = .next { s with drv := left })) ∧
    (∀ x : DrvAccess, s.drv.access = [x] → s.drv.eth = [] → s.drv.can = [] → x.result = none →
      x.issued + (reg s Reg.drvMemDl).toNat ≤ now s ∨ cxlLate s x.addr x.reached = true →
      (x.write = none → exec (.drvMemDeadline 0) s = .next { linkForget s (.drover x.id) with
        drv := { s.drv with access := [{ x with sent := true, result := some ([], 0x05) }] } }) ∧
      (x.write ≠ none → x.reached = none → x.job = .csiLine → ∃ t, exec (.drvMemDeadline 0) s = .next t ∧ t.drv.access = [] ∧
        SameRegs s t ∧ SameMemory s t ∧ (csiOf t x.index).cur = (csiOf s x.index).cur.map (CsiRec.failed x.slot 0x05))) ∧
    (∀ (ofs : DWord) (adj : BitVec 16), ptpPort s = true →
      let adjOf := fun u : State => (BitVec.ofNat 16 (fld u Reg.cmpTimeRate 15 0)).toInt
      ∃ t, exec (.ptpSync ofs adj) s = .next t ∧ t.tb = s.tb ∧ reg64 t Reg.drvPtpOfsLo = ofs.toNat ∧ t.drv.ptpLast = some ofs ∧
        SameRegsBut s t [Reg.drvPtpOfsLo, Reg.drvPtpOfsHi, Reg.cmpTimeRate, Reg.drvReady] ∧
        (adjOf t - adjOf s).natAbs ≤ 100 ∧ (s.pkg.pwrok = true → (adj.toInt - adjOf s).natAbs ≤ 100 → adjOf t = adj.toInt) ∧
        (∀ o, s.drv.ptpLast = some o → (ofs - o).toInt.natAbs ≤ 100 → 15 ≤ s.drv.ptpGood → flag t Reg.drvReady 13 = true) ∧
        (∀ o, s.drv.ptpLast = some o → 100 < (ofs - o).toInt.natAbs → t.drv.ptpGood = 0 ∧ reg t Reg.drvReady = reg s Reg.drvReady)) ∧
    ∃ t, exec .ptpSyncMiss s = .next t ∧ flag t Reg.drvReady 13 = false ∧ SameRegsBut s t [Reg.drvReady] ∧ t.tb = s.tb ∧
      t.drv.ptpGood = 0 ∧ t.drv.ptpLast = none

/-- Frames open, take lines, close and leave their record; primers are injected, read back and checked -/
def Obligations.CsiFramesAndPrimers : Prop :=
  ∀ (r : Nat) (stamp : DWord) (s : State),
    let x := csiOf s r
    let n := x.frame
    let cnt := Reg.drvCsiCnt r
    let full := csiSlots s r ≤ (n + 2 ^ 32 - (reg s (Reg.drvCsiRel r)).toNat) % 2 ^ 32
    let at' := stampNear s 20 20 stamp
    let opened : CsiRec := ⟨n, 0, 0, 0, 0, 0, at', 0, 0⟩
    (r < 4 → drvUp s = true → ∃ t, exec (.csiLanesStopState r) s = .next t ∧ OnlyRegs s t [Reg.drvReady] ∧
      flag t Reg.drvReady (2 + r) = true) ∧
    (csiRuns s r = true →
      (x.cur = none → ∃ t, exec (.csiFrameStart r stamp) s = .next t ∧ SameMemory s t ∧ SameRegsBut s t [cnt] ∧
        (csiOf t r).frame = (n + 1) % 2 ^ 32 ∧
        (¬full → (csiOf t r).cur = some opened ∧ reg t cnt = reg s cnt) ∧
        (full → (csiOf t r).cur = none ∧ fld t cnt 15 0 = min (fld s cnt 15 0 + 1) 65535)) ∧
      (∀ f, x.cur = some f → f.arrived = csiLines s r →
        (¬full → ∃ t, exec (.csiFrameStart r stamp) s = .next t ∧ SameMemory s t ∧ (csiOf t r).cur = some opened ∧
          (csiOf t r).closed = x.closed ++ [{ f with tfe := at', flags := f.flags ||| 1 }]) ∧
        (flag s (Reg.drvPrmCfg r) 0 = false → ∀ ecc crcOk, ∃ t, exec (.csiFrameEnd r stamp ecc crcOk) s = .next t ∧ SameMemory s t ∧
          SameRegs s t ∧ (csiOf t r).cur = none ∧ (csiOf t r).closed = x.closed ++ [{ f with tfe := at' }])) ∧
      (∀ f, x.cur = some f → x.closed = [] → x.primers = [] → f.arrived < csiLines s r → flag s (Reg.drvPrmCfg r) 0 = true →
        ∀ ecc crcOk, ∃ t g p, exec (.csiFrameEnd r stamp ecc crcOk) s = .next t ∧ (csiOf t r).cur = none ∧
          (csiOf t r).closed = [g] ∧ g.n = f.n ∧ g.flags = f.flags ||| 1 ∧ g.tfe = at' ∧ (csiOf t r).primers = [p] ∧ p.n = f.n ∧
          p.len = csiBytes s r ∧ p.read = none ∧ p.ecc = ecc ∧ p.crcOk = crcOk) ∧
      (∀ p : CsiPacket,
        let cfg := reg s (Reg.drvCsiCfg r)
        let ours := p.vc.toNat = bits cfg 4 3 ∧ p.dt.toNat = bits cfg 10 5
        (p.ecc = .uncorrectable → ∃ t, exec (.csiLongPacket r p) s = .next t ∧ SameMemory s t ∧ SameRegs s t ∧
          (csiOf t r).cur = x.cur.map fun f => { f with flags := f.flags ||| 8 }) ∧
        (p.ecc ≠ .uncorrectable → ¬ours → ∃ t, exec (.csiLongPacket r p) s = .next t ∧ OnlyRegs s t [cnt] ∧
          fld t cnt 31 16 = min (fld s cnt 31 16 + 1) 65535) ∧
        (p.ecc = .clean → ours → ∀ f, x.cur = some f →
          let a := csiLineAddr s r f.n f.arrived
          let len := roundLine (csiBytes s r)
          let bs := padTo len (p.payload.take (csiBytes s r))
          (csiLines s r ≤ f.arrived → ∃ t, exec (.csiLongPacket r p) s = .next t ∧ SameMemory s t ∧ SameRegs s t ∧
            (csiOf t r).cur = some { f with flags := f.flags ||| 2 }) ∧
          (f.arrived < csiLines s r → ∃ t g, exec (.csiLongPacket r p) s = .next t ∧ (csiOf t r).cur = some g ∧ g.n = f.n ∧
            g.arrived = f.arrived + 1 ∧ g.lines = f.lines + 1 ∧ g.ecc1 = f.ecc1 ∧
            g.crcFails = f.crcFails + (if p.crcOk then 0 else 1) ∧
            g.flags = f.flags ||| (if p.payload.length = csiBytes s r then 0 else 4) ∧
            (PortServes s a len → s.latent = [] → MemoryCanonical s → g.memFail = f.memFail ∧ SameMemoryBut s t a len ∧
              readMem t a len = bs ∧ (p.crcOk = false → isPoisoned t a len = true))))) ∧
      (x.lastFs + (reg s (Reg.drvCsiDl r)).toNat ≤ now s → ∃ t, exec (.csiFsTimeout r) s = .next t ∧ SameMemory s t ∧
        Logged s t 0x05 0 1 r ∧ (csiOf t r).lastFs = x.lastFs + (reg s (Reg.drvCsiDl r)).toNat)) ∧
    (drvUp s = true → s.drv.access = [] → s.latent = [] → MemoryCanonical s →
      (∀ f rest, x.closed = f :: rest →
        let a := regAddr s (Reg.drvCsiRecLo r) / 32 * 32 + f.n % csiSlots s r * 32
        PortServes s a 32 → ∃ t, exec (.csiFrameRecord r) s = .next t ∧ (csiOf t r).closed = rest ∧ (csiOf t r).primRes = 0#2 ∧
          SameRegs s t ∧ SameMemoryBut s t a 32 ∧ readMem t a 32 = csiRecord f x.primRes) ∧
      (∀ p : Primer, x.primers = [p] → p.read = none → roundLine p.len = 64 → p.addr % 64 = 0 → PortServes s p.addr 64 →
        ∃ t, exec (.primerReadback r) s = .next t ∧ SameRegs s t ∧ SameMemory s t ∧ (csiOf t r).primers =
          [{ p with read := some [(readMem s p.addr 64, if isPoisoned s p.addr 64 then 0x02 else 0x00)] }])) ∧
    (drvUp s = true → ∀ (p : Primer) (rest : List Primer) (l : List (List Byte × Byte)), x.primers = p :: rest → p.read = some l →
      p.mem = false → (∀ e ∈ l, e.2 = 0x00 ∨ e.2 = 0x02) →
      let st := Reg.drvPrmStat r
      let same := if primerPoisons p.n then ∀ e ∈ l, e.2 = 0x02
        else (∀ e ∈ l, e.2 = 0x00) ∧ readBytes l = primerExpected s r p.n p.len
      let wrong := if reactionSame p = true then 0 else 8
      let kind := if primerSpoiled p.n = true then primerKind p.n + 4 else 0
      let fails := fun d : Nat => ∃ t, exec (.primerCheckComplete r) s = .next t ∧ (csiOf t r).primRes = 2#2 ∧
        (csiOf t r).primers = rest ∧ fld t st 23 16 = min (fld s st 23 16 + 1) 255 ∧ Logged s t 0x0F d 1 r ∧ SafeEntered s t 0
      let missed := fun d : Nat => ∃ t, exec (.primerCheckComplete r) s = .next t ∧ (csiOf t r).primRes = 3#2 ∧
        (csiOf t r).primers = rest ∧ fld t st 31 24 = min (fld s st 31 24 + 1) 255 ∧ Logged s t 0x10 d 1 r ∧ SafeEntered s t 1
      (same → reactionSame p = true → ∃ t, exec (.primerCheckComplete r) s = .next t ∧ (csiOf t r).primers = rest ∧
        (csiOf t r).primRes = 1#2 ∧ SameRegsBut s t [st] ∧ fld t st 15 0 = min (fld s st 15 0 + 1) 65535) ∧
      (¬same → primerSpoiled p.n = false → fails (16 + wrong)) ∧
      (¬same → primerSpoiled p.n = true → missed (kind + wrong + 16)) ∧
      (same → primerSpoiled p.n = true → reactionThere p = false → missed (kind + 8)) ∧
      (same → reactionSame p = false → primerSpoiled p.n = false ∨ reactionThere p = true → fails (kind + 8)))

/-- Ethernet frames are received and sent through their rings, and the gate control list runs, swaps and blocks -/
def Obligations.EthernetRingsAndGates : Prop :=
  ∀ (o : Origin) (p : Nat) (s : State),
    let e := ethOf s p
    let gcl := Reg.drvEthGclctl p
    let mem := s.latent = [] ∧ MemoryCanonical s ∧ s.drv.access = []
    let b := gclBank s p
    (∀ up, p < 2 → drvUp s = true → ∃ t, exec (.ethBlockLock p up) s = .next t ∧ OnlyRegs s t [Reg.drvReady] ∧
      flag t Reg.drvReady (6 + p) = up) ∧
    (ethRuns s p = true →
      (∀ f : EthFrame,
        (f.fcsOk = false → ∃ t, exec (.ethRxFrame p f) s = .next t ∧ OnlyRegs s t [Reg.drvEthFcserr p] ∧
          reg t (Reg.drvEthFcserr p) = satInc (reg s (Reg.drvEthFcserr p))) ∧
        (f.fcsOk = true → frameLenOk f.bytes.length = false → exec (.ethRxFrame p f) s = .next s) ∧
        (f.fcsOk = true → frameLenOk f.bytes.length = true → frameAddressed s p f = false → flag s (Reg.drvEthCtl p) 1 = false →
          ∃ t, exec (.ethRxFrame p f) s = .next t ∧ OnlyRegs s t [Reg.drvEthFilt p] ∧
            reg t (Reg.drvEthFilt p) = satInc (reg s (Reg.drvEthFilt p))) ∧
        (f.fcsOk = true → frameLenOk f.bytes.length = true → frameAddressed s p f = true ∨ flag s (Reg.drvEthCtl p) 1 = true →
          e.rx = [] → e.back = none → s.drv.access = [] →
          let ring := rxRing s p f
          let a := descAddr s p ring
          let w := descW0 (readMem s a 32)
          let buf := bits w 47 0
          let len := f.bytes.length
          (ringHas s p ring = false → ∃ t, exec (.ethRxFrame p f) s = .next t ∧ SameMemory s t ∧ (ethOf t p).rx = [] ∧
            SameRegsBut s t [Reg.drvEthRxdrop p] ∧ reg t (Reg.drvEthRxdrop p) = satInc (reg s (Reg.drvEthRxdrop p))) ∧
          (mem → ringHas s p ring = true → PortServes s a 32 → PortServes s a 24 → isPoisoned s a 32 = false → bit w 63 = true →
            len ≤ bits w 61 48 → PortServes s buf len → (buf + len ≤ a ∨ a + 32 ≤ buf) →
            ∃ t, exec (.ethRxFrame p f) s = .next t ∧ readMem t buf len = f.bytes ∧ (ethOf t p).rx = [] ∧ (ethOf t p).back = none ∧
              readMem t (a + 8) 8 = leBytes 8 (len + 2 ^ 24 * framePcp f) ∧ readMem t (a + 16) 8 = leBytes 8 (rxStamp s f).toNat ∧
              leNat (readMem t a 8) = w.toNat % 2 ^ 63 ∧ SameRegsBut s t [Reg.drvEthRinghead p ring] ∧
              reg t (Reg.drvEthRinghead p ring) = BitVec.ofNat 32 ((ringHead s p ring + 1) % ringSize s p ring)))) ∧
      ∀ (c : Nat) (stamp : DWord),
        let a := descAddr s p c
        let w := descW0 (readMem s a 32)
        let buf := bits w 47 0
        let len := bits w 61 48
        c < 8 → (∀ d, c < d → d < 8 → ringHas s p d = false) → ringHas s p c = true → gclRuns s p = false → mem →
        PortServes s a 32 → PortServes s a 16 → isPoisoned s a 32 = false →
        (bit w 63 = true → bit w 62 = false → frameLenOk len = true → PortServes s buf len → isPoisoned s buf len = false →
          ∃ t, exec (.ethTxFrame p stamp) s = .next t ∧ leNat (readMem t a 8) = w.toNat % 2 ^ 63 ∧
            readMem t (a + 8) 8 = leBytes 8 0 ∧ SameMemoryBut s t a 16 ∧ SameRegsBut s t [Reg.drvEthRinghead p c] ∧
            reg t (Reg.drvEthRinghead p c) = BitVec.ofNat 32 ((ringHead s p c + 1) % ringSize s p c)) ∧
        (bit w 63 = false ∨ frameLenOk len = false → ∃ t, exec (.ethTxFrame p stamp) s = .next t ∧ readMem t (a + 8) 8 = leBytes 8 0xB0000 ∧
          SameMemoryBut s t a 16 ∧
          reg t (Reg.drvEthRinghead p c) = BitVec.ofNat 32 ((ringHead s p c + 1) % ringSize s p c))) ∧
    (∀ (ring : Nat) (v : Word), p < 2 → ring < 12 →
      let tail := Reg.drvEthRingtail p ring
      let cfg := Reg.drvEthRingcfg p ring
      (s.staged = [] → AllowedWrite s o tail v → ∃ t, exec (.ethTxDoorbell o p ring v) s = .next t ∧ OnlyRegs s t [tail] ∧
        fld t tail 15 0 = bits v 15 0) ∧
      (AllowedWrite s o cfg (putBit v 31 true) → flag s cfg 31 = false → ∃ t, exec (.ethRingEnable o p ring v) s = .next t ∧
        OnlyRegs s t [cfg, Reg.drvEthRinghead p ring] ∧ flag t cfg 31 = true ∧ ringHead t p ring = 0 ∧
        fld t cfg 15 0 = bits v 15 0)) ∧
    (p < 2 →
      (drvUp s = true → edgeDue s p = true →
        (swapDue s p = false →
          let n := if e.running = false ∨ gclLen s p b ≤ e.entry + 1 then 0 else e.entry + 1
          ∃ t, exec (.gateEdge p) s = .next t ∧ SameRegs s t ∧ SameMemory s t ∧ (ethOf t p).running = true ∧
            (ethOf t p).entry = n ∧ (ethOf t p).edgeAt = e.edgeAt + gclInterval s p b n) ∧
        (swapDue s p = true →
          let bad := ∃ i, i < gclLen s p (1 - b) ∧ gclInterval s p (1 - b) i = 0
          (¬bad → ∃ t, exec (.gclSwap p) s = .next t ∧ gclBank t p = 1 - b ∧ flag t gcl 3 = false ∧ (ethOf t p).entry = 0 ∧
            (ethOf t p).edgeAt = e.edgeAt + gclInterval s p (1 - b) 0 ∧ reg t (Reg.drvEthGclbaseLo p) = BitVec.ofNat 32 e.edgeAt) ∧
          (bad → ∃ t, exec (.gclSwap p) s = .next t ∧ gclBank t p = b ∧ flag t gcl 3 = false ∧ Logged s t 0x0B 0 2 p ∧
            (ethOf t p).edgeAt = e.edgeAt + gclInterval s p b 0))) ∧
      (AllowedWrite s o gcl (putBit (reg s gcl) 1 false ||| 1) → flag s gcl 0 = false →
        let base := reg64 s (Reg.drvEthGclbaseLo p)
        let cyc := gclCycle s p b
        ∃ t, exec (.gclEnable o p) s = .next t ∧ SameRegsBut s t [gcl] ∧ SameMemory s t ∧ flag t gcl 0 = true ∧
          (ethOf t p).running = false ∧ (now s ≤ base → (ethOf t p).edgeAt = base) ∧
          (base < now s → 0 < cyc → now s ≤ (ethOf t p).edgeAt ∧ (ethOf t p).edgeAt < now s + cyc ∧
            ∃ k, (ethOf t p).edgeAt = base + k * cyc)) ∧
      (AllowedWrite s o gcl (reg s gcl ||| 2) → flag s gcl 3 = false → ∃ t, exec (.gclSwapArm o p) s = .next t ∧
        OnlyRegs s t [gcl] ∧ flag t gcl 3 = true ∧ flag t gcl 2 = flag s gcl 2))

/-- CAN mailboxes are submitted, launched, sent or withdrawn; accepted frames are queued; the port leaves and rejoins its bus -/
def Obligations.CanPortsSendAndReceive : Prop :=
  ∀ (o : Origin) (c m : Nat) (s : State),
    let ctl := Reg.drvCanMbCtl c m
    let stat := Reg.drvCanStat c
    let rxs := Reg.drvCanRxstat c
    let fifo := (canOf s c).fifo
    let done := fun (t : State) (st : Nat) => SameRegsBut s t [ctl] ∧ SameMemory s t ∧ canMb t c m = none ∧
      flag t ctl 10 = false ∧ fld t ctl 23 16 = st
    (c < 4 → m < 16 → AllowedWrite s o ctl (reg s ctl ||| 0x200) →
      let len := fld s ctl 6 0
      let a := regAddr s (Reg.drvCanMbBufLo c m)
      let fdf := flag s (Reg.drvCanMbId c m) 30
      (flag s ctl 10 = true → exec (.canMbReq o c m) s = .next s) ∧
      (flag s ctl 10 = false → canLenOk len fdf = false → ∃ t, exec (.canMbReq o c m) s = .next t ∧ done t 0x0B) ∧
      (flag s ctl 10 = false → canLenOk len fdf = true → s.drv.access = [] → s.latent = [] →
        len = 0 ∨ (PortServes s a len ∧ isPoisoned s a len = false) → ∃ t x, exec (.canMbReq o c m) s = .next t ∧
          SameMemory s t ∧ SameRegsBut s t [ctl] ∧ flag t ctl 10 = true ∧ canMb t c m = some x ∧ x.reqAt = now s ∧
          x.payload = some (readMem s a len) ∧ x.launched = !flag s ctl 8)) ∧
    (∀ x : CanMb, canMb s c m = some x →
      (drvUp s = true → x.payload.isSome = true → x.launched = false → reg64 s (Reg.drvCanMbTimeLo c m) ≤ now s →
        ∃ t y, exec (.canMbLaunch c m) s = .next t ∧ SameRegs s t ∧ SameMemory s t ∧ canMb t c m = some y ∧ y.launched = true ∧
          y.payload = x.payload ∧ y.reqAt = x.reqAt) ∧
      (∀ errs : Nat, canRuns s c = true → x.launched = true → x.offered = true → canTec s c + 8 * errs ≤ 255 →
        let tec := canTec s c + 8 * errs - 1
        ∃ t, exec (.canTxDone c m errs) s = .next t ∧ SameRegsBut s t [ctl, stat] ∧ SameMemory s t ∧ canMb t c m = none ∧
          flag t ctl 10 = false ∧ fld t ctl 23 16 = 0 ∧ canTec t c = tec ∧ canRec t c = canRec s c ∧
          (fld t stat 1 0 = 1 ↔ 127 < tec ∨ 127 < canRec s c)) ∧
      (drvUp s = true → x.reqAt + (reg s (Reg.drvCanMbDl c m)).toNat ≤ now s →
        ∃ t, exec (.canMbTimeout c m) s = .next t ∧ done t 0x05)) ∧
    (∀ (f : CanFrame) (errs : Nat), canRuns s c = true →
      let counts := fun t : State => canTec t c = canTec s c ∧ canRec t c = recAfter s c errs
      let f' := { f with stamp := stampNear s (now s) 25 f.stamp }
      (canFilter s c f = none → ∃ t, exec (.canRxFrame c f errs) s = .next t ∧ OnlyRegs s t [stat] ∧ counts t) ∧
      (∀ k, canFilter s c f = some k → fifo.length < 64 → ∃ t, exec (.canRxFrame c f errs) s = .next t ∧ SameMemory s t ∧
        counts t ∧ (canOf t c).fifo = fifo ++ [(f', k)] ∧ fld t rxs 6 0 = fifo.length + 1 ∧ fld t rxs 31 16 = fld s rxs 31 16 ∧
        (fifo = [] → reg t (Reg.drvCanRxfId c) = canIdWord f ∧ flag t (Reg.drvCanRxfInfo c) 31 = true ∧
          fld t (Reg.drvCanRxfInfo c) 12 8 = k)) ∧
      (∀ k, canFilter s c f = some k → 64 ≤ fifo.length → ∃ t, exec (.canRxFrame c f errs) s = .next t ∧ OnlyRegs s t [stat, rxs] ∧
        counts t ∧ fld t rxs 31 16 = min (fld s rxs 31 16 + 1) 65535)) ∧
    (c < 4 → fifo.length ≤ 64 → AllowedWrite s o (Reg.drvCanRxpop c) 1 → ∃ t, exec (.canRxPop o c) s = .next t ∧ SameMemory s t ∧
      (canOf t c).fifo = fifo.drop 1 ∧ fld t rxs 6 0 = fifo.length - 1) ∧
    (canRuns s c = true → ∃ t, exec (.canBusOff c) s = .next t ∧ fld t stat 1 0 = 2 ∧ canTec t c = 255 ∧
      Logged s t 0x08 0 3 c ∧ SameMemory s t ∧ (∀ k x, canMb t c k = some x → x.offered = false)) ∧
    (c < 4 → drvUp s = true → flag s (Reg.drvCanCtl c) 0 = true →
      (fld s stat 1 0 = 3 → ∃ t, exec (.canBusIntegration c) s = .next t ∧
        SameRegsBut s t [stat, Reg.drvReady] ∧ SameMemory s t ∧ reg t stat = 0 ∧ flag t Reg.drvReady (8 + c) = true) ∧
      (fld s stat 1 0 = 2 → flag s (Reg.drvCanCtl c) 1 = true → ∃ t, exec (.canBusOffRecovery c) s = .next t ∧
        SameRegsBut s t [stat] ∧ SameMemory s t ∧ reg t stat = 0))

/-! ### Field supply, inputs, encoders, ADC, outputs -/

/-- VFIELD samples show the supply's state and force the outputs; inputs record changes, mask storms, and show open wires -/
def Obligations.FieldSupplyAndInputs : Prop :=
  ∀ s : State, drvUp s = true →
    (let vf := Reg.drvVfield
     let st := fld s vf 18 16
     ∀ mv : BitVec 16,
       let v := mv.toInt
       let shows := fun (t : State) (k : Nat) => fld t vf 15 0 = mv.toNat ∧ fld t vf 18 16 = k ∧ SameMemory s t ∧
         (k ≠ st → flag t Reg.drvReady 12 = decide (k = 0)) ∧ (k ≠ 0 → ∀ o, o < 8 → doutForced t o = true ∧ doutOn t o = false)
       let bad := fun (k d : Nat) => ∃ t, exec (.vfieldSample mv) s = .next t ∧ shows t k ∧ (k ≠ st → Logged s t 0x14 d 8 0)
       (v < -5000 → bad 4 3) ∧ (-5000 ≤ v → v ≤ 5000 → bad 3 4) ∧ (5000 < v → v < 18000 → bad 1 1) ∧ (32000 < v → bad 2 2) ∧
       (18000 ≤ v → v ≤ 32000 → st = 0 → ∃ t, exec (.vfieldSample mv) s = .next t ∧ shows t 0) ∧
       (∀ t0, 19000 ≤ v → v ≤ 31000 → st ≠ 0 → s.drv.okSince = some t0 → t0 + 10000000 ≤ now s →
         ∃ t, exec (.vfieldSample mv) s = .next t ∧ shows t 0) ∧
       (19000 < v → v ≤ 31000 → st ≠ 0 → s.drv.okSince = none → ∃ t, exec (.vfieldSample mv) s = .next t ∧ shows t st ∧
         t.drv.okSince = some (now s))) ∧
    (s.drv.dinWin = dinWindow s → exec .dinStormWindowEnd s = .next s) ∧
    (s.drv.dinWin ≠ dinWindow s →
      exec .dinStormWindowEnd s = .next { s with drv := { s.drv with dinCnt := [], dinWin := dinWindow s } }) ∧
    (∀ (ev : DinEvent) (rest : List DinEvent),
      (s.drv.dinFifo = [] → exec .dinEvtRead s = .next { s with barData := 0 }) ∧
      (s.drv.dinFifo = ev :: rest → ∃ t, exec .dinEvtRead s = .next t ∧ t.drv = { s.drv with dinFifo := rest } ∧
        t.barData = BitVec.ofNat 32 (ev.input % 16 + 16 * ev.value.toNat + 2 ^ 31) ∧ reg64 t Reg.drvDinEvt1 = ev.stamp.toNat ∧
        SameRegsBut s t [Reg.drvDinEvt1, Reg.drvDinEvt2])) ∧
    ∀ i, i < 16 →
      let cfg := Reg.drvDinCfg i
      let usable := vfieldOk s = true ∧ flag s Reg.drvDinStuck i = false ∧ flag s Reg.drvDinOpen i = false
      let sticks := fun t : State => flag t Reg.drvDinStuck i = true ∧ Logged s t 0x14 0x11 4 i ∧
        dinValue t i = flag s cfg 19 ∧ SameMemory s t
      let count := sget (dinCounts s) i 0 + 1
      (∀ (raw : Bool) (stamp : DWord),
        let v := raw != flag s cfg 16
        (dinHeld s i stamp = false → exec (.dinChange i raw stamp) s = .next s) ∧
        (usable → dinHeld s i stamp = true → dinValue s i ≠ v →
          (v = false → s.drv.dinFifo.length < 64 → ∃ t, exec (.dinChange i raw stamp) s = .next t ∧ SameRegs s t ∧
            SameMemory s t ∧ t.drv.dinFifo = s.drv.dinFifo ++ [⟨i, v, stamp⟩] ∧ dinValue t i = v) ∧
          (v = true → s.drv.dinFifo.length < 64 → fld s cfg 15 10 ≠ count → ∃ t, exec (.dinChange i raw stamp) s = .next t ∧
            SameRegs s t ∧ SameMemory s t ∧ t.drv.dinFifo = s.drv.dinFifo ++ [⟨i, v, stamp⟩] ∧ dinValue t i = v ∧
            sget t.drv.dinCnt i 0 = count ∧ t.drv.dinWin = dinWindow s ∧
            ((∀ e ∈ s.drv.dinOnAt, e.1 ≠ i) → sget t.drv.dinOnAt i 0 = now s)) ∧
          (v = true → fld s cfg 15 10 = count → ∃ t, exec (.dinChange i raw stamp) s = .next t ∧ sticks t) ∧
          (64 ≤ s.drv.dinFifo.length → ∃ t, exec (.dinChange i raw stamp) s = .next t ∧ t.drv.dinFifo = s.drv.dinFifo ∧
            t.drv.dinOvf = satInc s.drv.dinOvf)) ∧
        (¬usable → dinHeld s i stamp = true → ∃ t, exec (.dinChange i raw stamp) s = .next t ∧ SameRegs s t ∧ SameMemory s t ∧
          t.drv = { s.drv with dinRaw := t.drv.dinRaw, dinRun := t.drv.dinRun } ∧ bit t.drv.dinRaw i = raw)) ∧
      (fld s cfg 31 20 ≠ 0 → usable → dinValue s i = true → sget s.drv.dinOnAt i (now s) + 1000000 * fld s cfg 31 20 ≤ now s →
        ∃ t, exec (.dinHighmax i) s = .next t ∧ sticks t) ∧
      (flag s cfg 17 = true → ∃ t, exec (.dinOpen i) s = .next t ∧ flag t Reg.drvDinOpen i = true ∧ Logged s t 0x14 0x10 4 i ∧
        dinValue t i = flag s cfg 19 ∧ SameMemory s t) ∧
      ∃ t, exec (.dinOpenClear i) s = .next t ∧ SameRegsBut s t [Reg.drvDinOpen] ∧ SameMemory s t ∧ flag t Reg.drvDinOpen i = false

/-- Encoders count legal transitions and latch; ADC channels sample together, fill their lines, and protect their shunt -/
def Obligations.EncodersAndAdcChannels : Prop :=
  ∀ (o : Origin) (n : Nat) (s : State),
    (n < 4 → drvUp s = true →
      let pos := Reg.drvEncPos n
      let stat := Reg.drvEncStat n
      let a0 := bit s.drv.encA n
      let b0 := bit s.drv.encB n
      (∀ (a b : Bool) (since : DWord),
        let early := encEarly s n since
        (encHeld s n since = false ∨ a = a0 ∧ b = b0 → exec (.encoderEdge n a b since) s = .next s) ∧
        (encHeld s n since = true → encRuns s n = true → (a = a0 ↔ b ≠ b0) → ∃ t, exec (.encoderEdge n a b since) s = .next t ∧
          SameMemory s t ∧ sget t.drv.encAt n 0 = since.toNat ∧ bit t.drv.encA n = a ∧ bit t.drv.encB n = b ∧
          SameRegsBut s t [pos, stat] ∧ flag t stat 0 = (flag s stat 0 || early) ∧
          reg t pos = if ((a != a0) == (a0 == b0)) = Config.encUp then reg s pos + 1 else reg s pos - 1) ∧
        (encHeld s n since = true → encRuns s n = true → a ≠ a0 → b ≠ b0 → ∃ t, exec (.encoderEdge n a b since) s = .next t ∧
          SameRegsBut s t [Reg.drvEncIllegal n, stat] ∧ flag t stat 0 = (flag s stat 0 || early) ∧
          reg t (Reg.drvEncIllegal n) = satInc (reg s (Reg.drvEncIllegal n))) ∧
        (encRuns s n = false → ∃ t, exec (.encoderEdge n a b since) s = .next t ∧ SameRegs s t ∧ SameMemory s t)) ∧
      (∀ stamp : DWord, encRuns s n = true → ∃ t, exec (.encoderZEdge n stamp) s = .next t ∧ reg t (Reg.drvEncZpos n) = reg s pos ∧
        reg t (Reg.drvEncZtimeLo n) = (stampNear s 4 4 stamp).setWidth 32 ∧ sget t.drv.encZ n 0 = stampNear s 4 4 stamp ∧
        flag t stat 3 = true ∧
        SameRegsBut s t [Reg.drvEncZpos n, Reg.drvEncZtimeLo n, stat]) ∧
      (∃ t, exec (.encZtimeRead n) s = .next t ∧ t.barData = (sget s.drv.encZ n 0).setWidth 32 ∧
        reg t (Reg.drvEncZtimeHi n) = BitVec.ofNat 32 ((sget s.drv.encZ n 0).toNat / 2 ^ 32) ∧
        SameRegsBut s t [Reg.drvEncZtimeHi n] ∧ t.drv = s.drv) ∧
      (vfieldOk s = true → fld s (Reg.drvEncCfg n) 2 1 = 0 → ∃ t, exec (.encoderOpen n) s = .next t ∧ flag t stat 1 = true ∧
        Logged s t 0x14 0x30 5 n ∧ SameMemory s t)) ∧
    (∀ v : Word, n < 4 → s.staged = [] → AllowedWrite s o (Reg.drvEncPos n) v →
      ∃ t, exec (.encPosWrite o n v) s = .next t ∧ OnlyRegs s t [Reg.drvEncPos n] ∧ reg t (Reg.drvEncPos n) = v) ∧
    (∀ v : Word, s.staged = [] → AllowedWrite s o Reg.drvEncSnaptLo v → ∃ t, exec (.snaptArm o v) s = .next t ∧
      OnlyRegs s t [Reg.drvEncSnaptLo, Reg.drvEncSnapstat] ∧ reg t Reg.drvEncSnaptLo = v ∧ flag t Reg.drvEncSnapstat 0 = true) ∧
    (drvUp s = true → flag s Reg.drvEncSnapstat 0 = true → reg64 s Reg.drvEncSnaptLo ≤ now s →
      ∃ t, exec .encoderSnapshot s = .next t ∧ flag t Reg.drvEncSnapstat 0 = false ∧ flag t Reg.drvEncSnapstat 1 = true ∧
        ∀ e, e < 4 → reg t (Reg.drvEncSnappos e) = reg s (Reg.drvEncPos e) ∧ reg t (Reg.drvEncPos e) = reg s (Reg.drvEncPos e)) ∧
    (AllowedWrite s o Reg.drvAdcCtl 1 → flag s Reg.drvAdcCtl 0 = false → 0 < (reg s Reg.drvAdcPeriod).toNat →
      ∃ t, exec (.adcRun o) s = .next t ∧ SameRegsBut s t [Reg.drvAdcCtl] ∧ flag t Reg.drvAdcCtl 0 = true ∧
        now s ≤ adcInstant t ∧ (t.drv.adcK = 0 ∨ adcInstant t < now s + (reg s Reg.drvAdcPeriod).toNat)) ∧
    (n < 8 →
      let cfg := Reg.drvAdcCfg n
      let stat := Reg.drvAdcStat n
      let x := adcOf s n
      (AllowedWrite s o cfg (reg s cfg ||| 1) → flag s cfg 0 = false → ∃ t, exec (.adcEnable o n) s = .next t ∧
        SameRegsBut s t [cfg, stat, Reg.drvAdcWidx n] ∧ SameMemory s t ∧ flag t cfg 0 = true ∧ reg t (Reg.drvAdcWidx n) = 0 ∧
        adcOf t n = { x with samples := [] }) ∧
      (drvUp s = true →
        (∀ t0, x.shuntOff = some t0 →
          (t0 + 10000000 ≤ now s → ∃ t, exec (.adcShuntReconnect n) s = .next t ∧ SameRegs s t ∧ SameMemory s t ∧
            adcOf t n = { x with shuntOff := none }) ∧
          (now s < t0 + 10000000 → exec (.adcShuntReconnect n) s = .next s)) ∧
        (flag s cfg 1 = true → x.shuntOff = none → ∃ t, exec (.adcOverrange n) s = .next t ∧ SameMemory s t ∧
          adcOf t n = { x with shuntOff := some (now s) } ∧
          flag t stat 0 = true ∧ Logged s t 0x14 0x41 6 n ∧ (vfieldOk s = true → ∀ u, adcRead t n u = 0x7FFF)) ∧
        (flag s cfg 1 = true → flag s cfg 2 = true → ∃ t, exec (.adcOpen n) s = .next t ∧ SameMemory s t ∧ flag t stat 1 = true ∧
          Logged s t 0x14 0x40 6 n))) ∧
    (∀ us : List Int, drvUp s = true → flag s Reg.drvAdcCtl 0 = true → adcInstant s ≤ now s →
      let at' := BitVec.ofNat 64 (adcInstant s)
      let code := fun a : Nat => adcRead s a (nth us a 0)
      ((∀ a, a < 8 → flag s (Reg.drvAdcCfg a) 0 = true → (adcOf s a).samples.length < 27) →
        ∃ t, exec (.adcSample us) s = .next t ∧ SameRegs s t ∧ SameMemory s t ∧ t.drv.adcK = s.drv.adcK + 1 ∧
          ∀ a, a < 8 → adcOf t a = if flag s (Reg.drvAdcCfg a) 0 then { adcOf s a with
            samples := (adcOf s a).samples ++ [code a]
            first := if (adcOf s a).samples = [] then at' else (adcOf s a).first } else adcOf s a) ∧
      (n < 8 → (∀ a, a < 8 → (flag s (Reg.drvAdcCfg a) 0 = true ↔ a = n)) → (adcOf s n).samples.length = 27 →
        let w := reg s (Reg.drvAdcWidx n)
        let a := regAddr s (Reg.drvAdcBaseLo n) + w.toNat % 2 ^ fld s (Reg.drvAdcRing n) 3 0 * 64
        PortServes s a 64 → s.latent = [] → MemoryCanonical s → ∃ t, exec (.adcSample us) s = .next t ∧
          SameRegsBut s t [Reg.drvAdcWidx n] ∧ reg t (Reg.drvAdcWidx n) = w + 1 ∧ (adcOf t n).samples = [] ∧
          SameMemoryBut s t a 64 ∧ readMem t a 64 = leBytes 8 (adcOf s n).first.toNat ++
            ((adcOf s n).samples ++ [code n]).flatMap fun c => leBytes 2 c.toNat))

/-- Safe outputs trip, show their readback and faults, retry, are pulsed, and follow their command again only after REARM -/
def Obligations.SafeOutputsTripAndRearm : Prop :=
  ∀ (o : Origin) (s : State),
    (AllowedWrite s o Reg.drvDoutCtl 1 → ∃ t, exec (.rearm o) s = .next t ∧ SameMemory s t ∧ SameCores s t ∧ ∀ n, n < 8 →
      (forceCause s n = false → doutForced t n = false ∧ doutCommand t n = flag s Reg.drvDoutCmd n) ∧
      (forceCause s n = true → reg t (Reg.drvDoutStat n) = reg s (Reg.drvDoutStat n) ∧ doutOf t n = doutOf s n)) ∧
    ∀ n, n < 8 → drvUp s = true →
      let stat := Reg.drvDoutStat n
      let old := flag s (Reg.drvDoutCfg n) 1
      let trips := fun (t : State) (b d : Nat) => flag t stat b = true ∧ flag t stat 0 = false ∧ Logged s t 0x14 d 7 n ∧
        doutOf t n = { doutOf s n with tripped := true, triedAt := now s } ∧ doutOn t n = false ∧ SameMemory s t
      let faults := fun (t : State) (b d : Nat) => flag t stat b = true ∧ Logged s t 0x14 d 7 n ∧ doutOf t n = doutOf s n ∧
        doutOn t n = doutOn s n ∧ SameMemory s t
      let shows := fun (t : State) (r : Bool) => OnlyRegs s t [stat] ∧ flag t stat 0 = r ∧ ∀ b, 0 < b → b < 32 → flag t stat b = flag s stat b
      (doutOn s n = true → ∃ t, exec (.doutShortTrip n) s = .next t ∧ trips t 2 0x20) ∧
      (∃ t, exec (.doutOvertemp n) s = .next t ∧ trips t 5 0x23) ∧
      (∀ (pin vf : Int) (long : Bool),
        (doutOn s n = true → pin < vf - 1000 → ∃ t, exec (.doutReadback n pin vf long) s = .next t ∧ trips t 2 0x20) ∧
        (doutOn s n = true → vf - 1000 ≤ pin →
          ((old && long) = true → ∃ t, exec (.doutReadback n pin vf long) s = .next t ∧ faults t 4 0x22 ∧ flag t stat 0 = true) ∧
          ((old && long) = false → ∃ t, exec (.doutReadback n pin vf long) s = .next t ∧ shows t true)) ∧
        (doutOn s n = false →
          (10000 < pin → ∃ t, exec (.doutReadback n pin vf long) s = .next t ∧ faults t 3 0x21) ∧
          (pin ≤ 10000 → old = true → 3000 ≤ pin → pin ≤ 6000 →
            ∃ t, exec (.doutReadback n pin vf long) s = .next t ∧ faults t 4 0x22 ∧ flag t stat 0 = false) ∧
          (pin ≤ 10000 → old = false ∨ pin < 3000 ∨ 6000 < pin →
            ∃ t, exec (.doutReadback n pin vf long) s = .next t ∧ shows t false))) ∧
      (flag s (Reg.drvDoutCfg n) 2 = true → doutCommand s n = true → (doutOf s n).tripped = true →
        (doutOf s n).triedAt + 1000000 * fld s (Reg.drvDoutCfg n) 15 8 ≤ now s → ∃ t, exec (.doutRetry n) s = .next t ∧
        SameRegs s t ∧ SameMemory s t ∧ doutOf t n = { doutOf s n with tripped := false }) ∧
      (∀ pin : Int, flag s (Reg.drvDoutCfg n) 16 = true → doutOn s n = true →
        (doutOf s n).pulseAt + 1000000 * fld s (Reg.drvDoutCfg n) 31 24 ≤ now s →
        (pin < 2000 → ∃ t, exec (.doutTestPulse n pin) s = .next t ∧ SameRegs s t ∧ SameMemory s t ∧
          doutOf t n = { doutOf s n with pulseAt := now s }) ∧
        (2000 ≤ pin → ∃ t, exec (.doutTestPulse n pin) s = .next t ∧ doutForced t n = true ∧ doutOn t n = false ∧
          Logged s t 0x14 0x24 7 n ∧ SameMemory s t))

/-- Digests are paired, watchdogs are kicked in their window, the e-stop latches; every failure is logged and enters the safe state -/
def Obligations.TwinsWatchdogsAndEstop : Prop :=
  ∀ (o : Origin) (n : Nat) (v : Word) (s : State),
    (n < 4 →
      let stat := Reg.drvTwinStat n
      let x := twinOf s n
      let fault := fun (t : State) (st d : Nat) => flag t stat 31 = true ∧ Logged s t st d 10 n ∧ SafeEntered s t 2 ∧ SameMemory s t
      let en := flag s (Reg.drvTwinCfg n) 0 = true ∧ flag s stat 31 = false
      let e := (v, originNode o)
      (AllowedWrite s o (Reg.drvTwinSuba n) v →
        (flag s (Reg.drvTwinCfg n) 0 = false ∨ flag s stat 31 = true → exec (.twinSubmit o n false v) s = .next s) ∧
        (en → x.fifoA.length < 8 → x.fifoB = [] → ∃ t, exec (.twinSubmit o n false v) s = .next t ∧ SameRegsBut s t [stat] ∧
          SameMemory s t ∧ (twinOf t n).fifoA = x.fifoA ++ [e] ∧ (twinOf t n).fifoB = [] ∧
          fld t stat 19 16 = x.fifoA.length + 1 ∧ fld t stat 23 20 = 0) ∧
        (∀ d rest, en → x.fifoA = [] → x.fifoB = d :: rest → rest.length < 8 →
          (d.1 = v → ∃ t, exec (.twinSubmit o n false v) s = .next t ∧ SameRegsBut s t [stat] ∧ (twinOf t n).fifoA = [] ∧
            (twinOf t n).fifoB = rest ∧ fld t stat 15 0 = (fld s stat 15 0 + 1) % 65536 ∧ flag t stat 31 = false) ∧
          (d.1 ≠ v → ∃ t, exec (.twinSubmit o n false v) s = .next t ∧ fault t 0x11 0 ∧
            fld t (Reg.drvTwinSrc n) 11 0 = originNode o % 4096 ∧ fld t (Reg.drvTwinSrc n) 27 16 = d.2 % 4096)) ∧
        (en → 8 ≤ x.fifoA.length → ∃ t, exec (.twinSubmit o n false v) s = .next t ∧ fault t 0x0B 3 ∧ twinOf t n = x)) ∧
      (AllowedWrite s o (Reg.drvTwinSubb n) v → en → x.fifoB.length < 8 → x.fifoA = [] →
        ∃ t, exec (.twinSubmit o n true v) s = .next t ∧ SameRegsBut s t [stat] ∧ (twinOf t n).fifoB = x.fifoB ++ [e] ∧
          (twinOf t n).fifoA = [] ∧ fld t stat 23 20 = x.fifoB.length + 1) ∧
      (drvUp s = true → en → x.since + (reg s (Reg.drvTwinSkew n)).toNat ≤ now s →
        (x.fifoA ≠ [] → x.fifoB = [] → ∃ t, exec (.twinSkewTimeout n) s = .next t ∧ fault t 0x05 1) ∧
        (x.fifoA = [] → x.fifoB ≠ [] → ∃ t, exec (.twinSkewTimeout n) s = .next t ∧ fault t 0x05 2)) ∧
      (AllowedWrite s o (Reg.drvTwinCfg n) (putBit (reg s (Reg.drvTwinCfg n)) 0 false) → flag s Reg.drvLock 0 = false →
        ∃ t, exec (.twinDisable o n) s = .next t ∧ SameRegsBut s t [Reg.drvTwinCfg n, stat] ∧ flag t (Reg.drvTwinCfg n) 0 = false ∧
          flag t stat 31 = false ∧ fld t stat 23 16 = 0 ∧ twinOf t n = Twin.reset)) ∧
    (n < 8 →
      let cfg := Reg.drvWdCfg n
      let stat := Reg.drvWdStat n
      let w := wdogOf s n
      let per := (reg s (Reg.drvWdPeriod n)).toNat
      let miss := fun (t : State) (d : Nat) => flag t stat 16 = true ∧ (wdogOf t n).running = false ∧ Logged s t 0x12 d 11 n ∧
        SafeEntered s t 3 ∧ SameMemory s t
      (AllowedWrite s o cfg (reg s cfg ||| 1) → flag s cfg 0 = false → ∃ t, exec (.watchdogArm o n) s = .next t ∧
        SameRegsBut s t [cfg, stat] ∧ flag t cfg 0 = true ∧ fld t stat 15 0 = 0 ∧ wdogOf t n = ⟨now s, true, true⟩) ∧
      (AllowedWrite s o (Reg.drvWdKick n) v →
        let early := w.first = false ∧ now s < w.lastKick + (reg s (Reg.drvWdOpen n)).toNat
        let wrong := bits v 31 16 ≠ fld s cfg 31 16 ∨ bits v 15 0 ≠ fld s stat 15 0
        (originNode o ≠ fld s cfg 15 4 ∨ w.running = false → exec (.watchdogKick o n v) s = .next s) ∧
        (originNode o = fld s cfg 15 4 → w.running = true →
          (w.lastKick + per < now s → ∃ t, exec (.watchdogKick o n v) s = .next t ∧ miss t 3) ∧
          (now s ≤ w.lastKick + per → early → ∃ t, exec (.watchdogKick o n v) s = .next t ∧ miss t 1) ∧
          (now s ≤ w.lastKick + per → ¬early → wrong → ∃ t, exec (.watchdogKick o n v) s = .next t ∧ miss t 2) ∧
          (now s ≤ w.lastKick + per → ¬early → ¬wrong → ∃ t, exec (.watchdogKick o n v) s = .next t ∧ SameRegsBut s t [stat] ∧
            fld t stat 15 0 = (fld s stat 15 0 + 1) % 65536 ∧ wdogOf t n = ⟨now s, false, true⟩))) ∧
      (drvUp s = true → w.running = true → w.lastKick + per ≤ now s → ∃ t, exec (.watchdogExpire n) s = .next t ∧ miss t 3)) ∧
    (estopRuns s = true →
      (∀ a b : Bool,
        let demanded := estopDemanded (stopSample s a b) = true
        let acts := s.drv.stopSeen = false ∨ flag s Reg.drvEstopStat 1 = false
        (demanded → acts → ∃ t, exec (.estopDemand a b) s = .next t ∧ flag t Reg.drvEstopStat 1 = true ∧
          Logged s t 0x00 0x51 12 0 ∧ SameMemory s t ∧ t.drv.stopSeen = true ∧
          ∀ k, k < 8 → flag s Reg.drvEstopCfg (16 + k) = true → doutForced t k = true) ∧
        (¬(demanded ∧ acts) → ∃ t, exec (.estopDemand a b) s = .next t ∧ SameRegs s t ∧ SameMemory s t ∧
          (t.drv.stopSeen = true ↔ demanded))) ∧
      (∀ t0, s.drv.stopApart = some t0 → channelsApart s = true → flag s Reg.drvEstopStat 2 = false →
        t0 + 1000000 * fld s Reg.drvEstopCfg 31 24 ≤ now s → ∃ t, exec .estopDiscrepancy s = .next t ∧
        flag t Reg.drvEstopStat 2 = true ∧ Logged s t 0x14 0x50 12 0 ∧ estopDemanded t = true ∧ SameMemory s t))

/-! ### Resets and power -/

/-- Core and region resets begin and end, releases start resident kernels, blocks change power only when idle -/
def Obligations.CoreAndBlockResetsAndPower : Prop :=
  ∀ (o : Origin) (c b : Nat) (v : Word) (s : State),
    let rst := Reg.cmpCoreRst
    let pw := Reg.cmpBlkPwr b
    let reaches' := fun (op : Nat) => c < s.pkg.nCores ∧ AllowedWrite s o rst (BitVec.ofNat 32 (c % 1024 + 4096 * op + 65536)) ∧
      (guardedOrigin o = true ∨ coreGuarded s c = false) ∧ s.staged = [] ∧ flag s rst 17 = false
    let begins := fun (t : State) (j : CoreResetJob) => (core t c).resetJob = some j ∧ (core t c).run ≠ .running ∧
      blockReady t (blockOf c) = false
    (reaches' 0 → (core s c).resetJob = none → ∃ t, exec (.coreReset o c) s = .next t ∧ begins t ⟨false, false, true⟩) ∧
    (reaches' 2 → (core s c).resetJob = none → ∃ t, exec (.coreResetRelease o c) s = .next t ∧ begins t ⟨false, true, true⟩) ∧
    (reaches' 1 →
      (mayRelease s c = true → headerOk s c = true → s.latent = [] → isPoisoned s (localBase c) 32 = false →
        ∃ t, exec (.coreRelease o c) s = .next t ∧ SameMemory s t ∧ (core t c).run = .running ∧ (core t c).resident = true ∧
          flag t rst 17 = false ∧ fld t rst 31 24 = 0 ∧ (thr t ⟨c, 0⟩).status = .started ∧ (thr t ⟨c, 0⟩).pc = headerWord s c 4) ∧
      (mayRelease s c = false → ∃ t, exec (.coreRelease o c) s = .next t ∧ OnlyRegs s t [rst] ∧ fld t rst 31 24 = 0x0B)) ∧
    (AllowedWrite s o Reg.cmpRgnRstLo v → guardedOrigin o = true → s.staged = [] → ∃ t, exec (.regionReset o v) s = .next t ∧
      ∀ k, k < s.pkg.nCores → blockOf k < 32 → bit v (blockOf k) = true → (core s k).resetJob = none →
        (core t k).resetJob.isSome = true ∧ (core t k).run ≠ .running ∧ blockReady t (blockOf k) = false) ∧
    (∀ j : CoreResetJob, (core s c).resetJob = some j → storesDone s c = true → tileWritesDone s c = true → partUp s = true →
      j.release = false → ∃ t, exec (.coreResetComplete c) s = .next t ∧ (core t c).resetJob = none ∧ (core t c).run = .parked ∧
        coreCsr t c 0x11D = coreCsr s c 0x11D ∧ (∀ i, (thr t ⟨c, i⟩).status = .idle ∧ ∀ r, greg t ⟨c, i⟩ r = 0) ∧
        (j.zeroMemory = false → SameMemory s t) ∧
        (j.zeroMemory = true → SameMemoryBut s t (localBase c) (localSize c) ∧
          ∀ k, k < localSize c → byteAt t (localBase c + k) = 0)) ∧
    (b < s.pkg.nBlocks →
      (AllowedWrite s o pw 0 → ∃ t, exec (.blockRun o b) s = .next t ∧ OnlyRegs s t [pw] ∧ fld t pw 1 0 = 0 ∧ fld t pw 15 8 = 0 ∧
        (blockState s b ≠ 0 → flag t pw 6 = true)) ∧
      (∀ (q : Nat) (i : Instr), (i = .blockNap o b ∧ q = 1 ∨ i = .blockDoze o b ∧ q = 2 ∨ i = .blockOff o b ∧ q = 3) →
        AllowedWrite s o pw (BitVec.ofNat 32 q) →
        (blockIdle s b = true → ∃ t, exec i s = .next t ∧ OnlyRegs s t [pw] ∧ fld t pw 1 0 = q ∧ fld t pw 15 8 = 0 ∧
          (blockState s b ≠ q → flag t pw 6 = true)) ∧
        (blockIdle s b = false → ∃ t, exec i s = .next t ∧ OnlyRegs s t [pw] ∧ fld t pw 1 0 = fld s pw 1 0 ∧
          fld t pw 15 8 = 0x0B ∧ blockState t b = blockState s b)) ∧
      (partUp s = true → s.pkg.slumber = false → flag s pw 6 = true →
        let q := fld s pw 1 0
        let ends := fun (t : State) (st : Nat) (more : Bool) => exec (.blockPowerTransitionEnd b) s = .next t ∧
          blockState t b = st ∧ flag t pw 6 = more
        (blockState s b = q → ∃ t, ends t q false ∧ OnlyRegs s t [pw]) ∧
        (blockState s b ≠ q → blockState s b ≠ 0 → ∃ t, ends t 0 (decide (q ≠ 0)) ∧ SameMemory s t) ∧
        (blockState s b = 0 → q ≠ 0 → blockIdle s b = false → ∃ t, ends t 0 false ∧ OnlyRegs s t [pw] ∧ fld t pw 1 0 = 0 ∧
          fld t pw 15 8 = 0x0B) ∧
        (blockState s b = 0 → q = 1 → blockIdle s b = true → ∃ t, ends t 1 false ∧ SameMemory s t ∧ SameCores s t) ∧
        (blockState s b = 0 → 2 ≤ q → blockIdle s b = true → ∃ t, ends t q false ∧ blockReady t b = false ∧
          (q = 2 → SameMemory s t) ∧ ∀ k, k < s.pkg.nCores → blockOf k = b → (core t k).run = .parked ∧
            (q = 3 → ∀ j, j < localSize k → byteAt t (localBase k + j) = 0))))

/-- Each reset reaches what the manual says and keeps the rest; the Drover boots; the part sleeps and wakes -/
def Obligations.PackageResetsAndSlumber : Prop :=
  ∀ s : State,
    let p := s.pkg
    let unset := fun (t : State) (o : Nat) => reg t o = p.resetWord o
    let ready := fun t : State => (∀ b, b < p.nBlocks → blockReady t b = true) ∧ SameMemory s t ∧ t.drv = s.drv
    (∃ t, exec .pwrokLow s = .next t ∧ t.tb = 0 ∧ t.pkg.pwrok = false ∧ t.pkg.hostUp = false ∧ t.drv = s.drv ∧
      (∀ o, o < 0x3000000 → unset t o) ∧ (∀ o, 0x3000000 ≤ o → reg t o = reg s o) ∧
      (∀ a, a < 0x100000000000 ∨ (0x400000000000 ≤ a ∧ a < 2 ^ 48) → byteAt t a = 0) ∧
      ∀ c, isDrvCore c = false → core t c = Core.reset) ∧
    (p.pwrok = false → p.perst = true → ∃ t, exec .pwrokHigh s = .next t ∧ t.tb = 0 ∧ t.pkg = { p with pwrok := true, resetAt := 0 } ∧
      ready t) ∧
    (p.hasDrover = true → ∃ t, exec .droverPor s = .next t ∧ t.drv = Drover.reset ∧ (∀ o, 0x3000000 ≤ o → unset t o) ∧
      (∀ o, o < 0x3000000 → reg t o = reg s o) ∧ (∀ n, doutOn t n = false) ∧
      (∀ c, isDrvCore c = false → core t c = core s c) ∧ SameMemoryBut s t (localBase Config.drvPair) 0x100000) ∧
    (p.hasDrover = true → s.drv.por = true ∨ s.drv.resetting = true → ∀ flash, ∃ t, exec (.droverBoot flash) s = .next t ∧
      t.drv.por = false ∧ t.drv.resetting = false ∧ drvUp t = true ∧
      ((core t Config.drvPair).run = .running → flag t Reg.drvReady 0 = true) ∧
      ((core t Config.drvHk).run = .running → flag t Reg.drvReady 1 = true)) ∧
    (drvUp s = true → (core s Config.drvHk).run = .running → ∀ flash, exec (.droverBoot flash) s = .next s) ∧
    (drvUp s = true → (core s Config.drvHk).run ≠ .running → ∀ flash, ∃ t, exec (.droverBoot flash) s = .next t ∧
      core t Config.drvPair = core s Config.drvPair ∧
      ((core t Config.drvHk).run = .running → flag t Reg.drvReady 1 = true)) ∧
    ((∀ e ∈ s.cores, e.2.lane = []) → ∃ t, exec .perstLow s = .next t ∧ SameMemory s t ∧ t.tb = s.tb ∧ t.drv = s.drv ∧
      t.pkg.perst = false ∧ t.pkg.hostUp = false ∧ t.pkg.memStart = false ∧ t.queues = [] ∧ t.links = [] ∧ t.bundles = [] ∧
      (∀ o, packageKeeps o = false → unset t o) ∧ (∀ o, packageKeeps o = true → reg t o = reg s o) ∧
      ∀ c, isDrvCore c = false → (core t c).run = .parked ∧ coreCsr t c 0x11D = coreCsr s c 0x11D) ∧
    (p.perst = false → p.pwrok = true → ∃ t, exec .perstHigh s = .next t ∧ t.tb = s.tb ∧
      t.pkg = { p with perst := true, resetAt := now s } ∧ ready t) ∧
    (partUp s = true → exec .hostPortLinkUp s = .next { s with pkg := { p with hostUp := true } }) ∧
    (partUp s = true → p.hostUp = true → p.slumber = false → ∃ t, exec .flr s = .next t ∧ t.queues = [] ∧ t.kernels = [] ∧
      t.links = [] ∧ t.bundles = [] ∧ t.evq = [] ∧ t.errq = s.errq.filter (fun r => r.ctx.isNone) ∧
      (∀ o, o < 0x1000000 → o ≠ Reg.sraAlertOvf → o ≠ Reg.lnkChip → unset t o) ∧
      ∀ c, c < p.nCores → coreSpared s c = false → (core t c).resetJob.isSome = true) ∧
    (partUp s = true → p.hostUp = true → p.d3hot = false →
      (flag s Reg.sraPwr 0 = false → exec .d3hotEntry s = .next { s with pkg := { p with d3hot := true } }) ∧
      (flag s Reg.sraPwr 0 = true → (∃ c, c < 64 ∧ ctxState s c ≠ 0) → ∃ t, exec .d3hotEntry s = .next t ∧
        t.pkg = { p with d3hot := true } ∧ SameRegsBut s t [Reg.sraPwr] ∧ SameMemory s t ∧ flag t Reg.sraPwr 9 = true) ∧
      (flag s Reg.sraPwr 0 = true → (∀ c, c < 64 → ctxState s c = 0) → ∃ t, exec .d3hotEntry s = .next t ∧
        t.pkg = { p with d3hot := true, slumber := true } ∧ t.drv = s.drv ∧ t.tb = s.tb ∧
        (∀ b, b < p.nBlocks → blockState t b = 3) ∧ (∀ u, u < p.nUnits → unitReady t u = false) ∧
        ∀ i, i < p.nSerai → (∀ l, l < 32 → linkState t i l = 0 ∧ flag t (Reg.lnkReady i) l = false) ∧
          ∀ b, b < 16 → bundleState t i b = 0)) ∧
    (partUp s = true → p.d3hot = true →
      (p.slumber = false → exec .slumberExit s = .next { s with pkg := { p with d3hot := false, slumber := false } }) ∧
      (p.slumber = true → ∃ t, exec .slumberExit s = .next t ∧ t.pkg = { p with d3hot := false, slumber := false } ∧
        SameMemory s t ∧ SameCores s t ∧ flag t Reg.sraPwr 8 = true ∧
        (∀ u, u < p.nUnits → (memUnit s u).selfRef = true → unitReady t u = true) ∧
        (∀ i l, i < p.nSerai → l < 32 → flag s (Reg.lnkCtl i l) 0 = true → linkState t i l = 1) ∧
        ∀ q, q < 2 * p.nSerai → fld t (Reg.cmpTierW0 q) 3 0 = 0))

/-! ### The whole machine -/

/-- After reset memory is canonical, no command waits, and cores, contexts, links, outputs and registers are as the manual says -/
def Obligations.ResetHoldsTheManualsValues : Prop :=
  let s := State.reset
  MemoryCanonical s ∧ s.pending = [] ∧ s.tb = 0 ∧ (∀ c, core s c = Core.reset) ∧ (∀ c, c < 64 → ctxState s c = 0) ∧
  (∀ i l, i < 2 → l < 32 → linkState s i l = 0 ∧ reg s (Reg.lnkCtl i l) = 8) ∧
  (∀ i b, i < 2 → b < 16 → bundleState s i b = 0 ∧ (reg s (Reg.lnkBndDl i b)).toNat = 100000 ∧
    (reg s (Reg.lnkBndRtmr i b)).toNat = 2000) ∧
  (∀ o, o < 8 → doutForced s o = true ∧ doutOn s o = false ∧ fld s (Reg.drvDoutCfg o) 15 8 = 100) ∧
  (∀ b, b < 48 → blockReady s b = false ∧ reg s (Reg.cmpBlkPwr b) = 0) ∧
  (∀ r, r < 4 → fld s (Reg.drvCsiCfg r) 10 5 = 0x2A ∧ reg s (Reg.drvPrmSeed r) = 1) ∧
  (∀ n, n < 8 → (reg s (Reg.drvWdPeriod n)).toNat = 10000000 ∧ fld s (Reg.drvWdCfg n) 15 4 = 0x302) ∧
  reg s Reg.drvOwn = 0x3FF ∧ fld s Reg.drvVfield 18 16 = 3 ∧ (reg s Reg.drvMemDl).toNat = 100000 ∧
  fld s Reg.drvEstopCfg 31 24 = 100 ∧ reg s (Reg.drvSafeMap 0) = 0xFF ∧ reg s Reg.cmpCoreRst = 0

/-- A step from any state with canonical memory, whatever command it takes, leaves memory canonical (the form is the model's own, log entry 6) -/
def Obligations.EveryStepKeepsMemoryCanonical : Prop :=
  ∀ s t : State, MemoryCanonical s → Machine.step s = .next t → MemoryCanonical t

/-- Decoding the word of a well-formed instruction gives it back, and a word that decodes is the encoding of what it decodes to -/
def Obligations.DecodeReadsEveryEncoding : Prop :=
  (∀ (i : Instr) (w : Word), i.wf = true → encode i = some w → ∃ h, decode h w = some i) ∧
  ∀ (h : Hart) (i : Instr) (w : Word), decode h w = some i → encode i = some w
end

