-- ==== Sys2Proof/Laws/Frames.lean ====
section
/-! SUPPORT. The CRC of a frame of the chip-to-chip links, byte by byte. -/

namespace Sys2Proof.Machine

@[simp] theorem strictly_eq (n : Nat) (f : Nat → Nat) : strictly n f = f n := by cases n <;> rfl

@[simp] theorem crcOver_nil (c : Nat) : crcOver c [] = c := rfl

@[simp] theorem crcOver_cons (c : Nat) (b : Byte) (r : List Byte) : crcOver c (b :: r) = crcOver (crcByte c b) r := by
  rw [crcOver, strictly_eq]

theorem crcOver_append (c : Nat) (a b : List Byte) : crcOver c (a ++ b) = crcOver (crcOver c a) b := by
  induction a generalizing c with
  | nil => rfl
  | cons x r ih => simp [ih]

/-- The register after a byte string is the left fold of the bytes into it. -/
theorem crcOver_eq_foldl (c : Nat) (bs : List Byte) : crcOver c bs = bs.foldl crcByte c := by
  induction bs generalizing c with
  | nil => rfl
  | cons x r ih => simp [ih]

end Sys2Proof.Machine
end

