-- ==== Sys2Proof/Laws/Sparse.lean ====
section
/-! SUPPORT. Reading after writing: sparse maps, sorted sets and memory bytes. -/

namespace Sys2Proof.Machine

@[simp] theorem sget_nil {α : Type} (k : Nat) (d : α) : sget [] k d = d := rfl

@[simp] theorem sget_sput_same {α : Type} (m : Sparse α) (k : Nat) (v d : α) : sget (sput m k v) k d = v := by
  induction m with
  | nil => simp [sput, sget]
  | cons e r ih =>
    rcases Nat.lt_trichotomy k e.1 with h | h | h
    · simp [sput, sget, h]
    · simp [sput, sget, h]
    · simp [sput, sget, Nat.not_lt.mpr h.le, Nat.ne_of_gt h, ih]

@[simp] theorem sget_sput_other {α : Type} (m : Sparse α) {k j : Nat} (v d : α) (h : j ≠ k) :
    sget (sput m k v) j d = sget m j d := by
  induction m with
  | nil => simp [sput, sget, h]
  | cons e r ih =>
    rcases Nat.lt_trichotomy k e.1 with hk | hk | hk
    · by_cases hj : j < k
      · have : j ≠ e.1 := by omega
        simp [sput, sget, hk, h, hj, this, Nat.lt_trans hj hk]
      · simp [sput, sget, hk, h, hj]
    · subst hk
      simp [sput, sget, h]
    · simp [sput, sget, Nat.not_lt.mpr hk.le, Nat.ne_of_gt hk, ih]

theorem sget_sput {α : Type} (m : Sparse α) (k j : Nat) (v d : α) :
    sget (sput m k v) j d = if j = k then v else sget m j d := by
  by_cases h : j = k
  · simp [h]
  · simp [h]

@[simp] theorem memGet_nil (a : Nat) : memGet [] a = 0 := rfl

/-- A listed memory's tail is canonical, and its first byte is not 0. -/
theorem memory_wf_cons {a : Nat} {b : Byte} {r : List Host.Cell} (h : Memory.wf ((a, b) :: r) = true) :
    b ≠ 0#8 ∧ Memory.wf r = true ∧ ∀ e ∈ r.head?, a < e.1 := by
  cases r with
  | nil => simpa [Memory.wf] using h
  | cons e r =>
    obtain ⟨a', b'⟩ := e
    simp [Memory.wf] at h
    exact ⟨h.1.1, h.2, by simpa using h.1.2⟩

/-- A cell below a canonical memory, holding no 0, extends it. -/
theorem memory_wf_of_cons {a : Nat} {b : Byte} {r : List Host.Cell} (hb : b ≠ 0#8) (hr : Memory.wf r = true)
    (hl : ∀ e ∈ r.head?, a < e.1) : Memory.wf ((a, b) :: r) = true := by
  cases r with
  | nil => simpa [Memory.wf] using hb
  | cons e r =>
    obtain ⟨a', b'⟩ := e
    have := hl (a', b') (by simp)
    simp [Memory.wf, hb, hr, this]

/-- Below its first listed address a canonical memory reads 0. -/
theorem memGet_below {r : List Host.Cell} {a : Nat} (h : ∀ e ∈ r.head?, a < e.1) : memGet r a = 0 := by
  cases r with
  | nil => rfl
  | cons e r =>
    have := h e (by simp)
    simp [memGet, this, Nat.ne_of_lt this]

/-- A byte written lies at the front only of what it came from or of its own address. -/
theorem memPut_head {m : List Host.Cell} {a c : Nat} (b : Byte) (hw : Memory.wf m = true) (hc : c < a)
    (hm : ∀ e ∈ m.head?, c < e.1) : ∀ e ∈ (memPut m a b).head?, c < e.1 := by
  cases m with
  | nil =>
    by_cases hb : b = 0#8
    · simp [memPut, hb]
    · simpa [memPut, hb] using hc
  | cons x r =>
    obtain ⟨a', b'⟩ := x
    have hx : c < a' := hm (a', b') (by simp)
    obtain ⟨-, -, hl⟩ := memory_wf_cons hw
    by_cases h1 : a < a'
    · by_cases hb : b = 0#8
      · simpa [memPut, h1, hb] using hx
      · simpa [memPut, h1, hb] using hc
    · by_cases h2 : a = a'
      · by_cases hb : b = 0#8
        · intro e he
          simp [memPut, h2, hb] at he
          exact Nat.lt_trans hx (hl e (by simpa using he))
        · simpa [memPut, h1, h2, hb] using hx
      · simpa [memPut, h1, h2] using hx

/-- Writing a byte keeps the canonical form. -/
theorem memPut_wf {m : List Host.Cell} (a : Nat) (b : Byte) (h : Memory.wf m = true) : Memory.wf (memPut m a b) = true := by
  induction m with
  | nil =>
    by_cases hb : b = 0#8
    · simp [memPut, hb, Memory.wf]
    · simp [memPut, hb, Memory.wf]
  | cons x r ih =>
    obtain ⟨a', b'⟩ := x
    obtain ⟨hb', hr, hl⟩ := memory_wf_cons h
    by_cases h1 : a < a'
    · by_cases hb : b = 0#8
      · simpa [memPut, h1, hb] using h
      · have hm : memPut ((a', b') :: r) a b = (a, b) :: (a', b') :: r := by simp [memPut, h1, hb]
        exact hm ▸ memory_wf_of_cons hb h (by simpa using h1)
    · by_cases h2 : a = a'
      · by_cases hb : b = 0#8
        · simpa [memPut, h2, hb] using hr
        · have hm : memPut ((a', b') :: r) a b = (a, b) :: r := by simp [memPut, h2, hb]
          exact hm ▸ memory_wf_of_cons hb hr (h2 ▸ hl)
      · simp only [memPut, h1, h2, if_false]
        exact memory_wf_of_cons hb' (ih hr) (memPut_head b hr (by omega) hl)

/-- A byte written reads back. -/
theorem memGet_memPut_same {m : List Host.Cell} (a : Nat) (b : Byte) (h : Memory.wf m = true) :
    memGet (memPut m a b) a = b := by
  induction m with
  | nil =>
    by_cases hb : b = 0#8
    · simp [memPut, hb]
    · simp [memPut, hb, memGet]
  | cons x r ih =>
    obtain ⟨a', b'⟩ := x
    obtain ⟨-, hr, hl⟩ := memory_wf_cons h
    by_cases h1 : a < a'
    · by_cases hb : b = 0#8
      · simp [memPut, h1, hb, memGet, Nat.ne_of_lt h1]
      · simp [memPut, h1, hb, memGet]
    · by_cases h2 : a = a'
      · by_cases hb : b = 0#8
        · subst h2
          simpa [memPut, hb] using memGet_below hl
        · simp [memPut, h2, hb, memGet]
      · simpa [memPut, h1, h2, memGet] using ih hr

/-- A byte written leaves every other byte as it was. -/
theorem memGet_memPut_other {m : List Host.Cell} {a j : Nat} (b : Byte) (h : Memory.wf m = true) (hj : j ≠ a) :
    memGet (memPut m a b) j = memGet m j := by
  induction m with
  | nil =>
    by_cases hb : b = 0#8
    · simp [memPut, hb]
    · simp [memPut, hb, memGet, hj]
  | cons x r ih =>
    obtain ⟨a', b'⟩ := x
    obtain ⟨-, hr, hl⟩ := memory_wf_cons h
    by_cases h1 : a < a'
    · by_cases hb : b = 0#8
      · simp [memPut, h1, hb]
      · by_cases h3 : j < a
        · simp [memPut, h1, hb, memGet, hj, h3, Nat.lt_trans h3 h1, Nat.ne_of_lt (Nat.lt_trans h3 h1)]
        · simp [memPut, h1, hb, memGet, hj, h3]
    · by_cases h2 : a = a'
      · subst h2
        by_cases hb : b = 0#8
        · by_cases h3 : j < a
          · have : ∀ e ∈ r.head?, j < e.1 := fun e he => Nat.lt_trans h3 (hl e he)
            simp [memPut, hb, memGet, hj, h3, memGet_below this]
          · simp [memPut, hb, memGet, hj, h3]
        · simp [memPut, hb, memGet, hj]
      · simp [memPut, h1, h2, memGet, ih hr]

/-- Writing bytes keeps the canonical form. -/
theorem memPutAll_wf {m : List Host.Cell} (a : Nat) (bs : List Byte) (h : Memory.wf m = true) :
    Memory.wf (memPutAll m a bs) = true := by
  induction bs generalizing m a with
  | nil => exact h
  | cons b r ih => exact ih (a + 1) (memPut_wf a b h)

/-- Bytes written leave every byte below and above them as it was. -/
theorem memGet_memPutAll_outside {m : List Host.Cell} {a j : Nat} (bs : List Byte) (h : Memory.wf m = true)
    (hj : j < a ∨ a + bs.length ≤ j) : memGet (memPutAll m a bs) j = memGet m j := by
  induction bs generalizing m a with
  | nil => rfl
  | cons b r ih =>
    have hl : j < a + 1 ∨ a + 1 + r.length ≤ j := by simp at hj; omega
    have hn : j ≠ a := by simp at hj; omega
    rw [memPutAll, ih (memPut_wf a b h) hl, memGet_memPut_other b h hn]

/-- Bytes written read back. -/
theorem memGet_memPutAll_inside {m : List Host.Cell} {a i : Nat} (bs : List Byte) (h : Memory.wf m = true)
    (hi : i < bs.length) : memGet (memPutAll m a bs) (a + i) = bs[i] := by
  induction bs generalizing m a i with
  | nil => simp at hi
  | cons b r ih =>
    cases i with
    | zero =>
      rw [memPutAll, memGet_memPutAll_outside r (memPut_wf a b h) (by omega)]
      simpa using memGet_memPut_same a b h
    | succ i =>
      have : a + (i + 1) = a + 1 + i := by omega
      rw [memPutAll, this, ih (memPut_wf a b h) (by simpa using hi)]
      simp

/-- Dropping cells keeps the canonical form. -/
theorem memory_wf_filter {m : List Host.Cell} (p : Host.Cell → Bool) (h : Memory.wf m = true) :
    Memory.wf (m.filter p) = true ∧ ∀ c, (∀ e ∈ m.head?, c < e.1) → ∀ e ∈ (m.filter p).head?, c < e.1 := by
  induction m with
  | nil => simp [Memory.wf]
  | cons x r ih =>
    obtain ⟨a, b⟩ := x
    obtain ⟨hb, hr, hl⟩ := memory_wf_cons h
    obtain ⟨hw, hh⟩ := ih hr
    by_cases hp : p (a, b) = true
    · rw [List.filter_cons_of_pos hp]
      exact ⟨memory_wf_of_cons hb hw (hh a hl), fun c hc => by simpa using hc⟩
    · rw [List.filter_cons_of_neg hp]
      refine ⟨hw, fun c hc => hh c fun e he => ?_⟩
      have : c < a := hc (a, b) (by simp)
      exact Nat.lt_trans this (hl e he)

end Sys2Proof.Machine
end

