-- ==== Sys2Proof/Laws/State.lean ====
section
/-! SUPPORT. What each update of the state leaves alone: one lemma per field and update. -/

namespace Sys2Proof.Machine

@[simp] theorem setReg_pending (s : State) (o : Nat) (v : Word) : (setReg s o v).pending = s.pending := rfl
@[simp] theorem setReg_pkg (s : State) (o : Nat) (v : Word) : (setReg s o v).pkg = s.pkg := rfl
@[simp] theorem setReg_tb (s : State) (o : Nat) (v : Word) : (setReg s o v).tb = s.tb := rfl
@[simp] theorem setReg_staged (s : State) (o : Nat) (v : Word) : (setReg s o v).staged = s.staged := rfl
@[simp] theorem setReg_barData (s : State) (o : Nat) (v : Word) : (setReg s o v).barData = s.barData := rfl
@[simp] theorem setReg_tapOut (s : State) (o : Nat) (v : Word) : (setReg s o v).tapOut = s.tapOut := rfl
@[simp] theorem setReg_tapCount (s : State) (o : Nat) (v : Word) : (setReg s o v).tapCount = s.tapCount := rfl
@[simp] theorem setReg_mem (s : State) (o : Nat) (v : Word) : (setReg s o v).mem = s.mem := rfl
@[simp] theorem setReg_poison (s : State) (o : Nat) (v : Word) : (setReg s o v).poison = s.poison := rfl
@[simp] theorem setReg_latent (s : State) (o : Nat) (v : Word) : (setReg s o v).latent = s.latent := rfl
@[simp] theorem setReg_side (s : State) (o : Nat) (v : Word) : (setReg s o v).side = s.side := rfl
@[simp] theorem setReg_cores (s : State) (o : Nat) (v : Word) : (setReg s o v).cores = s.cores := rfl
@[simp] theorem setReg_convoys (s : State) (o : Nat) (v : Word) : (setReg s o v).convoys = s.convoys := rfl
@[simp] theorem setReg_slotNow (s : State) (o : Nat) (v : Word) : (setReg s o v).slotNow = s.slotNow := rfl
@[simp] theorem setReg_courier (s : State) (o : Nat) (v : Word) : (setReg s o v).courier = s.courier := rfl
@[simp] theorem setReg_units (s : State) (o : Nat) (v : Word) : (setReg s o v).units = s.units := rfl
@[simp] theorem setReg_sdma (s : State) (o : Nat) (v : Word) : (setReg s o v).sdma = s.sdma := rfl
@[simp] theorem setReg_events (s : State) (o : Nat) (v : Word) : (setReg s o v).events = s.events := rfl
@[simp] theorem setReg_evq (s : State) (o : Nat) (v : Word) : (setReg s o v).evq = s.evq := rfl
@[simp] theorem setReg_errq (s : State) (o : Nat) (v : Word) : (setReg s o v).errq = s.errq := rfl
@[simp] theorem setReg_errOvf (s : State) (o : Nat) (v : Word) : (setReg s o v).errOvf = s.errOvf := rfl
@[simp] theorem setReg_errCons (s : State) (o : Nat) (v : Word) : (setReg s o v).errCons = s.errCons := rfl
@[simp] theorem setReg_rowBeats (s : State) (o : Nat) (v : Word) : (setReg s o v).rowBeats = s.rowBeats := rfl
@[simp] theorem setReg_alerts (s : State) (o : Nat) (v : Word) : (setReg s o v).alerts = s.alerts := rfl
@[simp] theorem setReg_msix (s : State) (o : Nat) (v : Word) : (setReg s o v).msix = s.msix := rfl
@[simp] theorem setReg_queues (s : State) (o : Nat) (v : Word) : (setReg s o v).queues = s.queues := rfl
@[simp] theorem setReg_kernels (s : State) (o : Nat) (v : Word) : (setReg s o v).kernels = s.kernels := rfl
@[simp] theorem setReg_ledger (s : State) (o : Nat) (v : Word) : (setReg s o v).ledger = s.ledger := rfl
@[simp] theorem setReg_sweeps (s : State) (o : Nat) (v : Word) : (setReg s o v).sweeps = s.sweeps := rfl
@[simp] theorem setReg_sweepAt (s : State) (o : Nat) (v : Word) : (setReg s o v).sweepAt = s.sweepAt := rfl
@[simp] theorem setReg_links (s : State) (o : Nat) (v : Word) : (setReg s o v).links = s.links := rfl
@[simp] theorem setReg_bundles (s : State) (o : Nat) (v : Word) : (setReg s o v).bundles = s.bundles := rfl
@[simp] theorem setReg_drv (s : State) (o : Nat) (v : Word) : (setReg s o v).drv = s.drv := rfl

@[simp] theorem setCore_pending (s : State) (c : Nat) (k : Core) : (setCore s c k).pending = s.pending := rfl
@[simp] theorem setCore_pkg (s : State) (c : Nat) (k : Core) : (setCore s c k).pkg = s.pkg := rfl
@[simp] theorem setCore_tb (s : State) (c : Nat) (k : Core) : (setCore s c k).tb = s.tb := rfl
@[simp] theorem setCore_regs (s : State) (c : Nat) (k : Core) : (setCore s c k).regs = s.regs := rfl
@[simp] theorem setCore_staged (s : State) (c : Nat) (k : Core) : (setCore s c k).staged = s.staged := rfl
@[simp] theorem setCore_barData (s : State) (c : Nat) (k : Core) : (setCore s c k).barData = s.barData := rfl
@[simp] theorem setCore_tapOut (s : State) (c : Nat) (k : Core) : (setCore s c k).tapOut = s.tapOut := rfl
@[simp] theorem setCore_tapCount (s : State) (c : Nat) (k : Core) : (setCore s c k).tapCount = s.tapCount := rfl
@[simp] theorem setCore_mem (s : State) (c : Nat) (k : Core) : (setCore s c k).mem = s.mem := rfl
@[simp] theorem setCore_poison (s : State) (c : Nat) (k : Core) : (setCore s c k).poison = s.poison := rfl
@[simp] theorem setCore_latent (s : State) (c : Nat) (k : Core) : (setCore s c k).latent = s.latent := rfl
@[simp] theorem setCore_side (s : State) (c : Nat) (k : Core) : (setCore s c k).side = s.side := rfl
@[simp] theorem setCore_convoys (s : State) (c : Nat) (k : Core) : (setCore s c k).convoys = s.convoys := rfl
@[simp] theorem setCore_slotNow (s : State) (c : Nat) (k : Core) : (setCore s c k).slotNow = s.slotNow := rfl
@[simp] theorem setCore_courier (s : State) (c : Nat) (k : Core) : (setCore s c k).courier = s.courier := rfl
@[simp] theorem setCore_units (s : State) (c : Nat) (k : Core) : (setCore s c k).units = s.units := rfl
@[simp] theorem setCore_sdma (s : State) (c : Nat) (k : Core) : (setCore s c k).sdma = s.sdma := rfl
@[simp] theorem setCore_events (s : State) (c : Nat) (k : Core) : (setCore s c k).events = s.events := rfl
@[simp] theorem setCore_evq (s : State) (c : Nat) (k : Core) : (setCore s c k).evq = s.evq := rfl
@[simp] theorem setCore_errq (s : State) (c : Nat) (k : Core) : (setCore s c k).errq = s.errq := rfl
@[simp] theorem setCore_errOvf (s : State) (c : Nat) (k : Core) : (setCore s c k).errOvf = s.errOvf := rfl
@[simp] theorem setCore_errCons (s : State) (c : Nat) (k : Core) : (setCore s c k).errCons = s.errCons := rfl
@[simp] theorem setCore_rowBeats (s : State) (c : Nat) (k : Core) : (setCore s c k).rowBeats = s.rowBeats := rfl
@[simp] theorem setCore_alerts (s : State) (c : Nat) (k : Core) : (setCore s c k).alerts = s.alerts := rfl
@[simp] theorem setCore_msix (s : State) (c : Nat) (k : Core) : (setCore s c k).msix = s.msix := rfl
@[simp] theorem setCore_queues (s : State) (c : Nat) (k : Core) : (setCore s c k).queues = s.queues := rfl
@[simp] theorem setCore_kernels (s : State) (c : Nat) (k : Core) : (setCore s c k).kernels = s.kernels := rfl
@[simp] theorem setCore_ledger (s : State) (c : Nat) (k : Core) : (setCore s c k).ledger = s.ledger := rfl
@[simp] theorem setCore_sweeps (s : State) (c : Nat) (k : Core) : (setCore s c k).sweeps = s.sweeps := rfl
@[simp] theorem setCore_sweepAt (s : State) (c : Nat) (k : Core) : (setCore s c k).sweepAt = s.sweepAt := rfl
@[simp] theorem setCore_links (s : State) (c : Nat) (k : Core) : (setCore s c k).links = s.links := rfl
@[simp] theorem setCore_bundles (s : State) (c : Nat) (k : Core) : (setCore s c k).bundles = s.bundles := rfl
@[simp] theorem setCore_drv (s : State) (c : Nat) (k : Core) : (setCore s c k).drv = s.drv := rfl

@[simp] theorem setThr_pending (s : State) (h : Hart) (t : Thread) : (setThr s h t).pending = s.pending := rfl
@[simp] theorem setThr_pkg (s : State) (h : Hart) (t : Thread) : (setThr s h t).pkg = s.pkg := rfl
@[simp] theorem setThr_tb (s : State) (h : Hart) (t : Thread) : (setThr s h t).tb = s.tb := rfl
@[simp] theorem setThr_regs (s : State) (h : Hart) (t : Thread) : (setThr s h t).regs = s.regs := rfl
@[simp] theorem setThr_staged (s : State) (h : Hart) (t : Thread) : (setThr s h t).staged = s.staged := rfl
@[simp] theorem setThr_barData (s : State) (h : Hart) (t : Thread) : (setThr s h t).barData = s.barData := rfl
@[simp] theorem setThr_tapOut (s : State) (h : Hart) (t : Thread) : (setThr s h t).tapOut = s.tapOut := rfl
@[simp] theorem setThr_tapCount (s : State) (h : Hart) (t : Thread) : (setThr s h t).tapCount = s.tapCount := rfl
@[simp] theorem setThr_mem (s : State) (h : Hart) (t : Thread) : (setThr s h t).mem = s.mem := rfl
@[simp] theorem setThr_poison (s : State) (h : Hart) (t : Thread) : (setThr s h t).poison = s.poison := rfl
@[simp] theorem setThr_latent (s : State) (h : Hart) (t : Thread) : (setThr s h t).latent = s.latent := rfl
@[simp] theorem setThr_side (s : State) (h : Hart) (t : Thread) : (setThr s h t).side = s.side := rfl
@[simp] theorem setThr_convoys (s : State) (h : Hart) (t : Thread) : (setThr s h t).convoys = s.convoys := rfl
@[simp] theorem setThr_slotNow (s : State) (h : Hart) (t : Thread) : (setThr s h t).slotNow = s.slotNow := rfl
@[simp] theorem setThr_courier (s : State) (h : Hart) (t : Thread) : (setThr s h t).courier = s.courier := rfl
@[simp] theorem setThr_units (s : State) (h : Hart) (t : Thread) : (setThr s h t).units = s.units := rfl
@[simp] theorem setThr_sdma (s : State) (h : Hart) (t : Thread) : (setThr s h t).sdma = s.sdma := rfl
@[simp] theorem setThr_events (s : State) (h : Hart) (t : Thread) : (setThr s h t).events = s.events := rfl
@[simp] theorem setThr_evq (s : State) (h : Hart) (t : Thread) : (setThr s h t).evq = s.evq := rfl
@[simp] theorem setThr_errq (s : State) (h : Hart) (t : Thread) : (setThr s h t).errq = s.errq := rfl
@[simp] theorem setThr_errOvf (s : State) (h : Hart) (t : Thread) : (setThr s h t).errOvf = s.errOvf := rfl
@[simp] theorem setThr_errCons (s : State) (h : Hart) (t : Thread) : (setThr s h t).errCons = s.errCons := rfl
@[simp] theorem setThr_rowBeats (s : State) (h : Hart) (t : Thread) : (setThr s h t).rowBeats = s.rowBeats := rfl
@[simp] theorem setThr_alerts (s : State) (h : Hart) (t : Thread) : (setThr s h t).alerts = s.alerts := rfl
@[simp] theorem setThr_msix (s : State) (h : Hart) (t : Thread) : (setThr s h t).msix = s.msix := rfl
@[simp] theorem setThr_queues (s : State) (h : Hart) (t : Thread) : (setThr s h t).queues = s.queues := rfl
@[simp] theorem setThr_kernels (s : State) (h : Hart) (t : Thread) : (setThr s h t).kernels = s.kernels := rfl
@[simp] theorem setThr_ledger (s : State) (h : Hart) (t : Thread) : (setThr s h t).ledger = s.ledger := rfl
@[simp] theorem setThr_sweeps (s : State) (h : Hart) (t : Thread) : (setThr s h t).sweeps = s.sweeps := rfl
@[simp] theorem setThr_sweepAt (s : State) (h : Hart) (t : Thread) : (setThr s h t).sweepAt = s.sweepAt := rfl
@[simp] theorem setThr_links (s : State) (h : Hart) (t : Thread) : (setThr s h t).links = s.links := rfl
@[simp] theorem setThr_bundles (s : State) (h : Hart) (t : Thread) : (setThr s h t).bundles = s.bundles := rfl
@[simp] theorem setThr_drv (s : State) (h : Hart) (t : Thread) : (setThr s h t).drv = s.drv := rfl

@[simp] theorem setThrCsr_pending (s : State) (h : Hart) (n : Nat) (v : Word) : (setThrCsr s h n v).pending = s.pending := rfl
@[simp] theorem setThrCsr_pkg (s : State) (h : Hart) (n : Nat) (v : Word) : (setThrCsr s h n v).pkg = s.pkg := rfl
@[simp] theorem setThrCsr_tb (s : State) (h : Hart) (n : Nat) (v : Word) : (setThrCsr s h n v).tb = s.tb := rfl
@[simp] theorem setThrCsr_regs (s : State) (h : Hart) (n : Nat) (v : Word) : (setThrCsr s h n v).regs = s.regs := rfl
@[simp] theorem setThrCsr_staged (s : State) (h : Hart) (n : Nat) (v : Word) : (setThrCsr s h n v).staged = s.staged := rfl
@[simp] theorem setThrCsr_barData (s : State) (h : Hart) (n : Nat) (v : Word) : (setThrCsr s h n v).barData = s.barData := rfl
@[simp] theorem setThrCsr_tapOut (s : State) (h : Hart) (n : Nat) (v : Word) : (setThrCsr s h n v).tapOut = s.tapOut := rfl
@[simp] theorem setThrCsr_tapCount (s : State) (h : Hart) (n : Nat) (v : Word) : (setThrCsr s h n v).tapCount = s.tapCount := rfl
@[simp] theorem setThrCsr_mem (s : State) (h : Hart) (n : Nat) (v : Word) : (setThrCsr s h n v).mem = s.mem := rfl
@[simp] theorem setThrCsr_poison (s : State) (h : Hart) (n : Nat) (v : Word) : (setThrCsr s h n v).poison = s.poison := rfl
@[simp] theorem setThrCsr_latent (s : State) (h : Hart) (n : Nat) (v : Word) : (setThrCsr s h n v).latent = s.latent := rfl
@[simp] theorem setThrCsr_side (s : State) (h : Hart) (n : Nat) (v : Word) : (setThrCsr s h n v).side = s.side := rfl
@[simp] theorem setThrCsr_convoys (s : State) (h : Hart) (n : Nat) (v : Word) : (setThrCsr s h n v).convoys = s.convoys := rfl
@[simp] theorem setThrCsr_slotNow (s : State) (h : Hart) (n : Nat) (v : Word) : (setThrCsr s h n v).slotNow = s.slotNow := rfl
@[simp] theorem setThrCsr_courier (s : State) (h : Hart) (n : Nat) (v : Word) : (setThrCsr s h n v).courier = s.courier := rfl
@[simp] theorem setThrCsr_units (s : State) (h : Hart) (n : Nat) (v : Word) : (setThrCsr s h n v).units = s.units := rfl
@[simp] theorem setThrCsr_sdma (s : State) (h : Hart) (n : Nat) (v : Word) : (setThrCsr s h n v).sdma = s.sdma := rfl
@[simp] theorem setThrCsr_events (s : State) (h : Hart) (n : Nat) (v : Word) : (setThrCsr s h n v).events = s.events := rfl
@[simp] theorem setThrCsr_evq (s : State) (h : Hart) (n : Nat) (v : Word) : (setThrCsr s h n v).evq = s.evq := rfl
@[simp] theorem setThrCsr_errq (s : State) (h : Hart) (n : Nat) (v : Word) : (setThrCsr s h n v).errq = s.errq := rfl
@[simp] theorem setThrCsr_errOvf (s : State) (h : Hart) (n : Nat) (v : Word) : (setThrCsr s h n v).errOvf = s.errOvf := rfl
@[simp] theorem setThrCsr_errCons (s : State) (h : Hart) (n : Nat) (v : Word) : (setThrCsr s h n v).errCons = s.errCons := rfl
@[simp] theorem setThrCsr_rowBeats (s : State) (h : Hart) (n : Nat) (v : Word) : (setThrCsr s h n v).rowBeats = s.rowBeats := rfl
@[simp] theorem setThrCsr_alerts (s : State) (h : Hart) (n : Nat) (v : Word) : (setThrCsr s h n v).alerts = s.alerts := rfl
@[simp] theorem setThrCsr_msix (s : State) (h : Hart) (n : Nat) (v : Word) : (setThrCsr s h n v).msix = s.msix := rfl
@[simp] theorem setThrCsr_queues (s : State) (h : Hart) (n : Nat) (v : Word) : (setThrCsr s h n v).queues = s.queues := rfl
@[simp] theorem setThrCsr_kernels (s : State) (h : Hart) (n : Nat) (v : Word) : (setThrCsr s h n v).kernels = s.kernels := rfl
@[simp] theorem setThrCsr_ledger (s : State) (h : Hart) (n : Nat) (v : Word) : (setThrCsr s h n v).ledger = s.ledger := rfl
@[simp] theorem setThrCsr_sweeps (s : State) (h : Hart) (n : Nat) (v : Word) : (setThrCsr s h n v).sweeps = s.sweeps := rfl
@[simp] theorem setThrCsr_sweepAt (s : State) (h : Hart) (n : Nat) (v : Word) : (setThrCsr s h n v).sweepAt = s.sweepAt := rfl
@[simp] theorem setThrCsr_links (s : State) (h : Hart) (n : Nat) (v : Word) : (setThrCsr s h n v).links = s.links := rfl
@[simp] theorem setThrCsr_bundles (s : State) (h : Hart) (n : Nat) (v : Word) : (setThrCsr s h n v).bundles = s.bundles := rfl
@[simp] theorem setThrCsr_drv (s : State) (h : Hart) (n : Nat) (v : Word) : (setThrCsr s h n v).drv = s.drv := rfl

@[simp] theorem setCoreCsr_pending (s : State) (c n : Nat) (v : Word) : (setCoreCsr s c n v).pending = s.pending := rfl
@[simp] theorem setCoreCsr_pkg (s : State) (c n : Nat) (v : Word) : (setCoreCsr s c n v).pkg = s.pkg := rfl
@[simp] theorem setCoreCsr_tb (s : State) (c n : Nat) (v : Word) : (setCoreCsr s c n v).tb = s.tb := rfl
@[simp] theorem setCoreCsr_regs (s : State) (c n : Nat) (v : Word) : (setCoreCsr s c n v).regs = s.regs := rfl
@[simp] theorem setCoreCsr_staged (s : State) (c n : Nat) (v : Word) : (setCoreCsr s c n v).staged = s.staged := rfl
@[simp] theorem setCoreCsr_barData (s : State) (c n : Nat) (v : Word) : (setCoreCsr s c n v).barData = s.barData := rfl
@[simp] theorem setCoreCsr_tapOut (s : State) (c n : Nat) (v : Word) : (setCoreCsr s c n v).tapOut = s.tapOut := rfl
@[simp] theorem setCoreCsr_tapCount (s : State) (c n : Nat) (v : Word) : (setCoreCsr s c n v).tapCount = s.tapCount := rfl
@[simp] theorem setCoreCsr_mem (s : State) (c n : Nat) (v : Word) : (setCoreCsr s c n v).mem = s.mem := rfl
@[simp] theorem setCoreCsr_poison (s : State) (c n : Nat) (v : Word) : (setCoreCsr s c n v).poison = s.poison := rfl
@[simp] theorem setCoreCsr_latent (s : State) (c n : Nat) (v : Word) : (setCoreCsr s c n v).latent = s.latent := rfl
@[simp] theorem setCoreCsr_side (s : State) (c n : Nat) (v : Word) : (setCoreCsr s c n v).side = s.side := rfl
@[simp] theorem setCoreCsr_convoys (s : State) (c n : Nat) (v : Word) : (setCoreCsr s c n v).convoys = s.convoys := rfl
@[simp] theorem setCoreCsr_slotNow (s : State) (c n : Nat) (v : Word) : (setCoreCsr s c n v).slotNow = s.slotNow := rfl
@[simp] theorem setCoreCsr_courier (s : State) (c n : Nat) (v : Word) : (setCoreCsr s c n v).courier = s.courier := rfl
@[simp] theorem setCoreCsr_units (s : State) (c n : Nat) (v : Word) : (setCoreCsr s c n v).units = s.units := rfl
@[simp] theorem setCoreCsr_sdma (s : State) (c n : Nat) (v : Word) : (setCoreCsr s c n v).sdma = s.sdma := rfl
@[simp] theorem setCoreCsr_events (s : State) (c n : Nat) (v : Word) : (setCoreCsr s c n v).events = s.events := rfl
@[simp] theorem setCoreCsr_evq (s : State) (c n : Nat) (v : Word) : (setCoreCsr s c n v).evq = s.evq := rfl
@[simp] theorem setCoreCsr_errq (s : State) (c n : Nat) (v : Word) : (setCoreCsr s c n v).errq = s.errq := rfl
@[simp] theorem setCoreCsr_errOvf (s : State) (c n : Nat) (v : Word) : (setCoreCsr s c n v).errOvf = s.errOvf := rfl
@[simp] theorem setCoreCsr_errCons (s : State) (c n : Nat) (v : Word) : (setCoreCsr s c n v).errCons = s.errCons := rfl
@[simp] theorem setCoreCsr_rowBeats (s : State) (c n : Nat) (v : Word) : (setCoreCsr s c n v).rowBeats = s.rowBeats := rfl
@[simp] theorem setCoreCsr_alerts (s : State) (c n : Nat) (v : Word) : (setCoreCsr s c n v).alerts = s.alerts := rfl
@[simp] theorem setCoreCsr_msix (s : State) (c n : Nat) (v : Word) : (setCoreCsr s c n v).msix = s.msix := rfl
@[simp] theorem setCoreCsr_queues (s : State) (c n : Nat) (v : Word) : (setCoreCsr s c n v).queues = s.queues := rfl
@[simp] theorem setCoreCsr_kernels (s : State) (c n : Nat) (v : Word) : (setCoreCsr s c n v).kernels = s.kernels := rfl
@[simp] theorem setCoreCsr_ledger (s : State) (c n : Nat) (v : Word) : (setCoreCsr s c n v).ledger = s.ledger := rfl
@[simp] theorem setCoreCsr_sweeps (s : State) (c n : Nat) (v : Word) : (setCoreCsr s c n v).sweeps = s.sweeps := rfl
@[simp] theorem setCoreCsr_sweepAt (s : State) (c n : Nat) (v : Word) : (setCoreCsr s c n v).sweepAt = s.sweepAt := rfl
@[simp] theorem setCoreCsr_links (s : State) (c n : Nat) (v : Word) : (setCoreCsr s c n v).links = s.links := rfl
@[simp] theorem setCoreCsr_bundles (s : State) (c n : Nat) (v : Word) : (setCoreCsr s c n v).bundles = s.bundles := rfl
@[simp] theorem setCoreCsr_drv (s : State) (c n : Nat) (v : Word) : (setCoreCsr s c n v).drv = s.drv := rfl

@[simp] theorem setGreg_pending (s : State) (h : Hart) (r : GReg) (v : Word) : (setGreg s h r v).pending = s.pending := rfl
@[simp] theorem setGreg_pkg (s : State) (h : Hart) (r : GReg) (v : Word) : (setGreg s h r v).pkg = s.pkg := rfl
@[simp] theorem setGreg_tb (s : State) (h : Hart) (r : GReg) (v : Word) : (setGreg s h r v).tb = s.tb := rfl
@[simp] theorem setGreg_regs (s : State) (h : Hart) (r : GReg) (v : Word) : (setGreg s h r v).regs = s.regs := rfl
@[simp] theorem setGreg_staged (s : State) (h : Hart) (r : GReg) (v : Word) : (setGreg s h r v).staged = s.staged := rfl
@[simp] theorem setGreg_barData (s : State) (h : Hart) (r : GReg) (v : Word) : (setGreg s h r v).barData = s.barData := rfl
@[simp] theorem setGreg_tapOut (s : State) (h : Hart) (r : GReg) (v : Word) : (setGreg s h r v).tapOut = s.tapOut := rfl
@[simp] theorem setGreg_tapCount (s : State) (h : Hart) (r : GReg) (v : Word) : (setGreg s h r v).tapCount = s.tapCount := rfl
@[simp] theorem setGreg_mem (s : State) (h : Hart) (r : GReg) (v : Word) : (setGreg s h r v).mem = s.mem := rfl
@[simp] theorem setGreg_poison (s : State) (h : Hart) (r : GReg) (v : Word) : (setGreg s h r v).poison = s.poison := rfl
@[simp] theorem setGreg_latent (s : State) (h : Hart) (r : GReg) (v : Word) : (setGreg s h r v).latent = s.latent := rfl
@[simp] theorem setGreg_side (s : State) (h : Hart) (r : GReg) (v : Word) : (setGreg s h r v).side = s.side := rfl
@[simp] theorem setGreg_convoys (s : State) (h : Hart) (r : GReg) (v : Word) : (setGreg s h r v).convoys = s.convoys := rfl
@[simp] theorem setGreg_slotNow (s : State) (h : Hart) (r : GReg) (v : Word) : (setGreg s h r v).slotNow = s.slotNow := rfl
@[simp] theorem setGreg_courier (s : State) (h : Hart) (r : GReg) (v : Word) : (setGreg s h r v).courier = s.courier := rfl
@[simp] theorem setGreg_units (s : State) (h : Hart) (r : GReg) (v : Word) : (setGreg s h r v).units = s.units := rfl
@[simp] theorem setGreg_sdma (s : State) (h : Hart) (r : GReg) (v : Word) : (setGreg s h r v).sdma = s.sdma := rfl
@[simp] theorem setGreg_events (s : State) (h : Hart) (r : GReg) (v : Word) : (setGreg s h r v).events = s.events := rfl
@[simp] theorem setGreg_evq (s : State) (h : Hart) (r : GReg) (v : Word) : (setGreg s h r v).evq = s.evq := rfl
@[simp] theorem setGreg_errq (s : State) (h : Hart) (r : GReg) (v : Word) : (setGreg s h r v).errq = s.errq := rfl
@[simp] theorem setGreg_errOvf (s : State) (h : Hart) (r : GReg) (v : Word) : (setGreg s h r v).errOvf = s.errOvf := rfl
@[simp] theorem setGreg_errCons (s : State) (h : Hart) (r : GReg) (v : Word) : (setGreg s h r v).errCons = s.errCons := rfl
@[simp] theorem setGreg_rowBeats (s : State) (h : Hart) (r : GReg) (v : Word) : (setGreg s h r v).rowBeats = s.rowBeats := rfl
@[simp] theorem setGreg_alerts (s : State) (h : Hart) (r : GReg) (v : Word) : (setGreg s h r v).alerts = s.alerts := rfl
@[simp] theorem setGreg_msix (s : State) (h : Hart) (r : GReg) (v : Word) : (setGreg s h r v).msix = s.msix := rfl
@[simp] theorem setGreg_queues (s : State) (h : Hart) (r : GReg) (v : Word) : (setGreg s h r v).queues = s.queues := rfl
@[simp] theorem setGreg_kernels (s : State) (h : Hart) (r : GReg) (v : Word) : (setGreg s h r v).kernels = s.kernels := rfl
@[simp] theorem setGreg_ledger (s : State) (h : Hart) (r : GReg) (v : Word) : (setGreg s h r v).ledger = s.ledger := rfl
@[simp] theorem setGreg_sweeps (s : State) (h : Hart) (r : GReg) (v : Word) : (setGreg s h r v).sweeps = s.sweeps := rfl
@[simp] theorem setGreg_sweepAt (s : State) (h : Hart) (r : GReg) (v : Word) : (setGreg s h r v).sweepAt = s.sweepAt := rfl
@[simp] theorem setGreg_links (s : State) (h : Hart) (r : GReg) (v : Word) : (setGreg s h r v).links = s.links := rfl
@[simp] theorem setGreg_bundles (s : State) (h : Hart) (r : GReg) (v : Word) : (setGreg s h r v).bundles = s.bundles := rfl
@[simp] theorem setGreg_drv (s : State) (h : Hart) (r : GReg) (v : Word) : (setGreg s h r v).drv = s.drv := rfl

@[simp] theorem retireTo_pending (s : State) (h : Hart) (p : Word) : (retireTo s h p).pending = s.pending := rfl
@[simp] theorem retireTo_pkg (s : State) (h : Hart) (p : Word) : (retireTo s h p).pkg = s.pkg := rfl
@[simp] theorem retireTo_tb (s : State) (h : Hart) (p : Word) : (retireTo s h p).tb = s.tb := rfl
@[simp] theorem retireTo_regs (s : State) (h : Hart) (p : Word) : (retireTo s h p).regs = s.regs := rfl
@[simp] theorem retireTo_staged (s : State) (h : Hart) (p : Word) : (retireTo s h p).staged = s.staged := rfl
@[simp] theorem retireTo_barData (s : State) (h : Hart) (p : Word) : (retireTo s h p).barData = s.barData := rfl
@[simp] theorem retireTo_tapOut (s : State) (h : Hart) (p : Word) : (retireTo s h p).tapOut = s.tapOut := rfl
@[simp] theorem retireTo_tapCount (s : State) (h : Hart) (p : Word) : (retireTo s h p).tapCount = s.tapCount := rfl
@[simp] theorem retireTo_mem (s : State) (h : Hart) (p : Word) : (retireTo s h p).mem = s.mem := rfl
@[simp] theorem retireTo_poison (s : State) (h : Hart) (p : Word) : (retireTo s h p).poison = s.poison := rfl
@[simp] theorem retireTo_latent (s : State) (h : Hart) (p : Word) : (retireTo s h p).latent = s.latent := rfl
@[simp] theorem retireTo_side (s : State) (h : Hart) (p : Word) : (retireTo s h p).side = s.side := rfl
@[simp] theorem retireTo_convoys (s : State) (h : Hart) (p : Word) : (retireTo s h p).convoys = s.convoys := rfl
@[simp] theorem retireTo_slotNow (s : State) (h : Hart) (p : Word) : (retireTo s h p).slotNow = s.slotNow := rfl
@[simp] theorem retireTo_courier (s : State) (h : Hart) (p : Word) : (retireTo s h p).courier = s.courier := rfl
@[simp] theorem retireTo_units (s : State) (h : Hart) (p : Word) : (retireTo s h p).units = s.units := rfl
@[simp] theorem retireTo_sdma (s : State) (h : Hart) (p : Word) : (retireTo s h p).sdma = s.sdma := rfl
@[simp] theorem retireTo_events (s : State) (h : Hart) (p : Word) : (retireTo s h p).events = s.events := rfl
@[simp] theorem retireTo_evq (s : State) (h : Hart) (p : Word) : (retireTo s h p).evq = s.evq := rfl
@[simp] theorem retireTo_errq (s : State) (h : Hart) (p : Word) : (retireTo s h p).errq = s.errq := rfl
@[simp] theorem retireTo_errOvf (s : State) (h : Hart) (p : Word) : (retireTo s h p).errOvf = s.errOvf := rfl
@[simp] theorem retireTo_errCons (s : State) (h : Hart) (p : Word) : (retireTo s h p).errCons = s.errCons := rfl
@[simp] theorem retireTo_rowBeats (s : State) (h : Hart) (p : Word) : (retireTo s h p).rowBeats = s.rowBeats := rfl
@[simp] theorem retireTo_alerts (s : State) (h : Hart) (p : Word) : (retireTo s h p).alerts = s.alerts := rfl
@[simp] theorem retireTo_msix (s : State) (h : Hart) (p : Word) : (retireTo s h p).msix = s.msix := rfl
@[simp] theorem retireTo_queues (s : State) (h : Hart) (p : Word) : (retireTo s h p).queues = s.queues := rfl
@[simp] theorem retireTo_kernels (s : State) (h : Hart) (p : Word) : (retireTo s h p).kernels = s.kernels := rfl
@[simp] theorem retireTo_ledger (s : State) (h : Hart) (p : Word) : (retireTo s h p).ledger = s.ledger := rfl
@[simp] theorem retireTo_sweeps (s : State) (h : Hart) (p : Word) : (retireTo s h p).sweeps = s.sweeps := rfl
@[simp] theorem retireTo_sweepAt (s : State) (h : Hart) (p : Word) : (retireTo s h p).sweepAt = s.sweepAt := rfl
@[simp] theorem retireTo_links (s : State) (h : Hart) (p : Word) : (retireTo s h p).links = s.links := rfl
@[simp] theorem retireTo_bundles (s : State) (h : Hart) (p : Word) : (retireTo s h p).bundles = s.bundles := rfl
@[simp] theorem retireTo_drv (s : State) (h : Hart) (p : Word) : (retireTo s h p).drv = s.drv := rfl

@[simp] theorem retire_pending (s : State) (h : Hart) : (retire s h).pending = s.pending := rfl
@[simp] theorem retire_pkg (s : State) (h : Hart) : (retire s h).pkg = s.pkg := rfl
@[simp] theorem retire_tb (s : State) (h : Hart) : (retire s h).tb = s.tb := rfl
@[simp] theorem retire_regs (s : State) (h : Hart) : (retire s h).regs = s.regs := rfl
@[simp] theorem retire_staged (s : State) (h : Hart) : (retire s h).staged = s.staged := rfl
@[simp] theorem retire_barData (s : State) (h : Hart) : (retire s h).barData = s.barData := rfl
@[simp] theorem retire_tapOut (s : State) (h : Hart) : (retire s h).tapOut = s.tapOut := rfl
@[simp] theorem retire_tapCount (s : State) (h : Hart) : (retire s h).tapCount = s.tapCount := rfl
@[simp] theorem retire_mem (s : State) (h : Hart) : (retire s h).mem = s.mem := rfl
@[simp] theorem retire_poison (s : State) (h : Hart) : (retire s h).poison = s.poison := rfl
@[simp] theorem retire_latent (s : State) (h : Hart) : (retire s h).latent = s.latent := rfl
@[simp] theorem retire_side (s : State) (h : Hart) : (retire s h).side = s.side := rfl
@[simp] theorem retire_convoys (s : State) (h : Hart) : (retire s h).convoys = s.convoys := rfl
@[simp] theorem retire_slotNow (s : State) (h : Hart) : (retire s h).slotNow = s.slotNow := rfl
@[simp] theorem retire_courier (s : State) (h : Hart) : (retire s h).courier = s.courier := rfl
@[simp] theorem retire_units (s : State) (h : Hart) : (retire s h).units = s.units := rfl
@[simp] theorem retire_sdma (s : State) (h : Hart) : (retire s h).sdma = s.sdma := rfl
@[simp] theorem retire_events (s : State) (h : Hart) : (retire s h).events = s.events := rfl
@[simp] theorem retire_evq (s : State) (h : Hart) : (retire s h).evq = s.evq := rfl
@[simp] theorem retire_errq (s : State) (h : Hart) : (retire s h).errq = s.errq := rfl
@[simp] theorem retire_errOvf (s : State) (h : Hart) : (retire s h).errOvf = s.errOvf := rfl
@[simp] theorem retire_errCons (s : State) (h : Hart) : (retire s h).errCons = s.errCons := rfl
@[simp] theorem retire_rowBeats (s : State) (h : Hart) : (retire s h).rowBeats = s.rowBeats := rfl
@[simp] theorem retire_alerts (s : State) (h : Hart) : (retire s h).alerts = s.alerts := rfl
@[simp] theorem retire_msix (s : State) (h : Hart) : (retire s h).msix = s.msix := rfl
@[simp] theorem retire_queues (s : State) (h : Hart) : (retire s h).queues = s.queues := rfl
@[simp] theorem retire_kernels (s : State) (h : Hart) : (retire s h).kernels = s.kernels := rfl
@[simp] theorem retire_ledger (s : State) (h : Hart) : (retire s h).ledger = s.ledger := rfl
@[simp] theorem retire_sweeps (s : State) (h : Hart) : (retire s h).sweeps = s.sweeps := rfl
@[simp] theorem retire_sweepAt (s : State) (h : Hart) : (retire s h).sweepAt = s.sweepAt := rfl
@[simp] theorem retire_links (s : State) (h : Hart) : (retire s h).links = s.links := rfl
@[simp] theorem retire_bundles (s : State) (h : Hart) : (retire s h).bundles = s.bundles := rfl
@[simp] theorem retire_drv (s : State) (h : Hart) : (retire s h).drv = s.drv := rfl

@[simp] theorem sendMsg_pending (s : State) (m : Msg) : (sendMsg s m).pending = s.pending := rfl
@[simp] theorem sendMsg_pkg (s : State) (m : Msg) : (sendMsg s m).pkg = s.pkg := rfl
@[simp] theorem sendMsg_tb (s : State) (m : Msg) : (sendMsg s m).tb = s.tb := rfl
@[simp] theorem sendMsg_regs (s : State) (m : Msg) : (sendMsg s m).regs = s.regs := rfl
@[simp] theorem sendMsg_staged (s : State) (m : Msg) : (sendMsg s m).staged = s.staged := rfl
@[simp] theorem sendMsg_barData (s : State) (m : Msg) : (sendMsg s m).barData = s.barData := rfl
@[simp] theorem sendMsg_tapOut (s : State) (m : Msg) : (sendMsg s m).tapOut = s.tapOut := rfl
@[simp] theorem sendMsg_tapCount (s : State) (m : Msg) : (sendMsg s m).tapCount = s.tapCount := rfl
@[simp] theorem sendMsg_mem (s : State) (m : Msg) : (sendMsg s m).mem = s.mem := rfl
@[simp] theorem sendMsg_poison (s : State) (m : Msg) : (sendMsg s m).poison = s.poison := rfl
@[simp] theorem sendMsg_latent (s : State) (m : Msg) : (sendMsg s m).latent = s.latent := rfl
@[simp] theorem sendMsg_side (s : State) (m : Msg) : (sendMsg s m).side = s.side := rfl
@[simp] theorem sendMsg_cores (s : State) (m : Msg) : (sendMsg s m).cores = s.cores := rfl
@[simp] theorem sendMsg_convoys (s : State) (m : Msg) : (sendMsg s m).convoys = s.convoys := rfl
@[simp] theorem sendMsg_slotNow (s : State) (m : Msg) : (sendMsg s m).slotNow = s.slotNow := rfl
@[simp] theorem sendMsg_units (s : State) (m : Msg) : (sendMsg s m).units = s.units := rfl
@[simp] theorem sendMsg_sdma (s : State) (m : Msg) : (sendMsg s m).sdma = s.sdma := rfl
@[simp] theorem sendMsg_events (s : State) (m : Msg) : (sendMsg s m).events = s.events := rfl
@[simp] theorem sendMsg_evq (s : State) (m : Msg) : (sendMsg s m).evq = s.evq := rfl
@[simp] theorem sendMsg_errq (s : State) (m : Msg) : (sendMsg s m).errq = s.errq := rfl
@[simp] theorem sendMsg_errOvf (s : State) (m : Msg) : (sendMsg s m).errOvf = s.errOvf := rfl
@[simp] theorem sendMsg_errCons (s : State) (m : Msg) : (sendMsg s m).errCons = s.errCons := rfl
@[simp] theorem sendMsg_rowBeats (s : State) (m : Msg) : (sendMsg s m).rowBeats = s.rowBeats := rfl
@[simp] theorem sendMsg_alerts (s : State) (m : Msg) : (sendMsg s m).alerts = s.alerts := rfl
@[simp] theorem sendMsg_msix (s : State) (m : Msg) : (sendMsg s m).msix = s.msix := rfl
@[simp] theorem sendMsg_queues (s : State) (m : Msg) : (sendMsg s m).queues = s.queues := rfl
@[simp] theorem sendMsg_kernels (s : State) (m : Msg) : (sendMsg s m).kernels = s.kernels := rfl
@[simp] theorem sendMsg_ledger (s : State) (m : Msg) : (sendMsg s m).ledger = s.ledger := rfl
@[simp] theorem sendMsg_sweeps (s : State) (m : Msg) : (sendMsg s m).sweeps = s.sweeps := rfl
@[simp] theorem sendMsg_sweepAt (s : State) (m : Msg) : (sendMsg s m).sweepAt = s.sweepAt := rfl
@[simp] theorem sendMsg_links (s : State) (m : Msg) : (sendMsg s m).links = s.links := rfl
@[simp] theorem sendMsg_bundles (s : State) (m : Msg) : (sendMsg s m).bundles = s.bundles := rfl
@[simp] theorem sendMsg_drv (s : State) (m : Msg) : (sendMsg s m).drv = s.drv := rfl

@[simp] theorem sendMsg_courier (s : State) (m : Msg) : (sendMsg s m).courier = s.courier ++ [m] := rfl

end Sys2Proof.Machine
end

