-- ==== Sys2Proof/Laws/Threads.lean ====
section
/-! SUPPORT. Reading a core, a thread, a scalar register or a CSR after one was written, and what a commit does. -/

namespace Sys2Proof.Machine

@[simp] theorem core_setCore_same (s : State) (c : Nat) (k : Core) : core (setCore s c k) c = k := by
  simp [core, setCore]

@[simp] theorem core_setCore_other (s : State) {c d : Nat} (k : Core) (h : d ≠ c) : core (setCore s c k) d = core s d := by
  simp [core, setCore, h]

@[simp] theorem core_modCore_same (s : State) (c : Nat) (f : Core → Core) : core (modCore s c f) c = f (core s c) := by
  simp [modCore]

@[simp] theorem core_modCore_other (s : State) {c d : Nat} (f : Core → Core) (h : d ≠ c) :
    core (modCore s c f) d = core s d := by
  simp [modCore, h]

@[simp] theorem thr_setThr_same (s : State) (h : Hart) (t : Thread) : thr (setThr s h t) h = t := by
  simp [thr, setThr]

/-- Another thread of the same or another core is left alone. -/
theorem thr_setThr_other (s : State) {h j : Hart} (t : Thread) (hj : j ≠ h) : thr (setThr s h t) j = thr s j := by
  by_cases hc : j.core = h.core
  · have ht : j.tid.toNat ≠ h.tid.toNat := fun e => hj (by
      obtain ⟨c, x⟩ := j
      obtain ⟨d, y⟩ := h
      simp_all [BitVec.toNat_eq])
    simp [thr, setThr, hc, ht]
  · simp [thr, setThr, hc]

@[simp] theorem core_setThr_other (s : State) {h : Hart} {d : Nat} (t : Thread) (hd : d ≠ h.core) :
    core (setThr s h t) d = core s d := by
  simp [setThr, hd]

@[simp] theorem core_setThr_threads (s : State) (h : Hart) (t : Thread) :
    (core (setThr s h t) h.core).threads = sput (core s h.core).threads h.tid.toNat t := by
  simp [setThr]

/-- A thread written changes nothing else of its core. -/
theorem core_setThr_same (s : State) (h : Hart) (t : Thread) :
    core (setThr s h t) h.core = { core s h.core with threads := (core (setThr s h t) h.core).threads } := by
  simp [setThr]

/-- A CSR of a core changes no thread. -/
@[simp] theorem thr_setCoreCsr (s : State) (c n : Nat) (v : Word) (h : Hart) : thr (setCoreCsr s c n v) h = thr s h := by
  by_cases hc : h.core = c
  · subst hc
    simp [thr, setCoreCsr]
  · simp [thr, setCoreCsr, hc]

@[simp] theorem thr_countCore (s : State) (c n d : Nat) (h : Hart) : thr (countCore s c n d) h = thr s h := by
  simp [countCore]

/-- With no instruction in the window, a read is one of the register file (R69, R70). -/
theorem thread_rd_empty {t : Thread} (hw : t.window = []) (r : GReg) : t.rd r = t.fileRd r := by
  by_cases h : r = 0
  · simp [h, Thread.rd, Thread.fileRd]
  · simp only [Thread.rd, if_neg h, Thread.writer, hw, List.reverse_nil, List.find?_nil]

@[simp] theorem thread_wr_window (t : Thread) (r : GReg) (v : Word) : (t.wr r v).window = t.window := by
  simp only [Thread.wr, Thread.setWinReg]
  repeat' split
  all_goals rfl

/-- A register file entry that was just written reads as written, but for g0, which reads 0. -/
theorem thread_fileRd_wr_same (t : Thread) (r : GReg) (v : Word) : (t.wr r v).fileRd r = if r = 0 then 0 else v := by
  have hr : (r.toNat = 0) = (r = 0) := by simp [BitVec.toNat_eq]
  unfold Thread.wr
  by_cases h0 : r = 0#5
  · simp [h0, Thread.fileRd]
  · have h0' : r.toNat ≠ 0 := fun h => h0 (hr ▸ h)
    by_cases h1 : r.toNat < 16
    · simp [Thread.fileRd, h0, h0', h1]
    · by_cases h2 : r.toNat < 24 ∨ t.level = 0#2
      · simp [Thread.fileRd, h0, h0', h1, h2, Thread.setWinReg, Thread.winReg, Thread.cwp, Thread.getCsr]
      · simp [Thread.fileRd, h0, h0', h1, h2]

/-- A write to one scalar register leaves every other as it was. -/
theorem thread_fileRd_wr_other (t : Thread) {r q : GReg} (v : Word) (h : q ≠ r) : (t.wr r v).fileRd q = t.fileRd q := by
  have hn : q.toNat ≠ r.toNat := fun e => h (BitVec.eq_of_toNat_eq e)
  have hq := q.isLt
  have hr := r.isLt
  unfold Thread.wr
  by_cases h0 : r.toNat = 0
  · simp [h0]
  · by_cases h1 : r.toNat < 16
    · simp [h0, h1]
      by_cases hq1 : q.toNat < 16
      · simp [Thread.fileRd, hq1, hn]
      · simp [Thread.fileRd, hq1, Thread.winReg, Thread.cwp, Thread.getCsr]
    · by_cases h2 : r.toNat < 24 ∨ t.level = 0#2
      · simp [h0, h1, h2]
        have hk : 16 * (t.cwp % 8) + (q.toNat - 16) ≠ 16 * (t.cwp % 8) + (r.toNat - 16) ∨ q.toNat < 16 := by omega
        rcases hk with hk | hk
        · simp [Thread.fileRd, Thread.setWinReg, Thread.winReg, Thread.cwp, Thread.getCsr] at hk ⊢
          simp [hk]
        · simp [Thread.fileRd, hk, Thread.setWinReg]
      · simp [h0, h1, h2]
        by_cases hq2 : q.toNat < 24 ∨ t.level = 0#2
        · simp [Thread.fileRd, hq2, Thread.winReg, Thread.cwp, Thread.getCsr]
        · have hk : 8 * (t.level.toNat - 1) + (q.toNat - 24) ≠ 8 * (t.level.toNat - 1) + (r.toNat - 24) := by omega
          simp only [Thread.fileRd, sget_sput_other _ _ _ hk]
          rfl

theorem thread_rd_wr_same {t : Thread} (hw : t.window = []) (r : GReg) (v : Word) :
    (t.wr r v).rd r = if r = 0 then 0 else v := by
  rw [thread_rd_empty (by simpa using hw), thread_fileRd_wr_same]

theorem thread_rd_wr_other {t : Thread} (hw : t.window = []) {r q : GReg} (v : Word) (h : q ≠ r) :
    (t.wr r v).rd q = t.rd q := by
  rw [thread_rd_empty (by simpa using hw), thread_fileRd_wr_other _ _ h, thread_rd_empty hw]

@[simp] theorem thr_setGreg_window (s : State) (h : Hart) (r : GReg) (v : Word) :
    (thr (setGreg s h r v) h).window = (thr s h).window := by
  simp [setGreg, modThr]

/-- A scalar register written reads as written, but for g0, which reads 0 (R50). -/
theorem greg_setGreg_same {s : State} {h : Hart} (hw : (thr s h).window = []) (r : GReg) (v : Word) :
    greg (setGreg s h r v) h r = if r = 0 then 0 else v := by
  simp [greg, setGreg, modThr, thread_rd_wr_same hw]

/-- A scalar register written leaves every other register of its thread as it was. -/
theorem greg_setGreg_other {s : State} {h : Hart} (hw : (thr s h).window = []) {r q : GReg} (v : Word) (hq : q ≠ r) :
    greg (setGreg s h r v) h q = greg s h q := by
  simp [greg, setGreg, modThr, thread_rd_wr_other hw _ hq]

/-- The issue of a handler's first instruction clears that record of its thread and changes nothing else of it (R162). -/
@[simp] theorem thr_noteHandlerIssue (s : State) (h : Hart) :
    thr (noteHandlerIssue s h) h = { thr s h with latFrom := none } := by
  simp [noteHandlerIssue, modThr, thr, modCore, core, setCore, setThr]

/-- What a commit leaves of its thread (R69). -/
@[simp] theorem thr_retireTo (s : State) (h : Hart) (p : Word) :
    thr (retireTo s h p) h = { thr s h with pc := p, fetched := none, hovr := 0, tileWait := none, latFrom := none } := by
  simp [retireTo, modThr]

@[simp] theorem thr_retire (s : State) (h : Hart) :
    thr (retire s h) h =
      { thr s h with pc := (thr s h).pc + 4, fetched := none, hovr := 0, tileWait := none, latFrom := none } := by
  simp [retire]

/-- What a read of a register takes from a thread: its files, its level, its window pointer and its window. -/
theorem thread_rd_congr {t u : Thread} (hg : u.g = t.g) (hn : u.win = t.win) (hs : u.shadow = t.shadow)
    (hc : u.csr = t.csr) (hl : u.level = t.level) (hw : u.window = t.window) (r : GReg) : u.rd r = t.rd r := by
  simp [Thread.rd, Thread.writer, Thread.fileRd, Thread.winReg, Thread.cwp, Thread.getCsr, hg, hn, hs, hc, hl, hw]

/-- A commit changes no scalar register. -/
@[simp] theorem greg_retireTo (s : State) (h : Hart) (p : Word) (r : GReg) : greg (retireTo s h p) h r = greg s h r := by
  simp only [greg, thr_retireTo]
  exact thread_rd_congr rfl rfl rfl rfl rfl rfl r

@[simp] theorem greg_retire (s : State) (h : Hart) (r : GReg) : greg (retire s h) h r = greg s h r := by
  simp [retire]

/-- A thread that issues a committing instruction has an empty window, so that its registers are its files (R69). -/
theorem window_of_canIssue {s : State} {h : Hart} (hc : canIssue s h = true) : (thr s h).window = [] := by
  simpa [canIssue] using (Bool.and_eq_true_iff.mp hc).2

/-- A thread that issues a committing instruction issues none behind older ones (R69). -/
theorem canFollow_of_canIssue {s : State} {h : Hart} (hc : canIssue s h = true) : canFollow s h = false := by
  simp [canFollow, window_of_canIssue hc]

/-- An instruction with a register result, where every older one has committed, is what it was without the window (R69). -/
theorem follow_of_canIssue {s : State} {h : Hart} (hc : canIssue s h = true) (srcs : List GReg) (rd : GReg) (v pc : Word)
    (k : Host.Outcome State Fault Refusal) : follow s h srcs rd v pc k = k := by
  simp [follow, canFollow_of_canIssue hc]

/-- A command that a thread can issue takes its own course; one it cannot issue changes nothing (log entry 1). -/
theorem issue_cases {s s' : State} {h : Hart} {r : Res} (hi : issue s h r = .next s') :
    (canIssue s h = false ∧ s' = s) ∨ (canIssue s h = true ∧ r = .ok s') ∨
      ∃ t x, canIssue s h = true ∧ r = .trap t x ∧ s' = takeTrap t h x (thr s h).pc := by
  unfold issue at hi
  by_cases hc : canIssue s h = true
  · simp only [hc, if_true] at hi
    cases r with
    | ok t => cases hi; exact .inr (.inl ⟨hc, rfl⟩)
    | trap t x => cases hi; exact .inr (.inr ⟨t, x, hc, rfl, rfl⟩)
  · simp only [hc] at hi
    cases hi
    exact .inl ⟨by simpa using hc, rfl⟩

/-- Of a command of a unit: it acts where its condition holds and changes nothing elsewhere (log entry 1). -/
theorem when_cases {s s' t : State} {c : Bool} (h : Machine.when s c t = .next s') : (c = true ∧ s' = t) ∨ (c = false ∧ s' = s) := by
  cases c <;> cases h <;> simp

end Sys2Proof.Machine
end

