-- ==== Sys2Proof/Laws/Memory.lean ====
section
/-! SUPPORT. Which shared operations leave memory alone, and that every write of memory keeps its canonical form. -/

namespace Sys2Proof.Machine

/-! ### Operations that touch no byte of memory -/

@[simp] theorem setFlag_mem (s : State) (o i : Nat) (v : Bool) : (setFlag s o i v).mem = s.mem := rfl
@[simp] theorem setFld_mem (s : State) (o hi lo v : Nat) : (setFld s o hi lo v).mem = s.mem := rfl
@[simp] theorem modCore_mem (s : State) (c : Nat) (f : Core → Core) : (modCore s c f).mem = s.mem := rfl
@[simp] theorem modThr_mem (s : State) (h : Hart) (f : Thread → Thread) : (modThr s h f).mem = s.mem := rfl
@[simp] theorem countCore_mem (s : State) (c n d : Nat) : (countCore s c n d).mem = s.mem := rfl
@[simp] theorem countSat_mem (s : State) (o : Nat) : (countSat s o).mem = s.mem := rfl
@[simp] theorem setSatf_mem (s : State) (h : Hart) (m : Word) : (setSatf s h m).mem = s.mem := rfl
@[simp] theorem poisonSectors_mem (s : State) (ks : List Nat) : (poisonSectors s ks).mem = s.mem := rfl
@[simp] theorem cleanSectors_mem (s : State) (ks : List Nat) : (cleanSectors s ks).mem = s.mem := rfl
@[simp] theorem tick_mem (s : State) : (tick s).mem = s.mem := by
  unfold tick
  split <;> rfl

@[simp] theorem ledgerCore_mem (s : State) (c k n : Nat) : (ledgerCore s c k n).mem = s.mem := by
  unfold ledgerCore
  split <;> rfl

@[simp] theorem sendFrom_mem (s : State) (m : Msg) : (sendFrom s m).mem = s.mem := by
  unfold sendFrom
  split <;> simp [sendMsg]

@[simp] theorem sendAlert_mem (s : State) (n st t i : Nat) : (sendAlert s n st t i).mem = s.mem := by
  unfold sendAlert
  simp only
  split <;> simp

@[simp] theorem reportPoison_mem (s : State) (a : Nat) (d : Bool) : (reportPoison s a d).mem = s.mem := by
  unfold reportPoison
  simp only
  repeat' split
  all_goals simp

@[simp] theorem countCorr_mem (s : State) (a n : Nat) : (countCorr s a n).mem = s.mem := by
  induction n with
  | zero => rfl
  | succ n ih =>
    simp only [countCorr]
    split <;> simpa using ih

@[simp] theorem findLine_mem (s : State) (l : Nat) (d : Bool) : (findLine s l d).mem = s.mem := by
  unfold findLine
  simp only
  repeat' split
  all_goals simp

@[simp] theorem demandRead_mem (s : State) (a n : Nat) : (demandRead s a n).mem = s.mem := by
  have h : ∀ l : List Nat, ∀ s : State, (l.foldl (fun s x => findLine s x true) s).mem = s.mem := by
    intro l
    induction l with
    | nil => simp
    | cons x r ih => simp [ih]
  unfold demandRead
  split <;> simp [h]

@[simp] theorem pendLine_mem (s : State) (c l : Nat) (v : Word) : (pendLine s c l v).mem = s.mem := by
  unfold pendLine
  simp only
  split <;> rfl

@[simp] theorem raiseLine_mem (s : State) (c l : Nat) (v : Word) : (raiseLine s c l v).mem = s.mem := by
  unfold raiseLine
  simp only [pendLine_mem]
  repeat' split
  all_goals simp

@[simp] theorem endHold_mem (s : State) (h : Hart) : (endHold s h).mem = s.mem := by
  unfold endHold
  simp only
  repeat' split
  all_goals rfl

@[simp] theorem endTileWait_mem (s : State) (h : Hart) : (endTileWait s h).mem = s.mem := by
  unfold endTileWait
  split <;> simp

@[simp] theorem drvWatchdogReset_mem (s : State) : (drvWatchdogReset s).mem = s.mem := rfl

@[simp] theorem haltCore_mem (s : State) (h : Hart) (c : Nat) : (haltCore s h c).mem = s.mem := by
  unfold haltCore
  simp only
  repeat' split
  all_goals simp

@[simp] theorem enterTrap_mem (s : State) (h : Hart) (tr : Trap) (e : Word) (g : Bool) (p : BitVec 4) (o : Bool) :
    (enterTrap s h tr e g p o).mem = s.mem := by
  unfold enterTrap
  dsimp only
  repeat' split
  all_goals simp

@[simp] theorem noteHandlerIssue_mem (s : State) (h : Hart) : (noteHandlerIssue s h).mem = s.mem := rfl

@[simp] theorem takeTrap_mem (s : State) (h : Hart) (tr : Trap) (e : Word) : (takeTrap s h tr e).mem = s.mem := by
  unfold takeTrap
  split <;> simp

@[simp] theorem takeInterrupt_mem (s : State) (h : Hart) (l : Nat) (e : Word) : (takeInterrupt s h l e).mem = s.mem := by
  simp [takeInterrupt]

@[simp] theorem returnTrap_mem (s : State) (h : Hart) : (returnTrap s h).mem = s.mem := rfl

/-! ### Writes of memory keep the canonical form (log entry 6) -/

/-- Merge reads change no byte. -/
theorem mergeReads_mem (l : List Nat) (s : State) : (l.foldl (fun s g => demandRead s g 1) s).mem = s.mem := by
  induction l generalizing s with
  | nil => rfl
  | cons g r ih => simp [ih]

@[simp] theorem renewChecks_mem (s : State) (a n : Nat) : (renewChecks s a n).mem = s.mem := by
  unfold renewChecks
  simp only
  split <;> simp [mergeReads_mem]

/-- A write stores its bytes, whatever it finds in the granules it covers in part. -/
theorem writeMem_mem (s : State) (a : Nat) (bs : List Byte) : (writeMem s a bs).mem = memPutAll s.mem a bs := by
  unfold writeMem
  cases bs with
  | nil => rfl
  | cons b r => simp

theorem writeMem_wf (s : State) (a : Nat) (bs : List Byte) (h : Memory.wf s.mem = true) :
    Memory.wf (writeMem s a bs).mem = true := by
  rw [writeMem_mem]
  exact memPutAll_wf a bs h

@[simp] theorem writePoison_mem (s : State) (a : Nat) (bs : List Byte) : (writePoison s a bs).mem = memPutAll s.mem a bs := by
  simp [writePoison, writeMem_mem]

theorem writeData_mem (s : State) (a : Nat) (bs : List Byte) (pz : Bool) :
    (writeData s a bs pz).mem = memPutAll s.mem a bs := by
  unfold writeData
  split <;> simp [writeMem_mem]

theorem writeData_wf (s : State) (a : Nat) (bs : List Byte) (pz : Bool) (h : Memory.wf s.mem = true) :
    Memory.wf (writeData s a bs pz).mem = true := by
  rw [writeData_mem]
  exact memPutAll_wf a bs h

theorem zeroMem_wf (s : State) (a n : Nat) (h : Memory.wf s.mem = true) : Memory.wf (zeroMem s a n).mem = true :=
  (memory_wf_filter _ h).1

theorem writeLocal_wf (s : State) (c o : Nat) (bs : List Byte) (h : Memory.wf s.mem = true) :
    Memory.wf (writeLocal s c o bs).mem = true := writeMem_wf s _ bs h

/-- Every byte outside a write reads as before. -/
theorem memGet_writeMem_outside (s : State) (a j : Nat) (bs : List Byte) (h : Memory.wf s.mem = true)
    (hj : j < a ∨ a + bs.length ≤ j) : memGet (writeMem s a bs).mem j = memGet s.mem j := by
  rw [writeMem_mem]
  exact memGet_memPutAll_outside bs h hj

/-- The bytes of a write read back. -/
theorem memGet_writeMem_inside (s : State) (a i : Nat) (bs : List Byte) (h : Memory.wf s.mem = true)
    (hi : i < bs.length) : memGet (writeMem s a bs).mem (a + i) = bs[i] := by
  rw [writeMem_mem]
  exact memGet_memPutAll_inside bs h hi

/-- Memory after reset lists nothing (R429, R430; log entry 6). -/
theorem reset_memory_wf : Memory.wf State.reset.mem = true := rfl

end Sys2Proof.Machine
end

