-- ==== Sys2Proof/Laws/Registers.lean ====
section
/-! SUPPORT. Reading a register of the part after one was written. -/

namespace Sys2Proof.Machine

@[simp] theorem reg_setReg_same (s : State) (o : Nat) (v : Word) : reg (setReg s o v) o = v := by
  simp [reg, setReg]

@[simp] theorem reg_setReg_other (s : State) {o p : Nat} (v : Word) (h : p ≠ o) : reg (setReg s o v) p = reg s p := by
  simp [reg, setReg, h]

@[simp] theorem reg_setCore (s : State) (c : Nat) (k : Core) (o : Nat) : reg (setCore s c k) o = reg s o := rfl
@[simp] theorem reg_modCore (s : State) (c : Nat) (f : Core → Core) (o : Nat) : reg (modCore s c f) o = reg s o := rfl
@[simp] theorem reg_setThr (s : State) (h : Hart) (t : Thread) (o : Nat) : reg (setThr s h t) o = reg s o := rfl
@[simp] theorem reg_modThr (s : State) (h : Hart) (f : Thread → Thread) (o : Nat) : reg (modThr s h f) o = reg s o := rfl
@[simp] theorem reg_sendMsg (s : State) (m : Msg) (o : Nat) : reg (sendMsg s m) o = reg s o := rfl
@[simp] theorem core_setReg (s : State) (o : Nat) (v : Word) (c : Nat) : core (setReg s o v) c = core s c := rfl
@[simp] theorem thr_setReg (s : State) (o : Nat) (v : Word) (h : Hart) : thr (setReg s o v) h = thr s h := rfl

/-- A field of one register leaves every other register as it was. -/
theorem reg_setFld_other (s : State) {o p : Nat} (hi lo v : Nat) (h : p ≠ o) : reg (setFld s o hi lo v) p = reg s p := by
  simp [setFld, h]

@[simp] theorem reg_setFld_same (s : State) (o hi lo v : Nat) : reg (setFld s o hi lo v) o = putBits (reg s o) hi lo v := by
  simp [setFld]

theorem reg_setFlag_other (s : State) {o p : Nat} (i : Nat) (v : Bool) (h : p ≠ o) :
    reg (setFlag s o i v) p = reg s p := by
  simp [setFlag, h]

@[simp] theorem reg_setFlag_same (s : State) (o i : Nat) (v : Bool) : reg (setFlag s o i v) o = putBit (reg s o) i v := by
  simp [setFlag]

end Sys2Proof.Machine
end

