-- ==== Sys2Proof/Laws/SlotTables.lean ====
section
/-! SUPPORT. The lane slot tables at reset: every word of them resets to 0, and an empty table overloads no router. -/

namespace Sys2Proof.Machine

/-- A row of the register table either resets to 0 or lies below the slot tables. -/
def quietRow (r : RegRow) : Bool :=
  r.rst == 0 || match r.dims with
    | [] => decide (r.base < 0x1100000)
    | (st, n) :: _ => decide (r.base + st * n ≤ 0x1100000) && decide (0 < st)

/-- A quiet row that holds an offset of the slot tables or above resets to 0. -/
theorem quietRow_rst (r : RegRow) (off : Nat) (h1 : 0x1100000 ≤ off) (hq : quietRow r = true) (hh : r.holds off = true) :
    r.rst = 0 := by
  rcases r with ⟨base, dims, a, b, c, d, rst, e, f, g⟩
  cases dims with
  | nil =>
    simp [quietRow, RegRow.holds, dimHit] at hq hh ⊢
    rcases hq with hq | hq
    · exact hq
    · omega
  | cons x l =>
    obtain ⟨st, n⟩ := x
    simp [quietRow, RegRow.holds, dimHit] at hq hh ⊢
    rcases hq with hq | ⟨hq, h0⟩
    · exact hq
    · have := (Nat.div_lt_iff_lt_mul h0).mp hh.2.1
      rw [Nat.mul_comm] at this
      omega

/-- No offset of the slot tables has a reset value of its own. -/
theorem specialReset_laneSlot (p : Package) {off : Nat} (h1 : 0x1100000 ≤ off) (h2 : off < 0x1102000) :
    p.specialReset off = none := by
  have apart : ∀ n, n < 0x1100000 ∨ 0x1102000 ≤ n → off ≠ n := by omega
  have above : ¬ off < 0x1000150 := by omega
  have below : ¬ 0x2000000 ≤ off := by omega
  simp [Package.specialReset, Reg.sraCap, Reg.cmpCap, Reg.cmpTimeRate, Reg.sraIso, Reg.lnkChip, Reg.cmpTier0W0,
    Reg.cmpTierW2, apart, above, below]

/-- Every slot table word resets to 0. -/
theorem resetWord_laneSlot (p : Package) (off : Nat) (h1 : 0x1100000 ≤ off) (h2 : off < 0x1102000) : p.resetWord off = 0 := by
  have hs : p.specialReset off = none := specialReset_laneSlot p h1 h2
  have hq : ∀ r ∈ regRows_global, quietRow r = true := by decide +kernel
  unfold Package.resetWord
  rw [hs]
  have hr : regRow off = regRows_global.find? fun r => r.holds off := by
    unfold regRow
    simp only
    rw [if_neg (by omega), if_pos (by omega)]
  simp only [hr]
  cases h : regRows_global.find? fun r => r.holds off with
  | none => rfl
  | some r => exact quietRow_rst r off h1 (hq r (List.mem_of_find?_eq_some h)) (List.find?_some (p := fun r : RegRow => r.holds off) h)

/-- Where every slot table word is 0, no router is over its limit. -/
theorem firstOver_empty (s : State) (h : ∀ off, 0x1100000 ≤ off → off < 0x1102000 → reg s off = 0) (hn : s.pkg.variant = .bm768) :
    firstOver s = none := by
  have e0 : ∀ l k, l < 128 → k < 64 → shadowEntry s l k = 0 := by
    intro l k hl hk
    unfold shadowEntry
    rw [h _ (by simp only [Reg.cmpLaneSlot]; omega) (by simp only [Reg.cmpLaneSlot]; omega)]
    simp [byteOf, bits]
  have hh : ∀ r k, r < 10 → k < 64 → portBeats (shadowEntry s) r k = 0 := by
    intro r k hr hk
    have l1 : ∀ r, r < 10 → ∀ l ∈ routerHalfLanes r, l < 128 := by decide
    have l2 : ∀ r, r < 10 → ∀ l ∈ routerRims r, l < 128 := by decide
    have hb : ∀ j, j < 64 → rimBeats (shadowEntry s) r j = 0 := by
      intro j hj
      simp only [rimBeats, Nat.mul_eq_zero, List.countP_eq_zero]
      right
      intro l hl
      simp [e0 l j (l2 r hr l hl) hj]
    have ha : halfBeats (shadowEntry s) r k = 0 := by
      simp only [halfBeats, List.countP_eq_zero]
      intro l hl
      simp [e0 l k (l1 r hr l hl) hk]
    simp [portBeats, ha, hb k hk, hb ((k + 60) % 64) (Nat.mod_lt _ (by decide))]
  unfold firstOver
  rw [List.find?_eq_none]
  intro e he
  obtain ⟨r, hr, hk⟩ := List.mem_flatMap.mp he
  obtain ⟨k, hj, rfl⟩ := List.mem_map.mp hk
  have hr10 : r < 10 := by
    have : ∀ r ∈ routers State.reset, r < 10 := by decide
    exact this r (by
      simp only [routers, Package.nUnits, Package.nSerai, hn] at hr
      exact hr)
  simp [hh r k hr10 (List.mem_range.mp hj)]

end Sys2Proof.Machine
end

