-- ==== Sys2Proof/Tests/Slice0.lean ====
section
/-! SUPPORT. The author's own tests: ill-formed terms refused, instruction words written out bit by bit from R89 to R92 and
R126 to R129, a few results worked out by hand, and for each statement with hypotheses states that meet those of each of
its clauses. -/

namespace Sys2Proof.Machine.Tests

set_option Elab.async false

/-! ### Small states -/

/-- The part out of reset, with the host's link up and the Drover running. -/
def up : State :=
  { State.reset with
    pkg := { Package.reset with pwrok := true, hostUp := true }
    drv := { Drover.reset with por := false } }

/-- Thread 0 of core 0. -/
def h0 : Hart := ⟨0, 0⟩

/-- A started thread. -/
def t0 : Thread := { Thread.reset with status := .started }

/-- Core 0 runs a thread made from the started one, and is otherwise made from the reset core. -/
def run (t : Thread) (k : Core → Core := id) : State :=
  { up with cores := [(0, k { Core.reset with run := .running, threads := [(0, t)] })] }

/-- Core 0 runs a started thread. -/
def go : State := run t0

/-- The started thread with g1, g2 and g3. -/
def tg (a b c : Word) : Thread := { t0 with g := [(1, a), (2, b), (3, c)] }

/-- The part with registers of given values. -/
def withRegs (s : State) (l : List (Nat × Word)) : State := { s with regs := l.foldl (fun m e => sput m e.1 e.2) s.regs }

/-- The value of CMP_TEN_RECT of an enabled rectangle over the whole mesh. -/
def wholeRect : Word := 0x80000E28

/-- Core 0 runs a started thread at trap level 1, with g1 and so many windows resident. -/
def wst (l : BitVec 2) (n : Nat) (a : Word) : State := run ({ tg a 0 0 with level := l }.setWstat 0 n)

/-! ### Ill-formed commands are refused, and their neighbours are not -/

theorem test_wf_refuses_harts_and_nodes :
    (Instr.add ⟨768, 0⟩ 1 2 3).wf = false ∧ (Instr.add ⟨767, 3⟩ 1 2 3).wf = true ∧
    (Instr.add ⟨1024, 1⟩ 1 2 3).wf = false ∧ (Instr.add ⟨1025, 0⟩ 1 2 3).wf = true ∧
    (Instr.vadd ⟨1024, 0⟩ .b8 1 2 3).wf = false ∧ (Instr.vmulq h0 .b32 1 2 3).wf = false ∧
    (Instr.relockComplete 1026).wf = false ∧ (Instr.laneCommit (.node 4096 true)).wf = false ∧
    (Instr.registerWrite .host 0x4000000 .read32).wf = false ∧ (Instr.registerWrite .host 0x3FFFFFF .read32).wf = true := by
  decide

theorem test_wf_refuses_operands :
    (Instr.dbnz h0 0 1).wf = false ∧ (Instr.hold h0 0).wf = false ∧ (Instr.hold h0 513).wf = false ∧
    (Instr.hold h0 512).wf = true ∧ (Instr.fence h0 1 false false false).wf = false ∧
    (Instr.convoyLaunch 16).wf = false ∧ (Instr.laneBeatArrival 0 0 122 0).wf = false ∧
    (Instr.laneBeatArrival 0 0 121 64).wf = false ∧ (Instr.laneSlotWrite .host 0 16 0).wf = false ∧
    (Instr.cattrip 8).wf = false ∧ (Instr.cxlEnumerated 4 1).wf = false ∧ (Instr.copy (.sys 2 0)).wf = false ∧
    (Instr.copy (.sys 1 32)).wf = false ∧ (Instr.copy (.tile 768 0)).wf = false ∧ (Instr.copy (.tile 0 2)).wf = false ∧
    (Instr.rowFetchComplete (.far 2) 0).wf = false ∧ (Instr.tdmaDoorbell 0 2).wf = false := by
  decide

theorem test_wf_refuses_object_numbers :
    (Instr.create .host 64).wf = false ∧ (Instr.moValidate .host 65536 0).wf = false ∧ (Instr.queueEnable .host 256 0).wf = false ∧
    (Instr.sweepReadReturn 32 []).wf = false ∧ (Instr.kernelStart 16).wf = false ∧ (Instr.evReset .host 4096).wf = false ∧
    (Instr.linkEnable .host 2 0).wf = false ∧ (Instr.retrain 0 32).wf = false ∧ (Instr.gapTimer 0 16).wf = false ∧
    (Instr.routeAccept 16).wf = false ∧ (Instr.csiFrameRecord 4).wf = false ∧ (Instr.gateEdge 2).wf = false ∧
    (Instr.ethTxDoorbell .host 0 8 0).wf = false ∧ (Instr.ethRingEnable .host 0 12 0).wf = false ∧
    (Instr.canMbLaunch 4 0).wf = false ∧ (Instr.canMbLaunch 0 16).wf = false ∧ (Instr.dinOpen 16).wf = false ∧
    (Instr.encoderOpen 4).wf = false ∧ (Instr.adcOpen 8).wf = false ∧ (Instr.doutRetry 8).wf = false ∧
    (Instr.twinSkewTimeout 4).wf = false ∧ (Instr.watchdogExpire 8).wf = false ∧ (Instr.blockRun .host 48).wf = false := by
  decide

/-! ### Instruction words of R90 to R93 and R126 to R129 -/

theorem test_decode_scalar_words :
    decode h0 0b00000000010001000011000000000001 = some (.add h0 1 2 3) ∧
    decode h0 0b00000001000010100000000000011001 = some (.popc h0 4 5) ∧
    decode h0 0b00001000000000000000000000000000 = some (.addi h0 0 0 0) ∧
    decode h0 0b00001001110100011100000000111111 = some (.sri h0 7 8 true 31) ∧
    decode h0 0b00010001000000000000000001000000 = some (.lui h0 4 64) ∧
    decode h0 0b00100010010101001111111111111111 = some (.ldHu h0 9 10 true 0x1FFF) ∧
    decode h0 0b00101000010001010000000000000100 = some (.stW h0 1 2 4) ∧
    decode h0 0b00110000010001000011000000000101 = some (.amocasW h0 1 2 3) ∧
    decode h0 0b00111101100101001101111111111110 = some (.bgeu h0 true 5 6 0x1FFE) ∧
    decode h0 0b01000100000000000000000000000010 = some (.callw h0 2) ∧
    decode h0 0b01001000111111111111111111111111 = some (.dbnz h0 3 0x3FFFFF) ∧
    decode h0 0b01010000000000000000000000000100 = some (.retw h0) ∧
    decode h0 0b01011001100000000000000000111111 = some (.anarrowB h0 6 15) := by
  decide +kernel

theorem test_decode_system_words :
    decode h0 0b01100000010001000011001000010010 = some (.gatherv h0 1 2 3 4 2) ∧
    decode h0 0b01101000010001001000100000000100 = some (.csrs h0 1 2 0x804) ∧
    decode h0 0b01110000000000000000111111111111 = some (.trap h0 0xFFF) ∧
    decode h0 0b01110000000000000011001000000000 = some (.hold h0 512) ∧
    decode h0 0b01110000000011100111000000000000 = some (.twait h0 7) ∧
    decode h0 0b01111000000100100000000000000001 = some (.wspill h0 9) ∧
    decode h0 0b11000000010001010001010000001010 = some (.vsll h0 .b16 1 2 17) ∧
    decode h0 0b11001011110001100101111111111111 = some (.vst h0 15 3 0x1FFF) := by
  decide +kernel

theorem test_decode_words_of_the_manuals_example :
    decode h0 0x08000000 = some (.addi h0 0 0 0) ∧ decode h0 0xD00C0001 = some (.stencil h0 0 6) ∧
    decode h0 0xD0088002 = some (.tld h0 0 4 8) ∧ decode h0 0xD8000003 = some (.azero h0 0 0) ∧
    decode h0 0xD8080001 = some (.mma h0 0 0 1) ∧ decode h0 0xD8800004 = some (.mnarrow h0 2 0 (some 0)) ∧
    decode h0 0xD20E8003 = some (.tst h0 2 7 8) := by
  decide +kernel

theorem test_decode_refuses_reserved_words :
    decode h0 0 = none ∧ decode h0 0x80000000 = none ∧ decode h0 0x0000000F = none ∧ decode h0 0xC0000C01 = none ∧
    decode h0 0xDB818004 = none := by
  decide +kernel

/-! ### States that meet the hypotheses of each clause: the scalar core -/

theorem test_witness_arithmetic_and_branches :
    canIssue go h0 = true ∧ (greg go h0 0).toNat % 4 = 0 ∧ canIssue (run (tg 4 0 0)) h0 = true ∧
    (greg (run (tg 4 0 0)) h0 1).toNat % 4 = 0 ∧ State.reset.pending = [] := by
  decide +kernel

theorem test_witness_windows :
    let odd := run ((t0.setWstat 0 1).setWinReg 0 15 2)
    (canIssue (wst 0 7 8) h0 = true ∧ (thr (wst 0 7 8) h0).resident < 8 ∧ (greg (wst 0 7 8) h0 1).toNat % 4 = 0) ∧
    (canIssue (wst 0 8 8) h0 = true ∧ (thr (wst 0 8 8) h0).resident = 8 ∧ (thr (wst 0 8 8) h0).level ≠ 3) ∧
    (2 ≤ (thr (wst 0 8 0) h0).resident ∧ (thr (wst 0 8 0) h0).resident ≤ 8 ∧
      ((thr (wst 0 8 0) h0).winReg (thr (wst 0 8 0) h0).cwp 15).toNat % 4 = 0) ∧
    (canIssue (wst 2 1 0) h0 = true ∧ (thr (wst 2 1 0) h0).resident = 1 ∧ (thr (wst 2 1 0) h0).level ≠ 3 ∧
      ((thr (wst 2 1 0) h0).winReg (thr (wst 2 1 0) h0).cwp 15).toNat % 4 = 0) ∧
    (canIssue odd h0 = true ∧ (thr odd h0).resident = 1 ∧ ((thr odd h0).winReg (thr odd h0).cwp 15).toNat % 4 ≠ 0 ∧
      (thr odd h0).level ≠ 3) := by
  decide +kernel

theorem test_witness_spill_and_fill :
    let s := wst 1 2 0x5FFC0
    canIssue s h0 = true ∧ MemoryCanonical s ∧ (thr s h0).level ≠ 0 ∧ (greg s h0 1).toNat % 64 = 0 ∧
    (greg s h0 1).toNat + 64 ≤ localSize 0 ∧ viewTrap s h0 (greg s h0 1) 64 = none ∧ 2 ≤ (thr s h0).resident ∧
    (thr s h0).resident ≤ 7 ∧ outboxOff s h0 ≠ (greg s h0 1).toNat ∧ s.latent = [] ∧
    isPoisoned s (localBase 0 + (greg s h0 1).toNat) 64 = false ∧ canIssue go h0 = true ∧ (thr go h0).level = 0 := by
  unfold MemoryCanonical
  decide +kernel

theorem test_witness_local_accesses :
    let s := run (tg 0x5FFFC 0 0)
    canIssue s h0 = true ∧ MemoryCanonical s ∧ (greg s h0 1).toNat % 4 = 0 ∧ (greg s h0 1).toNat + 4 ≤ localSize 0 ∧
    viewTrap s h0 (greg s h0 1) 4 = none ∧ s.latent = [] ∧ isPoisoned s (localBase 0 + (greg s h0 1).toNat) 4 = false ∧
    outboxOff s h0 + 64 ≤ (greg s h0 1).toNat := by
  unfold MemoryCanonical
  decide +kernel

theorem test_witness_bad_accesses :
    let s := run (tg 0x5FFFF 0x5FFFE 0)
    canIssue s h0 = true ∧ (thr s h0).level ≠ 3 ∧ (greg s h0 1).toNat % 2 ≠ 0 ∧ (greg s h0 1).toNat % 4 ≠ 0 ∧
    localSize 0 < (greg s h0 2).toNat + 4 := by
  decide +kernel

theorem test_witness_long_instructions :
    (let s := run (tg 0 4 0xFFFFFF)
     canIssue s h0 = true ∧ (thr s h0).level ≠ 3 ∧ bit (prog s h0) 31 = false ∧ (greg s h0 3).toNat < 2 ^ 24 ∧ greg s h0 3 ≠ 0 ∧
     greg s h0 0 = 0 ∧ (greg s h0 1).toNat % 4 = 0 ∧ (greg s h0 2).toNat % 4 = 0) ∧
    (let s := run (tg 0 0 0x1000000)
     canIssue s h0 = true ∧ 2 ^ 24 ≤ (greg s h0 3).toNat) ∧
    (let s := run { t0 with wait := .long 0x5FFC0 0x100 0 64, cur := some (.memcpyv h0 1 2 3) }
     coreRuns s 0 = true ∧ threadNamed s h0 = true ∧ takeableLine s h0 = none ∧ stepReading s h0 = false ∧
     MemoryCanonical s ∧ s.latent = [] ∧ bits (prog s h0) 23 0 = 0 ∧ laneUsed s 0 ≤ 16 ∧
     0x5FFC0 + 64 ≤ localSize 0 ∧ viewTrap s h0 0x5FFC0 64 = none ∧ viewTrap s h0 0x100 64 = none ∧
     isPoisoned s (localBase 0 + 0x100) 64 = false ∧ outboxOff s h0 + 64 ≤ 0x5FFC0) := by
  unfold MemoryCanonical
  decide +kernel

theorem test_witness_csrs :
    let u := run { t0 with mode := .ps, g := [(1, 0x90)] }
    (canIssue go h0 = true ∧ csrListed 0x003 = true ∧ csrAllowed .pu 0x003 = true ∧ csrGuardedWrite go h0 0x003 = false) ∧
    (canIssue u h0 = true ∧ (thr u h0).mode.super = true ∧ 8 < bits (greg u h0 1) 7 4) ∧
    ((thr go h0).level ≠ 3 ∧ csrListed 0xFFF = false ∧ csrListed 0x800 = true ∧ csrAllowed .pu 0x800 = false) := by
  decide +kernel

theorem test_witness_clocks_and_tables :
    let u := run { t0 with mode := .ps }
    let w := run { t0 with mode := .gs }
    let r := run t0 fun k => { k with stepNow := 28, csr := [(0x404, 0x21C)] }
    let q := run { t0 with mode := .ps } fun k => { k with stepNow := 28, csr := [(0x404, 0x21C)] }
    let b := run { t0 with mode := .ps } fun k => { k with links := [(1, { NbrLink.reset with creditBack := 1 })] }
    (canIssue u h0 = true ∧ (thr u h0).mode.super = true ∧ coreGuarded u 0 = false ∧ bits (32 : Word) 5 0 ≤ 32 ∧
      bits (32 : Word) 5 0 ≠ bits (coreCsr u 0 0x404) 5 0 ∧ bit (coreCsr u 0 0x404) 8 = false ∧ bit (coreCsr u 0 0x404) 9 = false ∧
      isDrvCore 0 = false ∧ linksQuiet u 0 = true ∧ bits (32 : Word) 5 0 ≠ (core u 0).stepNow.toNat ∧ linksQuiet b 0 = false ∧
      canIssue b h0 = true) ∧ relockWrite q h0 = true ∧
    (coreExists r 0 = true ∧ dieUp r 0 = true ∧ bit (coreCsr r 0 0x404) 9 = true ∧
      bits (coreCsr r 0 0x404) 5 0 = (core r 0).stepNow.toNat) ∧
    (canIssue w h0 = true ∧ (thr w h0).mode = .gs) ∧
    (core { r with tb := 2 ^ 64 } 0).stormAt ≠ stormNow { r with tb := 2 ^ 64 } 0 := by
  decide +kernel

theorem test_witness_traps_and_gates :
    let u := run { t0 with level := 3 }
    let g := run t0 fun k => { k with csr := [(0x813, 0x1001)] }
    (canIssue go h0 = true ∧ (thr go h0).level ≠ 3 ∧ (thr go h0).level = 0 ∧ bit (coreCsr go 0 0x810) 0 = false) ∧
    (canIssue u h0 = true ∧ (thr u h0).level ≠ 0) ∧ (canIssue (wst 2 1 0) h0 = true ∧ (thr (wst 2 1 0) h0).level ≠ 0 ∧
      (thr (wst 2 1 0) h0).level ≠ 3) ∧
    (canIssue g h0 = true ∧ bit (coreCsr g 0 0x813) 0 = true ∧ bit (coreCsr g 0 0x813) 1 = (thr g h0).mode.guarded) := by
  decide +kernel

theorem test_witness_waits :
    (canIssue go h0 = true ∧ (thr go h0).hold = none) ∧
    (let s := run { t0 with hold := some ⟨0, 0, true⟩ }
     canIssue s h0 = true ∧ (thr s h0).hold = some ⟨0, 0, true⟩ ∧ (0 : Nat) ≤ coreCycle s 0) ∧
    (let s := run { t0 with evf := 0x81 }
     canIssue s h0 = true ∧ (thr s h0).evf &&& 0x80 ≠ 0) ∧
    (let s := run (tg 1 0 0)
     canIssue s h0 = true ∧ (thr s h0).evf &&& 0xFF = 0 ∧ greg s h0 1 ≠ 0 ∧
     (BitVec.ofNat 32 (now s) - greg s h0 1).toInt < 0 ∧ 0 ≤ (BitVec.ofNat 32 (now s) - greg s h0 2).toInt) ∧
    (let s := run { t0 with wait := .wfe 1 3 false 0 }
     (thr s h0).wait = .wfe 1 3 false 0 ∧ (thr s h0).window = [] ∧ (core s 0).run = .running ∧ 0 ≤ now s ∧
     takeableLine s h0 = none ∧ (thr s h0).level ≠ 3) ∧
    (let s := run { t0 with wait := .twait 0 }
     0 ≤ (BitVec.ofNat 32 (now s) - 0).toInt ∧ (core s 0).run = .running ∧ takeableLine s h0 = none) ∧ (core up 0).run ≠ .running ∧
    (thr (run { t0 with wait := .start }) h0).wait = .start := by
  decide +kernel

theorem test_witness_thread_release :
    let s := run { t0 with mode := .ps, g := [(1, 0x5FFC3)] } fun k =>
      { k with threads := k.threads ++ [(1, t0), (3, { Thread.reset with status := .unreleased })] }
    (canIssue s h0 = true ∧ (thr s h0).mode = .ps ∧ greg s h0 1 = 0x5FFC3 ∧ inGlmem s 0 0x5FFC0 = false ∧
      inGlmem s 0 0x5FFFF = false ∧ s.latent = [] ∧ isPoisoned s (localBase 0 + 0x5FFC0) 64 = false ∧
      bits (0x5FFC3 : Word) 5 2 = 0 ∧ (thr s ⟨0, 3⟩).status = .unreleased ∧ (localWord s 0 0x5FFC0).toNat % 4 = 0 ∧
      (localWord s 0 0x5FFC4).toNat ≤ 1) ∧
    (canIssue s ⟨0, 1⟩ = true ∧ (thr s ⟨0, 1⟩).level ≠ 3) := by
  decide +kernel

theorem test_witness_interrupts_and_fetch :
    (let s := run t0 fun k => { k with csr := [(0x804, 0x80000000), (0x805, 0x80000000), (0x83F, 0xF)] }
     coreRuns s 0 = true ∧ takeableLine s h0 = some 31 ∧ (thr s h0).wait = .none ∧
     (thr s h0).window = []) ∧
    (let s := go
     canIssue s h0 = true ∧ (thr s h0).fetched = none ∧ (core s 0).iflush = false ∧ (thr s h0).pc.toNat % 4 = 0 ∧
     viewTrap s h0 (thr s h0).pc 4 = none ∧ (core s 0).icache = [] ∧ s.latent = [] ∧
     isPoisoned s (localBase 0) 64 = false ∧ (Sys2Proof.decode h0 (localWord s 0 0)).isSome = false ∧ (thr s h0).level ≠ 3 ∧
     laneClear s h0 = true) ∧
    (let s := { go with mem := [⟨localBase 0 + 3, 8⟩] }
     canIssue s h0 = true ∧ (Sys2Proof.decode h0 (localWord s 0 0)).isSome = true ∧ isDrvCore 0 = false) ∧
    (core (run t0 fun k => { k with iflush := true }) 0).iflush = true := by
  decide +kernel

/-! ### Lane port, vectors, tiles, convoys and waybills -/

/-- A far load and a far store of thread 0, sent, and one access of another's making. -/
def acc (k : AccessKind) (r : Option AccessResult) : LaneAccess :=
  ⟨7, 0, k, 0, 0x200000000000, false, 0, true, false, [], none, none, [], r⟩

/-- Core 0 runs a thread whose lane port holds one access. -/
def port (t : Thread) (a : LaneAccess) : State := run t fun k => { k with lane := [a] }

/-- One rectangle over the mesh, with slots from core 0 to unit 0, to Serai 0 and to Serai 1. -/
def served (s : State) : State :=
  withRegs { s with slotNow := [(0, 0x10), (1024, 0xD010), (1792, 0xB0), (1808, 0xB0), (1824, 0xB0), (1840, 0xB0), (1856, 0xB0)] }
    [(Reg.cmpTenRect 0, wholeRect)]

theorem test_witness_far_accesses_start :
    let s := withRegs (run (tg 0x80000000 0 0)) [(Reg.cmpTenRect 0, wholeRect), (Reg.cmpTenWinW0 0 0, 0x80000000), (Reg.hbmStat 0, 1)]
    canIssue s h0 = true ∧ (greg s h0 1).toNat % 4 = 0 ∧ viewTrap s h0 (greg s h0 1) 4 = none ∧
    coreView s h0 (greg s h0 1) = .far 0 ∧ laneUsed s 0 < 16 ∧
    bit (thr s h0).finArmed (thr s h0).level.toNat = false := by
  decide +kernel

theorem test_witness_far_accesses_end :
    (let a := acc (.load 1 4 true) (some (.ok [1, 2, 3, 4] []))
     let s := served (port { t0 with window := [⟨0, 1, .load 7⟩] } a)
     laneFind s 0 7 = some a ∧ beatServed s 0 a.addr false = true ∧ (core s 0).run = .running ∧
     (thr s h0).window = [⟨0, 1, .load 7⟩]) ∧
    (let a := acc (.load 1 4 true) none
     let s := { withRegs (port { t0 with window := [⟨0, 1, .load 7⟩, ⟨4, 2, .ready 5⟩] } a) [(Reg.cmpLpDl 0, 1000)] with tb := 1000 * 2 ^ 32 }
     laneFind s 0 7 = some a ∧ a.sent = true ∧ a.issued + laneDeadline s 0 ≤ now s ∧ (thr s h0).level ≠ 3 ∧ (core s 0).run = .running ∧
     (thr s h0).window = ⟨0, 1, .load 7⟩ :: [⟨4, 2, .ready 5⟩]) ∧
    (let a := acc (.store [1]) (some (.ok [] []))
     laneFind (served (port t0 a)) 0 7 = some a ∧ (thr (served (port t0 a)) h0).wait = .none ∧
     beatServed (served (port t0 a)) 0 a.addr false = true ∧ beatServed (port t0 a) 0 a.addr false = false) ∧
    (let a := acc (.store [1]) none
     let s := withRegs (port t0 a) [(Reg.cmpLpDl 0, 1000)]
     let s := { s with tb := 1000 * 2 ^ 32 }
     laneFind s 0 7 = some a ∧ a.issued + laneDeadline s 0 ≤ now s ∧ (thr s h0).pendFail = none ∧ isDrvCore 0 = false ∧
     flag s (Reg.cmpLpFault 0) 31 = false ∧ (thr s h0).wait = .none ∧ (thr s h0).level ≠ 3 ∧
     a.sent = true ∧ a.result = none ∧ slotEntry s 121 63 % 16 ≠ (rectOf s 0).getD 16 ∧ flag s Reg.cmpLanePolice 31 = false) ∧
    (let a := { acc (.store [1]) none with sent := false, finish := true }
     let s := port t0 a
     let f := port { t0 with pendFail := some ⟨5, 0⟩ } a
     laneFind s 0 7 = some a ∧ a.covers = [] ∧ a.covFail = none ∧ (thr s h0).pendFail = none ∧
     (core s 0).lane.find? (fun b => decide (b.tid = a.tid) && b.finish && !b.sent) = some a ∧
     (thr f h0).pendFail = some ⟨5, 0⟩ ∧ (thr f h0).wait = .none) := by
  decide +kernel

theorem test_witness_vectors :
    let d := { up with cores := [(1024, { Core.reset with run := .running, threads := [(0, t0)] })] }
    let s := run (tg 0x5FFC0 0x5FFC1 0x60000)
    (isDrvCore 0 = false ∧ canIssue s h0 = true) ∧
    (isDrvCore 1024 = true ∧ canIssue d ⟨1024, 0⟩ = true ∧ (thr d ⟨1024, 0⟩).level ≠ 3) ∧
    ((greg s h0 1).toNat % 64 = 0 ∧ (greg s h0 1).toNat + 64 ≤ localSize 0 ∧ inGlmem s 0 (greg s h0 1).toNat = false ∧
      s.latent = [] ∧ isPoisoned s (localBase 0 + (greg s h0 1).toNat) 64 = false ∧ Memory.wf s.mem = true ∧
      outboxOff s h0 ≠ (greg s h0 1).toNat) ∧
    ((thr s h0).level ≠ 3 ∧ (greg s h0 2).toNat % 64 ≠ 0 ∧ (greg s h0 3).toNat % 64 = 0 ∧
      localSize 0 ≤ (greg s h0 3).toNat) := by
  decide +kernel

theorem test_witness_tiles_issue :
    let s := run (tg 0x3020 0x5DFC0 64) fun k => { k with tiles := [(1, { Tile.reset with etype := 1, bpr := 64, rows := 32 })] }
    (canIssue s h0 = true ∧ isDrvCore 0 = false ∧ shapeOk (greg s h0 1) = true ∧ tileFree s h0 (.stencil h0 1 1) = true ∧
      tileFree s h0 (.mma h0 0 1 1) = true) ∧
    (let b := run t0 fun k => { k with threads := [(0, t0), (1, { t0 with wait := .tile, cur := some (.tzero ⟨0, 1⟩ 1) })] }
     canIssue b h0 = true ∧ tileFree b h0 (.tzero h0 1) = false) ∧
    ((greg s h0 1).toNat % 32 < (tile s 0 1).rows ∧ (tile s 0 1).bad ((greg s h0 1).toNat % 32) = false ∧
      (rowTraps s h0 1 2 3).all (fun e => !e.1) = true ∧ (greg s h0 2).toNat % 64 = 0 ∧
      (greg s h0 2).toNat + 8224 ≤ 0x60000 ∧ bits (coreCsr s 0 0x802) 14 8 = 0) ∧
    ((tile s 0 1).etype ≠ 2 ∧ badRow (tile s 0 1) = none ∧ (tile s 0 1).cols ≤ 32) ∧
    ((thr s h0).level ≠ 3 ∧ shapeOk (greg s h0 2) = false ∧ (tile s 0 1).etype ≠ (tile s 0 2).etype) := by
  decide +kernel

theorem test_witness_tiles_complete :
    let s := run { t0 with wait := .tile, cur := some (.vtr h0 1 0 2) }
    let m := run { t0 with wait := .tile, cur := some (.mms h0 1 2 3) }
    ((thr s h0).wait = .tile ∧ (thr s h0).cur = some (.vtr h0 1 0 2) ∧ (tile s 0 1).bpr ≤ 64 ∧ Memory.wf s.mem = true ∧
      (thr s h0).window = [] ∧ (thr s h0).rowsDone = 0 ∧ (core s 0).run = .running) ∧
    (let a := run { t0 with wait := .tile, cur := some (.ast h0 1 2) }
     (thr a h0).cur = some (.ast h0 1 2) ∧ (thr a h0).rowsDone = 0 ∧ (thr a h0).window = [] ∧ Memory.wf a.mem = true) ∧
    ((thr m h0).wait = .tile ∧ (thr m h0).window = [] ∧ (core m 0).run = .running ∧
      (thr m h0).cur = some (.mms h0 1 2 3) ∧ (tile m 0 2).rows ≤ 32 ∧ (tile m 0 3).rows ≤ 32) := by
  decide +kernel

/-- Two members of convoy 0, cores 0 and 1, in a given state of the convoy, with their threads. -/
def pair (cfg stat : Word) (c : Convoy) (t u : Thread) : State :=
  withRegs { up with
    cores := [(0, { Core.reset with run := .running, threads := [(0, t)] }),
      (1, { Core.reset with run := .running, threads := [(0, u)] })]
    convoys := [(0, c)] }
    [(Reg.cmpCvCfg 0, cfg), (Reg.cmpCvStat 0, stat), (Reg.cmpTenRect 0, wholeRect), (Reg.cmpReadyLo, 1)]

/-- A thread whose CVSYNC has armed. -/
def armedT (c : Nat) : Thread := { t0 with wait := .convoy, cur := some (.cvsync ⟨c, 0⟩) }

theorem test_witness_convoy_forms :
    let v : Word := 0x2000
    (let s := pair 0 0 Convoy.reset t0 t0
     let p := plainWrite s (Reg.cmpCvCfg 0) (putBit v 31 false)
     AllowedWrite s .host (Reg.cmpCvCfg 0) (putBit v 31 true) ∧ flag s (Reg.cmpCvCfg 0) 31 = false ∧
     (convoy s 0).launched = false ∧ convoyState s 0 ≠ 3 ∧ formationStatus p 0 (reg p (Reg.cmpCvCfg 0)) = none) ∧
    (let s := pair 0x80002000 1 Convoy.reset t0 t0
     convoyState s 0 = 1 ∧ matrixIdle s 0 = true ∧ (members s 0).all (fun c => !bit (coreCsr s c 0x404) 9) = true) ∧
    (let s := pair 0x80002000 2 Convoy.reset t0 t0
     canIssue s h0 = true ∧ lockedConvoy s 0 = some 0 ∧ armedHart s 0 = none ∧ tileFree s h0 (.cvmma h0 0 1 2) = true) ∧
    (let s := pair 0x80002000 2 Convoy.reset t0 t0
     AllowedWrite s .host (Reg.cmpCvCfg 0) (putBit (reg s (Reg.cmpCvCfg 0)) 31 false) ∧ flag s (Reg.cmpCvCfg 0) 31 = true ∧
     (convoy s 0).launched = false ∧ armedHarts s 0 = []) ∧
    convoyState (pair 0x2000 3 Convoy.reset t0 t0) 0 = 3 := by
  unfold AllowedWrite
  decide +kernel

theorem test_witness_convoy_launches :
    (let s := pair 0x80002000 2 ⟨0x80002000, some 0, false, false⟩ (armedT 0) (armedT 1)
     convoyState s 0 = 2 ∧ (convoy s 0).launched = false ∧ matrixIdle s 0 = true ∧ members s 0 ≠ [] ∧
     (armedMembers s 0).length = (members s 0).length ∧ ∀ m ∈ armedMembers s 0, m.fn = 10) ∧
    (let s := pair 0x80002000 0x10002 ⟨0x80002000, some 0, true, false⟩ (armedT 0) (armedT 1)
     (convoy s 0).launched = true ∧ (convoy s 0).disabling = false ∧ (∀ m ∈ armedMembers s 0, m.fn = 10) ∧
     ((armedMembers s 0).map Member.hart).Nodup) ∧
    (let s := { pair 0x80002000 2 ⟨0x80002000, some 0, false, false⟩ (armedT 0) t0 with tb := 2 ^ 64 }
     (members s 0).find? (fun c => (armedHart s c).isNone) = some 1 ∧ 0 + (reg s (Reg.cmpCvDl 0)).toNat ≤ now s ∧
     (convoy s 0).firstArm = some 0 ∧ (∀ h ∈ armedHarts s 0, (thr s h).level ≠ 3) ∧ armedHarts s 0 ≠ [] ∧
     (armedHarts s 0).Nodup) := by
  decide +kernel

/-- Core 0 with its waybill engine in a state, its first entry, and its link to the east. -/
def bill (ctl stat : Word) (e : DWord) (w : Waybill → Waybill) (l : NbrLink) : State :=
  withRegs (run t0 fun k => { k with wb := w { Waybill.reset with store := [(0, e)] }, links := [(1, l)] })
    [(Reg.cmpWbCtl 0, ctl), (Reg.cmpWbStat 0, stat), (Reg.cmpTenRect 0, wholeRect)]

theorem test_witness_waybill_commands :
    let s := bill 0x3FF18 0 0 id NbrLink.reset
    let kept := reg s (Reg.cmpWbCtl 0) &&& 0x3FF18
    let line := bits (reg s (Reg.cmpWbBase 0)) 18 6
    let len := bits (reg s (Reg.cmpWbBase 0)) 29 19
    AllowedWrite s (.node 1 true) (Reg.cmpWbCtl 0) (kept ||| 1) ∧ wbState s 0 = 0 ∧
    AllowedWrite s (.node 1 true) (Reg.cmpWbCtl 0) (kept ||| 2) ∧ AllowedWrite s (.node 1 true) (Reg.cmpWbCtl 0) (kept ||| 4) ∧
    line + (len + 7) / 8 ≤ 6144 ∧ wbGuarded s 0 = true ∧
    (let s := bill 0 1 0 (fun w => { w with load := (6143, 8) }) NbrLink.reset
     islandRuns s 0 = true ∧ wbState s 0 = 1 ∧ s.latent = [] ∧ ∀ k, k < 1 →
       isPoisoned s (localBase 0 + 64 * 6143 + 64 * k) 64 = false) := by
  unfold AllowedWrite
  decide +kernel

theorem test_witness_waybill_entries :
    (let s := bill 8 2 0 id NbrLink.reset
     wbAt s 0 0 = true ∧ (wbOf s 0).started = none ∧ wbCheck s 0 (wbEntry s 0) = none ∧ flag s (Reg.cmpWbCtl 0) 3 = true) ∧
    (let s := bill 0 2 0x4000000000000000 id NbrLink.reset
     wbAt s 0 4 = true ∧ (wbOf s 0).started = none ∧ wbCheck s 0 (wbEntry s 0) = none ∧ s.latent = [] ∧
     isPoisoned s (waitwAddr s 0) 4 = false) ∧
    (let s := bill 0 2 0x4000000000000000 (fun w => { w with started := some 0 }) NbrLink.reset
     wbAt s 0 4 = true ∧ (wbOf s 0).started ≠ none ∧ wbPc s 0 < 1023) ∧
    (let s := bill 0 2 0x5C70000000000000 id NbrLink.reset
     wbAt s 0 5 = true ∧ (wbOf s 0).started = none ∧ wbCheck s 0 (wbEntry s 0) = none ∧ (thr s h0).wait = .none) ∧
    (let s := bill 0 0x10002 0 (fun w => { w with store := [(1, 0x6000000008000000)], loopLeft := some (1, 0) }) NbrLink.reset
     wbAt s 0 6 = true ∧ (wbOf s 0).started = none ∧ wbCheck s 0 (wbEntry s 0) = none ∧ wbPc s 0 = 1) ∧
    (let s := { bill 0 2 0x4000000000000000 (fun w => { w with started := some 0 }) NbrLink.reset with tb := 2 ^ 64 }
     wbState s 0 = 2 ∧ (wbOf s 0).started = some 0 ∧ 0 + (reg s (Reg.cmpWbDl 0)).toNat ≤ now s) := by
  decide +kernel

theorem test_witness_waybill_transfers :
    let b : Beat := ⟨5, 0, false, some (0, 0)⟩
    (let s := bill 0 2 0x1400000000000000 (fun w => { w with started := some 0 }) NbrLink.reset
     wbAt s 0 1 = true ∧ (wbOf s 0).started ≠ none ∧ (wbOf s 0).blocked = false ∧
     neighbour s 0 (wbDir (wbEntry s 0)) = some 1) ∧
    (let s := bill 0 2 0x2400000000000000 (fun w => { w with started := some 0 }) { NbrLink.reset with landing := [b] }
     wbAt s 0 2 = true ∧ bit (wbEntry s 0) 55 = false ∧ wbBeats (wbEntry s 0) = 1 ∧ (wbOf s 0).received = 0 ∧
     b.poison = false ∧ neighbour s 0 (wbDir (wbEntry s 0)) = some 1 ∧ Memory.wf s.mem = true ∧
     (link s 0 (wbDir (wbEntry s 0))).landing = [b] ∧ b.header = some (wbHeader (wbEntry s 0)) ∧ wbPc s 0 < 1023) ∧
    (let s := bill 0 2 0x3600000000000000 (fun w => { w with started := some 0 }) { NbrLink.reset with landing := [b] }
     wbAt s 0 3 = true ∧ wbDir (wbEntry s 0) ≠ wbDir2 (wbEntry s 0) ∧ wbMismatch s 0 (wbEntry s 0) = false ∧
     (link s 0 (wbDir (wbEntry s 0))).landing.all (fun x => !beatForeign (wbEntry s 0) x) = true ∧
     neighbour s 0 (wbDir (wbEntry s 0)) = some 1 ∧ neighbour s 0 (wbDir2 (wbEntry s 0)) = some 32) ∧
    (let s := bill 0 0 0 id { NbrLink.reset with inWire := [b], creditBack := 1 }
     (link s 0 1).inWire = [b] ∧ landingDiscards s 0 = false ∧ wbState s 0 = 0 ∧ 0 < (link s 0 1).creditBack) ∧
    (let s := bill 0 2 0x1400000000000000 (fun w => { w with started := some 0, awaitHs := true }) { NbrLink.reset with hsBack := 1 }
     0 < (link s 0 1).hsBack ∧ wbState s 0 = 2 ∧ (wbOf s 0).awaitHs = true ∧ wbOp (wbEntry s 0) = 1 ∧
     wbDir (wbEntry s 0) = 1 ∧ wbPc s 0 < 1023 ∧ 0 < s.pkg.nCores) := by
  decide +kernel

theorem test_witness_no_clock_waits : ∀ k, (core (bill 0 0 0 id NbrLink.reset) k).clkWait = false := by
  intro k
  simp only [core, bill, run, withRegs, sget]
  split <;> rfl

/-! ### Registers, lanes, courier and the near tier -/

theorem test_witness_register_accesses :
    let w := withRegs up [(Reg.cmpTenRect 0, 0x80001E28)]
    (AllowedWrite up .host (Reg.hbmTherm 7) 0x12345 ∧ up.staged = [] ∧
      ((regRow (Reg.hbmTherm 7)).map fun r => r.lims.all fun l => limitOk l 0x12345) = some true ∧
      (regRow (Reg.cmpCvDl 15)).isSome = true ∧ (regRow (Reg.cmpLpDl 767)).isSome = true) ∧
    (presence w (Reg.cmpWbDl 0) = .present ∧ Reg.cmpWbDl 0 % 4 = 0 ∧ Reg.cmpWbDl 0 < 0x4000000 ∧
      worldDenies w (Reg.cmpWbDl 0) 5 = true) ∧
    (presence up 0x3FFFFFC = .reserved ∧ reaches up .host 0x3FFFFFC = true ∧
      presence { up with pkg := { up.pkg with variant := .bm768n } } 0x3000000 = .absent ∧
      reaches { up with pkg := { up.pkg with variant := .bm768n } } .host 0x3000000 = true) ∧
    (presence up (Reg.cmpWbDl 767) = .present ∧ 0x1400000 ≤ Reg.cmpWbDl 767 ∧ Reg.cmpWbDl 767 < 0x2000000 ∧
      Reg.cmpWbDl 767 % 0x40 ≠ 0x20) ∧
    (hostReaches up = true ∧ flag up Reg.cmpDbgLock 0 = false ∧ flag (withRegs up [(Reg.cmpDbgLock, 1)]) Reg.cmpDbgLock 0 = true) := by
  unfold AllowedWrite
  decide +kernel

theorem test_witness_slots_and_rectangles :
    let on := withRegs up [(Reg.cmpTenRect 15, wholeRect)]
    let lk := withRegs up [(Reg.cmpTenLock, 1)]
    let cv := withRegs on [(Reg.cmpCvCfg 0, 0x80002000)]
    (AllowedWrite up (.node 1 true) (Reg.cmpLaneSlot 121 15) 0x1010101 ∧ AllowedWrite up .host Reg.cmpLaneCommit 1 ∧
      partUp up = true ∧ flag up Reg.cmpLaneCommit 1 = false) ∧
    (flag (withRegs up [(Reg.cmpLaneCommit, 2)]) Reg.cmpLaneCommit 1 = true) ∧
    (AllowedWrite up .host (Reg.cmpTenRect 15) (putBit wholeRect 31 true) ∧ rectOn up 15 = false ∧ tenLocked up = false ∧
      rectValid up 15 (wholeRect &&& 0x1FFF) = true) ∧
    (AllowedWrite lk (.node 1 true) (Reg.cmpTenRect 15) (putBit 0x1000 31 true) ∧ tenLocked lk = true ∧ bit (0x1000 : Word) 12 = true ∧
      rectOn lk 15 = false) ∧
    (AllowedWrite on .host (Reg.cmpTenRect 15) (putBit (reg on (Reg.cmpTenRect 15)) 31 false) ∧ rectOn on 15 = true ∧
      tenLocked on = false ∧ rectHasConvoy on 15 = false) ∧
    (AllowedWrite cv .host (Reg.cmpTenRect 15) (putBit (reg cv (Reg.cmpTenRect 15)) 31 false) ∧ rectOn cv 15 = true ∧
      rectHasConvoy cv 15 = true ∧ flag cv Reg.cmpTenStat 31 = false ∧
      flag (withRegs cv [(Reg.cmpTenStat, 0x80000000)]) Reg.cmpTenStat 31 = true) := by
  unfold AllowedWrite
  decide +kernel

theorem test_witness_commit_passes : firstOver (withRegs up [(Reg.cmpLaneCommit, 2)]) = none := by
  refine firstOver_empty _ (fun off h1 h2 => ?_) rfl
  have hg : ∀ d : Word, sget [(Reg.cmpLaneCommit, 2)] off d = d := fun d => by
    simp only [sget]
    rw [if_neg (by simp only [Reg.cmpLaneCommit]; omega), if_pos (by simp only [Reg.cmpLaneCommit]; omega)]
  exact (hg _).trans (resetWord_laneSlot up.pkg off h1 h2)

theorem test_witness_commit_refused :
    firstOver (withRegs up ((Reg.cmpLaneCommit, 2) :: (Reg.cmpLaneSlot 112 0, 0x10) ::
      (List.range 8).map fun l => (Reg.cmpLaneSlot l 0, 0x10))) = some (0, 0) := by
  decide +kernel

/-- A thread whose outbox message is under way. -/
def boxed (w : List Word) (p : OutboxPhase) (st : Sparse Word) (msgs : List Msg) : State :=
  withRegs { run { t0 with outbox := some ⟨w, false, .ps, p⟩ } with courier := msgs } st

theorem test_witness_outbox :
    (let s := boxed [0xFFF, 0, 0, 0] .go [] []
     Memory.wf s.mem = true ∧ s.latent = [] ∧ (outboxCheck s h0 ⟨[0xFFF, 0, 0, 0], false, .ps, .go⟩).isSome = true) ∧
    (let s := boxed [1, 0, 0, 0] .go [(Reg.cmpTenRect 0, wholeRect)] []
     (thr s h0).outbox = some ⟨[1, 0, 0, 0], false, .ps, .go⟩ ∧ outboxCheck s h0 ⟨[1, 0, 0, 0], false, .ps, .go⟩ = none) ∧
    (let s := boxed [0x2001, 0, 0, 0] .go [(Reg.cmpTenRect 0, wholeRect)] []
     outboxCheck s h0 ⟨[0x2001, 0, 0, 0], false, .ps, .go⟩ = none ∧ 1 < bits (0x2001 : Word) 15 12) ∧
    (let s := { boxed [0x2001, 0, 0, 0] (.waiting 9 0) [] [] with tb := 2 ^ 64 }
     (thr s h0).outbox = some ⟨[0x2001, 0, 0, 0], false, .ps, .waiting 9 0⟩ ∧ 0 + crDeadline s 0 ≤ now s) := by
  decide +kernel

theorem test_witness_messages :
    let m (k : BitVec 4) (d : Nat) (p1 p2 : Word) : Msg := ⟨d, k, false, 0x300, p1, p2⟩
    let g := [(Reg.cmpTenRect 0, (0x80001E28 : Word))]
    (let s := boxed [] .go [] [m 0 0 0x1C 0]
     s.courier[0]? = some (m 0 0 0x1C 0) ∧ coreDown s 0 = false ∧ coreRefuses s (m 0 0 0x1C 0) = false ∧
     (thr s ⟨0, 0⟩).wait = .none ∧ coreRefuses (boxed [] .go g [m 0 0 0 0]) (m 0 0 0 0) = true ∧
     coreDown (boxed [] .go g [m 0 0 0 0]) 0 = false ∧ bits (26 : Word) 4 0 < 27) ∧
    (let s := boxed [] .go [] [m 2 1 (BitVec.ofNat 32 (Reg.cmpWbDl 1 / 4)) 0]
     nodeUp s 1 = true ∧ cfgRefused s (m 2 1 (BitVec.ofNat 32 (Reg.cmpWbDl 1 / 4)) 0) = 0 ∧ cfgOffset (m 2 1 (BitVec.ofNat 32 (Reg.cmpWbDl 1 / 4)) 0) % 0x40 ≠ 0x20 ∧ 1 < s.pkg.nCores ∧
     cfgRefused (boxed [] .go g []) (m 2 0 0 0) ≠ 0) ∧
    (let w := m 3 1 (BitVec.ofNat 32 (Reg.cmpWbDl 1 / 4)) 77
     let s := boxed [] .go [] [w]
     cfgRefused s w = 0 ∧ cfgOffset w = Reg.cmpWbDl 1 ∧ s.staged = [] ∧ AllowedWrite s (.node w.src w.g) (cfgOffset w) 77) ∧
    (let r := m 4 0 5 0x900
     let s := boxed [] (.waiting 9 0) [] [r]
     h0 ∈ nodeHarts 0 ∧ bits r.p2 15 8 = 9 ∧ ∀ t : BitVec 2, t ≠ 0 → waitsTag s 9 ⟨0, t⟩ = false) ∧
    (let a := m 5 0x300 0 0
     let s := { boxed [] .go [] [a] with alerts := [] }
     a.dest = 0x300 ∧ partUp s = true ∧ s.pkg.slumber = false ∧ alertFinding s a = none ∧ alertsHeld s < 16 ∧
     16 ≤ alertsHeld { s with alerts := List.replicate 16 (a, 0) } ∧
     alertFinding (withRegs s [(scrubLogW0 (some 7) 15 + 4, 0x80FE0000)]) { m 5 0x300 2 0 with src := 0x317 } = some (7, 15)) := by
  unfold AllowedWrite
  decide +kernel

theorem test_witness_temperatures :
    let m (k : Nat) (st : BitVec 2) := { up with units := [(7, { Unit.reset with missing := k, stepNext := st })] }
    (unitRuns up 7 = true ∧ (memUnit (m 2 0) 7).missing < 3 ∧ 3 ≤ (memUnit (m 3 0) 7).missing) ∧
    (fld up (Reg.hbmTherm 7) 15 8 < 255 ∧ (memUnit (m 0 2) 7).stepNext.toNat = 2 ∧
      (memUnit (m 0 1) 7).stepNext.toNat = 1 ∧ (memUnit up 7).stepNext.toNat = 0 ∧
      fld up (Reg.hbmTherm 7) 7 0 < 90 ∧ 90 ≤ fld up (Reg.hbmTherm 7) 15 8 ∧ fld up (Reg.hbmGearthr 7) 23 16 < 255) := by
  decide +kernel

theorem test_witness_memory_bring_up :
    (AllowedWrite up .host (Reg.hbmMaskcommit 0) 1 ∧ AllowedWrite up .host Reg.cmpMemStart 1 ∧
      AllowedWrite up .host (Reg.cmpIcCtl 0) 1) ∧
    (let s := { up with tb := 1000000000 * 2 ^ 32 }
     partUp s = true ∧ s.pkg.memStart = false ∧ s.pkg.resetAt + 1000000000 ≤ now s) ∧
    (let s := { up with pkg := { up.pkg with memStart := true } }
     unitRuns s 0 = true ∧ s.pkg.memStart = true ∧ unitReady s 0 = false ∧ s.pkg.slumber = false ∧ 3 < 2 * s.pkg.nSerai) := by
  unfold AllowedWrite
  decide +kernel

/-! ### Caches, scrubbers, DMA and gather -/

/-- The part with unit 0 ready and its cache on, at some bits of HBM_BC_CTL and HBM_BC_PRE_CMD. -/
def near (ctl cmd : Word) (m : Unit → Unit) : State :=
  withRegs { up with units := [(0, m { Unit.reset with trained := true })] }
    [(Reg.hbmStat 0, 1), (Reg.hbmBcCtl 0, ctl), (Reg.hbmBcPreCmd 0, cmd), (Reg.hbmBcPreCtl 0, 0xFFFF0000), (Reg.hbmScrubCtl 0, 1)]

theorem test_witness_sound_caches : ∀ x, (memUnit (near 1 0 id) x).ways.all (fun e => !e.2.bad) = true := by
  intro x
  simp only [memUnit, near, withRegs, sget]
  split <;> rfl

theorem test_witness_cache_commands :
    (let s := near 1 0 id
     AllowedWrite s .host (Reg.hbmBcLock 0) 0xFFFF ∧ AllowedWrite s .host (Reg.hbmBcPreCmd 0) 1 ∧
     preLines s 0 ≤ 4096 * (preWays s 0).length ∧ fld s (Reg.hbmBcPreAddr 0) 27 0 + preLines s 0 ≤ unitLines s ∧
     cacheOn s 0 = true ∧ flag s (Reg.hbmBcPreCmd 0) 1 = false ∧ AllowedWrite s .host (Reg.hbmBcCtl 0) 0 ∧
     flag s (Reg.hbmBcCtl 0) 0 = true ∧ flag s (Reg.hbmBcCtl 0) 1 = false) ∧
    (let s := near 1 2 id
     AllowedWrite s .host (Reg.hbmBcPreCmd 0) 8 ∧ flag s (Reg.hbmBcPreCmd 0) 1 = true ∧ preloadRuns s 0 = true ∧
     wayOf s 0 0 = none ∧ wayAt s 0 0 (nth (preWays s 0) 0 0) = none ∧ s.latent = [] ∧ preLines s 0 ≤ (memUnit s 0).preNext + 1) ∧
    (let s := withRegs (near 1 2 id) [(Reg.hbmBcPreCtl 0, 0xFFFF0001)]
     preloadRuns s 0 = true ∧ (memUnit s 0).preNext + 1 < preLines s 0) ∧
    (let s := near 1 0 fun m => { m with pfQueue := [5, 6] }
     (memUnit s 0).pfQueue = [5, 6] ∧ unitRuns s 0 = true ∧ unitReady s 0 = true ∧ cacheOn s 0 = true ∧
     freeCapacity s 0 ≠ 0 ∧ canAllocate s 0 = true) ∧
    (let s := near 2 0 id
     unitRuns s 0 = true ∧ draining s 0 = true) := by
  unfold AllowedWrite
  decide +kernel

theorem test_witness_near_accesses_and_scrubs :
    (let a : LaneAccess := { acc (.load 1 4 false) none with addr := 64 }
     let s := served (port t0 a)
     let r := withRegs s [(Reg.hbmStat 0, 1)]
     laneFind s 0 7 = some a ∧ target s a.addr = .near 0 ∧ draining s 0 = false ∧ laneBlocked s 0 a = false ∧
     unitReady s 0 = false ∧ unitReady r 0 = true ∧ beatServed s 0 a.addr true = true ∧
     beatServed r 0 a.addr true = true ∧ beatServed (port t0 a) 0 a.addr true = false ∧ isPoisoned r 64 4 = false ∧ Memory.wf r.mem = true) ∧
    (let s := near 1 0 id
     unitRuns s 0 = true ∧ unitReady s 0 = true ∧ flag s (Reg.hbmScrubCtl 0) 0 = true ∧ scrubFree s (some 0) ≠ none ∧
     (memUnit s 0).scrubFrom ≤ now s ∧ freeCapacity s 0 ≠ 0 ∧ s.poison = []) ∧
    (let s := { up with latent := [(nth (sectorsOf (localBase 0) 64) 0 0, .single)] }
     partUp s = true ∧ blockState s 0 ≠ 3 ∧ flag s Reg.cmpScrubCtl 0 = true ∧ scrubFree s none ≠ none ∧
     (core s 0).scrubFrom ≤ now s ∧ s.poison = [] ∧ (core s 0).scrubAt < 6144 ∧
     latentOf s (sectorsOf (localBase 0 + 64 * (core s 0).scrubAt) 64) = [.single]) := by
  decide +kernel

/-- A descriptor of given words. -/
def desc (w : List DWord) (st : DescStage) : Desc :=
  ⟨0, w, 0, none, st, none, 0, none, none, false, false, 0, 0, 0, 0, [], [], [], []⟩

/-- Tile channel 0 of core 0, enabled, with so many slots used and its descriptors. -/
def tileCh (ds : List Desc) (n : Nat) : State :=
  withRegs (run t0 fun k => { k with tdma := [(0, { DmaChan.reset with ringLine := 64, dl := 10, tail := 0, head := n, descs := ds })] })
    [(Reg.cmpTdmaCfg 0, 0xD0000), (Reg.cmpTenRect 0, wholeRect)]

/-- Serai channel 0 with descriptors. -/
def sysCh (ctl : Word) (ds : List Desc) : State :=
  withRegs { up with sdma := [(0, { DmaChan.reset with descs := ds })] } [(Reg.sraDmaCtl 0 0, ctl)]

theorem test_witness_channels_enable_and_abort :
    (AllowedWrite (sysCh 0 []) .host (Reg.sraDmaCtl 0 0) 1 ∧ (chan (sysCh 0 []) (.sys 0 0)).aborting = false) ∧
    (let s := sysCh 1 []
     AllowedWrite s .host (Reg.sraDmaCtl 0 0) ((reg s (Reg.sraDmaCtl 0 0) &&& 1) ||| 2) ∧ (chan s (.sys 0 0)).descs = [] ∧
     (chan s (.sys 0 0)).aborting = false) ∧
    ((chan (sysCh 1 [desc [] .trigger]) (.sys 0 0)).descs = [desc [] .trigger]) ∧
    (let s := withRegs go [(Reg.cmpTdmaCfg 0, 0x40000)]
     let s := { s with mem := [⟨localBase 0 + 12, 1⟩] }
     let ring := localWord s 0 (ctlOff s 0 0 + 8)
     AllowedWrite s (.node 0 true) (Reg.cmpTdmaCfg 0) (putBit (reg s (Reg.cmpTdmaCfg 0)) 16 true) ∧ chanOn s (.tile 0 0) = false ∧
     Memory.wf s.mem = true ∧ s.latent = [] ∧ bits ring 19 16 ≤ 8 ∧ bits ring 12 0 + 2 ^ bits ring 19 16 ≤ 6144 ∧
     localWord s 0 (ctlOff s 0 0 + 12) ≠ 0 ∧ flag s (Reg.cmpTdmaCfg 0) 18 = true) ∧
    (chanRuns (tileCh [] 0) (.tile 0 0) = true ∧ chanOn (tileCh [] 0) (.tile 0 0) = true ∧
      (chan (tileCh [] 0) (.tile 0 0)).faulted = false) := by
  unfold AllowedWrite
  decide +kernel

theorem test_witness_descriptor_fetches :
    (let s := { tileCh [] 1 with cores := [(0, { Core.reset with run := .running, threads := [(0, t0)], tdma := [(0, { DmaChan.reset with
       ringLine := 64, logN := 1, dl := 10, head := 1 })] })] }
     let slot := localBase 0 + 64 * 64
     chanRuns s (.tile 0 0) = true ∧ chanOn s (.tile 0 0) = true ∧ (chan s (.tile 0 0)).tail ≠ (chan s (.tile 0 0)).head ∧
     (chan s (.tile 0 0)).aborting = false ∧ (chan s (.tile 0 0)).faulted = false ∧ tileGuardFault s 0 0 = false ∧ s.latent = [] ∧ isPoisoned s slot 64 = false ∧ Memory.wf s.mem = true ∧
     localBase 0 + ctlOff s 0 0 + 64 ≤ slot ∧ (checkDesc s (.tile 0 0) none (slotWords (readMem s slot 64))).status = 0) ∧
    (let e : List DWord := [0, 0, 0, 0, 0, 0, 0, 0]
     let s := { withRegs up [(Reg.sraDmaCtl 0 0, 1), (Reg.sraQCfg 0, 0x2001), (Reg.sraCtxCfg 0, 0x100), (Reg.cmpTenRect 0, wholeRect)] with
       queues := [(0, { Queue.reset with entries := [e] })] }
     chanRuns s (.sys 0 0) = true ∧ chanOn s (.sys 0 0) = true ∧ (chan s (.sys 0 0)).aborting = false ∧
     feedOfChan s 0 0 = some 0 ∧ entOp e ≤ 4 ∧
     (checkDesc s (.sys 0 0) (some 0) e).status = 0) := by
  decide +kernel

theorem test_witness_triggers_and_deadlines :
    (let d := desc [0x800] .trigger
     let s := tileCh [d] 0
     chanRuns s (.tile 0 0) = true ∧ curDesc (chan s (.tile 0 0)) = some d ∧ descOf s (.tile 0 0) 0 = some d ∧
     dTrig d.words ≠ 0 ∧ dBarrier d.words = false ∧ triggerHolds s (.tile 0 0) d.words = true) ∧
    (let d := desc [0, 0, 0, 0, 0, 0, 0, 0x640001] .issuing
     let s := { tileCh [d] 0 with tb := 100 * 2 ^ 32 }
     curDesc (chan s (.tile 0 0)) = some d ∧ dPaceLines d.words ≠ 0 ∧ d.paceAt + dPaceNs d.words ≤ now s) ∧
    (let d := desc [0x1000, 0, 0, 0, 0, 1] .trigger
     let s := { tileCh [d] 0 with tb := 100 * 2 ^ 32 }
     s.latent = [] ∧ (chan s (.tile 0 0)).aborting = false ∧ d.stage = .trigger ∧ d.waits = [] ∧ d.rows = [] ∧
     chanRuns s (.tile 0 0) = true ∧ dBarrier d.words = false ∧ dTrig d.words = 2 ∧ triggerHolds s (.tile 0 0) d.words = false ∧ d.fetchedAt + chanDl s (.tile 0 0) ≤ now s) ∧
    (let d := { desc [0] .drain with queue := some 0 }
     let s := { withRegs (sysCh 1 [d]) [(Reg.sraQConsHi 0, 0x2000)] with queues := [(0, { Queue.reset with entries := [[0]] })] }
     chanRuns s (.sys 0 0) = true ∧ (chan s (.sys 0 0)).descs = [d] ∧ (chan s (.sys 0 0)).aborting = false ∧
     (queueOf s 0).entries = [[0]] ∧ (queueOf s 0).old = 0 ∧ Memory.wf s.mem = true ∧
     target s (regAddr s (Reg.sraQConsLo 0)) = .host ∧ dCpl d.words = false ∧ dSignal d.words = false ∧ dIrq d.words = false ∧
     (chan (tileCh [d] 0) (.tile 0 0)).descs = [d]) := by
  decide +kernel

theorem test_witness_transfers :
    let block (op src : DWord) : Desc := desc [op, src, 0x400000000080, 64] .fetched
    let s (d : Desc) := tileCh [d] 0
    let ok (d : Desc) : Bool := decide (chanRuns (s d) (.tile 0 0) = true ∧ (chan (s d) (.tile 0 0)).descs = [d] ∧ dBarrier d.words = false ∧
      dTrig d.words = 0 ∧ dCodec d.words = 0 ∧ dPaceLines d.words = 0 ∧ dDim2 d.words = false ∧ dRows d.words = 1 ∧
      0 < dLen d.words ∧ dDst d.words % 64 + dLen d.words ≤ 64 ∧ target (s d) (dDst d.words) = .localMem 0 128 ∧ coreDown (s d) 0 = false ∧
      agentServed (s d) (chanAgent (s d) (.tile 0 0) none) (dDst d.words) = true ∧ portFull (s d) (.tile 0 0) (dDst d.words) = false ∧
      d.next = 0 ∧ d.fail = none ∧ d.waits = [] ∧ d.pages = [] ∧ d.mism = none)
    (ok (block 1 0x400000000000) = true ∧ ok (block 2 0) = true ∧ ok (block 3 0x400000000000) = true ∧ dOp (block 0 0).words = 0) ∧
    (let d := block 1 0x400000000000
     target (s d) (dSrc d.words) = .localMem 0 0 ∧
     agentServed (s d) (chanAgent (s d) (.tile 0 0) none) (dSrc d.words) = true ∧ portFull (s d) (.tile 0 0) (dSrc d.words) = false ∧ dSrc d.words % 128 + dLen d.words ≤ 128 ∧ descends d.words = false ∧
     isPoisoned (s d) (dSrc d.words) (dLen d.words) = false ∧ isPoisoned (s d) (dDst d.words) (dLen d.words) = false ∧
     dSrc d.words % 64 + dLen d.words ≤ 64 ∧ Memory.wf (s d).mem = true) := by
  decide +kernel

theorem test_witness_gather_rows :
    let d := desc [4, 0, 0x400000000040, 0x10060000, 0x400000000000] .fetched
    let s (m : List Host.Cell) : State := withRegs { tileCh [d] 0 with mem := m }
      [(Reg.cmpTenWinW0 0 0, 0x80000000), (Reg.hbmStat 0, 1)]
    let ff := (List.range 4).map fun i => (⟨0x400000000000 + i, 0xFF⟩ : Host.Cell)
    (dOp d.words = 4 ∧ dCount d.words = 1 ∧ dRow d.words = 64 ∧ dDst d.words % 64 = 0 ∧ dBarrier d.words = false ∧
      dTrig d.words = 0 ∧ dPaceLines d.words = 0 ∧ dIdxSize d.words = 4 ∧ target (s []) (dIdx d.words) = .localMem 0 0 ∧
      target (s []) (dDst d.words) = .localMem 0 64 ∧ coreDown (s []) 0 = false ∧
      agentServed (s []) (chanAgent (s []) (.tile 0 0) none) (dIdx d.words) = true ∧ portFull (s []) (.tile 0 0) (dIdx d.words) = false ∧
      agentServed (s []) (chanAgent (s []) (.tile 0 0) none) (dDst d.words) = true ∧ portFull (s []) (.tile 0 0) (dDst d.words) = false ∧ isPoisoned (s []) (dIdx d.words) 4 = false) ∧
    (Memory.wf ff = true ∧ leNat (readMem (s ff) (dIdx d.words) 4) = 256 ^ 4 - 1) ∧
    (let m : List Host.Cell := [⟨0x400000000000, 16⟩]
     Memory.wf m = true ∧ dLimit d.words ≤ leNat (readMem (s m) (dIdx d.words) 4)) ∧
    (leNat (readMem (s []) (dIdx d.words) 4) < dLimit d.words ∧ rowSource (s []) (.tile 0 0) d 0 = .inr 0) := by
  decide +kernel

theorem test_witness_gather_fetches :
    let r : GatherRow := ⟨0, 64, 0x400000000040, 0, .near 0, false, false, false, 0, [], [], none⟩
    (let d := { desc [4, 0, 0x400000000040, 0x10060000, 0x400000000000] .issuing with next := 1, rows := [r] }
     let s := served (tileCh [d] 0)
     d.next = dCount d.words ∧ r.sent = false ∧ (freeEntry s r.engine r.tag).isSome = true ∧ paceFull d = false ∧
     dispatchServed s (.tile 0 0) r = true ∧ (chan s (.tile 0 0)).descs = [d] ∧ chanRuns s (.tile 0 0) = true ∧ dOp d.words = 4 ∧
     d.fail = none ∧ d.waits = [] ∧ d.pages = []) ∧
    (let r := { r with sent := true }
     let d := { desc [4, 0, 0x400000000040, 0x10060000, 0x400000000000] .drain with next := 1, rows := [r] }
     let s := withRegs (served (tileCh [d] 0)) [(Reg.hbmStat 0, 1)]
     r.data = [] ∧ r.faults = [] ∧ r.reached = none ∧ agentServed s (gatherAgent r) r.src = true ∧
     agentServed s (gatherAgent r) (dDst d.words) = true ∧ portFull s (.tile 0 0) (dDst d.words) = false ∧
     chanRuns s (.tile 0 0) = true ∧ (chan s (.tile 0 0)).descs = [d] ∧ dOp d.words = 4 ∧ d.fail = none ∧
     (rowFetches s (.near 0))[0]? = some (.tile 0 0, d.serial, r) ∧ dRow d.words = 64 ∧ r.src % 64 = 0 ∧
     target s r.src = .near 0 ∧ unitReady s 0 = true ∧ draining s 0 = false ∧ isPoisoned s r.src 64 = false ∧
     partUp s = true ∧ target s (dDst d.words + 64 * r.row) = .localMem 0 64 ∧ coreDown s 0 = false) ∧
    (let tier := [(Reg.cmpTierW0 3, (3 : Word)), (Reg.cmpTierW2 4, 1)]
     let a := { acc (.load 1 4 false) none with addr := 0x130000000000 }
     let b := { acc (.store [1]) none with addr := 0x130000000000 }
     let s := { withRegs (served (port t0 a)) tier with tb := 2 ^ 64 }
     let e := withRegs (served (port t0 a)) tier
     let w := withRegs (served (port t0 b)) tier
     laneFind s 0 7 = some a ∧ cxlPending s 0 a = some 3 ∧ a.isStore = false ∧
     a.issued + (reg s (Reg.sraCxlDl 1)).toNat ≤ now s ∧ laneFind e 0 7 = some a ∧ cxlPending e 0 a = some 3 ∧
     ¬(a.issued + (reg e (Reg.sraCxlDl 1)).toNat ≤ now e) ∧ isPoisoned e a.addr a.size = false ∧
     isPoisoned { e with poison := [nth (sectorsOf a.addr a.size) 0 0] } a.addr a.size = true ∧
     laneFind w 0 7 = some b ∧ cxlPending w 0 b = some 3 ∧ ¬(b.issued + (reg w (Reg.sraCxlDl 1)).toNat ≤ now w) ∧
     Memory.wf w.mem = true ∧ laneFind { w with tb := 2 ^ 64 } 0 7 = some b ∧ cxlPending { w with tb := 2 ^ 64 } 0 b = some 3 ∧
     b.issued + (reg w (Reg.sraCxlDl 1)).toNat ≤ now { w with tb := 2 ^ 64 }) := by
  decide +kernel

/-! ### Host objects, queues and kernels -/

/-- The value of CMP_TEN_RECT of an enabled rectangle of one block. -/
def oneBlock : Word := 0x80000000

/-- Context 5 in a state, with rectangle 0, and more registers. -/
def ctx (st : Word) (l : List (Nat × Word)) : State :=
  withRegs up ([(Reg.sraCtxCfg 5, st), (Reg.sraCtxRects 5, 1), (Reg.cmpTenRect 0, oneBlock)] ++ l)

theorem test_witness_contexts :
    let cmd (s : State) (b : Nat) := putBit (reg s (Reg.sraCtxCfg 5) &&& 0xF80) b true
    (AllowedWrite (ctx 0 []) .host (Reg.sraCtxCfg 5) (cmd (ctx 0 []) 4) ∧ ctxState (ctx 0 []) 5 = 0 ∧ createCheck (ctx 0 []) 5 = 0 ∧
      createCheck up 63 ≠ 0 ∧ ctxState up 63 = 0) ∧
    (AllowedWrite (ctx 1 []) .host (Reg.sraCtxCfg 5) (cmd (ctx 1 []) 5) ∧ ctxState (ctx 1 []) 5 = 1) ∧
    (ctxState (ctx 2 []) 5 = 2 ∧ ctxQuiet (ctx 2 []) 5 = true ∧ partUp (ctx 2 []) = true) ∧
    (AllowedWrite (ctx 3 []) .host (Reg.sraCtxCfg 5) (cmd (ctx 3 []) 6) ∧ ctxState (ctx 3 []) 5 = 3) := by
  unfold AllowedWrite
  decide +kernel

theorem test_witness_objects :
    let mo := Reg.sraMoCfg 65535
    (let s := ctx 1 [(Reg.sraMoPages 65535, 1)]
     let p := plainWrite s mo (putBit 5 31 false)
     AllowedWrite s .host mo (putBit 5 31 true) ∧ s.staged = [] ∧ moCheck p 65535 = 0 ∧
     AllowedWrite s .host mo (putBit (reg s mo) 31 false)) ∧
    (let p := plainWrite up mo (putBit 5 31 false)
     moCheck p 65535 ≠ 0 ∧ flag up Reg.sraMoStat 31 = false) := by
  unfold AllowedWrite
  decide +kernel

theorem test_witness_isolation :
    AllowedWrite up .host Reg.sraIso 0 ∧ up.pkg.hasCtu = true ∧ (∀ x, x < 64 → ctxState up x = 0) ∧ ctxState (ctx 1 []) 5 ≠ 0 := by
  unfold AllowedWrite
  decide +kernel

/-- Queue 255 of context 5, enabled or not, in a state, with its rings in host memory. -/
def que (en : Word) (stat : Word) (q : Queue) (l : List (Nat × Word)) : State :=
  { ctx 1 ([(Reg.sraQCfg 255, 0x150 + en), (Reg.sraQRingHi 255, 0x2000), (Reg.sraQConsLo 255, 0x4000), (Reg.sraQConsHi 255, 0x2000),
      (Reg.sraQStat 255, stat), (Reg.sraSweep, 0x104), (Reg.sraEv 4095, 0x85)] ++ l) with queues := [(255, q)] }

theorem test_witness_queues :
    let cfg := Reg.sraQCfg 255
    (let s := que 0 0 Queue.reset []
     AllowedWrite s .host cfg (putBit 0x150 0 true) ∧ queueOn s 255 = false ∧ s.staged = [] ∧
     queueRefused (plainWrite s cfg (putBit 0x150 0 false)) 255 = false ∧
     queueRefused (plainWrite s cfg (putBit 0 0 false)) 255 = true) ∧
    (let s := que 1 1 { Queue.reset with reading := 1 } []
     AllowedWrite s .host cfg (putBit (reg s cfg) 0 false) ∧ queueOn s 255 = true ∧ (queueOf s 255).entries = [] ∧
     (queueOf s 255).inChan = 0 ∧ [[(0 : DWord)]].length = (queueOf s 255).reading ∧ queueMayFetch s 255 = true ∧
     queueBound (que 0x2001 1 Queue.reset []) 255 = true) ∧
    (let s := que 1 3 { Queue.reset with entries := [[0]] } []
     AllowedWrite s .host cfg (putBit 0x150 0 true) ∧ queueOn s 255 = true ∧ queueStopped s 255 = true ∧ queueRefused s 255 = false) ∧
    (let s := { que 1 1 { Queue.reset with reading := 1 } [] with tb := 2 ^ 64 }
     flag s Reg.sraSweep 8 = true ∧ s.sweepAt + 250 * fld s Reg.sraSweep 6 0 ≤ now s ∧ (queueOf s 255).reading ≠ 0 ∧
     (queueOf s 255).readAt + (reg s Reg.sraHostDl).toNat ≤ now s) := by
  unfold AllowedWrite
  decide +kernel

theorem test_witness_doorbells :
    (let s := { que 1 1 Queue.reset [] with sweeps := [⟨15, 0⟩], tb := 2 ^ 64 }
     partUp s = true ∧ s.pkg.slumber = false ∧ s.sweeps = [⟨15, 0⟩] ∧ (∀ j, j < 16 → j ≠ 15 → wordActive s (16 * 15 + j) = false) ∧
     wordActive s (16 * 15 + 15) = true ∧ queueMayFetch s 255 = true ∧ ringUsed 16 (fld s (Reg.sraQStat 255) 31 16) ≤ ringSlots s 255 ∧
     ringSlots s 255 < ringUsed 17 (fld s (Reg.sraQStat 255) 31 16) ∧ (0 : Nat) + (reg s Reg.sraHostDl).toNat ≤ now s) ∧
    (let s := ctx 1 [(Reg.sraCtxErrcfg 5, 3)]
     (∀ j, j < 16 → j ≠ 5 → wordActive s (16 * 16 + j) = false) ∧ wordActive s (16 * 16 + 5) = true ∧ 256 ≤ 16 * 16 + 5) := by
  decide +kernel

theorem test_witness_control_entries :
    let e (op : DWord) : List DWord := [op + 2 ^ 32 * 4095, if op = 10 then 5 else 0]
    let starts (s : State) (op : Nat) (e : List DWord) : Bool := decide (ctlFront s 255 op = some e ∧ (queueOf s 255).entries = [e] ∧ (queueOf s 255).old = 0 ∧ s.evq = [] ∧
      (queueOf s 255).ctl = .ready ∧ ctlCheck s 255 e = 0)
    (let s := que 1 1 { Queue.reset with entries := [e 9] } []
     starts s 9 (e 9) = true ∧ mayBeSignalled s (entEvent (e 9)) = true) ∧
    starts (que 1 1 { Queue.reset with entries := [e 10] } []) 10 (e 10) = true ∧
    (flag (que 1 1 { Queue.reset with entries := [e 10] } []) (Reg.sraEv 4095) 8 = false) ∧
    (let s := que 1 1 { Queue.reset with entries := [e 10], ctl := .waiting 0 } []
     ctlFront s 255 10 = some (e 10) ∧ (queueOf s 255).entries = [e 10] ∧ (queueOf s 255).old = 0 ∧ s.evq = [] ∧
     (queueOf s 255).ctl = .waiting 0 ∧ 0 ≤ now s) ∧
    (let s := que 1 1 { Queue.reset with entries := [e 10] } [(Reg.sraEv 4095, 0x185)]
     starts s 10 (e 10) = true ∧ flag s (Reg.sraEv 4095) 8 = true) ∧
    (starts (que 1 1 { Queue.reset with entries := [e 11] } []) 11 (e 11) = true ∧ bit (ent (e 11) 0) 8 = false) ∧
    (let e : List DWord := [12, 0x200000000000]
     let s := que 1 1 { Queue.reset with entries := [e] } [(Reg.sraIso, 0), (Reg.cmpTenWinW0 0 0, 0x81000000), (Reg.cmpTenWinW1 0 0, 0x1000000)]
     starts s 12 e = true ∧ enforced s = false ∧ ledgerTarget s (queueCtx s 255) 0x200000000000 = 0 ∧
     ledgerTarget s (queueCtx s 255) 0x200000000040 = 0 ∧ target s 0x200000000000 = .host ∧ target s 0x200000000040 = .host ∧
     target s (regAddr s (Reg.sraQConsLo 255)) = .host ∧ 0x200000000000 + 128 ≤ regAddr s (Reg.sraQConsLo 255) ∧
     Memory.wf s.mem = true) := by
  decide +kernel

theorem test_witness_events_and_records :
    (let s := que 1 1 Queue.reset []
     ctxState s 5 ≠ 0 ∧ rectOf s 0 = some 0 ∧ ctxHasRect s 5 0 = true ∧ fld s (Reg.sraEv 4095) 5 0 = 5 ∧ rectOf s 767 = none ∧
     AllowedWrite s .host (Reg.sraEv 4095) ((reg s (Reg.sraEv 4095) &&& 0x3FC00BF) ||| 0x4000000) ∧
     flag s (Reg.sraEv 4095) 7 = true ∧ s.evq = [] ∧ mayBeSignalled s 4095 = true) ∧
    (let r : ErrRec := ⟨some 5, 1, 0, 0, 0, 0, 0, 0, none, false⟩
     let s := { que 1 1 Queue.reset [(Reg.sraCtxErrcfg 5, 1), (Reg.sraCtxErrHi 5, 0x2000)] with errq := [r] }
     s.errq = [r] ∧ r.ctx = some 5 ∧ fld s (Reg.sraCtxErrcfg 5) 3 0 ≠ 0 ∧
     ringUsed (fld s (Reg.sraCtxErrcfg 5) 31 16) (ringCons s 5) < 2 ^ fld s (Reg.sraCtxErrcfg 5) 3 0 ∧
     target s (regAddr s (Reg.sraCtxErrLo 5)) = .host ∧ fld up (Reg.sraCtxErrcfg 5) 3 0 = 0) ∧
    (let m : Msg := ⟨0x300, 5, false, 0, 0, 0⟩
     let s := { withRegs up [(Reg.sraDerrHi, 0x2000), (Reg.sraDerrCfg, 0x801)] with alerts := [(m, 0)] }
     s.errq = [] ∧ s.alerts = [(m, 0)] ∧ deviceRoom s = true ∧ target s (regAddr s Reg.sraDerrLo) = .host) := by
  unfold AllowedWrite
  decide +kernel

/-- A kernel of queue 255 on rectangle 0. -/
def kern (started parked : Bool) (reported : List Nat) : Kernel := ⟨255, 5, started, reported, parked, none, 0⟩

theorem test_witness_dispatch :
    let e : List DWord := [8, 100]
    (let s := que 1 1 { Queue.reset with entries := [e] } [(Reg.cmpReadyLo, 1)]
     ctlFront s 255 8 = some e ∧ (queueOf s 255).ctl = .ready ∧ (queueOf s 255).entries = [e] ∧ ctlCheck s 255 e = 0 ∧
     (queueOf s 255).old = 0 ∧ dispatchCheck s 255 0 = 0 ∧ dispatchCheck (que 1 1 { Queue.reset with entries := [e] } []) 255 0 ≠ 0) ∧
    (let s := { que 1 1 { Queue.reset with entries := [e], ctl := .kernel } [(Reg.cmpReadyLo, 1)] with kernels := [(0, kern false false [])] }
     kernelOf s 0 = some (kern false false []) ∧ storesDone s 0 = true ∧ ctlFront s 255 8 = some e ∧ s.latent = [] ∧ (core s 0).resetJob = none ∧ (core s 0).run = .parked ∧
     isPoisoned s (localBase 0) 32 = false ∧
     headerOk { s with mem := [⟨localBase 0, 4⟩, ⟨localBase 0 + 2, 0x79⟩, ⟨localBase 0 + 3, 0xBE⟩] } 0 = true) := by
  decide +kernel

theorem test_witness_kernel_ends :
    let cs := rectCores (ctx 1 []) 0
    cs = [0, 1, 2, 3, 32, 33, 34, 35, 64, 65, 66, 67, 96, 97, 98, 99] ∧
    (∀ c ∈ cs, (core (ctx 1 []) c).run = .parked ∧ storesDone (ctx 1 []) c = true) ∧
    (let s := { ctx 1 [] with kernels := [(0, kern true false [])] }
     partUp s = true ∧ rectOf s 99 = some 0 ∧ kernelOf s 0 = some (kern true false []) ∧
     cs.find? (fun d => !(kern true false []).reported.contains d) = some 0 ∧ (kern true false []).deadline ≤ now s ∧
     ¬(∀ d ∈ cs, d = 99 ∨ d ∈ (kern true false []).reported) ∧ ∀ d ∈ cs, d = 99 ∨ d ∈ (kern true false (cs.erase 99)).reported) ∧
    (let k : Kernel := { kern true true [] with late := some 0 }
     let s := { que 1 1 { Queue.reset with entries := [[8, 100]], ctl := .kernel } [] with kernels := [(0, k)] }
     kernelOf s 0 = some k ∧ (queueOf s k.queue).entries = [[8, 100]] ∧ (queueOf s k.queue).old = 0 ∧ k.parked = true ∧
     (∀ c ∈ rectCores s 0, storesDone s c = true) ∧ (kern true true []).late = none) ∧
    (let s := { ctx 1 [] with
       kernels := [(0, kern true false [])], cores := [(0, { Core.reset with run := .running, lane := [acc (.store [1]) none] })] }
     0 ∈ rectCores s 0 ∧ storesDone s 0 = false) := by
  decide +kernel

/-! ### Links and the Drover die -/

/-- Link 31 of Serai 1 in a state, its bundle 15 in a state. -/
def linked (ls bs : Word) (x : Bundle) (l : List (Nat × Word)) : State :=
  { withRegs up ([(Reg.lnkCtl 1 31, 0xF9), (Reg.lnkStat 1 31, ls), (Reg.lnkBndStat 1 15, bs), (Reg.lnkBndCfg 1 15, 0x7),
      (Reg.hbmStat 0, 1), (Reg.cmpTenRect 0, wholeRect), (Reg.cmpTenWinW0 0 0, 0x80000000)] ++ l) with bundles := [(31, x)] }

theorem test_witness_links_train :
    let ctl := Reg.lnkCtl 1 31
    (AllowedWrite up .host ctl (reg up ctl ||| 1) ∧ flag up ctl 0 = false) ∧
    (let s := linked 1 0 Bundle.reset []
     linkRuns s 1 31 = true ∧ linkState s 1 31 = 1 ∧ now s < (linkSt s 1 31).stuckAt + 50000 ∧
     (linkSt s 1 31).stuckAt + 50000 < now { s with tb := 2 ^ 64 } ∧ 3 ≠ fld s Reg.lnkChip 5 0 ∧ 3 = fld s (Reg.lnkBndCfg 1 15) 6 1) ∧
    (linkState (linked 2 1 Bundle.reset []) 1 31 = 2 ∧ linkRuns (linked 2 1 Bundle.reset []) 1 31 = true) ∧
    (let s := { linked 3 1 Bundle.reset [] with links := [(63, { LinkSt.reset with attempt := 1, lastGen := 2 })] }
     linkRuns s 1 31 = true ∧ linkState s 1 31 = 3 ∧ (linkSt s 1 31).attempt = 1 ∧ (linkSt s 1 31).lastGen = 2 ∧
     ¬((linkSt s 1 31).stuckAt + 10000 < now s) ∧ (linkSt s 1 31).stuckAt + 10000 < now { s with tb := 2 ^ 64 } ∧
     (linkSt (linked 3 1 Bundle.reset []) 1 31).attempt = 0 ∧
     (linkSt { s with links := [(63, { LinkSt.reset with attempt := 2 })] } 1 31).attempt = 2 ∧
     (linkSt { s with links := [(63, { LinkSt.reset with attempt := 1, lastGen := 1 })] } 1 31).lastGen ≠ 2) := by
  unfold AllowedWrite
  decide +kernel

/-- A frame of chip 3, link 5. -/
def sentAs (kind : Nat) (us : List LinkUnit) : Frame := ⟨0, 0, kind, 3, 5, us⟩

theorem test_witness_frames_spelled :
    let spells (f : Frame) : Bool := frameCrcOk (frameBytes f) && decide (frameOf? (frameBytes f) = some f)
    spells (sentAs 0 [.resp [(1, 0)]]) = true ∧
    spells { sentAs 0 [.write 9 4 127 [5], .cread 8 1 2] with seq := 127 } = true ∧
    spells { sentAs 1 [] with ackSeq := 7 } = true ∧ spells (sentAs 2 []) = true ∧ spells (sentAs 3 []) = true ∧
    frameCrcOk [] = false := by
  decide +kernel

/-- The CRC of the nine digits is the check value published for this CRC (R353). -/
theorem test_crc_of_the_nine_digits : crc32 (([49, 50, 51, 52, 53, 54, 55, 56, 57] : List Byte)) = 0xCBF43926 := by decide +kernel

theorem test_witness_frames :
    let u : LinkUnit := .resp [(1, 0)]
    (let s := linked 2 1 Bundle.reset []
     linkHears s 1 31 = true ∧ frameTaken s 1 31 = true ∧ (linkSt s 1 31).crcTimes = [] ∧
     (bundle s 1 15).reorder = [] ∧ (bundle s 1 15).outbox = [] ∧ (bundle s 1 15).replayRq = false ∧ (bundle s 1 15).itags = [] ∧
     bundleState s 1 15 = 1 ∧
     (0 : BitVec 16) = (bundle s 1 15).expect ∧ ((127 : BitVec 16) - (bundle s 1 15).expect).toNat < 128 ∧
     32768 ≤ ((0x8000 : BitVec 16) - (bundle s 1 15).expect).toNat ∧ 128 ≤ ((128 : BitVec 16) - (bundle s 1 15).expect).toNat) ∧
    (let s := linked 2 1 { Bundle.reset with reorder := [(1, [u])] } []
     (bundle s 1 15).reorder = [((bundle s 1 15).expect + 1, [u])]) ∧
    (let s := linked 2 3 { Bundle.reset with syncSent := true } []
     linkRuns s 1 31 = true ∧ linkState s 1 31 = 2 ∧ bundleState s 1 15 = 3 ∧ (bundle s 1 15).syncSent = true ∧
     (bundle s 1 15).outbox = [] ∧ (bundle s 1 15).replayRq = false ∧
     (bundle (linked 2 3 Bundle.reset []) 1 15).syncSent = false) := by
  decide +kernel

theorem test_witness_bundles :
    (let s := { linked 2 1 { Bundle.reset with gapAt := some 0, replay := [⟨0, 0, [], 31⟩] } [] with tb := 2 ^ 64 }
     partUp s = true ∧ bundleState s 1 15 = 1 ∧ liveLinks s 1 15 ≠ [] ∧ (bundle s 1 15).gapAt = some 0 ∧ (bundle s 1 15).outbox = [] ∧
     nextLink s 1 15 = some 31 ∧
     0 + gapTime s 1 15 ≤ now s ∧ (bundle s 1 15).replay = [⟨0, 0, [], 31⟩] ∧ 0 + fld s (Reg.lnkBndRtmr 1 15) 15 0 < now s) ∧
    (let s := { linked 0 1 { Bundle.reset with deadAt := some 0, itags := [(0, .lane 0 7, 0)] } [] with tb := 2 ^ 64 }
     bundleState s 1 15 ≠ 2 ∧ (bundle s 1 15).itags.map (fun e => e.2.1) = [.lane 0 7] ∧ liveLinks s 1 15 = [] ∧ (bundle s 1 15).deadAt = some 0 ∧ 0 + (reg s (Reg.lnkBndDl 1 15)).toNat ≤ now s) ∧
    (let s := linked 0 2 Bundle.reset []
     AllowedWrite s .host (Reg.lnkBndCfg 1 15) (reg s (Reg.lnkBndCfg 1 15) ||| 0x1000) ∧ bundleState s 1 15 = 2 ∧
     bundleState (linked 0 0 Bundle.reset []) 1 15 = 0) := by
  unfold AllowedWrite
  decide +kernel

theorem test_witness_link_requests :
    let s (u : LinkUnit) : State :=
      { linked 2 1 { Bundle.reset with inbox := [u] } [] with slotNow := [(1808, 0x10), (1824, 0xD010), (1840, 0xD010), (1856, 0xD010)] }
    let served (u : LinkUnit) : Bool := !inboundWaits (s u) 1 15 u
    let w : LinkUnit := .write 9 0 127 [5]
    let bs : List Byte := List.replicate 128 0
    (partUp (s w) = true ∧ 1 < (s w).pkg.nSerai ∧ bundleState (s w) 1 15 = 1 ∧ liveLinks (s w) 1 15 ≠ [] ∧
      (bundle (s w) 1 15).outbox = [] ∧ (bundle (s w) 1 15).replay.length < 128 ∧ (bundle (s w) 1 15).inbox = [w] ∧
      served w = true ∧ inboundCheck (s w) 1 15 127 1 = 0 ∧ inboundCheck (s w) 1 15 0x200000 1 ≠ 0 ∧
      (s w).latent = [] ∧ Memory.wf (s w).mem = true) ∧
    (served (.read 9 0 0 127) = true ∧ (bundle (s (.read 9 0 0 127)) 1 15).inbox = [.read 9 0 0 127] ∧ inboundCheck (s w) 1 15 0 128 = 0) ∧
    (served (.share 9 0 2 bs) = true ∧ served (.write 9 0x4000 0 [5]) = true ∧ (bundle (s (.share 9 0 2 bs)) 1 15).inbox = [.share 9 0 2 bs] ∧ bs.length = 128 ∧ (bundle (s w) 1 15).itags = [] ∧
      inboundCheck (s w) 1 15 0 (128 * groupBlocks 2) = 0) ∧
    (served (.rawblk 9 0 5 bs) = true ∧ (bundle (s (.rawblk 9 0 5 bs)) 1 15).inbox = [.rawblk 9 0 5 bs] ∧ headerRaw 5 = true) ∧
    (served (.cread 9 0 1) = true ∧ (bundle (s (.cread 9 0 1)) 1 15).inbox = [.cread 9 0 1] ∧ (s w).poison = [] ∧ headerRaw (sget (s w).side 0 0) = false) ∧
    (nearSize up < nearSize up - 1 + 2 ∧ rectOn (withRegs up [(Reg.hbmStat 0, 1)]) 0 = false ∧
      unitReady (withRegs up [(Reg.hbmStat 0, 1)]) (unitOf up 0).1 = true) := by
  decide +kernel

theorem test_witness_link_responses :
    let s (u : LinkUnit) := linked 2 1 { Bundle.reset with inbox := [u], itags := [(9, .lane 0 7, 3)] } []
    (laneFind { s (.rdata 9 0 [1]) with cores := [(0, { Core.reset with lane := [acc (.load 1 4 true) none] })] } 0 7).isSome = true ∧
    (bundle (s (.rdata 9 0 [1])) 1 15).itags = [(9, .lane 0 7, 3)] ∧ (bundle (s (.rdata 9 0 [1])) 1 15).inbox = [.rdata 9 0 [1]] ∧
    (bundle (s (.resp [(9, 5)])) 1 15).inbox = [.resp [(9, 5)]] ∧ flag (s (.resp [(9, 5)])) (Reg.lnkNaklog 1 15) 31 = false ∧
    flag (withRegs (s (.resp [(9, 5)])) [(Reg.lnkNaklog 1 15, 0x80000000)]) (Reg.lnkNaklog 1 15) 31 = true := by
  decide +kernel

/-- What `PortServes` says, as a test that can be evaluated. -/
def serves (s : State) (a n : Nat) : Bool :=
  drvMemUp s && decide (drvCheck s a n = 0) && decide (0 < n) && decide (a % 128 + n ≤ 128) && agentServed s (drvAgent s) a &&
    match target s a with
    | .near u => unitReady s u && !draining s u && (memUnit s u).ways.all fun e => !e.2.bad
    | _ => false

theorem portServes_of_serves {s : State} {a n : Nat} (h : serves s a n = true) : PortServes s a n := by
  unfold serves at h
  split at h
  · simp only [Bool.and_eq_true, decide_eq_true_eq, Bool.not_eq_true'] at h
    obtain ⟨⟨⟨⟨⟨h1, h2⟩, h3⟩, h4⟩, h5⟩, ⟨h6, h7⟩, h8⟩ := h
    exact ⟨h1, h2, h3, h4, h5, _, ‹_›, h6, h7, h8⟩
  · simp at h

/-- The Drover changed, with registers, and with slots from Serai 0 to unit 0. -/
def drv (f : Drover → Drover) (l : List (Nat × Word)) : State :=
  withRegs { up with drv := f up.drv, slotNow := [(1792, 0x10101010)] } l

theorem test_witness_drover_ports :
    (let s := drv (fun d => { d with routes := [(15, true)] }) [(Reg.drvRoute 15, 0xBFE0)]
     drvUp s = true ∧ s.drv.routes.find? (fun e => e.1 == 15) = some (15, true) ∧ drvInFlight s < 16 ∧ s.pkg.pwrok = true ∧
     bits (reg s (Reg.drvRoute 15)) 17 6 < s.pkg.nCores ∧ bit (reg s (Reg.drvRoute 15)) 5 = true) ∧
    (bits (0xC000 : Word) 17 6 = 768 ∧ 16 ≤ drvInFlight { up with courier := List.replicate 16 ⟨0, 0, false, 0x302, 0, 0⟩ }) ∧
    (let x : DrvAccess := ⟨0, .csiLine, 0, 0, 0, 64, some ([], false), true, 0, none, none⟩
     let y : DrvAccess := { x with job := .ethTx, write := none }
     let s := { drv (fun d => { d with access := [x] }) [] with tb := 2 ^ 64 }
     s.drv.access = [x] ∧ x.result = none ∧ x.reached = none ∧ x.job = .csiLine ∧ y.write = none ∧
     ({ drv (fun d => { d with access := [y] }) [] with tb := 2 ^ 64 }).drv.access = [y] ∧ s.drv.eth = [] ∧ s.drv.can = [] ∧ x.issued + (reg s Reg.drvMemDl).toNat ≤ now s ∧ x.write ≠ none) ∧
    (let s := drv (fun d => { d with ptpLast := some 5, ptpGood := 15 }) [(Reg.drvEthCtl 1, 1), (Reg.drvReady, 0x80)]
     ptpPort s = true ∧ s.drv.ptpLast = some 5 ∧ ((105 : DWord) - 5).toInt.natAbs ≤ 100 ∧ 100 < ((106 : DWord) - 5).toInt.natAbs ∧
     15 ≤ s.drv.ptpGood) := by
  decide +kernel

/-- Receiver 3 enabled with two lines of 64 bytes to a frame, its ring at address 0 of the near tier, which serves it. -/
def cam (x : Csi) (l : List (Nat × Word)) : State :=
  drv (fun d => { d with csi := [(3, x)] }) ([(Reg.drvCsiCfg 3, 0x541), (Reg.drvCsiGeom 3, 0x20040), (Reg.drvCsiRing 3, 0x10001),
    (Reg.hbmStat 0, 1), (Reg.cmpTenRect 0, wholeRect), (Reg.cmpTenWinW0 0 0, 0x80000000)] ++ l)

/-- An open frame with so many lines. -/
def frm (k : Nat) : CsiRec := ⟨4, k, k, 0, 0, 0, 0, 0, 0⟩

theorem test_witness_port_serves : PortServes (cam Csi.reset []) 0 64 ∧ PortServes (cam Csi.reset []) 96 32 :=
  ⟨portServes_of_serves (by decide +kernel), portServes_of_serves (by decide +kernel)⟩

/-- Nothing waits for the Drover's memory port, so that a step on an empty queue is a tick and nothing else. -/
theorem test_witness_port_quiet : PortQuiet up := ⟨rfl, fun _ => rfl, fun _ => rfl⟩

theorem test_witness_camera_frames :
    let slots (s : State) (n : Nat) := (n + 2 ^ 32 - (reg s (Reg.drvCsiRel 3)).toNat) % 2 ^ 32
    (let s := cam Csi.reset []
     csiRuns s 3 = true ∧ (csiOf s 3).cur = none ∧ ¬csiSlots s 3 ≤ slots s (csiOf s 3).frame ∧
     csiSlots s 3 ≤ slots s (csiOf (cam { Csi.reset with frame := 2 } []) 3).frame) ∧
    (let s := cam { Csi.reset with cur := some (frm 2) } []
     (csiOf s 3).cur = some (frm 2) ∧ (frm 2).arrived = csiLines s 3 ∧ serves s (csiLineAddr s 3 0 1) 64 = true ∧ flag s (Reg.drvPrmCfg 3) 0 = false) ∧
    (let s := cam { Csi.reset with cur := some (frm 1) } [(Reg.drvPrmCfg 3, 1)]
     (csiOf s 3).cur = some (frm 1) ∧ (csiOf s 3).closed = [] ∧ (csiOf s 3).primers = [] ∧ (frm 1).arrived < csiLines s 3 ∧
     flag s (Reg.drvPrmCfg 3) 0 = true ∧ bits (reg s (Reg.drvCsiCfg 3)) 4 3 = 0 ∧ bits (reg s (Reg.drvCsiCfg 3)) 10 5 = 42 ∧
     csiLineAddr s 3 0 0 = 0 ∧ roundLine (csiBytes s 3) = 64 ∧ serves s (csiLineAddr s 3 1 1) 64 = true ∧ s.latent = [] ∧
     Memory.wf s.mem = true) ∧
    (let s := { cam Csi.reset [] with tb := 2 ^ 64 }
     (csiOf s 3).lastFs + (reg s (Reg.drvCsiDl 3)).toNat ≤ now s) := by
  decide +kernel

theorem test_witness_camera_records_and_primers :
    (let s := cam { Csi.reset with closed := [frm 2] } []
     drvUp s = true ∧ s.drv.access = [] ∧ s.latent = [] ∧ Memory.wf s.mem = true ∧ (csiOf s 3).closed = [frm 2] ∧
     serves s (regAddr s (Reg.drvCsiRecLo 3) / 32 * 32 + (frm 2).n % csiSlots s 3 * 32) 32 = true) ∧
    (let p : Primer := ⟨4, 0, 64, .clean, true, false, none⟩
     let s := cam { Csi.reset with primers := [p] } []
     (csiOf s 3).primers = [p] ∧ p.read = none ∧ roundLine p.len = 64 ∧ p.addr % 64 = 0 ∧ serves s p.addr 64 = true) ∧
    (let p (n : Nat) (e : HeaderEcc) (crcOk : Bool) (bs : List Byte) (st : Byte) : Primer := ⟨n, 0, 64, e, crcOk, false, some [(bs, st)]⟩
     let s := cam Csi.reset []
     let right := primerExpected s 3 4 64
     (csiOf (cam { Csi.reset with primers := [p 31 .clean true [] 2] } []) 3).primers = [p 31 .clean true [] 2] ∧
     readBytes [(right, 0)] = right ∧ primerPoisons 4 = false ∧ primerSpoiled 4 = false ∧
     reactionSame (p 4 .clean true right 0) = true ∧ reactionSame (p 4 .clean false right 0) = false ∧
     readBytes [([], (0 : Byte))] ≠ right ∧
     primerSpoiled 31 = true ∧ primerPoisons 31 = true ∧ reactionSame (p 31 .clean false [] 2) = true ∧
     reactionThere (p 31 .clean true [] 2) = false ∧ reactionSame (p 31 .corrected false [] 2) = false ∧
     reactionThere (p 31 .corrected false [] 2) = true ∧ (p 31 .clean false [] 0).mem = false) := by
  decide +kernel

/-- Port 1 with ring 8 and ring 0 of two descriptors each, at address 0, which the near tier serves. -/
def eth (e : Eth) (l : List (Nat × Word)) (m : List Host.Cell) : State :=
  { drv (fun d => { d with eth := [(1, e)] }) ([(Reg.drvEthCtl 1, 1), (Reg.drvEthRingcfg 1 0, 0x80010000), (Reg.drvEthRingtail 1 0, 1),
      (Reg.drvEthRingcfg 1 8, 0x80010000), (Reg.drvEthRingtail 1 8, 1),
      (Reg.hbmStat 0, 1), (Reg.cmpTenRect 0, wholeRect), (Reg.cmpTenWinW0 0 0, 0x80000000)] ++ l) with mem := m }

theorem test_witness_ethernet_rings :
    let f : EthFrame := ⟨true, List.replicate 64 0xFF, 0⟩
    let own : List Host.Cell := [⟨6, 64⟩, ⟨7, 0x80⟩]
    let s := eth Eth.reset [] (⟨0, 64⟩ :: own)
    (f.fcsOk = true ∧ frameLenOk f.bytes.length = true ∧ frameAddressed s 1 f = true ∧
      frameAddressed s 1 { f with bytes := List.replicate 64 2 } = false ∧ frameLenOk 63 = false) ∧
    (ethRuns s 1 = true ∧ (ethOf s 1).rx = [] ∧ (ethOf s 1).back = none ∧ rxRing s 1 f = 8 ∧ ringHas s 1 8 = true ∧
      descAddr s 1 8 = 0 ∧ flag s (Reg.drvEthCtl 1) 1 = false ∧ Memory.wf s.mem = true ∧ s.latent = [] ∧ s.drv.access = []) ∧
    (serves s 0 32 = true ∧ serves s 0 24 = true ∧ serves s 0 16 = true ∧ serves s 64 64 = true ∧
      bits (descW0 (readMem s 0 32)) 47 0 = 64 ∧ isPoisoned s 64 64 = false) ∧
    (isPoisoned s 0 32 = false ∧ bit (descW0 (readMem s 0 32)) 63 = true ∧ f.bytes.length ≤ bits (descW0 (readMem s 0 32)) 61 48 ∧
      bit (descW0 (readMem s 0 32)) 62 = false) ∧
    (ringHas (drv id [(Reg.drvEthCtl 1, 1)]) 1 8 = false) ∧
    (ringHas s 1 0 = true ∧ (∀ d, d < 8 → 0 < d → ringHas s 1 d = false) ∧ gclRuns s 1 = false ∧ descAddr s 1 0 = 0 ∧
      bits (descW0 (readMem s 0 32)) 61 48 = 64 ∧ bit (descW0 (readMem (eth Eth.reset [] []) 0 32)) 63 = false) ∧
    (AllowedWrite s (.node 0x302 true) (Reg.drvEthRingtail 1 11) 5 ∧ s.staged = [] ∧
      AllowedWrite s (.node 0x302 true) (Reg.drvEthRingcfg 1 11) 0x80000000 ∧
      flag s (Reg.drvEthRingcfg 1 11) 31 = false) := by
  unfold AllowedWrite
  decide +kernel

theorem test_witness_ethernet_gates :
    let g := Reg.drvEthGclctl 1
    (let s := { eth { Eth.reset with running := true, edgeAt := 5 } [(g, 0x201), (Reg.drvEthGcl 1 0 0, 0x100), (Reg.drvEthGcl 1 0 1, 0x100)] [] with tb := 2 ^ 64 }
     drvUp s = true ∧ edgeDue s 1 = true ∧ swapDue s 1 = false ∧ AllowedWrite s (.node 0x302 true) g (reg s g ||| 2) ∧ flag s g 3 = false) ∧
    (let s := { eth { Eth.reset with running := true, edgeAt := 5 } [(g, 0x10109), (Reg.drvEthGcl 1 1 0, 0)] [] with tb := 2 ^ 64 }
     edgeDue s 1 = true ∧ swapDue s 1 = true ∧ gclInterval s 1 1 0 = 0 ∧ 0 < gclLen s 1 1) ∧
    (let s := { eth Eth.reset [(g, 0x100), (Reg.drvEthGcl 1 0 0, 0x100)] [] with tb := 2 ^ 64 }
     AllowedWrite s (.node 0x302 true) g (putBit (reg s g) 1 false ||| 1) ∧ flag s g 0 = false ∧ reg64 s (Reg.drvEthGclbaseLo 1) < now s ∧ 0 < gclCycle s 1 (gclBank s 1)) := by
  unfold AllowedWrite
  decide +kernel

/-! ### CAN, field signals, safety, resets and power -/

/-- The Drover's supervisor, in the Guarded world. -/
def sup : Origin := .node 0x302 true

/-- CAN port 3 on its bus, with its mailboxes and FIFO. -/
def can (x : Can) (l : List (Nat × Word)) : State :=
  drv (fun d => { d with can := [(3, x)] }) ([(Reg.drvCanCtl 3, 1), (Reg.drvCanStat 3, 0), (Reg.hbmStat 0, 1),
    (Reg.cmpTenRect 0, wholeRect), (Reg.cmpTenWinW0 0 0, 0x80000000)] ++ l)

theorem test_witness_can_mailboxes :
    let ctl := Reg.drvCanMbCtl 3 15
    let req (s : State) := AllowedWrite s sup ctl (reg s ctl ||| 0x200)
    (let s := can Can.reset [(ctl, 8)]
     req s ∧ flag s ctl 10 = false ∧ canLenOk (fld s ctl 6 0) false = true ∧ s.drv.access = [] ∧ s.latent = [] ∧
     serves s (regAddr s (Reg.drvCanMbBufLo 3 15)) 8 = true ∧
     isPoisoned s (regAddr s (Reg.drvCanMbBufLo 3 15)) 8 = false ∧ regAddr s (Reg.drvCanMbBufLo 3 15) = 0) ∧
    (req (can Can.reset [(ctl, 0x400)]) ∧ flag (can Can.reset [(ctl, 0x400)]) ctl 10 = true) ∧
    (canLenOk (fld (can Can.reset [(ctl, 9)]) ctl 6 0) false = false) ∧
    (let s := can { Can.reset with mbs := [(15, ⟨0, some [], false, false⟩)] } []
     canMb s 3 15 = some ⟨0, some [], false, false⟩ ∧ drvUp s = true ∧ reg64 s (Reg.drvCanMbTimeLo 3 15) ≤ now s) ∧
    (let s := { can { Can.reset with mbs := [(15, ⟨0, some [], true, true⟩)] } [] with tb := 2 ^ 64 }
     canRuns s 3 = true ∧ canMb s 3 15 = some ⟨0, some [], true, true⟩ ∧ 0 + (reg s (Reg.drvCanMbDl 3 15)).toNat ≤ now s) := by
  unfold AllowedWrite
  decide +kernel

theorem test_witness_can_bus :
    let f : CanFrame := ⟨5, false, false, false, [], 0⟩
    (let s := can Can.reset []
     canRuns s 3 = true ∧ canFilter s 3 f = none ∧ (canOf s 3).fifo = [] ∧ AllowedWrite s sup (Reg.drvCanRxpop 3) 1) ∧
    (canFilter (can Can.reset [(Reg.drvCanFltW0 3 31, 0x80000005)]) 3 f = some 31) ∧
    (let s := can { Can.reset with fifo := List.replicate 64 (f, 0) } [(Reg.drvCanFltW0 3 0, 0x80000005)]
     canFilter s 3 f = some 0 ∧ 64 ≤ (canOf s 3).fifo.length ∧ canRuns s 3 = true) ∧
    (canTec (can Can.reset [(Reg.drvCanStat 3, 0)]) 3 + 8 * 31 ≤ 255 ∧ drvUp (can Can.reset []) = true) ∧
    (fld (can Can.reset [(Reg.drvCanStat 3, 3)]) (Reg.drvCanStat 3) 1 0 = 3 ∧ flag (can Can.reset []) (Reg.drvCanCtl 3) 0 = true) ∧
    (let s := can Can.reset [(Reg.drvCanStat 3, 2), (Reg.drvCanCtl 3, 3)]
     fld s (Reg.drvCanStat 3) 1 0 = 2 ∧ flag s (Reg.drvCanCtl 3) 1 = true) := by
  unfold AllowedWrite
  decide +kernel

/-- The Drover with VFIELD OK, changed, with registers. -/
def fieldOk (f : Drover → Drover) (l : List (Nat × Word)) : State := drv f ((Reg.drvVfield, 24000) :: l)

theorem test_witness_supply_and_inputs :
    let ev : DinEvent := ⟨15, true, 0⟩
    let cfg := Reg.drvDinCfg 15
    (drvUp up = true ∧ fld (fieldOk id []) Reg.drvVfield 18 16 = 0 ∧ fld up Reg.drvVfield 18 16 ≠ 0 ∧ up.drv.okSince = none ∧
      (18000 : BitVec 16).toInt = 18000 ∧ (32001 : BitVec 16).toInt = 32001 ∧ (0xEC77 : BitVec 16).toInt = -5001) ∧
    (let s := { drv (fun d => { d with okSince := some 0 }) [] with tb := 2 ^ 64 }
     s.drv.okSince = some 0 ∧ 0 + 10000000 ≤ now s ∧ fld s Reg.drvVfield 18 16 ≠ 0) ∧
    (let s := fieldOk id []
     vfieldOk s = true ∧ flag s Reg.drvDinStuck 15 = false ∧ flag s Reg.drvDinOpen 15 = false ∧ dinValue s 15 = false ∧
     s.drv.dinFifo.length < 64 ∧ fld s cfg 15 10 ≠ sget (dinCounts s) 15 0 + 1 ∧ vfieldOk up = false ∧
     dinHeld { s with tb := 2 ^ 64 } 15 0 = true ∧ dinHeld { up with tb := 2 ^ 64 } 15 0 = true ∧
     dinHeld (fieldOk id [(cfg, 0x120401)]) 15 0 = false ∧ s.drv.dinWin = dinWindow s ∧
     s.drv.dinWin ≠ dinWindow { s with tb := 2 ^ 64 } ∧ (∀ e ∈ s.drv.dinOnAt, e.1 ≠ 15)) ∧
    (let s := { fieldOk (fun d => { d with dinRaw := 0x8000, dinFifo := List.replicate 64 ev, dinOnAt := [(15, 0)] }) [(cfg, 0x120400)] with tb := 2 ^ 64 }
     dinValue s 15 = true ∧ 64 ≤ s.drv.dinFifo.length ∧ fld s cfg 31 20 ≠ 0 ∧
     sget s.drv.dinOnAt 15 (now s) + 1000000 * fld s cfg 31 20 ≤ now s ∧ flag s cfg 17 = true ∧
     fld s cfg 15 10 = sget (dinCounts s) 15 0 + 1 ∧ vfieldOk s = true ∧ flag s Reg.drvDinStuck 15 = false ∧
     flag s Reg.drvDinOpen 15 = false ∧ dinHeld s 15 0 = true) ∧
    (let s := { fieldOk id [(cfg, 0x400)] with tb := 2 ^ 64 }
     dinValue s 15 = false ∧ dinHeld s 15 0 = true ∧ fld s cfg 15 10 = sget (dinCounts s) 15 0 + 1) ∧
    (let s := { fieldOk (fun d => { d with dinFifo := List.replicate 64 ev }) [] with tb := 2 ^ 64 }
     dinValue s 15 = false ∧ dinHeld s 15 0 = true ∧ vfieldOk s = true ∧ 64 ≤ s.drv.dinFifo.length) := by
  decide +kernel

theorem test_witness_encoders :
    (let s := fieldOk id [(Reg.drvEncCfg 3, 1), (Reg.drvEncSnapstat, 1)]
     drvUp s = true ∧ encRuns s 3 = true ∧ bit s.drv.encA 3 = false ∧ bit s.drv.encB 3 = false ∧ vfieldOk s = true ∧
     fld s (Reg.drvEncCfg 3) 2 1 = 0 ∧ encHeld { s with tb := 2 ^ 64 } 3 0 = true ∧ encHeld s 3 0xFFFFFFFFFFFFFFFF = false ∧
     encEarly { s with drv := { s.drv with encAt := [(3, 5)] } } 3 104 = true ∧ encEarly s 3 0 = false ∧ encRuns up 3 = false ∧ s.staged = [] ∧ AllowedWrite s sup (Reg.drvEncPos 3) 7 ∧
     AllowedWrite s sup Reg.drvEncSnaptLo 7 ∧ flag s Reg.drvEncSnapstat 0 = true ∧ reg64 s Reg.drvEncSnaptLo ≤ now s) := by
  unfold AllowedWrite
  decide +kernel

theorem test_witness_analog_inputs :
    (AllowedWrite up sup Reg.drvAdcCtl 1 ∧ flag up Reg.drvAdcCtl 0 = false ∧ 0 < (reg up Reg.drvAdcPeriod).toNat ∧
      AllowedWrite up sup (Reg.drvAdcCfg 7) (reg up (Reg.drvAdcCfg 7) ||| 1) ∧ flag up (Reg.drvAdcCfg 7) 0 = false) ∧
    (let off (t : Nat) := { fieldOk (fun d => { d with adc := [(7, { Adc.reset with shuntOff := some 5 })] }) [] with tb := t * 2 ^ 32 }
     drvUp (off 0) = true ∧ (adcOf (off 0) 7).shuntOff = some 5 ∧ 5 + 10000000 ≤ now (off 10000005) ∧ now (off 0) < 5 + 10000000 ∧
     (adcOf (fieldOk id []) 7).shuntOff = none) ∧
    (flag (fieldOk id [(Reg.drvAdcCfg 7, 7)]) (Reg.drvAdcCfg 7) 1 = true ∧ flag (fieldOk id [(Reg.drvAdcCfg 7, 7)]) (Reg.drvAdcCfg 7) 2 = true) ∧
    (let s := drv (fun d => { d with adc := [(7, { Adc.reset with samples := List.replicate 27 0 })] })
       [(Reg.drvAdcCtl, 1), (Reg.drvAdcCfg 7, 1), (Reg.hbmStat 0, 1), (Reg.cmpTenRect 0, wholeRect), (Reg.cmpTenWinW0 0 0, 0x80000000)]
     flag s Reg.drvAdcCtl 0 = true ∧ adcInstant s ≤ now s ∧ (∀ a, a < 8 → (flag s (Reg.drvAdcCfg a) 0 = true ↔ a = 7)) ∧
     drvUp s = true ∧ s.latent = [] ∧ Memory.wf s.mem = true ∧ serves s 0 64 = true ∧
     (adcOf s 7).samples.length = 27 ∧ (adcOf (drv id []) 7).samples.length < 27 ∧
     regAddr s (Reg.drvAdcBaseLo 7) + (reg s (Reg.drvAdcWidx 7)).toNat % 2 ^ fld s (Reg.drvAdcRing 7) 3 0 * 64 = 0) := by
  unfold AllowedWrite
  decide +kernel

theorem test_witness_outputs :
    let st := Reg.drvDoutStat 7
    (let s := fieldOk id [(st, 0), (Reg.drvDoutCmd, 0x80), (Reg.drvDoutCfg 7, 0x10006)]
     AllowedWrite s sup Reg.drvDoutCtl 1 ∧ drvUp s = true ∧ doutOn s 7 = true ∧ forceCause s 7 = false ∧
     flag s (Reg.drvDoutCfg 7) 1 = true ∧ flag s (Reg.drvDoutCfg 7) 2 = true ∧ doutCommand s 7 = true ∧ flag s (Reg.drvDoutCfg 7) 16 = true ∧
     (doutOf s 7).pulseAt + 1000000 * fld s (Reg.drvDoutCfg 7) 31 24 ≤ now s) ∧
    (let s := { fieldOk (fun d => { d with dout := [(7, { Dout.reset with tripped := true })] })
       [(st, 0), (Reg.drvDoutCmd, 0x80), (Reg.drvDoutCfg 7, 0x6406)] with tb := 2 ^ 64 }
     flag s (Reg.drvDoutCfg 7) 2 = true ∧ doutCommand s 7 = true ∧ (doutOf s 7).tripped = true ∧
     (doutOf s 7).triedAt + 1000000 * fld s (Reg.drvDoutCfg 7) 15 8 ≤ now s) ∧
    (doutOn up 7 = false ∧ forceCause up 7 = true) := by
  unfold AllowedWrite
  decide +kernel

/-- Twin pair 3 with its FIFOs, enabled or not. -/
def twin (en : Word) (a b : List (Word × Nat)) : State := drv (fun d => { d with twins := [(3, ⟨a, b, 0⟩)] }) [(Reg.drvTwinCfg 3, en)]

theorem test_witness_twins :
    (let s := { twin 1 [(5, 1)] [] with tb := 2 ^ 64 }
     AllowedWrite s sup (Reg.drvTwinSuba 3) 5 ∧ AllowedWrite s sup (Reg.drvTwinSubb 3) 5 ∧ flag s (Reg.drvTwinCfg 3) 0 = true ∧
     flag s (Reg.drvTwinStat 3) 31 = false ∧ (twinOf s 3).fifoB = [] ∧ (twinOf s 3).fifoA ≠ [] ∧ (twinOf s 3).fifoA.length < 8 ∧
     (twinOf s 3).since + (reg s (Reg.drvTwinSkew 3)).toNat ≤ now s ∧ flag s Reg.drvLock 0 = false ∧
     AllowedWrite s sup (Reg.drvTwinCfg 3) (putBit (reg s (Reg.drvTwinCfg 3)) 0 false)) ∧
    (let s := { twin 1 [] [(5, 1)] with tb := 2 ^ 64 }
     AllowedWrite s sup (Reg.drvTwinSuba 3) 6 ∧ (twinOf s 3).fifoA = [] ∧ (twinOf s 3).fifoB = [(5, 1)] ∧
     (twinOf s 3).since + (reg s (Reg.drvTwinSkew 3)).toNat ≤ now s) ∧
    (8 ≤ (twinOf (twin 1 (List.replicate 8 (5, 1)) []) 3).fifoA.length ∧ flag (twin 0 [] []) (Reg.drvTwinCfg 3) 0 = false) := by
  unfold AllowedWrite
  decide +kernel

/-- Watchdog 7 of the supervisor, running, at a time. -/
def dog (w : Wdog) (t : Nat) (l : List (Nat × Word)) : State :=
  { drv (fun d => { d with wdogs := [(7, w)] }) ([(Reg.drvWdCfg 7, 0x3021)] ++ l) with tb := t * 2 ^ 32 }

theorem test_witness_watchdogs_and_estop :
    let kick (s : State) (v : Word) := AllowedWrite s sup (Reg.drvWdKick 7) v ∧ originNode sup = fld s (Reg.drvWdCfg 7) 15 4 ∧
      (wdogOf s 7).running = true
    let open5 := [(Reg.drvWdOpen 7, (5 : Word))]
    let late (s : State) := (wdogOf s 7).lastKick + (reg s (Reg.drvWdPeriod 7)).toNat < now s
    (AllowedWrite up sup (Reg.drvWdCfg 7) (reg up (Reg.drvWdCfg 7) ||| 1) ∧ flag up (Reg.drvWdCfg 7) 0 = false) ∧
    (let s := dog ⟨0, true, true⟩ 10000000 []
     kick s 0 ∧ ¬late s ∧ bits (0 : Word) 31 16 = fld s (Reg.drvWdCfg 7) 31 16 ∧ bits (0 : Word) 15 0 = fld s (Reg.drvWdStat 7) 15 0 ∧
     bits (1 : Word) 15 0 ≠ fld s (Reg.drvWdStat 7) 15 0 ∧ (wdogOf s 7).first = true ∧ drvUp s = true ∧
     (wdogOf s 7).lastKick + (reg s (Reg.drvWdPeriod 7)).toNat ≤ now s) ∧
    (kick (dog ⟨0, true, true⟩ 10000001 []) 0 ∧ late (dog ⟨0, true, true⟩ 10000001 [])) ∧
    (let s := dog ⟨0, false, true⟩ 4 open5
     kick s 0 ∧ ¬late s ∧ (wdogOf s 7).first = false ∧ now s < (wdogOf s 7).lastKick + (reg s (Reg.drvWdOpen 7)).toNat) ∧
    (originNode .host ≠ fld (dog ⟨0, true, true⟩ 1 []) (Reg.drvWdCfg 7) 15 4) ∧
    (let s := drv id [(Reg.drvEstopCfg, 0x80000201)]
     let ok := fieldOk id [(Reg.drvEstopCfg, 0x80000201)]
     estopRuns s = true ∧ estopDemanded (stopSample s false false) = true ∧ s.drv.stopSeen = false ∧
     estopRuns ok = true ∧ estopDemanded (stopSample ok true true) = false) ∧
    (let s := { drv (fun d => { d with stopLevels := 1, stopApart := some 0, stopSeen := true })
       [(Reg.drvEstopCfg, 0x80000221), (Reg.drvEstopStat, 2)] with tb := 2 ^ 64 }
     estopRuns s = true ∧ s.drv.stopApart = some 0 ∧ channelsApart s = true ∧ flag s Reg.drvEstopStat 2 = false ∧
     0 + 1000000 * fld s Reg.drvEstopCfg 31 24 ≤ now s ∧ s.drv.stopSeen = true ∧ flag s Reg.drvEstopStat 1 = true) := by
  unfold AllowedWrite
  decide +kernel

theorem test_witness_core_resets :
    let w (op : Nat) : Word := BitVec.ofNat 32 (767 % 1024 + 4096 * op + 65536)
    let ready := withRegs up [(Reg.cmpReadyLo, 0xFFFFFFFF), (Reg.cmpReadyHi, 0xFFFF)]
    let hdr : State := { ready with mem := [⟨localBase 767, 4⟩, ⟨localBase 767 + 2, 0x79⟩, ⟨localBase 767 + 3, 0xBE⟩] }
    (AllowedWrite up .host Reg.cmpCoreRst (w 0) ∧ AllowedWrite up .host Reg.cmpCoreRst (w 2) ∧ coreGuarded up 767 = false ∧
      up.staged = [] ∧ flag up Reg.cmpCoreRst 17 = false ∧ (core up 767).resetJob = none) ∧
    (AllowedWrite hdr .host Reg.cmpCoreRst (w 1) ∧ mayRelease hdr 767 = true ∧ headerOk hdr 767 = true ∧ hdr.latent = [] ∧
      isPoisoned hdr (localBase 767) 32 = false ∧ mayRelease up 767 = false) ∧
    (AllowedWrite up sup Reg.cmpRgnRstLo 0x80000000 ∧ guardedOrigin sup = true ∧ blockOf 511 = 31 ∧ (core up 511).resetJob = none) ∧
    (let s := { up with cores := [(767, { Core.reset with resetJob := some ⟨true, false, false⟩ })] }
     (core s 767).resetJob = some ⟨true, false, false⟩ ∧ storesDone s 767 = true ∧ tileWritesDone s 767 = true ∧ partUp s = true) := by
  unfold AllowedWrite
  decide +kernel

theorem test_witness_block_power :
    let pw := Reg.cmpBlkPwr 47
    let s (v : Word) := withRegs up [(pw, v)]
    (AllowedWrite up .host pw 0 ∧ AllowedWrite up .host pw 3 ∧ blockIdle up 47 = true ∧ blockIdle go 0 = false) ∧
    (partUp up = true ∧ up.pkg.slumber = false ∧ flag (s 0x73) pw 6 = true ∧ blockState (s 0x73) 47 = 3 ∧ fld (s 0x73) pw 1 0 = 3) ∧
    (blockState (s 0x52) 47 = 1 ∧ fld (s 0x52) pw 1 0 = 2) ∧
    (blockState (s 0x41) 47 = 0 ∧ fld (s 0x41) pw 1 0 = 1 ∧ fld (s 0x42) pw 1 0 = 2 ∧ fld (s 0x43) pw 1 0 = 3) := by
  unfold AllowedWrite
  decide +kernel

theorem test_witness_package_resets :
    let p (f : Package → Package) : State := { up with pkg := f up.pkg }
    (State.reset.pkg.pwrok = false ∧ State.reset.pkg.perst = true ∧ State.reset.pkg.hasDrover = true ∧ State.reset.drv.por = true) ∧
    (drvUp up = true ∧ (core up Config.drvHk).run ≠ .running ∧
      (core { up with cores := [(1025, { Core.reset with run := .running })] } Config.drvHk).run = .running) ∧
    (∀ e ∈ up.cores, e.2.lane = []) ∧ ((p fun p => { p with perst := false }).pkg.perst = false ∧ up.pkg.pwrok = true) ∧
    (partUp up = true ∧ up.pkg.hostUp = true ∧ up.pkg.slumber = false ∧ up.pkg.d3hot = false ∧ flag up Reg.sraPwr 0 = false) ∧
    (flag (withRegs up [(Reg.sraPwr, 1)]) Reg.sraPwr 0 = true ∧ (∀ c, c < 64 → ctxState up c = 0) ∧
      ctxState (withRegs (ctx 1 []) [(Reg.sraPwr, 1)]) 5 ≠ 0) ∧
    (partUp (p fun p => { p with d3hot := true, slumber := true }) = true) := by
  decide +kernel

/-! ### Results the manual works out, and steps that run -/

/-- What a step leaves, where it goes on. -/
def after (o : Host.Outcome State Fault Refusal) (f : State → Bool) : Bool :=
  match o with
  | .next t => f t
  | _ => false

/-- The generator's step in the scalar example of R80. -/
theorem test_random_step : nextRandom 0x04080601 = 0x9DCCA8C5 := by decide +kernel

/-- The accumulator of the scalar example narrowed by 15 bits under the first three modes (R79). -/
theorem test_rounding : roundShift (-40288256) 15 0 0 = -1230 ∧ roundShift (-40288256) 15 1 0 = -1229 ∧
    roundShift (-40288256) 15 2 0 = -1230 := by decide +kernel

/-- Row 100,000 of the cache example lies in stack 5 at 0x4_0018_6000 (R237). -/
theorem test_interleave : (unitOf up 0x2000C35000).1 = 5 ∧ (unitOf up 0x2000C35000).2 = 0x400186000 := by decide +kernel

/-- The 2:1 block of the codec example: its header and its first bytes, and the raw header for the tighter bound (R302). -/
theorem test_codec_block :
    let x : List Int := [12000, -5000, 300, -8190] ++ List.replicate 60 0
    let bs : List Byte := x.flatMap fun v => leBytes 2 (BitVec.ofInt 16 v).toNat
    (encodeBlock 1 128 bs).header = 0xFC81 ∧ (encodeBlock 1 128 bs).bytes.take 4 = [0x2F, 0x76, 0x00, 0x0C] ∧
    (encodeBlock 1 64 bs).header = 0x0005 ∧ (encodeBlock 2 128 bs).header = 0x0006 := by
  decide +kernel

theorem test_add_wraps :
    after (step { run (tg 0xFFFFFFFF 1 7) with pending := [.add h0 3 1 2] }) (fun t =>
      decide (greg t h0 3 = 0) && decide ((thr t h0).pc = 4) && decide (t.pending = [])) = true := by
  decide +kernel

/-- The one product of MULQ.H that saturates: −1 times −1 (R78). -/
theorem test_mulq_saturates :
    after (exec (.mulqH h0 3 1 2) (run (tg 0x8000 0x8000 0))) (fun t =>
      decide (greg t h0 3 = 0x7FFF) && bit (thrCsr t h0 0x001) 2) = true := by
  decide +kernel

theorem test_store_then_load :
    after (exec (.stH h0 2 1 2) (run (tg 0x100 0xABCD8001 0))) (fun s =>
      after (exec (.ldH h0 3 1 false 2) s) fun t => decide (greg t h0 3 = 0xFFFF8001)) = true := by
  decide +kernel

theorem test_trap_and_return :
    after (exec (.trap h0 5) (run (tg 0 0 0) fun k => { k with csr := [(0x401, 0x20000)] })) (fun s =>
      decide ((thr s h0).pc = 0x20040) && after (exec (.eret h0) s) fun t => decide ((thr t h0).pc = 4)) = true := by
  decide +kernel

theorem test_idle_step_ticks : after (step up) (fun t => decide (now up < now t) && decide (t.pending = [])) = true := by
  decide +kernel

/-- From reset: power good, then an FLR is not yet possible, and the host reaches the part once its port's link is up. -/
theorem test_power_up :
    after (exec .pwrokHigh State.reset) (fun s => partUp s && !hostReaches s && blockReady s 47 &&
      after (exec .hostPortLinkUp s) hostReaches) = true := by
  decide +kernel

theorem test_witness_whole_machine :
    (MemoryCanonical State.reset ∧ ∃ t, step State.reset = .next t) ∧ (Instr.add h0 1 2 3).wf = true ∧
    encode (.add h0 1 2 3) = some 0x00443001 ∧ decode h0 0x00443001 = some (.add h0 1 2 3) := by
  refine ⟨⟨by unfold MemoryCanonical; decide, _, rfl⟩, ?_⟩
  decide +kernel

end Sys2Proof.Machine.Tests
end

section
/-! PROOFS. Register accesses: what a written bit becomes under each access code, how a bad access is recorded, and which
command reaches which register operation. -/

namespace Sys2Proof.Machine

/-! ### Bits of words -/

theorem bit_and (a b : Word) (i : Nat) : bit (a &&& b) i = (bit a i && bit b i) := BitVec.getLsbD_and

theorem bit_or (a b : Word) (i : Nat) : bit (a ||| b) i = (bit a i || bit b i) := BitVec.getLsbD_or

theorem bit_not (a : Word) {i : Nat} (h : i < 32) : bit (~~~a) i = !bit a i := by
  have : (~~~a).getLsbD i = !a.getLsbD i := by simp [h]
  exact this

theorem bits_or (a b : Word) (hi lo : Nat) : bits (a ||| b) hi lo = bits a hi lo ||| bits b hi lo := by
  simp [bits, Nat.shiftRight_or_distrib, Nat.or_mod_two_pow]

theorem bits_and (a b : Word) (hi lo : Nat) : bits (a &&& b) hi lo = bits a hi lo &&& bits b hi lo := by
  simp [bits, Nat.shiftRight_and_distrib, Nat.and_mod_two_pow]

theorem and_not_or_mask (w m : Word) : (w &&& ~~~m) ||| m = w ||| m := by
  ext i
  simp only [BitVec.getElem_or, BitVec.getElem_and, BitVec.getElem_not]
  cases m[i] <;> simp

theorem putBit_thirty_true (w : Word) : putBit w 30 true = w ||| 0x40000000 :=
  and_not_or_mask w 0x40000000

/-! ### The access codes (R12, R14, R15) -/

/-- Where no limited field would take a reserved value, none is masked out of a write. -/
theorem limits_keep_mask {v : Word} {lims : List FieldLimit} (h : (lims.all fun l => limitOk l v) = true) (m : Word) :
    lims.foldl (fun m l => if limitOk l v then m else m &&& ~~~fieldMask l.hi l.lo) m = m := by
  induction lims with
  | nil => rfl
  | cons l ls ih =>
    obtain ⟨hl, hls⟩ := (Bool.and_eq_true _ _).mp h
    simp [hl, ih hls]

/-- Each bit of a written word follows its access code. -/
theorem bit_rowWrite (r : RegRow) (locked : Bool) (old v : Word) {k : Nat}
    (hl : (r.lims.all fun l => limitOk l v) = true) (hk : k < 32) :
    bit (rowWrite r locked old v) k =
      (((if bit r.rw k || (bit r.rwl k && !locked) then bit v k else bit old k) && !(bit v k && bit r.w1c k)) ||
        (bit v k && bit r.locks k)) := by
  have hw : bit (if locked then r.rw else r.rw ||| r.rwl) k = (bit r.rw k || (bit r.rwl k && !locked)) := by
    cases locked <;> simp [bit_or]
  simp only [rowWrite, limits_keep_mask hl, bit_or, bit_and, bit_not _ hk, hw]
  cases (bit r.rw k || (bit r.rwl k && !locked)) <;> simp

/-- With no upper half waiting, a write of a word that is no upper half stores its fields. -/
theorem plainWrite_unstaged {s : State} {off : Nat} {r : RegRow} (v : Word) (hr : regRow off = some r)
    (hu : r.upper = false) (hs : s.staged = []) :
    plainWrite s off v = setReg s off (rowWrite r (lockSet s r off) (reg s off) v) := by
  simp [plainWrite, storeFields, hr, hu, hs]

/-- A register set to a value is the only change. -/
theorem setReg_onlyRegs (s : State) (off : Nat) (v : Word) : OnlyRegs s (setReg s off v) [off] := by
  refine ⟨rfl, fun o ho => ?_⟩
  rw [reg_setReg_other s v (by simpa using ho)]

/-! ### What a write meets before the register's effect (R45, R206) -/

theorem writeAt_allowed {s : State} {o : Origin} {off : Nat} {v : Word} (h : AllowedWrite s o off v) (k : State × Nat) :
    writeAt s o off v k = k := by
  obtain ⟨hreach, hpres, hworld, hdrv⟩ := h
  have hw : (!guardedOrigin o && worldDenies s off v) = false := by
    rcases hworld with hg | hd
    · simp [hg]
    · simp [hd]
  simp [writeAt, hreach, hpres, hw, hdrv]

/-- The worlds refuse a Plain write: nothing changes. -/
theorem writeAt_denied {s : State} {o : Origin} {off : Nat} {v : Word} (hp : presence s off = .present)
    (hg : guardedOrigin o = false) (hd : worldDenies s off v = true) (k : State × Nat) : (writeAt s o off v k).1 = s := by
  unfold writeAt
  split
  · rfl
  · simp [hp, hg, hd]

/-- The KIND of SRA_BADACC for an offset that leads to no register; none where it leads to one (R45). -/
def missingKind : Presence → Option Nat
  | .absent => some 0
  | .reserved => some 2
  | .present => none

theorem missingKind_eq_some {p : Presence} {kind : Nat} (h : (p = .absent ∧ kind = 0) ∨ (p = .reserved ∧ kind = 2)) :
    missingKind p = some kind := by
  rcases h with ⟨rfl, rfl⟩ | ⟨rfl, rfl⟩ <;> rfl

theorem writeAt_missing {s : State} {off kind : Nat} {v : Word} (hr : reaches s .host off = true)
    (hk : missingKind (presence s off) = some kind) (k : State × Nat) :
    (writeAt s .host off v k).1 = recordBadAccess s off kind := by
  cases hp : presence s off with
  | absent =>
    obtain rfl : 0 = kind := by simpa [hp, missingKind] using hk
    simp [writeAt, hr, hp]
  | reserved =>
    obtain rfl : 2 = kind := by simpa [hp, missingKind] using hk
    simp [writeAt, hr, hp]
  | present => simp [hp, missingKind] at hk

/-! ### The record of a bad access (R45) -/

/-- What SRA_BADACC of `t` says of a bad access at `off` in `s`: the first is kept, a further one sets OVF. -/
def BadAccessRecorded (s t : State) (off kind : Nat) : Prop :=
  if flag s Reg.sraBadacc 31 then reg t Reg.sraBadacc = reg s Reg.sraBadacc ||| 0x40000000
  else fld t Reg.sraBadacc 25 0 = off ∧ fld t Reg.sraBadacc 27 26 = kind ∧ flag t Reg.sraBadacc 31 = true

/-- Recording a bad access writes SRA_BADACC and nothing else. -/
theorem recordBadAccess_setReg (s : State) (off kind : Nat) :
    recordBadAccess s off kind = setReg s Reg.sraBadacc (reg (recordBadAccess s off kind) Reg.sraBadacc) := by
  unfold recordBadAccess
  split <;> simp [setFlag]

theorem recordBadAccess_onlyRegs (s : State) (off kind : Nat) :
    OnlyRegs s (recordBadAccess s off kind) [Reg.sraBadacc] := by
  rw [recordBadAccess_setReg]
  exact setReg_onlyRegs s _ _

theorem recordBadAccess_sameMemory (s : State) (off kind : Nat) : SameMemory s (recordBadAccess s off kind) := by
  rw [recordBadAccess_setReg]
  exact fun _ => rfl

theorem recordBadAccess_barData (s : State) (off kind : Nat) : (recordBadAccess s off kind).barData = s.barData := by
  rw [recordBadAccess_setReg, setReg_barData]

/-- Where an offset leads does not depend on the record. -/
theorem presence_recordBadAccess (s : State) (off kind x : Nat) :
    presence (recordBadAccess s off kind) x = presence s x := by
  rw [recordBadAccess_setReg]
  rfl

/-- The word of a first bad access holds its offset, its KIND and VALID, whatever OVF was. -/
theorem badAccess_word_fields {off kind : Nat} (old : Word) (ho : off < 0x4000000) (hk : kind < 4) :
    let w : Word := BitVec.ofNat 32 (off % 2 ^ 26 + 2 ^ 26 * kind + 2 ^ 31) ||| (old &&& 0x40000000)
    bits w 25 0 = off ∧ bits w 27 26 = kind ∧ bit w 31 = true := by
  intro w
  have hn : (BitVec.ofNat 32 (off % 2 ^ 26 + 2 ^ 26 * kind + 2 ^ 31)).toNat = off + 2 ^ 26 * kind + 2 ^ 31 := by
    rw [BitVec.toNat_ofNat]
    omega
  have hovf : ∀ hi lo, bits (0x40000000 : Word) hi lo = 0 →
      bits w hi lo = (off + 2 ^ 26 * kind + 2 ^ 31) >>> lo % 2 ^ (hi + 1 - lo) := by
    intro hi lo h0
    simp only [w, bits_or, bits_and, h0, Nat.and_zero, Nat.or_zero]
    rw [bits, hn]
  have hv : bit (BitVec.ofNat 32 (off % 2 ^ 26 + 2 ^ 26 * kind + 2 ^ 31)) 31 = true := by
    rw [bit, hn, Nat.testBit_eq_decide_div_mod_eq]
    exact decide_eq_true (by omega)
  refine ⟨?_, ?_, ?_⟩
  · rw [hovf 25 0 (by decide), Nat.shiftRight_eq_div_pow]
    omega
  · rw [hovf 27 26 (by decide), Nat.shiftRight_eq_div_pow]
    omega
  · rw [bit_or, hv, Bool.true_or]

theorem recordBadAccess_records (s : State) {off kind : Nat} (ho : off < 0x4000000) (hk : kind < 4) :
    BadAccessRecorded s (recordBadAccess s off kind) off kind := by
  unfold BadAccessRecorded recordBadAccess
  split
  · rw [reg_setFlag_same, putBit_thirty_true]
  · simp only [fld, flag, reg_setReg_same]
    exact badAccess_word_fields _ ho hk

theorem badBarAccess_eq (s : State) (off : Nat) (w : Bool) :
    badBarAccess s off w =
      { recordBadAccess s off 1 with barData := if w then s.barData else 0 } := by
  cases w
  · rfl
  · simp [badBarAccess, ← recordBadAccess_barData s off 1]

/-- A host read that finds no register returns 0 and is recorded. -/
theorem barRead_missing {s : State} {off kind : Nat} (ht : off ≠ Reg.cmpTimeLo)
    (hk : missingKind (presence s off) = some kind) :
    barRead s off = { recordBadAccess s off kind with barData := 0 } := by
  have hread : ∀ kind, presence s off ≠ .present →
      regRead (recordBadAccess s off kind) off = (recordBadAccess s off kind, 0) := by
    intro kind hp
    rw [regRead, if_neg ht, if_pos (by rwa [presence_recordBadAccess])]
  cases hp : presence s off with
  | absent =>
    obtain rfl : 0 = kind := by simpa [hp, missingKind] using hk
    simp [barRead, hp, hread 0 (by simp [hp])]
  | reserved =>
    obtain rfl : 2 = kind := by simpa [hp, missingKind] using hk
    simp [barRead, hp, hread 2 (by simp [hp])]
  | present => simp [hp, missingKind] at hk

/-- A register of a core's block other than CMP_LP_STAT reads as it is stored. -/
theorem barRead_coreBlock {s : State} {off : Nat} (hp : presence s off = .present) (h1 : 0x1400000 ≤ off)
    (h2 : off < 0x2000000) (hx : off % 0x40 ≠ 0x20) : barRead s off = { s with barData := reg s off } := by
  have hval : regValue s off = reg s off := by
    rw [regValue, if_neg (by simp [hp]), if_neg (by omega), if_pos ⟨h1, h2⟩, coreBlockValue, if_neg hx]
  have hread : regRead s off = (s, reg s off) := by
    rw [regRead, if_neg (by simp only [Reg.cmpTimeLo]; omega), if_neg (by simp [hp]),
      if_neg (by simp only [Reg.drvDinEvt0]; omega), if_neg (by omega), hval]
  simp [barRead, hp, hread]

/-! ### The accesses of REGISTER_WRITE -/

theorem exec_write32 (s : State) (o : Origin) {off : Nat} (v : Word) (h4 : off % 4 = 0) (ho : off < 0x4000000) :
    exec (.registerWrite o off (.write32 v)) s = .next (writeAt s o off v (regEffect s o off v)).1 := by
  show execRegisterWrite o off (.write32 v) s = _
  simp [execRegisterWrite, Nat.not_le.mpr ho, h4, regWrite]

theorem exec_read32 {s : State} {off : Nat} (h4 : off % 4 = 0) (ho : off < 0x4000000) (hr : reaches s .host off = true) :
    exec (.registerWrite .host off .read32) s = .next (barRead s off) := by
  show execRegisterWrite .host off .read32 s = _
  simp [execRegisterWrite, Nat.not_le.mpr ho, h4, when, hr]

theorem exec_badSize {s : State} {off : Nat} (w : Bool) (ho : off < 0x4000000) (hr : hostReaches s = true) :
    exec (.registerWrite .host off (.badSize w)) s =
      .next { recordBadAccess s off 1 with barData := if w then s.barData else 0 } := by
  show execRegisterWrite .host off (.badSize w) s = _
  rw [← badBarAccess_eq]
  simp [execRegisterWrite, Nat.not_le.mpr ho, when, hr]

/-- A host write that finds no register is recorded. -/
theorem exec_write32_missing {s : State} {off kind : Nat} (v : Word) (ho : off < 0x4000000) (h4 : off % 4 = 0)
    (hr : reaches s .host off = true) (hk : missingKind (presence s off) = some kind) :
    exec (.registerWrite .host off (.write32 v)) s = .next (recordBadAccess s off kind) := by
  rw [exec_write32 s .host v h4 ho, writeAt_missing hr hk]

theorem exec_read32_missing {s : State} {off kind : Nat} (ho : off < 0x4000000) (h4 : off % 4 = 0)
    (hr : reaches s .host off = true) (ht : off ≠ Reg.cmpTimeLo) (hk : missingKind (presence s off) = some kind) :
    exec (.registerWrite .host off .read32) s = .next { recordBadAccess s off kind with barData := 0 } := by
  rw [exec_read32 h4 ho hr, barRead_missing ht hk]

theorem hostReaches_of_reaches {s : State} {off : Nat} (h : reaches s .host off = true) : hostReaches s = true :=
  ((Bool.and_eq_true _ _).mp h).1

/-! ### Registers whose write does nothing but store its fields -/

/-- A register that lies at a word of BAR0, is no upper half, and whose write stores its fields and does nothing else. -/
structure StoresFields (x : Nat) : Prop where
  aligned : x % 4 = 0
  inBar : x < 0x4000000
  effect : ∀ s o v, regEffect s o x v = (plainWrite s x v, 0)
  lower : ∀ r, regRow x = some r → r.upper = false

theorem regRow_of_core {off : Nat} (h1 : 0x1400000 ≤ off) (h2 : off < 0x2000000) :
    regRow off = regRows_core.find? fun r => r.holds off := by
  simp only [regRow]
  rw [if_neg (by omega), if_neg (by omega), if_pos h2]

theorem regRow_of_global {off : Nat} (h1 : 0x1000000 ≤ off) (h2 : off < 0x1400000) :
    regRow off = regRows_global.find? fun r => r.holds off := by
  simp only [regRow]
  rw [if_neg (by omega), if_pos h2]

/-- A table without upper halves finds none. -/
theorem find_not_upper {rows : List RegRow} (hl : ∀ r ∈ rows, r.upper = false) {off : Nat} {r : RegRow}
    (h : (rows.find? fun r => r.holds off) = some r) : r.upper = false :=
  hl r (List.mem_of_find?_eq_some h)

/-- The core registers but CMP_WB_CTL, CMP_IC_CTL, CMP_TDMA_CFG and CMP_CR_OUTBOX. -/
theorem coreRegister_storesFields {c y : Nat} (hc : c < 1024) (hy : y < 0x40) (h4 : y % 4 = 0)
    (hn : y ≠ 0 ∧ y ≠ 0x18 ∧ y ≠ 0x1C ∧ y ≠ 0x34) : StoresFields (0x1400000 + y + 0x40 * c) where
  aligned := by omega
  inBar := by omega
  effect s o v := by
    have hmod : (0x1400000 + y + 0x40 * c) % 0x40 = y := by omega
    rw [regEffect, if_neg (by omega), if_neg (by omega), if_pos (by omega)]
    simp [coreBlockWrite, hmod, hn]
  lower r hr := by
    have hl : ∀ r ∈ regRows_core, r.upper = false := by decide +kernel
    rw [regRow_of_core (by omega) (by omega)] at hr
    exact find_not_upper hl hr

/-- The words of a memory controller that hold its thermal thresholds, fill ways and preload address. -/
theorem unitRegister_storesFields {u y : Nat} (hu : u < 8) (hy : y ∈ [0x4, 0x8, 0x58, 0x60]) :
    StoresFields (0x2000000 + y + 0x100000 * u) := by
  have hlow : ∀ u < 8, ∀ y ∈ [0x4, 0x8, 0x58, 0x60],
      ((regRow (0x2000000 + y + 0x100000 * u)).all fun r => !r.upper) = true := by decide +kernel
  have hy4 : y = 0x4 ∨ y = 0x8 ∨ y = 0x58 ∨ y = 0x60 := by simpa using hy
  refine ⟨by omega, by omega, fun s o v => ?_, fun r hr => ?_⟩
  · have hmod : (0x2000000 + y + 0x100000 * u) % 0x100000 = y := by omega
    rw [regEffect, if_neg (by omega), if_neg (by omega), if_neg (by omega), if_pos (by omega)]
    simp only [unitWrite, hmod]
    repeat rw [if_neg (by omega)]
  · simpa [hr] using hlow u hu y hy

/-- The deadline of a convoy. -/
theorem cmpCvDl_storesFields {n : Nat} (hn : n < 16) : StoresFields (Reg.cmpCvDl n) where
  aligned := by simp only [Reg.cmpCvDl]; omega
  inBar := by simp only [Reg.cmpCvDl]; omega
  effect s o v := by
    have h1 : 0x1080008 ≤ Reg.cmpCvDl n := by simp only [Reg.cmpCvDl]; omega
    have h2 : Reg.cmpCvDl n < 0x1080108 := by simp only [Reg.cmpCvDl]; omega
    have h3 : Reg.cmpCvDl n % 0x10 = 8 := by simp only [Reg.cmpCvDl]; omega
    generalize Reg.cmpCvDl n = x at h1 h2 h3
    rw [regEffect, if_neg (by omega), if_pos (by omega)]
    simp only [globalWrite, Reg.cmpTimeRate, Reg.cmpMemStart, Reg.cmpCoreRst, Reg.cmpRgnRstLo, Reg.cmpRgnRstHi,
      Reg.cmpLaneCommit]
    repeat rw [if_neg (by omega)]
  lower r hr := by
    have hl : ∀ r ∈ regRows_global, r.upper = false := by decide +kernel
    rw [regRow_of_global (by simp only [Reg.cmpCvDl]; omega) (by simp only [Reg.cmpCvDl]; omega)] at hr
    exact find_not_upper hl hr

/-- The registers the obligation names: thermal thresholds, fill ways, preload address, waybill base and deadline, lane-port and
courier deadlines, convoy deadline. -/
theorem listed_storesFields {u c n x : Nat} (hu : u < 8) (hc : c < 1024) (hn : n < 16)
    (hx : x ∈ [Reg.hbmTherm u, Reg.hbmGearthr u, Reg.hbmBcFill u, Reg.hbmBcPreAddr u, Reg.cmpWbBase c, Reg.cmpWbDl c,
      Reg.cmpLpDl c, Reg.cmpCrDl c, Reg.cmpCvDl n]) : StoresFields x := by
  simp only [List.mem_cons, List.not_mem_nil, or_false] at hx
  rcases hx with rfl | rfl | rfl | rfl | rfl | rfl | rfl | rfl | rfl
  · exact unitRegister_storesFields (y := 0x4) hu (by decide)
  · exact unitRegister_storesFields (y := 0x8) hu (by decide)
  · exact unitRegister_storesFields (y := 0x58) hu (by decide)
  · exact unitRegister_storesFields (y := 0x60) hu (by decide)
  · exact coreRegister_storesFields (y := 0x4) hc (by decide) (by decide) (by decide)
  · exact coreRegister_storesFields (y := 0xC) hc (by decide) (by decide) (by decide)
  · exact coreRegister_storesFields (y := 0x24) hc (by decide) (by decide) (by decide)
  · exact coreRegister_storesFields (y := 0x38) hc (by decide) (by decide) (by decide)
  · exact cmpCvDl_storesFields hn

/-- An allowed write of such a register changes that register alone, by its access codes. -/
theorem StoresFields.exec_write {x : Nat} (hx : StoresFields x) {s : State} {o : Origin} {v : Word} {r : RegRow}
    (hr : regRow x = some r) (ha : AllowedWrite s o x v) (hs : s.staged = []) :
    exec (.registerWrite o x (.write32 v)) s = .next (setReg s x (rowWrite r (lockSet s r x) (reg s x) v)) := by
  rw [exec_write32 s o v hx.aligned hx.inBar, writeAt_allowed ha, hx.effect,
    plainWrite_unstaged v hr (hx.lower r hr) hs]

/-! ### Time and the TAP (R30, R48) -/

theorem exec_cmpTimeLoRead {s : State} (h : hostReaches s = true) :
    exec .cmpTimeLoRead s = .next { latchTime s with barData := BitVec.ofNat 32 (now s) } := by
  show execCmpTimeLoRead s = _
  simp [execCmpTimeLoRead, when, h]

/-- An operation of the TAP shifts, unless it is Guarded debug under the lock. -/
theorem exec_tapAccess {s : State} {op : TapOp} (h : op = .debugGuarded → flag s Reg.cmpDbgLock 0 = false) :
    exec (.tapAccess op) s = .next (tapShift s) := by
  cases op with
  | boundaryScan => rfl
  | debugPlain => rfl
  | debugGuarded =>
    show execTapAccess .debugGuarded s = _
    simp [execTapAccess, when, h rfl]

theorem exec_tapAccess_locked {s : State} (h : flag s Reg.cmpDbgLock 0 = true) :
    exec (.tapAccess .debugGuarded) s = .next s := by
  show execTapAccess .debugGuarded s = _
  simp [execTapAccess, when, h]

/-- Settles O33: each kind of access by the lemma that says what its command comes to. -/
theorem registerAccessesObeyTheirCodes : Obligations.RegisterAccessesObeyTheirCodes := by
  unfold Obligations.RegisterAccessesObeyTheirCodes
  intro o u c n off v s
  refine ⟨?storing, ?denied, ?bar, ?time, ?tap, exec_tapAccess_locked⟩
  case storing =>
    intro x r hx hu hc hn hr ha hs hl
    refine ⟨_, (listed_storesFields hu hc hn hx).exec_write hr ha hs, setReg_onlyRegs s x _, fun k hk => ?_⟩
    rw [reg_setReg_same, bit_rowWrite r _ _ _ hl hk]
  case denied =>
    intro h4 ho hp hg hd
    rw [exec_write32 s o v h4 ho, writeAt_denied hp hg hd]
  case bar =>
    intro recorded ho hr h4 ht
    refine ⟨fun kind hk => ?_, fun w => ?_, fun hp h1 h2 hx => ?_⟩
    · have hkind := missingKind_eq_some hk
      have hrec : BadAccessRecorded s (recordBadAccess s off kind) off kind := recordBadAccess_records s ho (by omega)
      exact ⟨⟨_, exec_write32_missing v ho h4 hr hkind, recordBadAccess_onlyRegs s off kind, hrec⟩,
        _, exec_read32_missing ho h4 hr ht hkind, (recordBadAccess_onlyRegs s off kind).2, hrec, rfl,
        recordBadAccess_sameMemory s off kind⟩
    · have hrec : BadAccessRecorded s (recordBadAccess s off 1) off 1 := recordBadAccess_records s ho (by decide)
      exact ⟨_, exec_badSize w ho (hostReaches_of_reaches hr), (recordBadAccess_onlyRegs s off 1).2, hrec, rfl,
        recordBadAccess_sameMemory s off 1⟩
    · exact ⟨_, exec_read32 h4 ho hr, barRead_coreBlock hp h1 h2 hx⟩
  case time =>
    intro h
    refine ⟨_, exec_cmpTimeLoRead h, rfl, reg_setReg_same s _ _, (setReg_onlyRegs s Reg.cmpTimeHi _).2, fun _ => rfl,
      fun _ => rfl⟩
  case tap =>
    intro op h
    exact ⟨_, exec_tapAccess h, rfl⟩

end Sys2Proof.Machine
end

section
/-! PROOFS. Words, one bit at a time; what a commit leaves; updates of cores that leave every thread alone. -/

namespace Sys2Proof.Machine

/-! ### Bits and fields of words -/

theorem bit_oneHot {i : Nat} (b : Bool) (hi : i < 32) (j : Nat) :
    bit (BitVec.ofNat 32 (b.toNat <<< i)) j = (decide (j = i) && b) := by
  simp only [bit, BitVec.toNat_ofNat, Nat.testBit_mod_two_pow, Nat.testBit_shiftLeft]
  rcases Nat.lt_trichotomy j i with h | rfl | h
  · simp [Nat.not_le.mpr h, Nat.ne_of_lt h]
  · cases b <;> simp [hi]
  · have : b.toNat < 2 ^ (j - i) :=
      Nat.lt_of_lt_of_le b.toNat_lt (Nat.le_self_pow (Nat.sub_ne_zero_of_lt h) 2)
    simp [Nat.testBit_lt_two_pow this, Nat.ne_of_gt h]

/-- One bit of a word replaced: that bit reads as written, every other as before. -/
theorem bit_putBit (w : Word) {i : Nat} (b : Bool) (hi : i < 32) {j : Nat} (hj : j < 32) :
    bit (putBit w i b) j = if j = i then b else bit w j := by
  have hmask : ∀ j, bit (BitVec.ofNat 32 ((2 ^ (i + 1 - i) - 1) <<< i)) j = decide (j = i) := fun j => by
    simpa using bit_oneHot true hi j
  simp only [putBit, putBits, bit_or, bit_and, bit_not _ hj, hmask, bit_oneHot b hi]
  by_cases h : j = i <;> simp [h]

/-- A field is the bits it spans. -/
theorem bits_congr {a b : Word} {hi lo : Nat} (h : ∀ i, lo ≤ i → i ≤ hi → bit a i = bit b i) :
    bits a hi lo = bits b hi lo := by
  refine Nat.eq_of_testBit_eq fun i => ?_
  simp only [bits, Nat.testBit_mod_two_pow, Nat.testBit_shiftRight]
  by_cases hi' : i < hi + 1 - lo
  · have := h (lo + i) (by omega) (by omega)
    simpa [hi', bit] using this
  · simp [hi']

/-- A bit of a word after a write of the bits of `m`: written where it is RW and named (R12, R95). -/
theorem bit_rwBits (old rw m v : Word) {k : Nat} (hk : k < 32) :
    bit (rwBits old rw m v) k = if bit rw k && bit m k then bit v k else bit old k := by
  simp only [rwBits, bit_or, bit_and, bit_not _ hk]
  cases bit rw k <;> cases bit m k <;> simp

/-! ### What a commit leaves (R69, R162) -/

@[simp] theorem coreCsr_setCoreCsr_same (s : State) (c n : Nat) (v : Word) : coreCsr (setCoreCsr s c n v) c n = v := by
  simp [coreCsr, setCoreCsr]

theorem coreCsr_setCoreCsr_other (s : State) {c d n k : Nat} (v : Word) (h : d ≠ c ∨ k ≠ n) :
    coreCsr (setCoreCsr s c n v) d k = coreCsr s d k := by
  by_cases hd : d = c
  · subst hd
    have hk : k ≠ n := by simpa using h
    simp [coreCsr, setCoreCsr, hk]
  · simp [coreCsr, setCoreCsr, hd]

theorem coreCsr_countCore_same (s : State) (c n k : Nat) :
    coreCsr (countCore s c n k) c n = coreCsr s c n + BitVec.ofNat 32 k := coreCsr_setCoreCsr_same s c n _

theorem coreCsr_countCore_other (s : State) {c d n j : Nat} (k : Nat) (h : d ≠ c ∨ j ≠ n) :
    coreCsr (countCore s c n k) d j = coreCsr s d j := coreCsr_setCoreCsr_other s _ h

/-- A change of a core that leaves its CSRs alone changes no CSR. -/
theorem coreCsr_modCore (s : State) {c : Nat} {f : Core → Core} (hf : ∀ k, (f k).csr = k.csr) (d n : Nat) :
    coreCsr (modCore s c f) d n = coreCsr s d n := by
  by_cases hd : d = c
  · subst hd
    simp [coreCsr, hf]
  · simp [coreCsr, hd]

@[simp] theorem coreCsr_setThr (s : State) (h : Hart) (u : Thread) (d n : Nat) :
    coreCsr (setThr s h u) d n = coreCsr s d n :=
  coreCsr_modCore s (fun _ => by rfl) d n

@[simp] theorem coreCsr_modThr (s : State) (h : Hart) (f : Thread → Thread) (d n : Nat) :
    coreCsr (modThr s h f) d n = coreCsr s d n := coreCsr_setThr s h _ d n

/-- A change of a core that leaves its threads alone changes no thread. -/
theorem thr_modCore (s : State) {c : Nat} {f : Core → Core} (hf : ∀ k, (f k).threads = k.threads) (h : Hart) :
    thr (modCore s c f) h = thr s h := by
  by_cases hc : h.core = c
  · subst hc
    simp [thr, hf]
  · simp [thr, hc]

/-- The latency of a handler's entry is kept in INT_LAT_MAX alone. -/
theorem sget_latencyCsrs_other (e : Option (Nat × Nat)) (n : Nat) (m : Sparse Word) {k : Nat} (d : Word) (hk : k ≠ 0x11C) :
    sget (latencyCsrs e n m) k d = sget m k d := by
  cases e with
  | none => rfl
  | some e =>
    simp only [latencyCsrs]
    split
    · exact sget_sput_other m _ _ hk
    · rfl

theorem coreCsr_noteHandlerIssue_other (s : State) (h : Hart) {n : Nat} (hn : n ≠ 0x11C) :
    coreCsr (noteHandlerIssue s h) h.core n = coreCsr s h.core n := by
  simp only [noteHandlerIssue, coreCsr, core_modCore_same, sget_latencyCsrs_other _ _ _ _ hn]
  exact coreCsr_modThr s h _ h.core n

/-- Without a handler's entry to note, no CSR changes. -/
theorem coreCsr_noteHandlerIssue_none {s : State} {h : Hart} (hl : (thr s h).latFrom = none) (n : Nat) :
    coreCsr (noteHandlerIssue s h) h.core n = coreCsr s h.core n := by
  simp only [noteHandlerIssue, coreCsr, core_modCore_same, hl, latencyCsrs]
  exact coreCsr_modThr s h _ h.core n

/-- INT_LAT_MAX is the counter of no thread. -/
theorem issuedCsr_ne_latency (h : Hart) : issuedCsr h ≠ 0x11C := by
  have := h.tid.isLt
  simp only [issuedCsr]
  omega

theorem OnlyThread.trans {s t u : State} {h : Hart} (hst : OnlyThread s t h) (htu : OnlyThread t u h) : OnlyThread s u h := by
  obtain ⟨est, cst, jst, kst⟩ := hst
  obtain ⟨etu, ctu, jtu, ktu⟩ := htu
  refine ⟨by rw [etu, est], fun d hd => (ctu d hd).trans (cst d hd), fun j hc hj => (jtu j hc hj).trans (jst j hc hj), ?_⟩
  rw [ktu, kst]

theorem onlyThread_setThr (s : State) (h : Hart) (u : Thread) : OnlyThread s (setThr s h u) h :=
  ⟨rfl, fun _ hd => core_setThr_other s u hd, fun _ _ hj => thr_setThr_other s u hj, by simp [setThr]⟩

theorem onlyThread_modCsr (s : State) (h : Hart) (f : Sparse Word → Sparse Word) :
    OnlyThread s (modCore s h.core fun k => { k with csr := f k.csr }) h :=
  ⟨rfl, fun _ hd => core_modCore_other s _ hd, fun j _ _ => thr_modCore s (fun _ => by rfl) j, by simp⟩

theorem onlyThread_setCoreCsr (s : State) (h : Hart) (n : Nat) (v : Word) : OnlyThread s (setCoreCsr s h.core n v) h :=
  onlyThread_modCsr s h fun m => sput m n v

theorem onlyThread_noteHandlerIssue (s : State) (h : Hart) : OnlyThread s (noteHandlerIssue s h) h :=
  (onlyThread_setThr s h _).trans (onlyThread_modCsr _ h (latencyCsrs (thr s h).latFrom (coreCycle s h.core)))

/-- A commit changes its thread, counts itself, and touches nothing else but INT_LAT_MAX. -/
theorem retireTo_oneCommit (s : State) (h : Hart) (pc : Word) : OneCommit s (retireTo s h pc) h := by
  refine ⟨?_, ?_, fun n hn hl => ?_, fun hl => ?_⟩
  · exact ((onlyThread_setThr s h _).trans (onlyThread_setCoreCsr _ h _ _)).trans (onlyThread_noteHandlerIssue _ h)
  · calc coreCsr (retireTo s h pc) h.core (issuedCsr h)
      _ = _ := coreCsr_noteHandlerIssue_other _ h (issuedCsr_ne_latency h)
      _ = _ := coreCsr_countCore_same _ h.core (issuedCsr h) 1
      _ = _ := congrArg (· + 1) (coreCsr_modThr s h _ h.core _)
  · calc coreCsr (retireTo s h pc) h.core n
      _ = _ := coreCsr_noteHandlerIssue_other _ h hl
      _ = _ := coreCsr_countCore_other _ 1 (.inr hn)
      _ = _ := coreCsr_modThr s h _ h.core n
  · calc coreCsr (retireTo s h pc) h.core 0x11C
      _ = _ := coreCsr_noteHandlerIssue_none (by simpa [modThr] using hl) _
      _ = _ := coreCsr_countCore_other _ 1 (.inr (issuedCsr_ne_latency h).symm)
      _ = _ := coreCsr_modThr s h _ h.core _

theorem retire_oneCommit (s : State) (h : Hart) : OneCommit s (retire s h) h := retireTo_oneCommit s h _

/-- The commit of an instruction touches no CSR of the core but its count and INT_LAT_MAX. -/
theorem coreCsr_retire (s : State) (h : Hart) {n : Nat} (hn : n ≠ issuedCsr h) (hl : n ≠ 0x11C) :
    coreCsr (retire s h) h.core n = coreCsr s h.core n := by
  obtain ⟨-, -, hcsr, -⟩ := retire_oneCommit s h
  exact hcsr n hn hl

/-- The commit of an instruction changes only the threads and the CSRs of its core. -/
theorem core_retire (s : State) (h : Hart) :
    core (retire s h) h.core =
      { core s h.core with threads := (core (retire s h) h.core).threads, csr := (core (retire s h) h.core).csr } := by
  obtain ⟨⟨-, -, -, hcore⟩, -⟩ := retire_oneCommit s h
  exact hcore

/-! ### Updates that leave every thread alone -/

/-- Nothing but cores has changed, and no thread of them. -/
def KeepsThreads (s t : State) : Prop := t = { s with cores := t.cores } ∧ ∀ h, thr t h = thr s h

theorem KeepsThreads.refl (s : State) : KeepsThreads s s := ⟨rfl, fun _ => rfl⟩

theorem KeepsThreads.trans {s t u : State} (hst : KeepsThreads s t) (htu : KeepsThreads t u) : KeepsThreads s u := by
  obtain ⟨est, jst⟩ := hst
  obtain ⟨etu, jtu⟩ := htu
  exact ⟨by rw [etu, est], fun h => (jtu h).trans (jst h)⟩

theorem keepsThreads_modCore (s : State) (c : Nat) {f : Core → Core} (hf : ∀ k, (f k).threads = k.threads) :
    KeepsThreads s (modCore s c f) := ⟨rfl, thr_modCore s hf⟩

theorem keepsThreads_setCoreCsr (s : State) (c n : Nat) (v : Word) : KeepsThreads s (setCoreCsr s c n v) :=
  keepsThreads_modCore s c fun _ => rfl

theorem KeepsThreads.sameMemory {s t : State} (hk : KeepsThreads s t) : SameMemory s t := fun _ => by
  rw [hk.1]
  rfl

theorem KeepsThreads.sameRegs {s t : State} (hk : KeepsThreads s t) : SameRegs s t := fun _ => by
  rw [hk.1]
  rfl

/-- A write to g0 is discarded (R50). -/
theorem thr_setGreg_zero (s : State) (h j : Hart) (v : Word) : thr (setGreg s h 0 v) j = thr s j := by
  by_cases hj : j = h
  · subst hj
    simp [setGreg, modThr, Thread.wr]
  · exact thr_setThr_other s _ hj

theorem keepsThreads_setGreg_zero (s : State) (h : Hart) (v : Word) : KeepsThreads s (setGreg s h 0 v) :=
  ⟨rfl, fun j => thr_setGreg_zero s h j v⟩

/-- After an update that leaves every thread alone, a commit moves its thread on by 4, and memory and the registers of the part
are as before. -/
theorem KeepsThreads.retire_frame {s u : State} (hk : KeepsThreads s u) (h : Hart) :
    (thr (retire u h) h).pc = (thr s h).pc + 4 ∧ SameMemory s (retire u h) ∧ SameRegs s (retire u h) :=
  ⟨by rw [thr_retire, hk.2 h], hk.sameMemory, hk.sameRegs⟩

/-! ### A thread's write of a CSR through its register number (R60, R95) -/

/-- The state of a CSR write with rd = g0 as its instruction commits. -/
def csrWritten (s : State) (h : Hart) (n : Nat) (m v : Word) : State :=
  setGreg (csrWrite s h n m v) h 0 (csrValue s h n)

/-- A write of a CSR that traps on nothing commits. -/
theorem csrAccess_commits {s : State} {h : Hart} {n : Nat} (m v w : Word) (hi : canIssue s h = true)
    (hl : csrListed n = true) (ha : csrAllowed (thr s h).mode n = true) (hg : csrGuardedWrite s h n = false) (h8 : n ≠ 8) :
    csrAccess s h 0 n m v w = .next (retire (csrWritten s h n m v) h) := by
  simp [csrAccess, csrTraps, firstTrap, issue, hi, hl, ha, hg, csrLatch, h8, csrWritten]

theorem coreCsr_csrWritten (s : State) (h : Hart) (n : Nat) (m v : Word) (d k : Nat) :
    coreCsr (csrWritten s h n m v) d k = coreCsr (csrWrite s h n m v) d k := coreCsr_modThr _ _ _ _ _

theorem core_csrWritten (s : State) (h : Hart) (n : Nat) (m v : Word) :
    core (csrWritten s h n m v) h.core =
      { core (csrWrite s h n m v) h.core with threads := (core (csrWritten s h n m v) h.core).threads } :=
  core_setThr_same _ h _

end Sys2Proof.Machine
end

section
/-! PROOFS. The change of an island's clock, lines made pending by software, the tables that take effect at their time, and the
front of the queue of commands. -/

namespace Sys2Proof.Machine

/-! ### CLKSEL (R22 to R25) -/

/-- CLKSEL with the STEP of a write. -/
def clkselWord (old v : Word) : Word := rwBits old 0x3F 0xFFFFFFFF v

theorem clkselWord_step (old v : Word) : bits (clkselWord old v) 5 0 = bits v 5 0 := by
  refine bits_congr fun i _ hi => ?_
  have hrw : ∀ i ≤ 5, (bit (0x3F : Word) i && bit (0xFFFFFFFF : Word) i) = true := by decide
  rw [clkselWord, bit_rwBits _ _ _ _ (by omega), hrw i hi, if_pos rfl]

theorem clkselWord_relock (old v : Word) : bit (clkselWord old v) 9 = bit old 9 :=
  bit_rwBits _ _ _ _ (by decide)

/-- RELOCK is no part of STEP. -/
theorem putRelock_step (w : Word) (b : Bool) : bits (putBit w 9 b) 5 0 = bits w 5 0 := by
  refine bits_congr fun i _ hi => ?_
  rw [bit_putBit w b (by decide) (by omega), if_neg (by omega)]

theorem putRelock_relock (w : Word) (b : Bool) : bit (putBit w 9 b) 9 = b := by
  rw [bit_putBit w b (by decide) (by decide), if_pos rfl]

theorem csrWrite_clksel (s : State) (h : Hart) (m v : Word) : csrWrite s h 0x404 m v = writeClksel s h.core m v := by
  simp [csrWrite]

/-- A STEP of at most 32 is taken as written. -/
theorem keepField_clksel (old : Word) {v : Word} (hv : bits v 5 0 ≤ 32) :
    keepField old (rwBits old 0x3F 0xFFFFFFFF v) 5 0 0 32 = clkselWord old v :=
  if_pos ⟨Nat.zero_le _, (clkselWord_step old v).trans_le hv⟩

/-- The STEP of a write recorded in CLKSEL. -/
def clkselHeld (s : State) (c : Nat) (v : Word) : State := setCoreCsr s c 0x404 (clkselWord (coreCsr s c 0x404) v)

/-- A write of CLKSEL during a relock is recorded, and no more (R25). -/
theorem writeClksel_recorded {s : State} {c : Nat} {v : Word} (hv : bits v 5 0 ≤ 32) (hr : bit (coreCsr s c 0x404) 9 = true) :
    writeClksel s c 0xFFFFFFFF v = clkselHeld s c v := by
  simp only [writeClksel, keepField_clksel _ hv]
  exact if_pos (.inr (.inr (.inr hr)))

/-- Elsewhere a changed STEP waits for the links (R24). -/
theorem writeClksel_starts {s : State} {c : Nat} {v : Word} (hv : bits v 5 0 ≤ 32) (hd : isDrvCore c = false)
    (hne : bits v 5 0 ≠ bits (coreCsr s c 0x404) 5 0) (hl : bit (coreCsr s c 0x404) 8 = false)
    (hr : bit (coreCsr s c 0x404) 9 = false) :
    writeClksel s c 0xFFFFFFFF v = startRelock (clkselHeld s c v) c := by
  simp only [writeClksel, keepField_clksel _ hv, clkselWord_step]
  exact if_neg (by simp [hd, hne, hl, hr])

/-! ### The relock of an island (R24) -/

theorem linksQuiet_setCoreCsr (s : State) (c n : Nat) (v : Word) (d : Nat) :
    linksQuiet (setCoreCsr s c n v) d = linksQuiet s d := by
  have hlink : ∀ e k, link (setCoreCsr s c n v) e k = link s e k := fun e k => by
    by_cases he : e = c
    · subst he
      simp [link, setCoreCsr]
    · simp [link, setCoreCsr, he]
  simp only [linksQuiet, hlink]
  rfl

theorem coreCsr_setIslandStep (s : State) (c : Nat) (st : BitVec 6) (d n : Nat) :
    coreCsr (setIslandStep s c st) d n = coreCsr s d n := coreCsr_modCore s (fun _ => by rfl) d n

theorem keepsThreads_setIslandStep (s : State) (c : Nat) (st : BitVec 6) : KeepsThreads s (setIslandStep s c st) :=
  ⟨rfl, thr_modCore s fun _ => by rfl⟩

theorem stepNow_setIslandStep (s : State) (c : Nat) (st : BitVec 6) : (core (setIslandStep s c st) c).stepNow = st := by
  simp [setIslandStep]

/-- With its wait over, a core runs at a STEP that is its clock already. -/
theorem beginRelock_of_eq {s : State} {c : Nat} (h : bits (coreCsr s c 0x404) 5 0 = (core s c).stepNow.toNat) :
    beginRelock s c = modCore s c fun k => { k with clkWait := false } := by
  simp [beginRelock, h]

/-- With its wait over, a core relocks to a STEP that differs from its clock. -/
theorem beginRelock_of_ne {s : State} {c : Nat} (h : bits (coreCsr s c 0x404) 5 0 ≠ (core s c).stepNow.toNat) :
    beginRelock s c = setIslandStep (setCoreCsr (modCore s c fun k => { k with clkWait := false }) c 0x404
      (putBit (coreCsr s c 0x404) 9 true)) c (BitVec.ofNat 6 (bits (coreCsr s c 0x404) 5 0)) := by
  simp [beginRelock, h]

/-- A relock that begins leaves every thread and the STEP recorded. -/
theorem beginRelock_keeps (s : State) (c : Nat) :
    KeepsThreads s (beginRelock s c) ∧ bits (coreCsr (beginRelock s c) c 0x404) 5 0 = bits (coreCsr s c 0x404) 5 0 := by
  have hwait : KeepsThreads s (modCore s c fun k => { k with clkWait := false }) := keepsThreads_modCore s c fun _ => rfl
  by_cases h : bits (coreCsr s c 0x404) 5 0 = (core s c).stepNow.toNat
  · rw [beginRelock_of_eq h, coreCsr_modCore s fun _ => by rfl]
    exact ⟨hwait, rfl⟩
  · rw [beginRelock_of_ne h, coreCsr_setIslandStep, coreCsr_setCoreCsr_same, putRelock_step]
    exact ⟨(hwait.trans (keepsThreads_setCoreCsr _ c _ _)).trans (keepsThreads_setIslandStep _ c _), rfl⟩

/-- A relock to a different STEP sets RELOCK and the step in force. -/
theorem beginRelock_relocks {s : State} {c : Nat} (h : bits (coreCsr s c 0x404) 5 0 ≠ (core s c).stepNow.toNat) :
    bit (coreCsr (beginRelock s c) c 0x404) 9 = true ∧
      (core (beginRelock s c) c).stepNow.toNat = bits (coreCsr s c 0x404) 5 0 := by
  have hlt : bits (coreCsr s c 0x404) 5 0 < 2 ^ 6 := Nat.mod_lt _ (by decide)
  rw [beginRelock_of_ne h, coreCsr_setIslandStep, coreCsr_setCoreCsr_same, stepNow_setIslandStep, BitVec.toNat_ofNat,
    Nat.mod_eq_of_lt hlt]
  exact ⟨putRelock_relock _ _, rfl⟩

theorem startRelock_of_quiet {s : State} {c : Nat} (h : linksQuiet s c = true) : startRelock s c = beginRelock s c :=
  if_pos h

theorem startRelock_of_busy {s : State} {c : Nat} (h : linksQuiet s c = false) :
    startRelock s c = modCore s c fun k => { k with clkWait := true } := by
  simp [startRelock, h]

theorem startRelock_keeps (s : State) (c : Nat) :
    KeepsThreads s (startRelock s c) ∧ bits (coreCsr (startRelock s c) c 0x404) 5 0 = bits (coreCsr s c 0x404) 5 0 := by
  cases h : linksQuiet s c with
  | true =>
    rw [startRelock_of_quiet h]
    exact beginRelock_keeps s c
  | false =>
    rw [startRelock_of_busy h, coreCsr_modCore s fun _ => by rfl]
    exact ⟨keepsThreads_modCore s c fun _ => rfl, rfl⟩

theorem coreCsr_clkselHeld (s : State) (c : Nat) (v : Word) :
    coreCsr (clkselHeld s c v) c 0x404 = clkselWord (coreCsr s c 0x404) v := coreCsr_setCoreCsr_same s c _ _

theorem stepNow_clkselHeld (s : State) (c : Nat) (v : Word) : (core (clkselHeld s c v) c).stepNow = (core s c).stepNow := by
  simp [clkselHeld, setCoreCsr]

theorem step_clkselHeld (s : State) (c : Nat) (v : Word) : bits (coreCsr (clkselHeld s c v) c 0x404) 5 0 = bits v 5 0 := by
  rw [coreCsr_clkselHeld, clkselWord_step]

theorem linksQuiet_clkselHeld (s : State) (c : Nat) (v : Word) : linksQuiet (clkselHeld s c v) c = linksQuiet s c :=
  linksQuiet_setCoreCsr s c _ _ c

/-- The start of a relock holds the STEP written. -/
theorem startRelock_clkselHeld_keeps (s : State) (c : Nat) (v : Word) :
    KeepsThreads s (startRelock (clkselHeld s c v) c) ∧
      bits (coreCsr (startRelock (clkselHeld s c v) c) c 0x404) 5 0 = bits v 5 0 := by
  obtain ⟨hkeep, hstep⟩ := startRelock_keeps (clkselHeld s c v) c
  exact ⟨(keepsThreads_setCoreCsr s c _ _).trans hkeep, hstep.trans (step_clkselHeld s c v)⟩

/-- With the links quiet, a STEP that differs from the clock relocks. -/
theorem startRelock_clkselHeld_quiet {s : State} {c : Nat} {v : Word} (hq : linksQuiet s c = true)
    (hv : bits v 5 0 ≠ (core s c).stepNow.toNat) :
    bit (coreCsr (startRelock (clkselHeld s c v) c) c 0x404) 9 = true ∧
      (core (startRelock (clkselHeld s c v) c) c).stepNow.toNat = bits v 5 0 := by
  have hne : bits (coreCsr (clkselHeld s c v) c 0x404) 5 0 ≠ (core (clkselHeld s c v) c).stepNow.toNat := by
    rwa [step_clkselHeld, stepNow_clkselHeld]
  rw [startRelock_of_quiet ((linksQuiet_clkselHeld s c v).trans hq), ← step_clkselHeld s c v]
  exact beginRelock_relocks hne

/-- With a handshake on the links in progress, the core waits for it at its clock. -/
theorem startRelock_clkselHeld_busy {s : State} {c : Nat} (v : Word) (hq : linksQuiet s c = false) :
    bit (coreCsr (startRelock (clkselHeld s c v) c) c 0x404) 9 = bit (coreCsr s c 0x404) 9 ∧
      (core (startRelock (clkselHeld s c v) c) c).clkWait = true ∧
      (core (startRelock (clkselHeld s c v) c) c).stepNow = (core s c).stepNow := by
  rw [startRelock_of_busy ((linksQuiet_clkselHeld s c v).trans hq), coreCsr_modCore _ fun _ => by rfl, coreCsr_clkselHeld,
    clkselWord_relock, core_modCore_same]
  exact ⟨rfl, rfl, stepNow_clkselHeld s c v⟩

/-- No thread of a core that relocks issues (R24). -/
theorem canIssue_of_relocking {s : State} {c : Nat} (h : bit (coreCsr s c 0x404) 9 = true) (x : BitVec 2) :
    canIssue s ⟨c, x⟩ = false := by
  simp [canIssue, coreRuns, relocking, h]

/-- No counter of committed instructions is a CSR of number 0x400 or above. -/
theorem ne_issuedCsr {n : Nat} (hn : 0x400 ≤ n) (h : Hart) : n ≠ issuedCsr h := by
  have := h.tid.isLt
  simp only [issuedCsr]
  omega

/-- The commit of a write of a CSR leaves the CSRs of number 0x400 and above as the write does. -/
theorem coreCsr_retire_csrWritten (s : State) (h : Hart) (n : Nat) (m v : Word) {k : Nat} (hk : 0x400 ≤ k) :
    coreCsr (retire (csrWritten s h n m v) h) h.core k = coreCsr (csrWrite s h n m v) h.core k := by
  rw [coreCsr_retire _ h (ne_issuedCsr hk h) (by omega), coreCsr_csrWritten]

/-- The commit of a write of a CSR changes only the threads and the CSRs of its core beyond what the write does. -/
theorem core_retire_csrWritten (s : State) (h : Hart) (n : Nat) (m v : Word) :
    core (retire (csrWritten s h n m v) h) h.core =
      { core (csrWrite s h n m v) h.core with
        threads := (core (retire (csrWritten s h n m v) h) h.core).threads
        csr := (core (retire (csrWritten s h n m v) h) h.core).csr } := by
  rw [core_retire, core_csrWritten]

theorem exec_clkselWrite_issued {s : State} {h : Hart} (v : Word) (hi : canIssue s h = true)
    (hm : (thr s h).mode.super = true) (hg : coreGuarded s h.core = false) (hr : bit (coreCsr s h.core 0x404) 9 = false) :
    exec (.clkselWrite h v) s = .next (retire (csrWritten s h 0x404 0xFFFFFFFF v) h) := by
  show execClkselWrite h v s = _
  have hw : relockWrite s h = false := by simp [relockWrite, relocking, hr]
  rw [execClkselWrite, if_neg (by simp [hw])]
  exact csrAccess_commits _ _ _ hi (by decide) (by simpa [csrAllowed] using hm) (by simp [csrGuardedWrite, hg]) (by decide)

theorem exec_clkselWrite_relocking {s : State} {h : Hart} (v : Word) (hw : relockWrite s h = true) :
    exec (.clkselWrite h v) s = .next (retire (csrWrite s h 0x404 0xFFFFFFFF v) h) := if_pos hw

theorem relocking_of_relockWrite {s : State} {h : Hart} (hw : relockWrite s h = true) :
    bit (coreCsr s h.core 0x404) 9 = true := by
  simp only [relockWrite, Bool.and_eq_true] at hw
  obtain ⟨⟨⟨⟨⟨-, hr⟩, -⟩, -⟩, -⟩, -⟩ := hw
  exact hr

/-- A CLKSEL write that a thread issues: the new STEP is held; with the links quiet a clock that differs relocks, else the
core waits (R22, R24). -/
theorem clkselWrite_issued {s : State} {h : Hart} {v : Word} (hi : canIssue s h = true)
    (hm : (thr s h).mode.super = true) (hg : coreGuarded s h.core = false) (hv : bits v 5 0 ≤ 32)
    (hne : bits v 5 0 ≠ bits (coreCsr s h.core 0x404) 5 0) (hl : bit (coreCsr s h.core 0x404) 8 = false)
    (hr : bit (coreCsr s h.core 0x404) 9 = false) (hd : isDrvCore h.core = false) :
    ∃ t, exec (.clkselWrite h v) s = .next t ∧ bits (coreCsr t h.core 0x404) 5 0 = bits v 5 0 ∧
      (thr t h).pc = (thr s h).pc + 4 ∧ SameMemory s t ∧ SameRegs s t ∧
      (linksQuiet s h.core = true → bits v 5 0 ≠ (core s h.core).stepNow.toNat →
        bit (coreCsr t h.core 0x404) 9 = true ∧ (core t h.core).stepNow.toNat = bits v 5 0 ∧
        ∀ x, canIssue t ⟨h.core, x⟩ = false) ∧
      (linksQuiet s h.core = false → bit (coreCsr t h.core 0x404) 9 = false ∧ (core t h.core).clkWait = true ∧
        (core t h.core).stepNow = (core s h.core).stepNow) := by
  have hwrite : csrWrite s h 0x404 0xFFFFFFFF v = startRelock (clkselHeld s h.core v) h.core := by
    rw [csrWrite_clksel, writeClksel_starts hv hd hne hl hr]
  have hcsr := coreCsr_retire_csrWritten s h 0x404 0xFFFFFFFF v (k := 0x404) (by decide)
  have hcore := core_retire_csrWritten s h 0x404 0xFFFFFFFF v
  rw [hwrite] at hcsr hcore
  obtain ⟨hkeep, hstep⟩ := startRelock_clkselHeld_keeps s h.core v
  have hframe : KeepsThreads s (csrWritten s h 0x404 0xFFFFFFFF v) := (hwrite ▸ hkeep).trans (keepsThreads_setGreg_zero _ h _)
  obtain ⟨hpc, hmem, hregs⟩ := hframe.retire_frame h
  refine ⟨_, exec_clkselWrite_issued v hi hm hg hr, by rw [hcsr, hstep], hpc, hmem, hregs, fun hq hv' => ?_, fun hb => ?_⟩
  · obtain ⟨hrelock, hnow⟩ := startRelock_clkselHeld_quiet hq hv'
    rw [← hcsr] at hrelock
    exact ⟨hrelock, by rw [hcore, hnow], canIssue_of_relocking hrelock⟩
  · obtain ⟨hidle, hwait, hnow⟩ := startRelock_clkselHeld_busy v hb
    exact ⟨by rw [hcsr, hidle, hr], by rw [hcore, hwait], by rw [hcore, hnow]⟩

/-- A CLKSEL write during a relock: the STEP is recorded and the relock goes on (R25). -/
theorem clkselWrite_relocking {s : State} {h : Hart} {v : Word} (hw : relockWrite s h = true) (hv : bits v 5 0 ≤ 32) :
    ∃ t, exec (.clkselWrite h v) s = .next t ∧ bits (coreCsr t h.core 0x404) 5 0 = bits v 5 0 ∧
      bit (coreCsr t h.core 0x404) 9 = true ∧ (core t h.core).stepNow = (core s h.core).stepNow ∧
      (thr t h).pc = (thr s h).pc + 4 ∧ SameMemory s t ∧ SameRegs s t := by
  have hr := relocking_of_relockWrite hw
  have hwrite : csrWrite s h 0x404 0xFFFFFFFF v = clkselHeld s h.core v := by
    rw [csrWrite_clksel, writeClksel_recorded hv hr]
  have hkeep : KeepsThreads s (clkselHeld s h.core v) := keepsThreads_setCoreCsr s _ _ _
  have hcsr : coreCsr (retire (clkselHeld s h.core v) h) h.core 0x404 = clkselWord (coreCsr s h.core 0x404) v := by
    rw [coreCsr_retire _ h (ne_issuedCsr (by decide) h) (by decide), coreCsr_clkselHeld]
  refine ⟨_, exec_clkselWrite_relocking v hw, ?_⟩
  rw [hwrite, hcsr, clkselWord_relock, core_retire]
  exact ⟨clkselWord_step _ v, hr, stepNow_clkselHeld s _ v, hkeep.retire_frame h⟩

/-- RELOCK_COMPLETE at the step recorded ends the relock (R24, R25). -/
theorem relockComplete_ends {s : State} {c : Nat} (he : coreExists s c = true) (hu : dieUp s c = true)
    (hr : bit (coreCsr s c 0x404) 9 = true) (hstep : bits (coreCsr s c 0x404) 5 0 = (core s c).stepNow.toNat) :
    ∃ t, exec (.relockComplete c) s = .next t ∧ bit (coreCsr t c 0x404) 9 = false ∧
      bits (coreCsr t c 0x404) 5 0 = bits (coreCsr s c 0x404) 5 0 ∧ SameCoresBut s t c ∧ SameMemory s t := by
  have hexec : exec (.relockComplete c) s = .next (setCoreCsr s c 0x404 (putBit (coreCsr s c 0x404) 9 false)) := by
    show execRelockComplete c s = _
    simp [execRelockComplete, when, he, hu, hr, hstep]
  refine ⟨_, hexec, ?_, ?_, fun d hd => core_modCore_other s _ hd, fun _ => rfl⟩
  · rw [coreCsr_setCoreCsr_same, putRelock_relock]
  · rw [coreCsr_setCoreCsr_same, putRelock_step]

/-! ### ISET (R153, R154, R161) -/

/-- No thread has changed, and every line of core `c` that was pending is pending. -/
def PendingGrows (s t : State) (c : Nat) : Prop :=
  KeepsThreads s t ∧ ∀ l, l < 32 → bit (coreCsr s c 0x804) l = true → bit (coreCsr t c 0x804) l = true

theorem PendingGrows.refl (s : State) (c : Nat) : PendingGrows s s c := ⟨KeepsThreads.refl s, fun _ _ h => h⟩

theorem PendingGrows.trans {s t u : State} {c : Nat} (hst : PendingGrows s t c) (htu : PendingGrows t u c) :
    PendingGrows s u c := by
  obtain ⟨kst, gst⟩ := hst
  obtain ⟨ktu, gtu⟩ := htu
  exact ⟨kst.trans ktu, fun l hl h => gtu l hl (gst l hl h)⟩

theorem pendingGrows_ite {s t u : State} {c : Nat} {p : Prop} [Decidable p] (ht : PendingGrows s t c)
    (hu : PendingGrows s u c) : PendingGrows s (if p then t else u) c := by
  split
  · exact ht
  · exact hu

/-- What changes neither threads nor the pending lines. -/
theorem KeepsThreads.pendingGrows {s t : State} {c : Nat} (hk : KeepsThreads s t) (h : coreCsr t c 0x804 = coreCsr s c 0x804) :
    PendingGrows s t c := ⟨hk, fun _ _ hp => h ▸ hp⟩

theorem pendingGrows_modCore (s : State) (c : Nat) {f : Core → Core} (ht : ∀ k, (f k).threads = k.threads)
    (hf : ∀ k, (f k).csr = k.csr) : PendingGrows s (modCore s c f) c :=
  (keepsThreads_modCore s c ht).pendingGrows (coreCsr_modCore s hf c _)

theorem pendingGrows_setCoreCsr (s : State) (c : Nat) {n : Nat} (v : Word) (hn : n ≠ 0x804) :
    PendingGrows s (setCoreCsr s c n v) c :=
  (keepsThreads_setCoreCsr s c n v).pendingGrows (coreCsr_setCoreCsr_other s v (.inr hn.symm))

/-- The pending lines of a core once one more is made pending. -/
theorem pending_pendLine (s : State) (c : Nat) {l : Nat} (v : Word) (hl : l < 32) {j : Nat} (hj : j < 32) :
    bit (coreCsr (pendLine s c l v) c 0x804) j = (decide (j = l) || bit (coreCsr s c 0x804) j) := by
  unfold pendLine
  by_cases hp : bit (coreCsr s c 0x804) l = true
  · by_cases h : j = l
    · subst h
      simp [hp]
    · simp [hp, h]
  · simp only [hp, Bool.false_eq_true, if_false]
    rw [coreCsr_modCore _ fun _ => by rfl, coreCsr_setCoreCsr_same, bit_putBit _ _ hl hj]
    by_cases h : j = l <;> simp [h]

theorem keepsThreads_pendLine (s : State) (c l : Nat) (v : Word) : KeepsThreads s (pendLine s c l v) := by
  unfold pendLine
  by_cases hp : bit (coreCsr s c 0x804) l = true
  · simpa [hp] using KeepsThreads.refl s
  · simp only [hp, Bool.false_eq_true, if_false]
    exact (keepsThreads_setCoreCsr s c _ _).trans (keepsThreads_modCore _ c fun _ => by rfl)

theorem pendingGrows_pendLine (s : State) (c : Nat) {l : Nat} (v : Word) (hl : l < 32) : PendingGrows s (pendLine s c l v) c :=
  ⟨keepsThreads_pendLine s c l v, fun j hj h => by simp [pending_pendLine s c v hl hj, h]⟩

/-- The storm limiter masks a line: STUCK is set and counted, and line 31 is pending (R154). -/
theorem pendingGrows_stuck (s : State) (c l : Nat) (w v : Word) :
    PendingGrows s (pendLine (countCore (setCoreCsr s c (0x820 + l) w) c 0x11B 1) c 31 v) c :=
  ((pendingGrows_setCoreCsr s c w (by omega)).trans (pendingGrows_setCoreCsr _ c _ (by decide))).trans
    (pendingGrows_pendLine _ c v (by decide))

/-- An event on a line makes it pending after the storm limiter has counted it, which takes no pending line away. -/
theorem raiseLine_eq (s : State) (c l : Nat) (v : Word) :
    ∃ u, PendingGrows s u c ∧ raiseLine s c l v = pendLine u c l v := by
  have hcount (k : Sparse Nat) (n : Nat) : PendingGrows s (modCore s c fun x => { x with stormCnt := k, stormAt := n }) c :=
    pendingGrows_modCore s c (fun _ => rfl) fun _ => rfl
  refine ⟨_, pendingGrows_ite ?_ (PendingGrows.refl s c), rfl⟩
  exact pendingGrows_ite ((hcount _ _).trans (pendingGrows_stuck _ c l _ _)) (hcount _ _)

theorem pendingGrows_raiseLine (s : State) (c : Nat) {l : Nat} (v : Word) (hl : l < 32) :
    PendingGrows s (raiseLine s c l v) c := by
  obtain ⟨u, hu, heq⟩ := raiseLine_eq s c l v
  rw [heq]
  exact hu.trans (pendingGrows_pendLine u c v hl)

theorem pending_raiseLine (s : State) (c : Nat) {l : Nat} (v : Word) (hl : l < 32) :
    bit (coreCsr (raiseLine s c l v) c 0x804) l = true := by
  obtain ⟨u, -, heq⟩ := raiseLine_eq s c l v
  rw [heq, pending_pendLine u c v hl hl]
  simp

/-- One line of a write of ISET. -/
def isetLine (c : Nat) (v : Word) (s : State) (l : Nat) : State :=
  if bit v l then raiseLine s c l (Config.lineEval s.tb l) else s

theorem writeIset_eq (s : State) (c : Nat) (v : Word) : writeIset s c v = (List.range 32).foldl (isetLine c v) s := rfl

theorem pendingGrows_isetLine (s : State) (c : Nat) (v : Word) {l : Nat} (hl : l < 32) :
    PendingGrows s (isetLine c v s l) c := by
  unfold isetLine
  split
  · exact pendingGrows_raiseLine s c _ hl
  · exact PendingGrows.refl s c

/-- Lines raised in turn: pending lines stay pending, and each line named becomes pending. -/
theorem foldl_isetLine (c : Nat) (v : Word) (ls : List Nat) (hls : ∀ l ∈ ls, l < 32) (s : State) :
    PendingGrows s (ls.foldl (isetLine c v) s) c ∧
      ∀ l ∈ ls, bit v l = true → bit (coreCsr (ls.foldl (isetLine c v) s) c 0x804) l = true := by
  induction ls generalizing s with
  | nil => exact ⟨PendingGrows.refl s c, fun l hl => absurd hl List.not_mem_nil⟩
  | cons x xs ih =>
    obtain ⟨hx, hxs⟩ := List.forall_mem_cons.mp hls
    obtain ⟨hgrows, hnamed⟩ := ih hxs (isetLine c v s x)
    refine ⟨(pendingGrows_isetLine s c v hx).trans hgrows, List.forall_mem_cons.mpr ⟨fun hv => ?_, hnamed⟩⟩
    refine hgrows.2 x hx ?_
    rw [isetLine, if_pos hv]
    exact pending_raiseLine s c _ hx

theorem csrWrite_iset (s : State) (h : Hart) (v : Word) : csrWrite s h 0x806 0xFFFFFFFF v = writeIset s h.core v := by
  have hall : v &&& 0xFFFFFFFF = v := BitVec.and_allOnes
  simp only [csrWrite, writeGuardedCsr, hall]
  rfl

/-- An ISET write in GS makes every named line pending, and no line less (R153, R161). -/
theorem isetWrite_pends {s : State} {h : Hart} (v : Word) (hi : canIssue s h = true) (hm : (thr s h).mode = .gs) :
    ∃ t, exec (.isetWrite h v) s = .next t ∧ (thr t h).pc = (thr s h).pc + 4 ∧ SameMemory s t ∧ SameRegs s t ∧
      (∀ l, l < 32 → bit v l = true → bit (coreCsr t h.core 0x804) l = true) ∧
      ∀ l, l < 32 → bit (coreCsr s h.core 0x804) l = true → bit (coreCsr t h.core 0x804) l = true := by
  have hexec : exec (.isetWrite h v) s = .next (retire (csrWritten s h 0x806 0xFFFFFFFF v) h) :=
    csrAccess_commits _ _ _ hi (by decide) (by rw [hm]; decide) (by simp [csrGuardedWrite]) (by decide)
  have hwrite : csrWrite s h 0x806 0xFFFFFFFF v = (List.range 32).foldl (isetLine h.core v) s := by
    rw [csrWrite_iset, writeIset_eq]
  obtain ⟨⟨hkeep, hgrows⟩, hnamed⟩ := foldl_isetLine h.core v (List.range 32) (fun l hl => List.mem_range.mp hl) s
  have hframe : KeepsThreads s (csrWritten s h 0x806 0xFFFFFFFF v) := (hwrite ▸ hkeep).trans (keepsThreads_setGreg_zero _ h _)
  obtain ⟨hpc, hmem, hregs⟩ := hframe.retire_frame h
  refine ⟨_, hexec, hpc, hmem, hregs, ?_⟩
  rw [coreCsr_retire_csrWritten s h _ _ _ (by decide), hwrite]
  exact ⟨fun l hl => hnamed l (List.mem_range.mpr hl), hgrows⟩

/-! ### Tables and storm counts (R137, R154) -/

theorem exec_weaveTableUpdate {s : State} {c : Nat} (he : coreExists s c = true) (hu : dieUp s c = true) :
    exec (.weaveTableUpdate c) s = .next (modCore s c fun k =>
      { k with thslotNow := coreCsr s c 0x403, weaveNow := bit (coreCsr s c 0x801) 0 }) := by
  show execWeaveTableUpdate c s = _
  simp [execWeaveTableUpdate, when, he, hu]

theorem exec_stormWindowEnd {s : State} {c : Nat} (he : coreExists s c = true) (hu : dieUp s c = true)
    (hn : (core s c).stormAt ≠ stormNow s c) :
    exec (.stormWindowEnd c) s = .next (modCore s c fun k => { k with stormCnt := [], stormAt := stormNow s c }) := by
  show execStormWindowEnd c s = _
  simp [execStormWindowEnd, when, he, hu, hn]

/-- Settles O16: the two writes of CLKSEL, the end of a relock, ISET and the tables, each by the lemma about its command. -/
theorem clockStepsInterruptSettingAndTables : Obligations.ClockStepsInterruptSettingAndTables := by
  unfold Obligations.ClockStepsInterruptSettingAndTables
  refine ⟨fun h v s hi hm hg hv hne hl hr hd => clkselWrite_issued hi hm hg hv hne hl hr hd,
    fun h v s hw hv => clkselWrite_relocking hw hv, fun c s he hu hr hstep => relockComplete_ends he hu hr hstep,
    fun h v s hi hm => isetWrite_pends v hi hm, fun c s he hu => ⟨⟨_, exec_weaveTableUpdate he hu, ?_⟩, fun hn =>
      ⟨_, exec_stormWindowEnd he hu hn, ?_⟩⟩⟩
  · rw [core_modCore_same]
    exact ⟨rfl, rfl, rfl, fun d hd => core_modCore_other s _ hd⟩
  · rw [core_modCore_same]
    exact ⟨fun _ => rfl, rfl, rfl, rfl, fun d hd => core_modCore_other s _ hd⟩

/-! ### The front of the queue (R30) -/

theorem step_of_empty {s : State} (h : s.pending = []) : step s = .next (idle s) := by
  simp [step, h]

/-- A cycle of the courier clock moves the time base alone. -/
theorem tick_eq (s : State) : tick s = { s with tb := (tick s).tb } := by
  unfold tick
  split <;> rfl

theorem drvRetry_of_none {s : State} (h : s.drv.access = []) : drvRetry s = s := by
  simp [drvRetry, h]

theorem rxPump_of_none {s : State} {p : Nat} (h : (ethOf s p).rx = []) : rxPump s p = s := by
  simp [rxPump, h]

/-- Where nothing waits for the Drover's memory port, nothing goes on. -/
theorem drvPump_of_quiet {s : State} (h : PortQuiet s) : drvPump s = s := by
  obtain ⟨haccess, hrx, hmbs⟩ := h
  have hmailbox : ∀ c, (canOf s c).mbs.foldl (fun s e => canPayload s c e.1) s = s := fun c => by
    rw [hmbs c, List.foldl_nil]
  simp only [drvPump, drvRetry_of_none haccess, rxPump_of_none (hrx _)]
  exact List.foldl_fixed' hmailbox _

theorem idle_of_quiet {s : State} (h : PortQuiet s) : idle s = tick s := by
  have hq : PortQuiet (tick s) := by
    rw [tick_eq]
    exact h
  exact drvPump_of_quiet hq

/-- Settles O1: a command by the definition of a step, an empty queue by the idle cycle, of which only the tick of the time base
remains where the port is quiet. -/
theorem frontCommandRuns : Obligations.FrontCommandRuns := by
  unfold Obligations.FrontCommandRuns
  refine ⟨fun c r s => rfl, fun s hs => ⟨step_of_empty hs, fun hq => ?_⟩⟩
  rw [idle_of_quiet hq, tick_eq]
  exact ⟨rfl, fun _ => rfl, fun _ => rfl, fun _ => rfl, hs⟩

end Sys2Proof.Machine
end

section
/-! PROOFS. Commits of instructions: one thread replaced and its commit counted; the scalar arithmetic. -/

namespace Sys2Proof.Machine

/-! ### One thread replaced -/

theorem sput_sput {α : Type} (m : Sparse α) (k : Nat) (v w : α) : sput (sput m k v) k w = sput m k w := by
  induction m with
  | nil => simp [sput]
  | cons e r ih =>
    obtain ⟨j, x⟩ := e
    rcases Nat.lt_trichotomy k j with h | rfl | h
    · simp [sput, h]
    · simp [sput]
    · simp [sput, Nat.not_lt_of_gt h, Nat.ne_of_gt h, ih]

/-- Of two writes of one core the second stays. -/
theorem setCore_setCore (s : State) (c : Nat) (k l : Core) : setCore (setCore s c k) c l = setCore s c l := by
  simp [setCore, sput_sput]

/-- Of two writes of one thread the second stays. -/
@[simp] theorem setThr_setThr (s : State) (h : Hart) (u v : Thread) : setThr (setThr s h u) h v = setThr s h v := by
  simp [setThr, modCore, setCore_setCore, sput_sput]

@[simp] theorem modThr_setThr (s : State) (h : Hart) (u : Thread) (f : Thread → Thread) :
    modThr (setThr s h u) h f = setThr s h (f u) := by
  simp [modThr]

theorem setGreg_eq (s : State) (h : Hart) (r : GReg) (v : Word) : setGreg s h r v = setThr s h ((thr s h).wr r v) := rfl

/-! ### What a register write leaves of its thread (R50) -/

/-- A scalar register lies in the global registers, the windows or the shadow registers. -/
theorem thread_wr_eq (t : Thread) (r : GReg) (v : Word) :
    t.wr r v = { t with g := (t.wr r v).g, win := (t.wr r v).win, shadow := (t.wr r v).shadow } := by
  simp only [Thread.wr, Thread.setWinReg]
  repeat' split
  all_goals rfl

@[simp] theorem thread_wr_zero (t : Thread) (v : Word) : t.wr 0#5 v = t := by simp [Thread.wr]
@[simp] theorem thread_wr_latFrom (t : Thread) (r : GReg) (v : Word) : (t.wr r v).latFrom = t.latFrom := by rw [thread_wr_eq]
@[simp] theorem thread_wr_csr (t : Thread) (r : GReg) (v : Word) : (t.wr r v).csr = t.csr := by rw [thread_wr_eq]
@[simp] theorem thread_wr_pc (t : Thread) (r : GReg) (v : Word) : (t.wr r v).pc = t.pc := by rw [thread_wr_eq]
@[simp] theorem thread_wr_acc (t : Thread) (r : GReg) (v : Word) : (t.wr r v).acc = t.acc := by rw [thread_wr_eq]
@[simp] theorem thread_wr_v (t : Thread) (r : GReg) (v : Word) : (t.wr r v).v = t.v := by rw [thread_wr_eq]
@[simp] theorem thread_wr_mode (t : Thread) (r : GReg) (v : Word) : (t.wr r v).mode = t.mode := by rw [thread_wr_eq]
@[simp] theorem thread_wr_level (t : Thread) (r : GReg) (v : Word) : (t.wr r v).level = t.level := by rw [thread_wr_eq]
@[simp] theorem thread_wr_wait (t : Thread) (r : GReg) (v : Word) : (t.wr r v).wait = t.wait := by rw [thread_wr_eq]

@[simp] theorem thread_wr_getCsr (t : Thread) (r : GReg) (v : Word) (n : Nat) : (t.wr r v).getCsr n = t.getCsr n := by
  simp [Thread.getCsr]

/-! ### Commits (R69, R162) -/

/-- A commit after changes of its thread alone is the one commit of that thread. -/
theorem oneCommit_of_onlyThread {s u : State} {h : Hart} (ho : OnlyThread s u h)
    (hcsr : ∀ n, coreCsr u h.core n = coreCsr s h.core n) (hlat : (thr u h).latFrom = (thr s h).latFrom) (pc : Word) :
    OneCommit s (retireTo u h pc) h := by
  obtain ⟨honly, hcount, hother, hnone⟩ := retireTo_oneCommit u h pc
  exact ⟨ho.trans honly, by rw [hcount, hcsr], fun n hn hl => by rw [hother n hn hl, hcsr],
    fun hl => by rw [hnone (hlat.trans hl), hcsr]⟩

/-- A thread replaced and committed (R69). -/
theorem setThr_commits (s : State) (h : Hart) {u : Thread} (hlat : u.latFrom = (thr s h).latFrom) (pc : Word) :
    CommitsAs s (retireTo (setThr s h u) h pc) h u pc :=
  ⟨oneCommit_of_onlyThread (onlyThread_setThr s h u) (coreCsr_setThr s h u h.core) (by simpa using hlat) pc,
    by simp [afterCommit]⟩

theorem greg_afterCommit (u : Thread) (pc : Word) (r : GReg) : (afterCommit u pc).rd r = u.rd r :=
  thread_rd_congr rfl rfl rfl rfl rfl rfl r

/-- A register write and its commit (R50, R69). -/
theorem setGreg_commits {s : State} {h : Hart} (hw : (thr s h).window = []) (rd : GReg) (v pc : Word) :
    CommitsReg s (retireTo (setGreg s h rd v) h pc) h rd v pc := by
  refine ⟨setThr_commits s h (by simp) pc, ?_, fun r hr => ?_⟩
  · rw [greg_retireTo, greg_setGreg_same hw]
  · rw [greg_retireTo, greg_setGreg_other hw v hr]

/-- A commit that changes no register but the program counter. -/
theorem retireTo_commits (s : State) (h : Hart) (pc : Word) : CommitsReg s (retireTo s h pc) h 0 0 pc := by
  refine ⟨⟨retireTo_oneCommit s h pc, by simp [afterCommit]⟩, ?_, fun r _ => greg_retireTo s h pc r⟩
  simp [greg, Thread.rd]

theorem retire_setGreg (s : State) (h : Hart) (rd : GReg) (v : Word) :
    retire (setGreg s h rd v) h = retireTo (setGreg s h rd v) h ((thr s h).pc + 4) := by
  simp [retire, setGreg_eq]

theorem issue_ok {s : State} {h : Hart} (hi : canIssue s h = true) (t : State) : issue s h (.ok t) = .next t := by
  simp [issue, hi]

/-! ### The traps of an instruction, in their order (R453) -/

@[simp] theorem firstTrap_nil (s : State) (k : Res) : firstTrap s [] k = k := rfl

@[simp] theorem firstTrap_cons_false (s : State) (t : Trap) (l : List (Bool × Trap)) (k : Res) :
    firstTrap s ((false, t) :: l) k = firstTrap s l k := rfl

@[simp] theorem firstTrap_cons_true (s : State) (t : Trap) (l : List (Bool × Trap)) (k : Res) :
    firstTrap s ((true, t) :: l) k = .trap s t := rfl

/-! ### Instructions with one register result (R92) -/

/-- An instruction that writes a value to rd commits with it. -/
theorem writeRd_commits {s : State} {h : Hart} (hi : canIssue s h = true) {i : Instr} {srcs : List GReg} {rd : GReg} {v w : Word}
    (hexec : exec i s = writeRd s h srcs rd v) (hv : v = w) :
    ∃ t, exec i s = .next t ∧ CommitsReg s t h rd w ((thr s h).pc + 4) := by
  subst hv
  refine ⟨_, ?_, setGreg_commits (window_of_canIssue hi) rd v _⟩
  rw [hexec, writeRd, follow_of_canIssue hi, issue_ok hi, retire_setGreg]

end Sys2Proof.Machine
end

section
/-! PROOFS. The scalar arithmetic of registers and immediates, branches and jumps. -/

namespace Sys2Proof.Machine

/-! ### What the operations give (R92, R93) -/

theorem shiftAmount_eq (b : Word) : b.toNat % 32 = (b.setWidth 5).toNat := by simp

theorem ite_toInt_lt {α : Type} (a b : Word) (x y : α) :
    (if a.toInt < b.toInt then x else y) = if a.slt b then x else y := by
  simp [BitVec.slt_iff_toInt_lt]

theorem ite_toNat_lt {α : Type} (a b : Word) (x y : α) :
    (if a.toNat < b.toNat then x else y) = if a.ult b then x else y := by
  simp [BitVec.ult_iff_lt, BitVec.lt_def]

theorem min_toInt_eq (a b : Word) : (if a.toInt < b.toInt then a else b) = if a.sle b then a else b := by
  simp only [BitVec.sle_iff_toInt_le]
  rcases lt_trichotomy a.toInt b.toInt with h | h | h
  · simp [h, h.le]
  · simp [BitVec.eq_of_toInt_eq h]
  · simp [h.not_gt, h.not_ge]

theorem max_toInt_eq (a b : Word) : (if a.toInt < b.toInt then b else a) = if a.sle b then b else a := by
  simp only [BitVec.sle_iff_toInt_le]
  rcases lt_trichotomy a.toInt b.toInt with h | h | h
  · simp [h, h.le]
  · simp [BitVec.eq_of_toInt_eq h]
  · simp [h.not_gt, h.not_ge]

theorem min_toNat_eq (a b : Word) : (if a.toNat < b.toNat then a else b) = if a.ule b then a else b := by
  simp only [BitVec.ule_iff_le, BitVec.le_def]
  rcases lt_trichotomy a.toNat b.toNat with h | h | h
  · simp [h, h.le]
  · simp [BitVec.eq_of_toNat_eq h]
  · simp [h.not_gt, h.not_ge]

theorem max_toNat_eq (a b : Word) : (if a.toNat < b.toNat then b else a) = if a.ule b then b else a := by
  simp only [BitVec.ule_iff_le, BitVec.le_def]
  rcases lt_trichotomy a.toNat b.toNat with h | h | h
  · simp [h, h.le]
  · simp [BitVec.eq_of_toNat_eq h]
  · simp [h.not_gt, h.not_ge]

/-- MULH: the high word of the exact signed product (R92). -/
theorem mulh_eq (a b : Word) :
    wordOf (a.toInt * b.toInt / 2 ^ 32) = (a.signExtend 64 * b.signExtend 64).extractLsb' 32 32 := by
  have hprod : a.signExtend 64 * b.signExtend 64 = BitVec.ofInt 64 (a.toInt * b.toInt) := by
    simp only [BitVec.signExtend, BitVec.ofInt_mul]
  refine BitVec.eq_of_toNat_eq ?_
  rw [hprod, wordOf, BitVec.extractLsb'_toNat, BitVec.toNat_ofInt, BitVec.toNat_ofInt, Nat.shiftRight_eq_div_pow]
  omega

/-- MULHU: the high word of the exact unsigned product (R92). -/
theorem mulhu_eq (a b : Word) :
    BitVec.ofNat 32 (a.toNat * b.toNat / 2 ^ 32) = (a.setWidth 64 * b.setWidth 64).extractLsb' 32 32 := by
  have hlt : a.toNat * b.toNat < 2 ^ 32 * 2 ^ 32 := Nat.mul_lt_mul'' a.isLt b.isLt
  have hprod : (a.setWidth 64 * b.setWidth 64).toNat = a.toNat * b.toNat := by
    simp only [BitVec.toNat_mul, BitVec.toNat_setWidth_of_le (show 32 ≤ 64 by decide)]
    exact Nat.mod_eq_of_lt hlt
  refine BitVec.eq_of_toNat_eq ?_
  rw [BitVec.extractLsb'_toNat, hprod, BitVec.toNat_ofNat, Nat.shiftRight_eq_div_pow]

/-- The numbers before the first that fails. -/
theorem length_takeWhile_range {n k : Nat} {p : Nat → Bool} (hk : k ≤ n) (hall : ∀ i < k, p i = true)
    (hstop : k < n → p k = false) : ((List.range n).takeWhile p).length = k := by
  obtain ⟨m, rfl⟩ := Nat.exists_eq_add_of_le hk
  rw [List.range_add, List.takeWhile_append_of_pos fun i hi => hall i (List.mem_range.mp hi)]
  cases m with
  | zero => simp
  | succ m => simp [List.range_succ_eq_map, hstop]

/-- CLZ: the leading zeros are those before the highest set bit (R93). -/
theorem leadingZeros_eq (a : Word) :
    leadingZeros a = ((List.range 32).takeWhile fun i => !a.getMsbD i).length := by
  by_cases h0 : a = 0
  · subst h0
    decide
  · have hne : a.toNat ≠ 0 := fun h => h0 (BitVec.eq_of_toNat_eq h)
    have hlog : a.toNat.log2 < 32 := (Nat.log2_lt hne).mpr a.isLt
    rw [leadingZeros, if_neg h0]
    refine (length_takeWhile_range (by omega) (fun i hi => ?_) fun _ => ?_).symm
    · have hlt : a.toNat < 2 ^ (31 - i) := (Nat.log2_lt hne).mp (by omega)
      simp [BitVec.getMsbD, BitVec.getLsbD, Nat.testBit_lt_two_pow hlt]
    · have hidx : 31 - (31 - a.toNat.log2) = a.toNat.log2 := by omega
      have hlt : 31 - a.toNat.log2 < 32 := by omega
      simp [BitVec.getMsbD, BitVec.getLsbD, hidx, hlt, Nat.testBit_log2 hne]

theorem toInt_sext {n : Nat} (v : BitVec n) (hn : n ≤ 32) : (sext v).toInt = v.toInt :=
  BitVec.toInt_signExtend_of_le hn

/-- LUI and AUIPC place their immediate at bit 10 (R91). -/
theorem upperImmediate_eq (up : BitVec 22) : zext up <<< 10 = up ++ (0 : BitVec 10) := by
  have hlt : up.toNat * 1024 < 4294967296 := by
    have := up.isLt
    omega
  refine BitVec.eq_of_toNat_eq ?_
  rw [BitVec.toNat_append]
  simp [zext, Nat.shiftLeft_eq, Nat.mod_eq_of_lt hlt]

/-! ### Registers and immediates (R90 to R93) -/

/-- Settles O2: each instruction by the commit of a register result, with its operation as the statement writes it. -/
theorem registerArithmeticResults : Obligations.RegisterArithmeticResults := by
  unfold Obligations.RegisterArithmeticResults
  intro h rd rs1 rs2 s hi
  refine ⟨writeRd_commits hi rfl rfl, writeRd_commits hi rfl rfl, writeRd_commits hi rfl rfl, writeRd_commits hi rfl rfl,
    writeRd_commits hi rfl rfl, writeRd_commits hi rfl ?sll, writeRd_commits hi rfl ?srl, writeRd_commits hi rfl ?sra,
    writeRd_commits hi rfl (ite_toInt_lt _ _ _ _), writeRd_commits hi rfl (ite_toNat_lt _ _ _ _),
    writeRd_commits hi rfl (min_toInt_eq _ _), writeRd_commits hi rfl (max_toInt_eq _ _),
    writeRd_commits hi rfl (min_toNat_eq _ _), writeRd_commits hi rfl (max_toNat_eq _ _), writeRd_commits hi rfl rfl,
    writeRd_commits hi rfl (mulh_eq _ _), writeRd_commits hi rfl (mulhu_eq _ _),
    writeRd_commits hi rfl (congrArg _ (leadingZeros_eq _)), writeRd_commits hi rfl rfl⟩
  all_goals rw [shiftAmount_eq]

/-- Settles O3: each instruction by the commit of a register result. -/
theorem immediateArithmeticResults : Obligations.ImmediateArithmeticResults := by
  unfold Obligations.ImmediateArithmeticResults
  intro h rd rs1 imm sh up s hi
  refine ⟨writeRd_commits hi rfl rfl, writeRd_commits hi rfl ?slti, writeRd_commits hi rfl (ite_toNat_lt _ _ _ _),
    writeRd_commits hi rfl rfl, writeRd_commits hi rfl rfl, writeRd_commits hi rfl rfl, writeRd_commits hi rfl rfl,
    writeRd_commits hi rfl rfl, writeRd_commits hi rfl rfl, writeRd_commits hi rfl (upperImmediate_eq up),
    writeRd_commits hi rfl (congrArg _ (upperImmediate_eq up))⟩
  rw [← toInt_sext imm (by decide)]
  exact ite_toInt_lt _ _ _ _

/-! ### Branches, jumps and calls (R73, R90, R454) -/

/-- A branch commits at its target where its condition holds, and else at the next instruction (R90). -/
theorem branchIf_commits {s : State} {h : Hart} (hi : canIssue s h = true) {i : Instr} {rs1 rs2 : GReg} {b c : Bool}
    {d : BitVec 13} (hexec : exec i s = branchIf s h rs1 rs2 b d) (hb : b = c) :
    ∃ t, exec i s = .next t ∧
      CommitsReg s t h 0 0 (if c then (thr s h).pc + 4 * d.signExtend 32 else (thr s h).pc + 4) := by
  subst hb
  refine ⟨_, ?_, retireTo_commits s h _⟩
  rw [hexec, branchIf, follow_of_canIssue hi, issue_ok hi]
  cases b <;> rfl

/-- An instruction that only moves the program counter commits there. -/
theorem jump_commits {s : State} {h : Hart} (hi : canIssue s h = true) {i : Instr} {pc : Word}
    (hexec : exec i s = issue s h (.ok (retireTo s h pc))) :
    ∃ t, exec i s = .next t ∧ CommitsReg s t h 0 0 pc :=
  ⟨_, hexec.trans (issue_ok hi _), retireTo_commits s h pc⟩

/-- An instruction that writes a register and moves the program counter commits with both. -/
theorem link_commits {s : State} {h : Hart} (hi : canIssue s h = true) {i : Instr} {rd : GReg} {v pc : Word}
    (hexec : exec i s = issue s h (.ok (retireTo (setGreg s h rd v) h pc))) :
    ∃ t, exec i s = .next t ∧ CommitsReg s t h rd v pc :=
  ⟨_, hexec.trans (issue_ok hi _), setGreg_commits (window_of_canIssue hi) rd v pc⟩

/-- A word is a multiple of 4 where its low two bits are 0 (R454). -/
theorem and_three_eq_zero_iff (a : Word) : a &&& 3 = 0 ↔ a.toNat % 4 = 0 := by
  rw [BitVec.toNat_eq, BitVec.toNat_and]
  exact Eq.congr (Nat.and_two_pow_sub_one_eq_mod a.toNat 2) rfl

theorem exec_jr {s : State} {h : Hart} (hi : canIssue s h = true) {rs1 : GReg} (ha : (greg s h rs1).toNat % 4 = 0) :
    exec (.jr h rs1) s = issue s h (.ok (retireTo s h (greg s h rs1))) := by
  show execJr h rs1 s = _
  simp only [execJr, (and_three_eq_zero_iff _).mpr ha, follow_of_canIssue hi]
  rfl

theorem exec_callr {s : State} {h : Hart} (hi : canIssue s h = true) {rs1 : GReg} (ha : (greg s h rs1).toNat % 4 = 0) :
    exec (.callr h rs1) s = issue s h (.ok (retireTo (setGreg s h 15 ((thr s h).pc + 4)) h (greg s h rs1))) := by
  show execCallr h rs1 s = _
  simp only [execCallr, (and_three_eq_zero_iff _).mpr ha, follow_of_canIssue hi]
  rfl

theorem exec_dbnz {s : State} {h : Hart} (hi : canIssue s h = true) {rc : GReg} (hr : rc ≠ 0) (d : BitVec 22) :
    exec (.dbnz h rc d) s = issue s h (.ok (retireTo (setGreg s h rc (greg s h rc - 1)) h
      (if greg s h rc = 1 then (thr s h).pc + 4 else (thr s h).pc + 4 * d.signExtend 32))) := by
  have hzero : greg s h rc - 1 = 0 ↔ greg s h rc = 1 := sub_eq_zero
  show execDbnz h rc d s = _
  simp only [execDbnz, if_neg hr, follow_of_canIssue hi, beq_false_of_ne hr, firstTrap_cons_false, firstTrap_nil, hzero,
    retire_setGreg]
  split <;> rfl

/-- Settles O4: a branch by its condition, a jump or call by where it goes. -/
theorem branchesAndJumpsGoOn : Obligations.BranchesAndJumpsGoOn := by
  unfold Obligations.BranchesAndJumpsGoOn
  intro h ht rs1 rs2 d d22 d25 s hi
  refine ⟨branchIf_commits hi rfl ?beq, branchIf_commits hi rfl ?bne, branchIf_commits hi rfl ?blt, branchIf_commits hi rfl ?bge,
    branchIf_commits hi rfl ?bltu, branchIf_commits hi rfl ?bgeu, jump_commits hi (follow_of_canIssue hi _ _ _ _ _),
    link_commits hi (follow_of_canIssue hi _ _ _ _ _), fun ha => jump_commits hi (exec_jr hi ha),
    fun ha => link_commits hi (exec_callr hi ha), fun hr => link_commits hi (exec_dbnz hi hr d22)⟩
  case beq => rfl
  case bne => simp [bne, BEq.beq]
  case blt => rfl
  case bge => rfl
  case bltu => rfl
  case bgeu => rfl

end Sys2Proof.Machine
end

section
/-! PROOFS. What a synchronous trap leaves (R146, R151), and the instructions that raise one. -/

namespace Sys2Proof.Machine

/-! ### CSRs of a thread -/

@[simp] theorem getCsr_putCsr_same (t : Thread) (n : Nat) (v : Word) : (t.putCsr n v).getCsr n = v := by
  simp [Thread.getCsr, Thread.putCsr]

theorem getCsr_putCsr_other (t : Thread) {n k : Nat} (v : Word) (h : k ≠ n) : (t.putCsr n v).getCsr k = t.getCsr k := by
  simp [Thread.getCsr, Thread.putCsr, h]

/-! ### What changes one thread alone -/

theorem OnlyThread.refl (s : State) (h : Hart) : OnlyThread s s h := ⟨rfl, fun _ _ => rfl, fun _ _ _ => rfl, rfl⟩

theorem OnlyThread.sameMemory {s t : State} {h : Hart} (ho : OnlyThread s t h) : SameMemory s t := fun _ => by
  rw [ho.1]
  rfl

theorem OnlyThread.mem_eq {s t : State} {h : Hart} (ho : OnlyThread s t h) : t.mem = s.mem := by rw [ho.1]

theorem OnlyThread.sameRegs {s t : State} {h : Hart} (ho : OnlyThread s t h) : SameRegs s t := fun _ => by
  rw [ho.1]
  rfl

/-- Every other thread, of this core or another, is as before. -/
theorem OnlyThread.others {s t : State} {h : Hart} (ho : OnlyThread s t h) (j : Hart) (hj : j ≠ h) : thr t j = thr s j := by
  obtain ⟨-, hcores, hthreads, -⟩ := ho
  by_cases hc : j.core = h.core
  · exact hthreads j hc hj
  · simp [thr, hcores j.core hc]

theorem onlyThread_modThr (s : State) (h : Hart) (f : Thread → Thread) : OnlyThread s (modThr s h f) h :=
  onlyThread_setThr s h _

theorem onlyThread_countCore (s : State) (h : Hart) (n d : Nat) : OnlyThread s (countCore s h.core n d) h :=
  onlyThread_setCoreCsr s h n _

theorem onlyThread_ite {s t u : State} {h : Hart} {p : Prop} [Decidable p] (ht : OnlyThread s t h) (hu : OnlyThread s u h) :
    OnlyThread s (if p then t else u) h := by
  split
  · exact ht
  · exact hu

/-! ### The windows that a trap closes (R155, R120) -/

theorem onlyThread_endHold (s : State) (h : Hart) : OnlyThread s (endHold s h) h := by
  unfold endHold
  split
  · exact .refl s h
  · exact onlyThread_ite (((onlyThread_modThr s h _).trans (onlyThread_setCoreCsr _ h _ _)).trans (onlyThread_countCore _ h _ _))
      (onlyThread_modThr s h _)

@[simp] theorem thr_endHold (s : State) (h : Hart) : thr (endHold s h) h = { thr s h with hold := none } := by
  cases hw : (thr s h).hold with
  | none =>
    simp only [endHold, hw]
    rw [← hw]
  | some w => cases hc : w.clipped <;> simp [endHold, hw, hc, modThr]

theorem coreCsr_endHold (s : State) (h : Hart) {n : Nat} (h1 : n ≠ 0x402) (h2 : n ≠ 0x119) :
    coreCsr (endHold s h) h.core n = coreCsr s h.core n := by
  cases hw : (thr s h).hold with
  | none => simp [endHold, hw]
  | some w =>
    cases hc : w.clipped
    · simp [endHold, hw, hc]
    · simp [endHold, hw, hc, coreCsr_countCore_other _ _ (.inr h2), coreCsr_setCoreCsr_other _ _ (.inr h1)]

theorem onlyThread_endTileWait (s : State) (h : Hart) : OnlyThread s (endTileWait s h) h := by
  unfold endTileWait
  split
  · exact .refl s h
  · exact (onlyThread_modThr s h _).trans (onlyThread_countCore _ h _ _)

@[simp] theorem thr_endTileWait (s : State) (h : Hart) : thr (endTileWait s h) h = { thr s h with tileWait := none } := by
  cases hw : (thr s h).tileWait with
  | none =>
    simp only [endTileWait, hw]
    rw [← hw]
  | some w => simp [endTileWait, hw, modThr]

theorem coreCsr_endTileWait (s : State) (h : Hart) {n : Nat} (hn : n ≠ 0x105) :
    coreCsr (endTileWait s h) h.core n = coreCsr s h.core n := by
  cases hw : (thr s h).tileWait with
  | none => simp [endTileWait, hw]
  | some w => simp [endTileWait, hw, coreCsr_countCore_other _ _ (.inr hn)]

/-! ### The entry of a trap (R146) -/

theorem onlyThread_enterTrap (s : State) (h : Hart) (tr : Trap) (epc : Word) (g : Bool) (p : BitVec 4) (o : Bool) :
    OnlyThread s (enterTrap s h tr epc g p o) h := by
  have hclosed := (onlyThread_endHold s h).trans (onlyThread_endTileWait _ h)
  have hentered (u : Thread) (k : Nat) := (hclosed.trans (onlyThread_setThr _ h u)).trans (onlyThread_countCore _ h k 1)
  have hcounted (u : Thread) (k : Nat) := onlyThread_ite (p := tr.cause = 0x0F)
    ((hentered u k).trans (onlyThread_countCore _ h 0x11A 1)) (hentered u k)
  exact onlyThread_ite ((hcounted _ _).trans (onlyThread_modThr _ h _)) (hcounted _ _)

/-- HOVR is no part of what a trap saves. -/
theorem thr_ite_hovr (s : State) (h : Hart) (v : Word) (c : Bool) :
    ∃ x, thr (if c then modThr s h fun t => { t with hovr := v } else s) h = { thr s h with hovr := x } := by
  cases c
  · exact ⟨(thr s h).hovr, rfl⟩
  · exact ⟨v, by simp [modThr]⟩

@[simp] theorem thr_ite_countCore (s : State) (h j : Hart) (n d : Nat) (p : Prop) [Decidable p] :
    thr (if p then countCore s h.core n d else s) j = thr s j := by
  split
  · exact thr_countCore s h.core n d j
  · rfl

/-- The fields of an ESTAT word as a trap writes it (R160). -/
theorem estat_fields (m : Mode) (p : BitVec 4) (n : Nat) (hn : n < 3) :
    let w : Word := BitVec.ofNat 32 (m.code + 4 * p.toNat + 64 * m.guarded.toNat + 128 * false.toNat + 512 * (n + 1))
    bits w 1 0 = m.code ∧ bits w 5 2 = p.toNat ∧ bit w 6 = m.guarded := by
  have hp := p.isLt
  have hm : m.code < 4 := by cases m <;> decide
  have hg : m.guarded.toNat ≤ 1 := m.guarded.toNat_le
  have hval : (m.code + 4 * p.toNat + 64 * m.guarded.toNat + 128 * false.toNat + 512 * (n + 1)) % 2 ^ 32 =
      m.code + 4 * p.toNat + 64 * m.guarded.toNat + 512 * (n + 1) := by
    simp only [Bool.toNat_false]
    omega
  simp only [bits, bit, BitVec.toNat_ofNat, hval, Nat.shiftRight_eq_div_pow, Nat.testBit_eq_decide_div_mod_eq]
  refine ⟨by omega, by omega, ?_⟩
  have hbit : (m.code + 4 * p.toNat + 64 * m.guarded.toNat + 512 * (n + 1)) / 2 ^ 6 % 2 = m.guarded.toNat := by omega
  rw [hbit]
  cases m.guarded <;> rfl

/-- The base of the vectors is none of the counters that an entry advances. -/
theorem vectorBase_closed (s : State) (h : Hart) (g : Bool) :
    (if g then coreCsr (endTileWait (endHold s h) h) h.core 0x800 else coreCsr (endTileWait (endHold s h) h) h.core 0x401) =
      coreCsr s h.core (if g then 0x800 else 0x401) := by
  cases g <;> simp [coreCsr_endTileWait, coreCsr_endHold]

/-- The CSRs of a thread with the save registers of the next level written for a trap (R146, R160). -/
def savedCsrs (u : Thread) (tr : Trap) (epc : Word) : Sparse Word :=
  let k := 0x414 + 4 * u.level.toNat
  sput (sput (sput (sput u.csr k (epc &&& ~~~(3 : Word))) (k + 1) (BitVec.ofNat 32 (u.mode.code + 4 * u.prio.toNat +
    64 * u.mode.guarded.toNat + 128 * false.toNat + 512 * (u.level.toNat + 1)))) (k + 2)
    (BitVec.ofNat 32 (tr.cause % 256 + 256 * (tr.status % 256)))) (k + 3) tr.eval

/-- A thread that has entered the supervisor of its world for a trap (R146, R151). -/
def enteredThread (u : Thread) (tr : Trap) (epc base hovr : Word) : Thread :=
  { u with
    csr := savedCsrs u tr epc
    level := BitVec.ofNat 2 (u.level.toNat + 1)
    mode := if u.mode.guarded then .gs else .ps
    hovr := hovr
    window := []
    wait := .none
    cur := none
    fetched := none
    hold := none
    tileWait := none
    pc := (base &&& ~~~(0xFFF : Word)) + BitVec.ofNat 32 (64 * tr.vec) }

/-- The four save registers of the level entered (R160). -/
theorem getCsr_enteredThread (u : Thread) (tr : Trap) (epc base x : Word) :
    let w := enteredThread u tr epc base x
    let n := u.level.toNat
    w.getCsr (0x414 + 4 * n) = epc &&& ~~~(3 : Word) ∧
    w.getCsr (0x415 + 4 * n) = BitVec.ofNat 32 (u.mode.code + 4 * u.prio.toNat + 64 * u.mode.guarded.toNat +
      128 * false.toNat + 512 * (n + 1)) ∧
    w.getCsr (0x416 + 4 * n) = BitVec.ofNat 32 (tr.cause % 256 + 256 * (tr.status % 256)) ∧
    w.getCsr (0x417 + 4 * n) = tr.eval := by
  have hkeys : ∀ n, 0x415 + 4 * n = 0x414 + 4 * n + 1 ∧ 0x416 + 4 * n = 0x414 + 4 * n + 2 ∧ 0x417 + 4 * n = 0x414 + 4 * n + 3 :=
    fun n => by omega
  obtain ⟨hest, hcause, heval⟩ := hkeys u.level.toNat
  simp [enteredThread, savedCsrs, Thread.getCsr, hest, hcause, heval]

/-- The entry of a synchronous trap leaves its thread entered, whatever HOVR becomes. -/
theorem thr_enterTrap (s : State) (h : Hart) (tr : Trap) (epc : Word) :
    ∃ x, thr (enterTrap s h tr epc (thr s h).mode.guarded (thr s h).prio false) h =
      enteredThread (thr s h) tr epc (coreCsr s h.core (if (thr s h).mode.guarded then 0x800 else 0x401)) x := by
  unfold enterTrap
  dsimp only
  obtain ⟨x, hx⟩ := thr_ite_hovr _ h _ _
  refine ⟨x, hx.trans ?_⟩
  simp only [thr_ite_countCore, thr_countCore, thr_setThr_same, thr_endTileWait, thr_endHold, vectorBase_closed,
    enteredThread, savedCsrs, Thread.putCsr]

theorem level_lt_three {l : BitVec 2} (hl : l ≠ 3) : l.toNat < 3 := by
  have h3 : l.toNat ≠ 3 := fun e => hl (BitVec.eq_of_toNat_eq e)
  have := l.isLt
  omega

theorem nextLevel_toNat {n : Nat} (hn : n < 3) : (BitVec.ofNat 2 (n + 1)).toNat = n + 1 := by
  rw [BitVec.toNat_ofNat]
  omega

/-- A trap at level 0, 1 or 2 saves what R146 says and goes to its vector. -/
theorem enterTrap_taken (s : State) (h : Hart) (tr : Trap) (epc : Word) (hl : (thr s h).level ≠ 3) :
    TrapTakenAt s (enterTrap s h tr epc (thr s h).mode.guarded (thr s h).prio false) h tr epc := by
  have hn := level_lt_three hl
  have hlevel := nextLevel_toNat hn
  obtain ⟨hmode, hprio, hworld⟩ := estat_fields (thr s h).mode (thr s h).prio (thr s h).level.toNat hn
  obtain ⟨x, hx⟩ := thr_enterTrap s h tr epc
  obtain ⟨hepc, hest, hcause, heval⟩ := getCsr_enteredThread (thr s h) tr epc
    (coreCsr s h.core (if (thr s h).mode.guarded then 0x800 else 0x401)) x
  unfold TrapTakenAt
  dsimp only
  rw [hx, hepc, hest, hcause, heval]
  exact ⟨hlevel, rfl, rfl, rfl, rfl, hmode, hprio, hworld, rfl, rfl, rfl, rfl, rfl, rfl, rfl, rfl⟩

/-! ### Synchronous traps (R146) -/

/-- What a trap takes from its thread and core before its entry: only what no instruction of the thread has changed since. -/
theorem TrapTakenAt.of_agrees {s u t : State} {h : Hart} {tr : Trap} {epc : Word} (ht : TrapTakenAt u t h tr epc)
    (hthr : thr u h = { thr s h with
      latFrom := (thr u h).latFrom, window := (thr u h).window, wait := (thr u h).wait, cur := (thr u h).cur })
    (hplain : coreCsr u h.core 0x401 = coreCsr s h.core 0x401) (hguarded : coreCsr u h.core 0x800 = coreCsr s h.core 0x800) :
    TrapTakenAt s t h tr epc := by
  have hbase : ∀ g : Bool, coreCsr u h.core (if g then 0x800 else 0x401) = coreCsr s h.core (if g then 0x800 else 0x401) :=
    fun g => by cases g <;> assumption
  unfold TrapTakenAt at ht ⊢
  dsimp only at ht ⊢
  rw [hbase, hthr] at ht
  exact ht

/-- A synchronous trap below level 3 is taken, and changes nothing but its thread and counters of its core. -/
theorem takeTrap_taken (s : State) (h : Hart) (tr : Trap) (epc : Word) (hl : (thr s h).level ≠ 3) :
    TrapTakenAt s (takeTrap s h tr epc) h tr epc ∧ OnlyThread s (takeTrap s h tr epc) h := by
  have hnote : thr (noteHandlerIssue s h) h = { thr s h with latFrom := none } := thr_noteHandlerIssue s h
  have htaken := enterTrap_taken (noteHandlerIssue s h) h tr epc (by rwa [hnote])
  simp only [takeTrap, if_neg hl]
  rw [hnote] at htaken
  refine ⟨htaken.of_agrees ?_ ?_ ?_, (onlyThread_noteHandlerIssue s h).trans (onlyThread_enterTrap _ h _ _ _ _ _)⟩
  · rw [hnote]
  · exact coreCsr_noteHandlerIssue_other s h (by decide)
  · exact coreCsr_noteHandlerIssue_other s h (by decide)

/-- An instruction that raises a trap below level 3 takes it and has no other effect (R146). -/
theorem issue_trap {s : State} {h : Hart} (hi : canIssue s h = true) (hl : (thr s h).level ≠ 3) {i : Instr} {tr : Trap}
    (hexec : exec i s = issue s h (.trap s tr)) :
    ∃ t, exec i s = .next t ∧ TrapTaken s t h tr ∧ OnlyThread s t h := by
  obtain ⟨htaken, honly⟩ := takeTrap_taken s h tr (thr s h).pc hl
  exact ⟨_, by rw [hexec, issue, if_pos hi], htaken, honly⟩

end Sys2Proof.Machine
end

section
/-! PROOFS. Windowed calls and returns (R52 to R57), and misaligned accesses (R67). -/

namespace Sys2Proof.Machine

/-! ### WSTAT and the windows (R52, R61) -/

theorem cwp_setWstat (t : Thread) (c r : Nat) : (t.setWstat c r).cwp = c % 8 := by
  simp only [Thread.cwp, Thread.setWstat, getCsr_putCsr_same, bits, BitVec.toNat_ofNat, Nat.shiftRight_eq_div_pow]
  omega

theorem resident_setWstat (t : Thread) (c r : Nat) : (t.setWstat c r).resident = r % 16 := by
  simp only [Thread.resident, Thread.setWstat, getCsr_putCsr_same, bits, BitVec.toNat_ofNat, Nat.shiftRight_eq_div_pow]
  omega

theorem getCsr_setWstat_other (t : Thread) (c r : Nat) {n : Nat} (hn : n ≠ 0x400) : (t.setWstat c r).getCsr n = t.getCsr n :=
  getCsr_putCsr_other t _ hn

theorem winReg_setWinReg_same (t : Thread) (k j : Nat) (v : Word) : (t.setWinReg k j v).winReg k j = v := by
  simp [Thread.winReg, Thread.setWinReg]

/-- An entry of a window written leaves every other entry of the windows. -/
theorem winReg_setWinReg_other (t : Thread) {k j l i : Nat} (v : Word) (hj : j < 16) (hi : i < 16)
    (h : l % 8 ≠ k % 8 ∨ i ≠ j) : (t.setWinReg k j v).winReg l i = t.winReg l i := by
  have hne : 16 * (l % 8) + i ≠ 16 * (k % 8) + j := by omega
  simp [Thread.winReg, Thread.setWinReg, hne]

/-! ### Windowed calls (R53, R57) -/

/-- A thread that has entered a fresh window with its return address in w15 (R53). -/
def calledThread (u : Thread) : Thread := (u.setWstat (u.cwp + 1) (u.resident + 1)).setWinReg (u.cwp + 1) 15 (u.pc + 4)

/-- With a window to spare a call enters it and commits at its target. -/
theorem windowCall_commits {s : State} {h : Hart} (hi : canIssue s h = true) {i : Instr} {target : Word}
    (hexec : exec i s = issue s h (windowCall s h target)) (hr : (thr s h).resident < 8) :
    ∃ t, exec i s = .next t ∧ CommitsAs s t h (calledThread (thr s h)) target := by
  refine ⟨_, ?_, setThr_commits s h (u := calledThread (thr s h)) rfl target⟩
  rw [hexec, windowCall, if_neg (Nat.ne_of_lt hr), issue_ok hi]
  rfl

/-- What a windowed call leaves of its thread (R53). -/
theorem calledThread_fields (u : Thread) (hr : u.resident < 8) :
    (calledThread u).cwp = (u.cwp + 1) % 8 ∧ (calledThread u).resident = u.resident + 1 ∧
      (calledThread u).winReg (u.cwp + 1) 15 = u.pc + 4 ∧
      (∀ k j, j < 16 → k % 8 ≠ (u.cwp + 1) % 8 ∨ j ≠ 15 → (calledThread u).winReg k j = u.winReg k j) ∧
      ∀ n, n ≠ 0x400 → (calledThread u).getCsr n = u.getCsr n := by
  refine ⟨cwp_setWstat u _ _, ?_, winReg_setWinReg_same _ _ _ _, fun k j hj h => winReg_setWinReg_other _ _ (by decide) hj h,
    fun n hn => getCsr_setWstat_other u _ _ hn⟩
  calc (calledThread u).resident
    _ = (u.resident + 1) % 16 := resident_setWstat u _ _
    _ = u.resident + 1 := Nat.mod_eq_of_lt (by omega)

/-- With every window resident a call traps (R53, R57). -/
theorem windowCall_full {s : State} {h : Hart} (target : Word) (hr : (thr s h).resident = 8) :
    windowCall s h target = .trap s (if (thr s h).level = 0 then trapWinOver else trapDouble 0) := by
  rw [windowCall, if_pos hr, windowTrap]

/-! ### Returns (R54, R57, R454) -/

/-- A thread that has left its window (R54). -/
def returnedThread (u : Thread) : Thread := u.setWstat (u.cwp + 7) (u.resident - 1)

theorem misalignedTarget (a : Word) : (a &&& 3 != 0) = decide (a.toNat % 4 ≠ 0) :=
   Bool.eq_iff_iff.mpr (bne_iff_ne.trans ((not_congr (and_three_eq_zero_iff a)).trans decide_eq_true_iff.symm))

/-- RETW takes the first of its traps, or leaves its window (R54, R453). -/
theorem exec_retw (s : State) (h : Hart) :
    exec (.retw h) s = issue s h (firstTrap s
      [(decide (((thr s h).winReg (thr s h).cwp 15).toNat % 4 ≠ 0), trapMisaligned ((thr s h).winReg (thr s h).cwp 15)),
        (decide ((thr s h).resident ≤ 1), if (thr s h).level = 0 then trapWinUnder else trapDouble 1)]
      (.ok (retireTo (setThr s h (returnedThread (thr s h))) h ((thr s h).winReg (thr s h).cwp 15)))) := by
  show execRetw h s = _
  rw [execRetw]
  simp only [misalignedTarget]
  rfl

/-- With a window to leave and an aligned target a return commits there (R54). -/
theorem retw_commits {s : State} {h : Hart} (hi : canIssue s h = true) (h2 : 2 ≤ (thr s h).resident)
    (ha : ((thr s h).winReg (thr s h).cwp 15).toNat % 4 = 0) :
    ∃ t, exec (.retw h) s = .next t ∧
      CommitsAs s t h (returnedThread (thr s h)) ((thr s h).winReg (thr s h).cwp 15) := by
  refine ⟨_, ?_, setThr_commits s h (u := returnedThread (thr s h)) rfl _⟩
  rw [exec_retw, decide_eq_false (not_not.mpr ha), decide_eq_false (Nat.not_le.mpr h2), firstTrap_cons_false,
    firstTrap_cons_false, firstTrap_nil, issue_ok hi]

/-- What a return leaves of its thread (R54). -/
theorem returnedThread_fields (u : Thread) (h8 : u.resident ≤ 8) :
    (returnedThread u).cwp = (u.cwp + 7) % 8 ∧ (returnedThread u).resident = u.resident - 1 ∧
      ∀ n, n ≠ 0x400 → (returnedThread u).getCsr n = u.getCsr n := by
  refine ⟨cwp_setWstat u _ _, ?_, fun n hn => getCsr_setWstat_other u _ _ hn⟩
  calc (returnedThread u).resident
    _ = (u.resident - 1) % 16 := resident_setWstat u _ _
    _ = u.resident - 1 := Nat.mod_eq_of_lt (by omega)

/-- Settles O5: a call by the fresh window it enters, a return by the window it leaves, and their traps in the order of R453. -/
theorem windowCallsAndReturns : Obligations.WindowCallsAndReturns := by
  unfold Obligations.WindowCallsAndReturns
  intro h d25 rs1 s hi u pc called
  have hcalled {i : Instr} {target : Word} (hexec : exec i s = issue s h (windowCall s h target)) (hr : u.resident < 8) :
      called i target := by
    obtain ⟨t, ht, hone, hthr⟩ := windowCall_commits hi hexec hr
    obtain ⟨hcwp, hres, hret, hwin, hcsr⟩ := calledThread_fields u hr
    refine ⟨t, ht, hone, ?_⟩
    rw [hthr]
    exact ⟨rfl, hcwp, hres, hret, rfl, rfl, rfl, hwin, hcsr⟩
  have htraps {i : Instr} {tr : Trap} (hl : u.level ≠ 3) (hexec : exec i s = issue s h (.trap s tr)) :
      ∃ t, exec i s = .next t ∧ TrapTaken s t h tr ∧ t.mem = s.mem := by
    obtain ⟨t, ht, htaken, honly⟩ := issue_trap hi hl hexec
    exact ⟨t, ht, htaken, honly.mem_eq⟩
  refine ⟨hcalled rfl, fun hr ha => hcalled ?callwr hr, fun hr hl => htraps hl ?callw, fun h2 h8 ha => ?retw,
    fun h1 ha hl => htraps hl ?underflow, fun ha hl => htraps hl ?misaligned⟩
  case callwr =>
    show execCallwr h rs1 s = _
    rw [execCallwr, misalignedTarget, decide_eq_false (not_not.mpr ha), firstTrap_cons_false, firstTrap_nil]
  case callw =>
    show execCallw h d25 s = _
    rw [execCallw, windowCall_full _ hr]
  case retw =>
    obtain ⟨t, ht, hone, hthr⟩ := retw_commits hi h2 ha
    obtain ⟨hcwp, hres, hcsr⟩ := returnedThread_fields u h8
    refine ⟨t, ht, hone, ?_⟩
    rw [hthr]
    exact ⟨rfl, hcwp, hres, rfl, rfl, rfl, rfl, hcsr⟩
  case underflow =>
    rw [exec_retw, decide_eq_false (not_not.mpr ha), decide_eq_true (Nat.le_of_eq h1), firstTrap_cons_false, firstTrap_cons_true]
  case misaligned =>
    rw [exec_retw, decide_eq_true ha, firstTrap_cons_true]

/-! ### The checks of an access (R67, R453) -/

theorem loadInsn_of_canIssue {s : State} {h : Hart} (hi : canIssue s h = true) (rd rb : GReg) (off : BitVec 13) (n : Nat)
    (sg v : Bool) : loadInsn s h rd rb off n sg v = issue s h (load s h rd (memAddr s h rb off) n sg v) := by
  simp [loadInsn, canFollow_of_canIssue hi]

theorem storeInsn_of_canIssue {s : State} {h : Hart} (hi : canIssue s h = true) (rs rb : GReg) (off : BitVec 13) (n : Nat) :
    storeInsn s h rs rb off n = issue s h (store s h (memAddr s h rb off) n (greg s h rs)) := by
  simp [storeInsn, canFollow_of_canIssue hi]

theorem issueTraps_misaligned (s : State) (h : Hart) {va : Word} {n : Nat} (ha : va.toNat % n ≠ 0) :
    issueTraps s h va n = some (trapMisaligned va) := by
  simp [issueTraps, misaligned, ha]

/-- An aligned access raises the trap of the first byte that its view refuses, if there is one. -/
theorem issueTraps_aligned (s : State) (h : Hart) {va : Word} {n : Nat} (ha : va.toNat % n = 0) :
    issueTraps s h va n = viewTrap s h va n := by
  simp [issueTraps, misaligned, ha]

theorem load_of_trap {s : State} {h : Hart} {va : Word} {n : Nat} {tr : Trap} (ht : issueTraps s h va n = some tr) (rd : GReg)
    (sg v : Bool) : load s h rd va n sg v = .trap s tr := by
  simp [load, ht]

theorem store_of_trap {s : State} {h : Hart} {va : Word} {n : Nat} {tr : Trap} (ht : issueTraps s h va n = some tr) (v : Word) :
    store s h va n v = .trap s tr := by
  simp [store, ht]

/-- Settles O9: alignment is the first check of a load or a store, whatever its target. -/
theorem misalignedAccessTraps : Obligations.MisalignedAccessTraps := by
  unfold Obligations.MisalignedAccessTraps
  intro h rd rb v off s hi hl va traps
  have htraps {i : Instr} (hexec : exec i s = issue s h (.trap s (trapMisaligned va))) : traps i := by
    obtain ⟨t, ht, htaken, honly⟩ := issue_trap hi hl hexec
    exact ⟨t, ht, htaken, honly.sameMemory, honly.sameRegs, honly.others⟩
  have hload {i : Instr} {n : Nat} {sg : Bool} (hexec : exec i s = loadInsn s h rd rb off n sg v) (ha : va.toNat % n ≠ 0) :
      traps i := by
    refine htraps ?_
    rw [hexec, loadInsn_of_canIssue hi]
    exact congrArg _ (load_of_trap (issueTraps_misaligned s h ha) rd sg v)
  have hstore {i : Instr} {n : Nat} (hexec : exec i s = storeInsn s h rd rb off n) (ha : va.toNat % n ≠ 0) : traps i := by
    refine htraps ?_
    rw [hexec, storeInsn_of_canIssue hi]
    exact congrArg _ (store_of_trap (issueTraps_misaligned s h ha) _)
  exact ⟨fun ha => ⟨hload rfl ha, hload rfl ha, hstore rfl ha⟩, fun ha => ⟨hload rfl ha, hstore rfl ha⟩⟩

end Sys2Proof.Machine
end

section
/-! PROOFS. The scalar fixed-point instructions: saturation and its flags, the accumulator, rounding and the generator
(R77 to R82). -/

namespace Sys2Proof.Machine

/-! ### Saturation (R61, R78) -/

theorem two_pow_pos (n : Nat) : (0 : Int) < 2 ^ n := Int.pow_pos (by decide)

/-- Saturation is the clamp to the format. -/
theorem satTo_eq (w : Nat) (x : Int) : satTo w x = max (-2 ^ (w - 1)) (min (2 ^ (w - 1) - 1) x) := by
  have hpos := two_pow_pos (w - 1)
  unfold satTo maxSigned minSigned
  generalize (2 : Int) ^ (w - 1) = m at hpos ⊢
  split
  · omega
  · split <;> omega

/-- Saturation changes exactly the values outside the format. -/
theorem saturates_eq (w : Nat) (x : Int) : saturates w x = decide (x < -2 ^ (w - 1) ∨ 2 ^ (w - 1) ≤ x) := by
  unfold saturates maxSigned minSigned
  generalize (2 : Int) ^ (w - 1) = m
  rw [← Bool.decide_or]
  exact decide_eq_decide.mpr (by omega)

/-! ### SATF (R61, R62, R70) -/

/-- A thread with a bit of SATF set where a condition holds. -/
def flagged (u : Thread) (c : Bool) (f : Word) : Thread := if c then u.putCsr 0x001 (u.getCsr 0x001 ||| f) else u

theorem flagIf_setThr (s : State) (h : Hart) (u : Thread) (c : Bool) (f : Word) :
    flagIf (setThr s h u) h c f = setThr s h (flagged u c f) := by
  cases c <;> simp [flagIf, flagged, setSatf, setThrCsr, thrCsr]

/-- SATF is the one CSR of its thread that changes. -/
theorem getCsr_flagged (u : Thread) (c : Bool) (f : Word) :
    (flagged u c f).getCsr 0x001 = u.getCsr 0x001 ||| (if c then f else 0) ∧
      ∀ n, n ≠ 0x001 → (flagged u c f).getCsr n = u.getCsr n := by
  cases c
  · exact ⟨by simp [flagged], fun n _ => rfl⟩
  · exact ⟨getCsr_putCsr_same u _ _, fun n hn => getCsr_putCsr_other u _ hn⟩

theorem flagged_satf (u : Thread) (w : Nat) (x : Int) (f : Word) :
    (flagged u (saturates w x) f).getCsr 0x001 =
      u.getCsr 0x001 ||| (if x < -2 ^ (w - 1) ∨ 2 ^ (w - 1) ≤ x then f else 0) := by
  rw [(getCsr_flagged u _ f).1, saturates_eq]
  simp only [decide_eq_true_eq]

/-- Of a thread with SATF flagged, only the CSRs have changed. -/
theorem flagged_eq (u : Thread) (c : Bool) (f : Word) : flagged u c f = { u with csr := (flagged u c f).csr } := by
  cases c <;> rfl

@[simp] theorem flagged_latFrom (u : Thread) (c : Bool) (f : Word) : (flagged u c f).latFrom = u.latFrom := by rw [flagged_eq]
@[simp] theorem flagged_pc (u : Thread) (c : Bool) (f : Word) : (flagged u c f).pc = u.pc := by rw [flagged_eq]
@[simp] theorem flagged_acc (u : Thread) (c : Bool) (f : Word) : (flagged u c f).acc = u.acc := by rw [flagged_eq]
@[simp] theorem flagged_v (u : Thread) (c : Bool) (f : Word) : (flagged u c f).v = u.v := by rw [flagged_eq]
@[simp] theorem flagged_mode (u : Thread) (c : Bool) (f : Word) : (flagged u c f).mode = u.mode := by rw [flagged_eq]

/-- A scalar register reads alike in threads that agree in their files, their window pointer and what they hold. -/
theorem thread_rd_of_cwp {t u : Thread} (hg : u.g = t.g) (hn : u.win = t.win) (hs : u.shadow = t.shadow)
    (hc : u.cwp = t.cwp) (hl : u.level = t.level) (hw : u.window = t.window) (r : GReg) : u.rd r = t.rd r := by
  simp [Thread.rd, Thread.writer, Thread.fileRd, Thread.winReg, hg, hn, hs, hc, hl, hw]

theorem cwp_congr {t u : Thread} (h : u.getCsr 0x400 = t.getCsr 0x400) : u.cwp = t.cwp := by
  simp [Thread.cwp, h]

/-- Flags are no part of a scalar register. -/
@[simp] theorem flagged_rd (u : Thread) (c : Bool) (f : Word) (r : GReg) : (flagged u c f).rd r = u.rd r := by
  have hcwp : (flagged u c f).cwp = u.cwp := cwp_congr ((getCsr_flagged u c f).2 0x400 (by decide))
  refine thread_rd_of_cwp ?_ ?_ ?_ hcwp ?_ ?_ r <;> rw [flagged_eq]

theorem retire_setThr (s : State) (h : Hart) (u : Thread) : retire (setThr s h u) h = retireTo (setThr s h u) h (u.pc + 4) := by
  simp [retire]

/-- An instruction that changes its thread and may set a bit of SATF commits with both (R70). -/
theorem flagged_commits {s : State} {h : Hart} (hi : canIssue s h = true) {i : Instr} {u : Thread} {c : Bool} {f : Word}
    (hlat : u.latFrom = (thr s h).latFrom)
    (hexec : exec i s = issue s h (.ok (retire (flagIf (setThr s h u) h c f) h))) :
    ∃ t, exec i s = .next t ∧ CommitsAs s t h (flagged u c f) (u.pc + 4) := by
  refine ⟨_, ?_, setThr_commits s h ((flagged_latFrom u c f).trans hlat) _⟩
  rw [hexec, issue_ok hi, flagIf_setThr, retire_setThr, flagged_pc]

/-- A thread once an instruction has written `rd` and, where `x` is outside its format, set a bit of SATF (R70, R82). -/
theorem flaggedResult_fields {s t : State} {h : Hart} {rd : GReg} {v f pc : Word} {w : Nat} {x : Int}
    (hw : (thr s h).window = [])
    (hthr : thr t h = afterCommit (flagged ((thr s h).wr rd v) (saturates w x) f) pc) :
    greg t h rd = (if rd = 0 then 0 else v) ∧ (∀ r, r ≠ rd → greg t h r = greg s h r) ∧
      (thr t h).getCsr 0x001 = (thr s h).getCsr 0x001 ||| (if x < -2 ^ (w - 1) ∨ 2 ^ (w - 1) ≤ x then f else 0) ∧
      (∀ n, n ≠ 0x001 → (thr t h).getCsr n = (thr s h).getCsr n) ∧
      (thr t h).acc = (thr s h).acc ∧ (thr t h).v = (thr s h).v ∧ (thr t h).mode = (thr s h).mode := by
  have hreg : ∀ r, greg t h r = ((thr s h).wr rd v).rd r := fun r => by
    rw [greg, hthr, greg_afterCommit, flagged_rd]
  have hcsr : ∀ n, (thr t h).getCsr n = (flagged ((thr s h).wr rd v) (saturates w x) f).getCsr n := fun n => by
    rw [hthr]
    rfl
  refine ⟨?_, fun r hr => ?_, ?_, fun n hn => ?_, ?_, ?_, ?_⟩
  · rw [hreg, thread_rd_wr_same hw]
  · rw [hreg, thread_rd_wr_other hw _ hr, greg]
  · rw [hcsr, flagged_satf, thread_wr_getCsr]
  · rw [hcsr, (getCsr_flagged _ _ f).2 n hn, thread_wr_getCsr]
  all_goals simp [hthr, afterCommit]

/-- Settles O11: the sum goes to rd clamped, and SATF.ADD is flagged where the clamp changed it. -/
theorem saturatingAddsClampAndFlag : Obligations.SaturatingAddsClampAndFlag := by
  unfold Obligations.SaturatingAddsClampAndFlag
  intro h rd rs1 rs2 s hi a b gives
  have hgives {i : Instr} {w : Nat} {x : Int} (hexec : exec i s = satAddRd s h rd w x) : gives i w x := by
    obtain ⟨t, ht, hone, hthr⟩ := flagged_commits hi (u := (thr s h).wr rd (wordOf (satTo w x))) (by simp) hexec
    have hpc : (thr t h).pc = (thr s h).pc + 4 := by simp [hthr, afterCommit]
    have hfields := flaggedResult_fields (window_of_canIssue hi) hthr
    rw [satTo_eq] at hfields
    exact ⟨t, ht, hone, hpc, hfields⟩
  have hword (v : Word) : lowInt 32 v = v.toInt := by simp [lowInt]
  refine ⟨hgives rfl, hgives rfl, hgives rfl, hgives rfl, hgives ?add, hgives ?sub⟩
  case add => rw [← hword, ← hword]; rfl
  case sub => rw [← hword, ← hword]; rfl

/-! ### The accumulator (R77, R78) -/

/-- What a write of the accumulator leaves of its thread: all but the accumulator and SATF (R59, R82). -/
def KeepsButAcc (s t : State) (h : Hart) : Prop :=
  OneCommit s t h ∧ (thr t h).pc = (thr s h).pc + 4 ∧ (∀ r, greg t h r = greg s h r) ∧
    (∀ n, n ≠ 0x001 → (thr t h).getCsr n = (thr s h).getCsr n) ∧ (thr t h).v = (thr s h).v

/-- An instruction that writes the accumulator, and may set SATF.ACC, commits. -/
theorem accWrite_commits {s : State} {h : Hart} (hi : canIssue s h = true) {i : Instr} {v : BitVec 40} {c : Bool}
    (hexec : exec i s = issue s h (.ok (retire (flagIf (setAcc s h v) h c satfAcc) h))) :
    ∃ t, exec i s = .next t ∧ KeepsButAcc s t h ∧ (thr t h).acc = v ∧
      (thr t h).getCsr 0x001 = (thr s h).getCsr 0x001 ||| (if c then satfAcc else 0) := by
  obtain ⟨t, ht, hone, hthr⟩ := flagged_commits hi (u := { thr s h with acc := v }) rfl hexec
  obtain ⟨hsatf, hother⟩ := getCsr_flagged { thr s h with acc := v } c satfAcc
  refine ⟨t, ht, ⟨hone, ?_, fun r => ?_, fun n hn => ?_, ?_⟩, ?_, ?_⟩
  · rw [hthr, afterCommit]
  · rw [greg, hthr, greg_afterCommit, flagged_rd]
    exact thread_rd_congr rfl rfl rfl rfl rfl rfl r
  · rw [hthr]
    exact hother n hn
  · rw [hthr, afterCommit, flagged_v]
  · rw [hthr, afterCommit, flagged_acc]
  · rw [hthr]
    exact hsatf

/-- CVT.BH: a byte as the upper byte of a half (R82). -/
theorem cvtBh_eq (x : BitVec 8) : wordOf (x.toInt * 2 ^ 8) = (x ++ (0 : BitVec 8)).signExtend 32 := by
  have hx := x.isLt
  have hnat : (x ++ (0 : BitVec 8)).toNat = x.toNat * 2 ^ 8 := by
    rw [BitVec.toNat_append, Nat.shiftLeft_eq]
    exact Nat.or_zero _
  have hint : (x ++ (0 : BitVec 8)).toInt = x.toInt * 2 ^ 8 := by
    rw [BitVec.toInt_eq_toNat_cond, BitVec.toInt_eq_toNat_cond, hnat]
    split <;> split <;> omega
  rw [BitVec.signExtend, hint, wordOf]

/-- Settles O12: an addition by the saturation of its exact sum, the moves by the commit of a register result. -/
theorem accumulatorProductsSaturate : Obligations.AccumulatorProductsSaturate := by
  unfold Obligations.AccumulatorProductsSaturate
  intro h rd rs1 rs2 s hi a b old keeps adds q15 q7
  have hadds {i : Instr} {p : Int} (hexec : exec i s = accAdd s h p) : adds i p := by
    obtain ⟨t, ht, hkeeps, hacc, hsatf⟩ := accWrite_commits hi hexec
    have houtside : saturates 40 (accInt s h + p) = decide (2 ^ 39 - 1 < old.toInt + p ∨ old.toInt + p < -2 ^ 39) :=
      (Bool.decide_or _ _).symm
    rw [houtside] at hsatf
    simp only [decide_eq_true_eq] at hsatf
    exact ⟨t, ht, hkeeps, hacc, hsatf⟩
  have hmoves {i : Instr} {v : BitVec 40} (hexec : exec i s = issue s h (.ok (retire (setAcc s h v) h))) :
      ∃ t, exec i s = .next t ∧ keeps t ∧ (thr t h).acc = v ∧ (thr t h).getCsr 0x001 = (thr s h).getCsr 0x001 := by
    obtain ⟨t, ht, hkeeps, hacc, hsatf⟩ := accWrite_commits (c := false) hi hexec
    exact ⟨t, ht, hkeeps, hacc, by simpa using hsatf⟩
  refine ⟨hadds rfl, hadds rfl, hadds rfl, hadds rfl, hmoves rfl, hmoves rfl, writeRd_commits hi rfl ?low, writeRd_commits hi rfl rfl,
    writeRd_commits hi rfl ?half⟩
  case low => exact BitVec.eq_of_toNat_eq (by simp [old])
  case half => exact cvtBh_eq (a.setWidth 8)

/-! ### Rounding (R79) -/

/-- The quotient of a sum whose second part is at most the divisor. -/
theorem add_ediv_step (v : Int) {a m : Int} (hm : 0 < m) (h0 : 0 ≤ a) (ha : a ≤ m) :
    (v + a) / m = if m ≤ v % m + a then v / m + 1 else v / m := by
  have hlt := Int.emod_lt_of_pos v hm
  have hsum : v + a = v % m + a + m * (v / m) := by
    have := Int.emod_add_mul_ediv v m
    omega
  have hnn := Int.emod_nonneg v hm.ne'
  rw [hsum, Int.add_mul_ediv_left _ _ hm.ne']
  split
  · have : (v % m + a) / m = 1 := Int.ediv_eq_iff_of_pos hm |>.mpr ⟨by omega, by omega⟩
    omega
  · have : (v % m + a) / m = 0 := Int.ediv_eq_zero_of_lt (by omega) (by omega)
    omega

/-- The value of 2 to a positive power is twice its half. -/
theorem two_pow_half {d : Nat} (hd : 1 ≤ d) : (2 : Int) ^ d = 2 * 2 ^ (d - 1) := by
  rw [← pow_succ', Nat.sub_add_cancel hd]

theorem roundShift_nearUp (v : Int) {d : Nat} (r : Nat) (hd : 1 ≤ d) :
    roundShift v d 1 r = (v + 2 ^ (d - 1)) / 2 ^ d := by
  have hhalf := two_pow_half hd
  have hpos := two_pow_pos (d - 1)
  rw [add_ediv_step v (two_pow_pos d) hpos.le (by omega)]
  simp only [roundShift]
  generalize v % 2 ^ d = frac
  congr 1
  exact propext ⟨fun h => by omega, fun h => by omega⟩

/-- The scaled draw, as its shift gives it (R79). -/
theorem stochastic_addend (d r : Nat) : (if d ≤ 16 then r >>> (16 - d) else r <<< (d - 16)) = r * 2 ^ d / 2 ^ 16 := by
  split
  case isTrue h =>
    obtain ⟨k, hk⟩ := Nat.exists_eq_add_of_le h
    have hsub : 16 - d = k := by omega
    rw [hsub, hk, Nat.shiftRight_eq_div_pow, pow_add, Nat.mul_comm r, Nat.mul_div_mul_left _ _ (Nat.two_pow_pos d)]
  case isFalse h =>
    obtain ⟨k, hk⟩ := Nat.exists_eq_add_of_le (Nat.le_of_not_le h)
    have hsub : d - 16 = k := by omega
    rw [hsub, hk, Nat.shiftLeft_eq, pow_add, Nat.mul_comm (2 ^ 16), ← Nat.mul_assoc, Nat.mul_div_cancel _ (Nat.two_pow_pos 16)]

theorem roundShift_stochastic (v : Int) (d : Nat) {r : Nat} (hr : r < 2 ^ 16) :
    roundShift v d 3 r = (v + ((r * 2 ^ d / 2 ^ 16 : Nat) : Int)) / 2 ^ d := by
  have hle : r * 2 ^ d / 2 ^ 16 ≤ 2 ^ d := by
    refine Nat.div_le_of_le_mul ?_
    exact Nat.mul_le_mul_right _ hr.le
  have hcast : ((r * 2 ^ d / 2 ^ 16 : Nat) : Int) ≤ 2 ^ d := by exact_mod_cast hle
  rw [add_ediv_step v (two_pow_pos d) (Int.natCast_nonneg _) hcast]
  simp only [roundShift, stochastic_addend]

/-- NEAR_EVEN is within half a unit, and even where it is half a unit away (R79). -/
theorem roundShift_nearEven (v : Int) {d : Nat} (r : Nat) (hd : 1 ≤ d) :
    2 * (roundShift v d 2 r * 2 ^ d - v) ≤ 2 ^ d ∧ -(2 ^ d : Int) ≤ 2 * (roundShift v d 2 r * 2 ^ d - v) ∧
      (2 * (roundShift v d 2 r * 2 ^ d - v) = 2 ^ d ∨ 2 * (roundShift v d 2 r * 2 ^ d - v) = -(2 ^ d : Int) →
        roundShift v d 2 r % 2 = 0) := by
  have hhalf := two_pow_half hd
  have hpos := two_pow_pos (d - 1)
  have hlt := Int.emod_lt_of_pos v (two_pow_pos d)
  have hnn := Int.emod_nonneg v (two_pow_pos d).ne'
  have hv := Int.emod_add_mul_ediv v (2 ^ d)
  have hcomm : (2 : Int) ^ d * (v / 2 ^ d) = v / 2 ^ d * 2 ^ d := Int.mul_comm _ _
  simp only [roundShift]
  split
  case isTrue h =>
    have hsucc : (v / 2 ^ d + 1) * 2 ^ d = v / 2 ^ d * 2 ^ d + 2 ^ d := by ring
    rw [hsucc]
    generalize v / 2 ^ d * 2 ^ d = e at *
    omega
  case isFalse h =>
    generalize v / 2 ^ d * 2 ^ d = e at *
    omega

/-! ### Narrowing (R79 to R82) -/

/-- A run of narrowings that ends in a thread's flag: its thread, the generator and no more. -/
theorem endNarrow_setThr (s : State) (h : Hart) (u : Thread) (n : Narrowing) (f : Word) :
    thr (endNarrow (setThr s h u) h n f) h = flagged u n.sat f ∧ OnlyThread s (endNarrow (setThr s h u) h n f) h ∧
      coreCsr (endNarrow (setThr s h u) h n f) h.core 0x004 = n.seed := by
  have hflag (t : State) : endNarrow (setThr s h u) h n f = flagIf t h n.sat f → thr t h = u → OnlyThread s t h →
      coreCsr t h.core 0x004 = n.seed → thr (endNarrow (setThr s h u) h n f) h = flagged u n.sat f ∧
        OnlyThread s (endNarrow (setThr s h u) h n f) h ∧ coreCsr (endNarrow (setThr s h u) h n f) h.core 0x004 = n.seed := by
    intro heq hthr honly hseed
    rw [heq]
    cases n.sat
    · exact ⟨hthr, honly, hseed⟩
    · refine ⟨?_, honly.trans (onlyThread_setThr t h _), ?_⟩
      · simp [flagIf, setSatf, setThrCsr, modThr, thrCsr, hthr, flagged]
      · simpa [flagIf, setSatf, setThrCsr] using hseed
  by_cases hs : n.seed = coreCsr (setThr s h u) h.core 0x004
  · exact hflag (setThr s h u) (by simp only [endNarrow, if_pos hs, flagIf]) (thr_setThr_same s h u) (onlyThread_setThr s h u)
      hs.symm
  · refine hflag (setCoreCsr (setThr s h u) h.core 0x004 n.seed) (by simp only [endNarrow, if_neg hs, flagIf]) (by simp)
      ((onlyThread_setThr s h u).trans (onlyThread_setCoreCsr _ h _ _)) (coreCsr_setCoreCsr_same _ _ _ _)

/-- The generator's CSR is neither a count of commits nor INT_LAT_MAX. -/
theorem coreCsr_retireTo_seed (s : State) (h : Hart) (pc : Word) :
    coreCsr (retireTo s h pc) h.core 0x004 = coreCsr s h.core 0x004 := by
  obtain ⟨-, -, hcsr, -⟩ := retireTo_oneCommit s h pc
  exact hcsr 0x004 (by simp only [issuedCsr]; omega) (by decide)

/-- The new state of the generator after a narrowing under a mode: one draw under STOCH, else none (R80, R81). -/
def drawn (s : State) (h : Hart) : Word :=
  if rmode s h = 3 then nextRandom (coreCsr s h.core 0x004) else coreCsr s h.core 0x004

/-- A narrowing into rd: the rounded quotient clamped, SATF.NARROW where that changed it, and the generator (R79 to R82). -/
theorem narrowRd_commits {s : State} {h : Hart} (hi : canIssue s h = true) {i : Instr} {rd : GReg} {v : Int} {d w : Nat}
    (hexec : exec i s = narrowRd s h rd v d w) :
    let q := roundShift v d (rmode s h) (drawBits (drawn s h))
    ∃ t, exec i s = .next t ∧ OnlyThread s t h ∧ coreCsr t h.core 0x004 = drawn s h ∧
      thr t h = afterCommit (flagged ((thr s h).wr rd (wordOf (satTo w q))) (saturates w q) satfNarrow) ((thr s h).pc + 4) := by
  intro q
  obtain ⟨hthr, honly, hseed⟩ := endNarrow_setThr s h ((thr s h).wr rd (wordOf (satTo w q))) ⟨drawn s h, saturates w q⟩ satfNarrow
  have hnarrow : narrow (startNarrow s h) (rmode s h) v d w = (satTo w q, ⟨drawn s h, saturates w q⟩) := by
    simp [narrow, startNarrow, drawn, q]
  rw [narrowRd, hnarrow, issue_ok hi] at hexec
  refine ⟨_, hexec, honly.trans (retireTo_oneCommit _ h _).1, (coreCsr_retireTo_seed _ h _).trans hseed, ?_⟩
  simp only [thr_retire, setGreg_eq, hthr, flagged_pc, thread_wr_pc, afterCommit]

/-- Settles O13: each mode by its quotient, and each instruction by one narrowing of its exact operand. -/
theorem narrowingRoundsThenSaturates : Obligations.NarrowingRoundsThenSaturates := by
  unfold Obligations.NarrowingRoundsThenSaturates
  refine ⟨fun v d r hd => ⟨rfl, roundShift_nearUp v r hd, roundShift_nearEven v r hd, roundShift_stochastic v d⟩, ?_⟩
  intro h rd rs1 rs2 sh s hi a b mode seed seed' gives
  have hgives {i : Instr} {v : Int} {d w : Nat} (hexec : exec i s = narrowRd s h rd v d w) : gives i v d w := by
    obtain ⟨t, ht, honly, hseed, hthr⟩ := narrowRd_commits hi hexec
    have hpc : (thr t h).pc = (thr s h).pc + 4 := by rw [hthr, afterCommit]
    obtain ⟨hrd, hregs, hsatf, hcsr, hacc, -, -⟩ := flaggedResult_fields (window_of_canIssue hi) hthr
    rw [satTo_eq] at hrd
    exact ⟨t, ht, honly, hpc, ⟨hrd, hsatf⟩, hseed, hregs, hacc, hcsr⟩
  exact ⟨hgives rfl, hgives rfl, hgives rfl, hgives rfl, hgives rfl⟩

end Sys2Proof.Machine
end

section
/-! PROOFS. A core's own local memory: bytes of words, reads that find no error, and stores outside the outbox line. -/

namespace Sys2Proof.Machine

/-! ### Bytes and words (R11) -/

@[simp] theorem leBytes_length (n v : Nat) : (leBytes n v).length = n := by
  induction n generalizing v with
  | zero => rfl
  | succ n ih => simp [leBytes, ih]

theorem leBytes_getElem (n v : Nat) {i : Nat} (hi : i < (leBytes n v).length) :
    (leBytes n v)[i] = BitVec.ofNat 8 (v / 256 ^ i) := by
  induction n generalizing v i with
  | zero => simp [leBytes] at hi
  | succ n ih =>
    cases i with
    | zero => simp [leBytes]
    | succ i => simp [leBytes, ih, Nat.div_div_eq_div_mul, pow_succ, Nat.mul_comm]

/-- The bytes of a word, as fields of it. -/
theorem leBytes_word (n : Nat) (w : Word) {i : Nat} (hi : i < (leBytes n w.toNat).length) :
    (leBytes n w.toNat)[i] = w.extractLsb' (8 * i) 8 := by
  refine BitVec.eq_of_toNat_eq ?_
  rw [leBytes_getElem, BitVec.extractLsb'_toNat, BitVec.toNat_ofNat, Nat.shiftRight_eq_div_pow, pow_mul]
  rfl

/-- A byte string is that of the number it spells. -/
theorem leBytes_leNat (bs : List Byte) : leBytes bs.length (leNat bs) = bs := by
  induction bs with
  | nil => rfl
  | cons b r ih =>
    have hb := b.isLt
    have hdiv : (b.toNat + 256 * leNat r) / 256 = leNat r := by omega
    have hmod : BitVec.ofNat 8 (b.toNat + 256 * leNat r) = b :=
      BitVec.eq_of_toNat_eq (by rw [BitVec.toNat_ofNat]; omega)
    rw [List.length_cons, leNat, leBytes, hdiv, hmod, ih]

theorem leNat_lt (bs : List Byte) : leNat bs < 256 ^ bs.length := by
  induction bs with
  | nil => exact Nat.one_pos
  | cons b r ih =>
    have hb := b.isLt
    rw [leNat, List.length_cons, pow_succ]
    omega

theorem leNat_one (a : Byte) : leNat [a] = a.toNat := by simp [leNat]

theorem leNat_two (a b : Byte) : leNat [a, b] = (b ++ a).toNat := by
  have ha := a.isLt
  rw [BitVec.toNat_append, ← Nat.shiftLeft_add_eq_or_of_lt ha, Nat.shiftLeft_eq]
  simp [leNat]
  omega

theorem leNat_four (a b c d : Byte) : leNat [a, b, c, d] = (d ++ c ++ b ++ a).toNat := by
  have ha := a.isLt
  have hb := b.isLt
  have hc := c.isLt
  simp only [BitVec.toNat_append]
  rw [← Nat.shiftLeft_add_eq_or_of_lt ha, ← Nat.shiftLeft_add_eq_or_of_lt hb, ← Nat.shiftLeft_add_eq_or_of_lt hc]
  simp [leNat, Nat.shiftLeft_eq]
  omega

/-- The word that four bytes spell. -/
theorem wordOfBytes (a b c d : Byte) : BitVec.ofNat 32 (leNat [a, b, c, d]) = d ++ c ++ b ++ a := by
  rw [leNat_four]
  exact BitVec.ofNat_toNat _ _

/-! ### What errors found in memory leave (R261) -/

@[simp] theorem sendFrom_cores (s : State) (m : Msg) : (sendFrom s m).cores = s.cores := by
  unfold sendFrom ledgerCore
  repeat' split
  all_goals rfl

@[simp] theorem sendAlert_cores (s : State) (n st t i : Nat) : (sendAlert s n st t i).cores = s.cores := by
  unfold sendAlert
  simp only
  split <;> simp

@[simp] theorem reportPoison_cores (s : State) (a : Nat) (d : Bool) : (reportPoison s a d).cores = s.cores := by
  unfold reportPoison
  simp only
  repeat' split
  all_goals simp [countSat]

@[simp] theorem countCorr_cores (s : State) (a n : Nat) : (countCorr s a n).cores = s.cores := by
  induction n with
  | zero => rfl
  | succ n ih =>
    simp only [countCorr]
    split <;> simpa [countSat] using ih

@[simp] theorem findLine_cores (s : State) (l : Nat) (d : Bool) : (findLine s l d).cores = s.cores := by
  unfold findLine
  simp only
  repeat' split
  all_goals simp [poisonSectors]

/-- A fold of operations that leave the cores leaves the cores. -/
theorem foldl_cores {α : Type} (f : State → α → State) (hf : ∀ s x, (f s x).cores = s.cores) (l : List α) (s : State) :
    (l.foldl f s).cores = s.cores := by
  induction l generalizing s with
  | nil => rfl
  | cons x r ih => rw [List.foldl_cons, ih, hf]

@[simp] theorem demandRead_cores (s : State) (a n : Nat) : (demandRead s a n).cores = s.cores := by
  unfold demandRead
  split
  · exact foldl_cores _ (fun s l => findLine_cores s l true) _ s
  · rfl

@[simp] theorem renewChecks_cores (s : State) (a n : Nat) : (renewChecks s a n).cores = s.cores := by
  unfold renewChecks
  simp only
  split
  · exact foldl_cores _ (fun s g => demandRead_cores s g 1) _ _
  · rfl

/-- A write of memory changes no core. -/
@[simp] theorem writeMem_cores (s : State) (a : Nat) (bs : List Byte) : (writeMem s a bs).cores = s.cores := by
  unfold writeMem
  split
  · rfl
  · exact renewChecks_cores s a _

theorem thr_of_cores {s t : State} (h : t.cores = s.cores) (j : Hart) : thr t j = thr s j := by
  simp [thr, core, h]

/-- Without latent errors a read finds none (R261). -/
theorem demandRead_clean {s : State} (h : s.latent = []) (a n : Nat) : demandRead s a n = s := by
  have hlatent : ∀ ks, latentOf s ks = [] := fun ks => by simp [latentOf, h]
  have hline : ∀ x, findLine s x true = s := fun x => by simp [findLine, hlatent]
  unfold demandRead
  split
  · exact List.foldl_fixed' hline _
  · rfl

/-! ### Reads of the core's own local memory (R64, R68) -/

theorem coreView_own {s : State} {h : Hart} {va : Word} (hv : va.toNat < localSize h.core) :
    coreView s h va = .own va.toNat := by
  simp only [coreView, if_pos hv]

theorem readMem_getElem (s : State) (a n : Nat) {i : Nat} (hi : i < (readMem s a n).length) :
    (readMem s a n)[i] = byteAt s (a + i) := by
  simp [readMem, byteAt]

@[simp] theorem readMem_length (s : State) (a n : Nat) : (readMem s a n).length = n := by simp [readMem]

theorem readLocal_one (s : State) (c off : Nat) : readLocal s c off 1 = [byteAt s (localBase c + off)] := by
  simp [readLocal, readMem, byteAt]

theorem readLocal_two (s : State) (c off : Nat) :
    readLocal s c off 2 = [byteAt s (localBase c + off), byteAt s (localBase c + off + 1)] := by
  simp [readLocal, readMem, byteAt, List.range_succ]

theorem readLocal_four (s : State) (c off : Nat) :
    readLocal s c off 4 = [byteAt s (localBase c + off), byteAt s (localBase c + off + 1), byteAt s (localBase c + off + 2),
      byteAt s (localBase c + off + 3)] := by
  simp [readLocal, readMem, byteAt, List.range_succ]

/-- A load of the core's own memory that no check stops and that finds no error commits with its bytes. -/
theorem load_own {s : State} {h : Hart} {va : Word} {n : Nat} (ha : va.toNat % n = 0) (hv : va.toNat + n ≤ localSize h.core)
    (hn : 0 < n) (hview : viewTrap s h va n = none) (hlatent : s.latent = [])
    (hpoison : isPoisoned s (localBase h.core + va.toNat) n = false) (rd : GReg) (sg v : Bool) :
    load s h rd va n sg v = .ok (commitLoad s h rd (readLocal s h.core va.toNat n) sg) := by
  simp [load, issueTraps_aligned s h ha, hview, coreView_own (s := s) (h := h) (show va.toNat < localSize h.core by omega),
    demandRead_clean hlatent, hpoison]

end Sys2Proof.Machine
end

section
/-! PROOFS. Loads, hints, stores and atomics of the core's own local memory (R64 to R70, R92 to R94). -/

namespace Sys2Proof.Machine

/-! ### Loads (R64, R67, R92) -/

theorem extend_signed_one (a : Byte) : extendBytes [a] true = a.signExtend 32 := by
  have hnum : BitVec.ofNat 8 (leNat [a]) = a := by rw [leNat_one, BitVec.ofNat_toNat, BitVec.setWidth_eq]
  exact congrArg (fun x : Byte => BitVec.ofInt 32 x.toInt) hnum

theorem extend_signed_two (a b : Byte) : extendBytes [a, b] true = (b ++ a).signExtend 32 := by
  have hnum : BitVec.ofNat 16 (leNat [a, b]) = b ++ a := by rw [leNat_two, BitVec.ofNat_toNat, BitVec.setWidth_eq]
  exact congrArg (fun x : BitVec 16 => BitVec.ofInt 32 x.toInt) hnum

theorem extend_unsigned_one (a : Byte) : extendBytes [a] false = a.setWidth 32 := by
  rw [← BitVec.ofNat_toNat, ← leNat_one]
  rfl

theorem extend_unsigned_two (a b : Byte) : extendBytes [a, b] false = (b ++ a).setWidth 32 := by
  rw [← BitVec.ofNat_toNat, ← leNat_two]
  rfl

theorem extend_signed_four (a b c d : Byte) : extendBytes [a, b, c, d] true = d ++ c ++ b ++ a := by
  have hnum : BitVec.ofNat 32 (leNat [a, b, c, d]) = d ++ c ++ b ++ a := wordOfBytes a b c d
  refine (congrArg (fun x : Word => BitVec.ofInt 32 x.toInt) hnum).trans ?_
  simp

/-! ### Hints (R93, R255) -/

/-- Only the units of the near tier have changed. -/
theorem queueFetch_eq (s : State) (u l : Nat) : queueFetch s u l = { s with units := (queueFetch s u l).units } := by
  unfold queueFetch
  split <;> rfl

theorem foldl_queueFetch_eq (u : Nat) (ls : List Nat) (s : State) :
    ls.foldl (fun s l => queueFetch s u l) s = { s with units := (ls.foldl (fun s l => queueFetch s u l) s).units } := by
  induction ls generalizing s with
  | nil => rfl
  | cons l r ih =>
    rw [List.foldl_cons, ih, queueFetch_eq]

theorem hint_eq (s : State) (a k : Nat) : hint s a k = { s with units := (hint s a k).units } := by
  unfold hint
  split
  · split
    · rfl
    · exact foldl_queueFetch_eq _ _ s
  · rfl

theorem countBeats_eq (s : State) (tag dev n : Nat) : countBeats s tag dev n = { s with ledger := (countBeats s tag dev n).ledger } := by
  unfold countBeats
  split <;> rfl

/-- The beats of a crossing are counted in the ledger alone (R340). -/
theorem countLaneBeats_eq (s : State) (c dev : Nat) :
    countLaneBeats s c dev = { s with ledger := (countLaneBeats s c dev).ledger } := by
  unfold countLaneBeats
  split
  · split
    · rfl
    · exact countBeats_eq s _ _ _
  · rfl

/-- What is neither memory, nor a core, nor a register of the part may have changed. -/
structure KeepsMachine (s t : State) : Prop where
  mem : t.mem = s.mem
  cores : t.cores = s.cores
  regs : t.regs = s.regs
  pkg : t.pkg = s.pkg

theorem KeepsMachine.refl (s : State) : KeepsMachine s s := ⟨rfl, rfl, rfl, rfl⟩

theorem keepsMachine_countLaneBeats (s : State) (c dev : Nat) : KeepsMachine s (countLaneBeats s c dev) := by
  rw [countLaneBeats_eq]
  exact ⟨rfl, rfl, rfl, rfl⟩

theorem keepsMachine_hint (s : State) (a k : Nat) : KeepsMachine s (hint s a k) := by
  rw [hint_eq]
  exact ⟨rfl, rfl, rfl, rfl⟩

theorem KeepsMachine.trans {s t u : State} (hst : KeepsMachine s t) (htu : KeepsMachine t u) : KeepsMachine s u :=
  ⟨htu.mem.trans hst.mem, htu.cores.trans hst.cores, htu.regs.trans hst.regs, htu.pkg.trans hst.pkg⟩

theorem KeepsMachine.sameMemory {s t : State} (hk : KeepsMachine s t) : SameMemory s t := fun _ => by
  simp [byteAt, hk.mem]

theorem KeepsMachine.sameRegs {s t : State} (hk : KeepsMachine s t) : SameRegs s t := fun _ => by
  simp [reg, hk.regs, hk.pkg]

/-- PFH commits, and what it hints at is no memory, no register and no thread (R93, R255). -/
theorem exec_pfh {s : State} {h : Hart} (hi : canIssue s h = true) (kind : BitVec 5) (rb : GReg) (off : BitVec 13) :
    ∃ u, exec (.pfh h kind rb off) s = .next (retire u h) ∧ KeepsMachine s u := by
  refine ⟨_, issue_ok hi _, ?_⟩
  split
  · split
    · exact .refl s
    · exact (keepsMachine_countLaneBeats s _ _).trans (keepsMachine_hint _ _ _)
  · exact .refl s

/-- Settles O7: a load takes the bytes of local memory, extended, and a hint none. -/
theorem localLoadsRead : Obligations.LocalLoadsRead := by
  unfold Obligations.LocalLoadsRead
  intro h rd rb v off kind s hi va base b gives
  have hload {i : Instr} {n : Nat} {sg : Bool} {w : Word} (hexec : exec i s = loadInsn s h rd rb off n sg v) (hn : 0 < n)
      (hw : extendBytes (readLocal s h.core va.toNat n) sg = w) : gives i n w := by
    intro ha hv hview hlatent hpoison
    refine ⟨_, ?_, setGreg_commits (window_of_canIssue hi) rd w _⟩
    rw [hexec, loadInsn_of_canIssue hi, memAddr, sext, load_own ha hv hn hview hlatent hpoison, issue_ok hi, commitLoad, hw,
      retire_setGreg]
  refine ⟨hload rfl (by decide) ?_, hload rfl (by decide) ?_, hload rfl (by decide) ?_, hload rfl (by decide) ?_,
    hload rfl (by decide) ?_, ?_⟩
  · rw [readLocal_one, extend_signed_one]
    rfl
  · rw [readLocal_one, extend_unsigned_one]
    rfl
  · rw [readLocal_two, extend_signed_two]
    rfl
  · rw [readLocal_two, extend_unsigned_two]
    rfl
  · rw [readLocal_four, extend_signed_four]
    rfl
  · obtain ⟨u, hexec, hkeeps⟩ := exec_pfh hi kind rb off
    have hthr : thr u h = thr s h := thr_of_cores hkeeps.cores h
    refine ⟨_, hexec, hkeeps.sameMemory, hkeeps.sameRegs, by simp [hthr], fun r => ?_⟩
    rw [greg_retire, greg, hthr, greg]

/-! ### Stores (R66, R67, R70) -/

/-- A store that leaves the outbox line of its thread alone sends nothing (R70, R208). -/
theorem storeLocal_outside {s : State} {h : Hart} {off : Nat} {bs : List Byte}
    (ho : off + bs.length ≤ outboxOff s h ∨ outboxOff s h + 64 ≤ off) : storeLocal s h off bs = writeLocal s h.core off bs := by
  have hgo : (decide (off ≤ outboxOff s h + 3) && decide (outboxOff s h + 3 < off + bs.length)) = false := by
    rw [Bool.and_eq_false_iff, decide_eq_false_iff_not, decide_eq_false_iff_not]
    omega
  simp only [storeLocal, hgo, Bool.false_and, Bool.false_eq_true, if_false]

theorem thr_writeLocal (s : State) (c off : Nat) (bs : List Byte) (j : Hart) : thr (writeLocal s c off bs) j = thr s j :=
  thr_of_cores (writeMem_cores s _ bs) j

/-- A write of local memory stores the low bytes of its word and no other. -/
theorem writeLocal_word {s : State} (hm : MemoryCanonical s) (c off n : Nat) (w : Word) :
    SameMemoryBut s (writeLocal s c off (leBytes n w.toNat)) (localBase c + off) n ∧
      ∀ k, k < n → byteAt (writeLocal s c off (leBytes n w.toNat)) (localBase c + off + k) = w.extractLsb' (8 * k) 8 := by
  have hlen := leBytes_length n w.toNat
  refine ⟨fun x hx => memGet_writeMem_outside s _ x _ hm (by rwa [hlen]), fun k hk => ?_⟩
  exact (memGet_writeMem_inside s _ k _ hm (by rwa [hlen])).trans (leBytes_word n w _)

/-- A store to the core's own memory outside the outbox line of its thread is a write there (R66, R70). -/
theorem storeTo_own {s : State} {h : Hart} {va : Word} {bs : List Byte} (hv : va.toNat < localSize h.core)
    (ho : va.toNat + bs.length ≤ outboxOff s h ∨ outboxOff s h + 64 ≤ va.toNat) :
    storeTo s h va bs = some (writeLocal s h.core va.toNat bs) := by
  simp only [storeTo, coreView_own hv, storeLocal_outside ho]

@[simp] theorem byteAt_retire (s : State) (h : Hart) (x : Nat) : byteAt (retire s h) x = byteAt s x := by simp [byteAt]

@[simp] theorem byteAt_setGreg (s : State) (h : Hart) (r : GReg) (v : Word) (x : Nat) : byteAt (setGreg s h r v) x = byteAt s x := by
  simp [byteAt, setGreg_eq]

/-- Settles O8: the store writes its bytes at once, and its commit changes its thread alone. -/
theorem localStoresWrite : Obligations.LocalStoresWrite := by
  unfold Obligations.LocalStoresWrite
  intro h rs rb off s hi hm va base puts
  have hstore {i : Instr} {n : Nat} (hexec : exec i s = storeInsn s h rs rb off n) (hn : 0 < n) : puts i n := by
    intro ha hv hview hout
    have hto : storeTo s h va (leBytes n (greg s h rs).toNat) = _ := storeTo_own (by omega) (by rwa [leBytes_length])
    have hok : store s h va n (greg s h rs) = .ok (retire (writeLocal s h.core va.toNat (leBytes n (greg s h rs).toNat)) h) := by
      simp only [store, issueTraps_aligned s h ha, hview, hto]
    obtain ⟨hother, hbytes⟩ := writeLocal_word hm h.core va.toNat n (greg s h rs)
    rw [storeInsn_of_canIssue hi, memAddr, sext, hok, issue_ok hi] at hexec
    refine ⟨_, hexec, fun x hx => ?_, fun k hk => ?_, ?_, fun j hj => ?_⟩
    · rw [byteAt_retire, hother x hx]
    · rw [byteAt_retire, hbytes k hk]
    · rw [thr_retire, thr_writeLocal, afterCommit]
    · rw [(retire_oneCommit _ h).1.others j hj, thr_writeLocal]
  exact ⟨hstore rfl (by decide), hstore rfl (by decide), hstore rfl (by decide)⟩

/-! ### Atomics (R94) -/

/-- The state after what an atomic stores, if anything. -/
def atomicStored (s : State) (c off : Nat) (r : Option Word) : State :=
  match r with
  | some v => writeLocal s c off (leBytes 4 v.toNat)
  | none => s

/-- The word of local memory at an offset, from its bytes. -/
theorem localWord_eq (s : State) (c off : Nat) :
    localWord s c off = byteAt s (localBase c + off + 3) ++ byteAt s (localBase c + off + 2) ++ byteAt s (localBase c + off + 1) ++
      byteAt s (localBase c + off) := by
  rw [localWord, readLocal_four, wordOfBytes]

/-- A byte of a word of local memory. -/
theorem byteAt_localWord (s : State) (c off : Nat) {k : Nat} (hk : k < 4) :
    byteAt s (localBase c + off + k) = (localWord s c off).extractLsb' (8 * k) 8 := by
  have hlen : (readLocal s c off 4).length = 4 := readMem_length s _ 4
  have hlt : leNat (readLocal s c off 4) < 2 ^ 32 := (leNat_lt _).trans_eq (by rw [hlen]; rfl)
  have hbytes : leBytes 4 (localWord s c off).toNat = readLocal s c off 4 := by
    rw [localWord, BitVec.toNat_ofNat, Nat.mod_eq_of_lt hlt]
    simpa only [hlen] using leBytes_leNat (readLocal s c off 4)
  rw [← leBytes_word 4 _ (by simpa using hk), List.getElem_of_eq hbytes]
  exact (readMem_getElem s _ 4 _).symm

/-- An atomic that leaves `w` in its word, by a store or by none. -/
theorem atomicStored_word {s : State} (hm : MemoryCanonical s) (c off : Nat) {r : Option Word} {w : Word}
    (hr : r.getD (localWord s c off) = w) :
    SameMemoryBut s (atomicStored s c off r) (localBase c + off) 4 ∧
      ∀ k, k < 4 → byteAt (atomicStored s c off r) (localBase c + off + k) = w.extractLsb' (8 * k) 8 := by
  subst hr
  cases r with
  | some v => exact writeLocal_word hm c off 4 v
  | none => exact ⟨fun _ _ => rfl, fun k hk => byteAt_localWord s c off hk⟩

theorem thr_atomicStored (s : State) (c off : Nat) (r : Option Word) (j : Hart) : thr (atomicStored s c off r) j = thr s j := by
  cases r with
  | some v => exact thr_writeLocal s c off _ j
  | none => rfl

/-- An atomic that no check stops and that finds no error (R94). -/
theorem atomic_own {s : State} {h : Hart} {rs1 : GReg} (ha : (greg s h rs1).toNat % 4 = 0)
    (hv : (greg s h rs1).toNat + 4 ≤ localSize h.core) (hview : viewTrap s h (greg s h rs1) 4 = none) (hlatent : s.latent = [])
    (hpoison : isPoisoned s (localBase h.core + (greg s h rs1).toNat) 4 = false)
    (hout : (greg s h rs1).toNat + 4 ≤ outboxOff s h ∨ outboxOff s h + 64 ≤ (greg s h rs1).toNat) (i : Instr) (rd : GReg)
    (f : Word → Option Word) :
    atomic s h i rd rs1 f = .ok (retire (setGreg (atomicStored s h.core (greg s h rs1).toNat
      (f (localWord s h.core (greg s h rs1).toNat))) h rd (localWord s h.core (greg s h rs1).toNat)) h) := by
  have hstore (v : Word) : storeLocal s h (greg s h rs1).toNat (leBytes 4 v.toNat) =
      writeLocal s h.core (greg s h rs1).toNat (leBytes 4 v.toNat) := storeLocal_outside (by rwa [leBytes_length])
  simp only [atomic, if_neg (show ¬ localSize h.core ≤ (greg s h rs1).toNat + 3 by omega), issueTraps_aligned s h ha, hview,
    demandRead_clean hlatent, hpoison, Bool.false_eq_true, if_false, hstore]
  rfl

/-- Past the end of local memory an atomic traps (R94). -/
theorem atomic_beyond {s : State} {h : Hart} {rs1 : GReg} (hv : localSize h.core < (greg s h rs1).toNat + 4) (i : Instr)
    (rd : GReg) (f : Word → Option Word) : atomic s h i rd rs1 f = .trap s (trapOperand (insnWord i)) := by
  simp only [atomic, if_pos (show localSize h.core ≤ (greg s h rs1).toNat + 3 by omega)]

/-- Settles O10: the old word is read, the word that the operation gives is written, and rd takes the old one. -/
theorem atomicsReadAndWrite : Obligations.AtomicsReadAndWrite := by
  unfold Obligations.AtomicsReadAndWrite
  intro h rd rs1 rs2 s hi hm a b base old gives
  have hold : localWord s h.core a.toNat = old := localWord_eq s h.core a.toNat
  have hgives {i : Instr} {f : Word → Option Word} {w : Word} (hexec : exec i s = issue s h (atomic s h i rd rs1 f))
      (hw : (f old).getD old = w) : gives i w := by
    refine ⟨fun ha hv hview hlatent hpoison hout => ?_, fun hv hl => ?_⟩
    · rw [atomic_own ha hv hview hlatent hpoison hout, hold, issue_ok hi] at hexec
      obtain ⟨hother, hbytes⟩ := atomicStored_word (r := f old) hm h.core a.toNat (w := w) (by rw [hold, hw])
      refine ⟨_, hexec, fun x hx => ?_, fun k hk => ?_, ?_⟩
      · rw [byteAt_retire, byteAt_setGreg, hother x hx]
      · rw [byteAt_retire, byteAt_setGreg, hbytes k hk]
      · rw [retire_setGreg, setGreg_eq, thr_retireTo, thr_setThr_same, thr_atomicStored, afterCommit]
    · rw [atomic_beyond hv] at hexec
      obtain ⟨t, ht, htaken, honly⟩ := issue_trap hi hl hexec
      exact ⟨t, ht, htaken, honly.sameMemory⟩
  refine ⟨hgives rfl rfl, hgives rfl rfl, hgives rfl rfl, hgives rfl rfl, hgives rfl ?_⟩
  split <;> rfl

end Sys2Proof.Machine
end

section
/-! PROOFS. The spill and fill of a register window (R58). -/

namespace Sys2Proof.Machine

/-! ### The bytes of a window -/

/-- A concatenation of pieces of four, by piece and place. -/
theorem flatMap_range_getElem? {α : Type} (f : Nat → List α) (hf : ∀ j, (f j).length = 4) (n : Nat) {j k : Nat} (hj : j < n)
    (hk : k < 4) : ((List.range n).flatMap f)[4 * j + k]? = (f j)[k]? := by
  have hlen : ∀ n, ((List.range n).flatMap f).length = 4 * n := fun n => by
    simp [List.length_flatMap, hf, Nat.mul_comm]
  induction n with
  | zero => exact absurd hj (Nat.not_lt_zero j)
  | succ n ih =>
    rw [List.range_succ, List.flatMap_append, List.flatMap_singleton]
    rcases Nat.lt_succ_iff_lt_or_eq.mp hj with h | rfl
    · rw [List.getElem?_append_left (by rw [hlen]; omega), ih h]
    · rw [List.getElem?_append_right (by rw [hlen]; omega), hlen, Nat.add_sub_cancel_left]

theorem windowBytes_length (t : Thread) (k : Nat) : (windowBytes t k).length = 64 := by
  simp [windowBytes, List.length_flatMap]

theorem windowBytes_getElem (t : Thread) (w : Nat) {j k : Nat} (hj : j < 16) (hk : k < 4)
    (h : 4 * j + k < (windowBytes t w).length) : (windowBytes t w)[4 * j + k] = (t.winReg w j).extractLsb' (8 * k) 8 := by
  have hlen : k < (leBytes 4 (t.winReg w j).toNat).length := by rwa [leBytes_length]
  have hget := flatMap_range_getElem? (fun j => leBytes 4 (t.winReg w j).toNat) (fun _ => leBytes_length 4 _) 16 hj hk
  rw [List.getElem?_eq_getElem hlen, leBytes_word] at hget
  exact List.getElem_eq_iff h |>.mpr hget

/-- A part of a read is a read. -/
theorem readMem_slice (s : State) (a : Nat) {n i m : Nat} (h : i + m ≤ n) :
    ((readMem s a n).drop i).take m = readMem s (a + i) m := by
  refine List.ext_getElem (by simp; omega) fun k h1 h2 => ?_
  rw [List.getElem_take, List.getElem_drop, readMem_getElem, readMem_getElem, Nat.add_assoc]

/-! ### A window written entry by entry -/

/-- Entries of a window written in turn: each reads as written, every other entry as before, and nothing else changes. -/
theorem foldl_setWinReg (t : Thread) (k : Nat) (f : Nat → Word) {n : Nat} (hn : n ≤ 16) :
    let u := (List.range n).foldl (fun t j => t.setWinReg k j (f j)) t
    u = { t with win := u.win } ∧ (∀ j, j < n → u.winReg k j = f j) ∧
      ∀ l j, j < 16 → l % 8 ≠ k % 8 ∨ n ≤ j → u.winReg l j = t.winReg l j := by
  induction n with
  | zero => exact ⟨rfl, fun j hj => absurd hj (Nat.not_lt_zero j), fun l j _ _ => rfl⟩
  | succ n ih =>
    obtain ⟨heq, hwritten, hother⟩ := ih (by omega)
    rw [List.range_succ, List.foldl_append, List.foldl_cons, List.foldl_nil]
    refine ⟨?_, fun j hj => ?_, fun l j hj hl => ?_⟩
    · rw [heq]
      rfl
    · rcases Nat.lt_succ_iff_lt_or_eq.mp hj with h | rfl
      · rw [winReg_setWinReg_other _ _ (by omega) (by omega) (.inr (by omega)), hwritten j h]
      · exact winReg_setWinReg_same _ _ _ _
    · rw [winReg_setWinReg_other _ _ (by omega) hj (by omega), hother l j hj (by omega)]

theorem cwp_lt (t : Thread) : t.cwp < 8 := Nat.mod_lt _ (by decide)

theorem fillWindow_fields (t : Thread) (k : Nat) (bs : List Byte) :
    fillWindow t k bs = { t with win := (fillWindow t k bs).win } ∧
      (∀ j, j < 16 → (fillWindow t k bs).winReg k j = BitVec.ofNat 32 (leNat ((bs.drop (4 * j)).take 4))) ∧
      ∀ l j, j < 16 → l % 8 ≠ k % 8 → (fillWindow t k bs).winReg l j = t.winReg l j := by
  unfold fillWindow
  obtain ⟨heq, hwritten, hother⟩ := foldl_setWinReg t k (fun j => BitVec.ofNat 32 (leNat ((bs.drop (4 * j)).take 4)))
    (Nat.le_refl 16)
  exact ⟨heq, hwritten, fun l j hj hl => hother l j hj (.inl hl)⟩

/-- A thread whose window under the oldest one came back from memory (R58). -/
theorem commitFill_fields (t : Thread) (bs : List Byte) (hr : t.resident ≤ 7) :
    (commitFill t bs).cwp = t.cwp ∧ (commitFill t bs).resident = t.resident + 1 ∧ (commitFill t bs).g = t.g ∧
      (commitFill t bs).pc = t.pc ∧ (commitFill t bs).latFrom = t.latFrom ∧
      (∀ j, j < 16 → (commitFill t bs).winReg ((t.cwp + 8 - t.resident) % 8) j =
        BitVec.ofNat 32 (leNat ((bs.drop (4 * j)).take 4))) ∧
      ∀ k j, j < 16 → k % 8 ≠ (t.cwp + 8 - t.resident) % 8 → (commitFill t bs).winReg k j = t.winReg k j := by
  obtain ⟨heq, hwritten, hother⟩ := fillWindow_fields t ((t.cwp + 8 - t.resident) % 8) bs
  unfold commitFill
  generalize fillWindow t ((t.cwp + 8 - t.resident) % 8) bs = u at heq hwritten hother ⊢
  refine ⟨?_, ?_, ?_, ?_, ?_, fun j hj => hwritten j hj, fun k j hj hk => hother k j hj (by omega)⟩
  · exact (cwp_setWstat _ _ _).trans (Nat.mod_eq_of_lt (cwp_lt t))
  · exact (resident_setWstat _ _ _).trans (Nat.mod_eq_of_lt (by omega))
  all_goals
    rw [heq]
    rfl

/-! ### WSPILL and WFILL -/

theorem thr_retire_modThr (s : State) (h : Hart) (f : Thread → Thread) :
    thr (retire (modThr s h f) h) h = afterCommit (f (thr s h)) ((f (thr s h)).pc + 4) := by
  rw [modThr, retire_setThr, thr_retireTo, thr_setThr_same, afterCommit]

theorem byteAt_retire_modThr (s : State) (h : Hart) (f : Thread → Thread) (x : Nat) :
    byteAt (retire (modThr s h f) h) x = byteAt s x := by
  simp [byteAt, modThr]

theorem windowTraps_level_zero {s : State} {h : Hart} (hl : (thr s h).level = 0) (i : Instr) (bad : Nat) (va : Word) :
    windowTraps s h i bad va = some (trapIllegal (insnWord i)) := by
  simp only [windowTraps, if_pos hl]

theorem windowTraps_none {s : State} {h : Hart} {va : Word} {bad : Nat} (hl : (thr s h).level ≠ 0)
    (hr : (thr s h).resident ≠ bad) (ha : va.toNat % 64 = 0) (hview : viewTrap s h va 64 = none) (i : Instr) :
    windowTraps s h i bad va = none := by
  simp only [windowTraps, if_neg hl, if_neg hr, issueTraps_aligned s h ha, hview]

/-- WSPILL of a usable line writes it and gives the window up (R58). -/
theorem exec_wspill {s : State} {h : Hart} {rs1 : GReg} (hi : canIssue s h = true) (hl : (thr s h).level ≠ 0)
    (hr : 2 ≤ (thr s h).resident) (ha : (greg s h rs1).toNat % 64 = 0) (hv : (greg s h rs1).toNat + 64 ≤ localSize h.core)
    (hview : viewTrap s h (greg s h rs1) 64 = none) (ho : outboxOff s h ≠ (greg s h rs1).toNat) :
    let bs := windowBytes (thr s h) (((thr s h).cwp + 8 - (thr s h).resident + 1) % 8)
    exec (.wspill h rs1) s = .next (retire (modThr (writeLocal s h.core (greg s h rs1).toNat bs) h
      fun t => t.setWstat t.cwp (t.resident - 1)) h) := by
  have hout : (greg s h rs1).toNat + 64 ≤ outboxOff s h ∨ outboxOff s h + 64 ≤ (greg s h rs1).toNat := by
    unfold outboxOff at ho ⊢
    omega
  intro bs
  have hto : storeTo s h (greg s h rs1) bs = _ := storeTo_own (by omega) (by rwa [windowBytes_length])
  show execWspill h rs1 s = _
  simp only [execWspill, windowTraps_none hl (show (thr s h).resident ≠ 1 by omega) ha hview]
  rw [hto]
  exact issue_ok hi _

/-- WFILL of a usable line that holds no error takes it (R58). -/
theorem exec_wfill {s : State} {h : Hart} {rs1 : GReg} (hi : canIssue s h = true) (hl : (thr s h).level ≠ 0)
    (hr : (thr s h).resident ≤ 7) (ha : (greg s h rs1).toNat % 64 = 0) (hv : (greg s h rs1).toNat + 64 ≤ localSize h.core)
    (hview : viewTrap s h (greg s h rs1) 64 = none) (hlatent : s.latent = [])
    (hpoison : isPoisoned s (localBase h.core + (greg s h rs1).toNat) 64 = false) :
    exec (.wfill h rs1) s = .next (retire (modThr s h fun t =>
      commitFill t (readLocal s h.core (greg s h rs1).toNat 64)) h) := by
  show execWfill h rs1 s = _
  simp only [execWfill, windowTraps_none hl (show (thr s h).resident ≠ 8 by omega) ha hview,
    coreView_own (show (greg s h rs1).toNat < localSize h.core by omega), demandRead_clean hlatent, hpoison, Bool.false_eq_true,
    if_false, issue_ok hi]

/-- Settles O6: a spill writes the bytes of the oldest window, a fill takes the words of a line, and neither acts at level 0. -/
theorem windowSpillAndFill : Obligations.WindowSpillAndFill := by
  unfold Obligations.WindowSpillAndFill
  intro h rs1 s hi hm u a base usable
  have htraps (hl : u.level = 0) {i : Instr} (hexec : exec i s = issue s h (.trap s (trapIllegal (insnWord i)))) :
      ∃ t, exec i s = .next t ∧ TrapTaken s t h (trapIllegal (insnWord i)) ∧ t.mem = s.mem := by
    have h3 : (thr s h).level ≠ 3 := by
      show u.level ≠ 3
      rw [hl]
      decide
    obtain ⟨t, ht, htaken, honly⟩ := issue_trap hi h3 hexec
    exact ⟨t, ht, htaken, honly.mem_eq⟩
  refine ⟨fun hl ⟨ha, hv, hview⟩ h2 h8 ho => ⟨_, exec_wspill hi hl h2 ha hv hview ho, ?spill⟩,
    fun hl ⟨ha, hv, hview⟩ h1 h7 hlatent hpoison => ⟨_, exec_wfill hi hl h7 ha hv hview hlatent hpoison, ?fill⟩,
    fun hl => htraps hl ?spillTrap, fun hl => htraps hl ?fillTrap⟩
  case spill =>
    have hlen := windowBytes_length (thr s h) (((thr s h).cwp + 8 - (thr s h).resident + 1) % 8)
    rw [thr_retire_modThr, thr_writeLocal]
    refine ⟨rfl, ?_, ?_, rfl, rfl, fun x hx => ?_, fun j k hj hk => ?_⟩
    · exact (cwp_setWstat _ _ _).trans (Nat.mod_eq_of_lt (cwp_lt u))
    · exact (resident_setWstat _ _ _).trans (Nat.mod_eq_of_lt (show u.resident - 1 < 16 by omega))
    · rw [byteAt_retire_modThr]
      exact memGet_writeMem_outside s _ x _ hm (by rwa [hlen])
    · rw [byteAt_retire_modThr, Nat.add_assoc]
      exact (memGet_writeMem_inside s _ (4 * j + k) _ hm (by omega)).trans (windowBytes_getElem _ _ hj hk _)
  case fill =>
    obtain ⟨hcwp, hres, hg, hpc, -, hwritten, hother⟩ := commitFill_fields (thr s h) (readLocal s h.core a.toNat 64) h7
    rw [thr_retire_modThr, hpc]
    generalize commitFill (thr s h) (readLocal s h.core a.toNat 64) = w at hcwp hres hg hwritten hother ⊢
    refine ⟨rfl, hcwp, hres, hg, fun x => byteAt_retire_modThr s h _ x, fun j hj => (hwritten j hj).trans ?_,
      fun k j hj hk => hother k j hj hk⟩
    rw [readLocal, readMem_slice s _ (by omega), Nat.add_assoc]
    exact localWord_eq s h.core (a.toNat + 4 * j)
  case spillTrap =>
    show execWspill h rs1 s = _
    simp only [execWspill, windowTraps_level_zero hl]
  case fillTrap =>
    show execWfill h rs1 s = _
    simp only [execWfill, windowTraps_level_zero hl]

end Sys2Proof.Machine
end

section
/-! PROOFS. Accesses of control and status registers (R60 to R63, R95). -/

namespace Sys2Proof.Machine

/-! ### What a write leaves of a word (R12, R95) -/

theorem rwBits_all_and (old rw v : Word) : rwBits old rw 0xFFFFFFFF v &&& rw = v &&& rw := by
  have hall : rw &&& 0xFFFFFFFF = rw := BitVec.and_allOnes
  ext i
  simp only [rwBits, BitVec.and_assoc, hall, BitVec.getElem_and, BitVec.getElem_or, BitVec.getElem_not]
  cases rw[i] <;> simp

theorem rwBits_all_all (old v : Word) : rwBits old 0xFFFFFFFF 0xFFFFFFFF v = v := by
  have h := rwBits_all_and old 0xFFFFFFFF v
  rwa [show rwBits old 0xFFFFFFFF 0xFFFFFFFF v &&& 0xFFFFFFFF = _ from BitVec.and_allOnes,
    show v &&& 0xFFFFFFFF = v from BitVec.and_allOnes] at h

theorem rwBits_set (old rw x : Word) : rwBits old rw x 0xFFFFFFFF = old ||| (x &&& rw) := by
  have hall : (0xFFFFFFFF : Word) &&& rw = rw := BitVec.allOnes_and
  ext i
  simp only [rwBits, hall, BitVec.getElem_and, BitVec.getElem_or, BitVec.getElem_not]
  cases rw[i] <;> cases x[i] <;> simp

theorem rwBits_clear (old rw x : Word) : rwBits old rw x 0 = old &&& ~~~(x &&& rw) := by
  rw [rwBits, BitVec.and_comm rw x]
  simp

theorem w1cBits_all (old wc v : Word) : w1cBits old wc 0xFFFFFFFF v = old &&& ~~~(v &&& wc) := by
  rw [w1cBits, show wc &&& 0xFFFFFFFF = wc from BitVec.and_allOnes, BitVec.and_comm wc v]

theorem w1cBits_set (old wc x : Word) : w1cBits old wc x 0xFFFFFFFF = old &&& ~~~(x &&& wc) := by
  rw [w1cBits, show wc &&& x &&& 0xFFFFFFFF = wc &&& x from BitVec.and_allOnes, BitVec.and_comm wc x]

theorem w1cBits_clear (old wc x : Word) : w1cBits old wc x 0 = old := by
  have hzero : wc &&& x &&& 0 = 0 := BitVec.and_zero
  rw [w1cBits, hzero]
  exact BitVec.and_allOnes

theorem testBit_bits (w : Word) (hi lo i : Nat) : (bits w hi lo).testBit i = (decide (i < hi + 1 - lo) && bit w (lo + i)) := by
  rw [bits, Nat.testBit_mod_two_pow, Nat.testBit_shiftRight, bit]

/-- A field of a word replaced, bit by bit. -/
theorem bit_putBits (w : Word) {hi lo v : Nat} {j : Nat} (hj : j < 32) :
    bit (putBits w hi lo v) j = if lo ≤ j ∧ j ≤ hi then v.testBit (j - lo) else bit w j := by
  have hmask : bit (BitVec.ofNat 32 ((2 ^ (hi + 1 - lo) - 1) <<< lo)) j = decide (lo ≤ j ∧ j ≤ hi) := by
    simp only [bit, BitVec.toNat_ofNat, Nat.testBit_mod_two_pow, Nat.testBit_shiftLeft, Nat.testBit_two_pow_sub_one, hj,
      decide_true, Bool.true_and, ← Bool.decide_and]
    exact decide_eq_decide.mpr (by omega)
  have hval : bit (BitVec.ofNat 32 (v <<< lo)) j = (decide (lo ≤ j) && v.testBit (j - lo)) := by
    simp only [bit, BitVec.toNat_ofNat, Nat.testBit_mod_two_pow, Nat.testBit_shiftLeft, hj, decide_true, Bool.true_and]
  simp only [putBits, bit_or, bit_and, bit_not _ hj, hmask, hval]
  by_cases h : lo ≤ j ∧ j ≤ hi
  · simp [h]
  · simp [h]

/-! ### What a CSR write changes (R60, R95) -/

/-- Nothing but CSRs of one thread and of its core has changed, or what a CSR of the core starts; WSTAT only by its own
number `n`. -/
def CsrChange (s u : State) (h : Hart) (n : Nat) : Prop :=
  u = { s with cores := u.cores } ∧ (∀ j, j ≠ h → thr u j = thr s j) ∧ thr u h = { thr s h with csr := (thr u h).csr } ∧
    (n ≠ 0x400 → (thr u h).getCsr 0x400 = (thr s h).getCsr 0x400)

theorem KeepsThreads.csrChange {s u : State} (hk : KeepsThreads s u) (h : Hart) (n : Nat) : CsrChange s u h n := by
  obtain ⟨heq, hthr⟩ := hk
  exact ⟨heq, fun j _ => hthr j, by rw [hthr], fun _ => by rw [hthr]⟩

/-- A CSR of a thread other than WSTAT, or WSTAT by its own number. -/
theorem csrChange_setThrCsr (s : State) (h : Hart) {n k : Nat} (v : Word) (hk : n ≠ 0x400 → k ≠ 0x400) :
    CsrChange s (setThrCsr s h k v) h n := by
  have hthr : thr (setThrCsr s h k v) h = (thr s h).putCsr k v := by simp [setThrCsr, modThr]
  refine ⟨rfl, fun j hj => thr_setThr_other s _ hj, ?_, fun hn => ?_⟩
  · rw [hthr]
    rfl
  · rw [hthr, getCsr_putCsr_other _ _ (hk hn).symm]

theorem csrChange_trans {s t u : State} {h : Hart} {n : Nat} (hst : CsrChange s t h n) (htu : CsrChange t u h n) :
    CsrChange s u h n := by
  obtain ⟨est, jst, kst, wst⟩ := hst
  obtain ⟨etu, jtu, ktu, wtu⟩ := htu
  refine ⟨by rw [etu, est], fun j hj => (jtu j hj).trans (jst j hj), by rw [ktu, kst], fun hn => (wtu hn).trans (wst hn)⟩

theorem csrChange_ite {s t u : State} {h : Hart} {n : Nat} {p : Prop} [Decidable p] (ht : p → CsrChange s t h n)
    (hu : ¬ p → CsrChange s u h n) : CsrChange s (if p then t else u) h n := by
  split
  · exact ht ‹_›
  · exact hu ‹_›

theorem csrChange_setCoreCsr (s : State) (h : Hart) (n c k : Nat) (v : Word) : CsrChange s (setCoreCsr s c k v) h n :=
  (keepsThreads_setCoreCsr s c k v).csrChange h n

theorem csrChange_refl (s : State) (h : Hart) (n : Nat) : CsrChange s s h n := (KeepsThreads.refl s).csrChange h n

theorem writeClksel_keepsThreads (s : State) (c : Nat) (m v : Word) : KeepsThreads s (writeClksel s c m v) := by
  have hheld := keepsThreads_setCoreCsr s c 0x404
  simp only [writeClksel]
  split
  · exact hheld _
  · exact (hheld _).trans (startRelock_keeps _ c).1

theorem writeIset_keepsThreads (s : State) (c : Nat) (v : Word) : KeepsThreads s (writeIset s c v) := by
  obtain ⟨⟨hkeeps, -⟩, -⟩ := foldl_isetLine c v (List.range 32) (fun l hl => List.mem_range.mp hl) s
  rwa [writeIset_eq]

theorem writeGuardedCsr_change (s : State) (h : Hart) (n : Nat) (m v : Word) :
    CsrChange s (writeGuardedCsr s h n m v) h n := by
  have hcore (k : Nat) (x : Word) : CsrChange s (setCoreCsr s h.core k x) h n := csrChange_setCoreCsr s h n h.core k x
  unfold writeGuardedCsr
  exact csrChange_ite (fun _ => (writeIset_keepsThreads s h.core _).csrChange h n) fun _ =>
    csrChange_ite (fun _ => csrChange_setThrCsr s h _ id) fun _ =>
    csrChange_ite (fun _ => csrChange_ite (fun _ => csrChange_refl s h n) fun _ => hcore _ _) fun _ =>
    csrChange_ite (fun _ => hcore _ _) fun _ => csrChange_ite (fun _ => hcore _ _) fun _ =>
    csrChange_ite (fun _ => hcore _ _) fun _ => csrChange_refl s h n

/-- A write of a save register changes nothing, or that register. -/
theorem writeSave_cases (t : Thread) (k : Nat) (m v : Word) :
    writeSave t k m v = t ∨ ∃ x, writeSave t k m v = t.putCsr k x := by
  unfold writeSave
  simp only
  split
  · exact .inl rfl
  · split
    · exact .inr ⟨_, rfl⟩
    · split
      · split
        · exact .inl rfl
        · exact .inr ⟨_, rfl⟩
      · exact .inl rfl

theorem saveKey_ge {t : Thread} {n k : Nat} (hn : 0x410 ≤ n) (hk : saveKey t n = some k) : 0x410 ≤ k := by
  unfold saveKey at hk
  split at hk
  · cases hk
    exact hn
  · split at hk
    · cases hk
    · cases hk
      omega

theorem keepsThreads_setThr_self (s : State) (h : Hart) : KeepsThreads s (setThr s h (thr s h)) := by
  refine ⟨rfl, fun j => ?_⟩
  by_cases hj : j = h
  · rw [hj, thr_setThr_same]
  · exact thr_setThr_other s _ hj

theorem writeSave_change (s : State) (h : Hart) {n k : Nat} (m v : Word) (hk : 0x410 ≤ k) :
    CsrChange s (setThr s h (writeSave (thr s h) k m v)) h n := by
  rcases writeSave_cases (thr s h) k m v with heq | ⟨x, heq⟩
  · rw [heq]
    exact (keepsThreads_setThr_self s h).csrChange h n
  · rw [heq]
    exact csrChange_setThrCsr s h x fun _ => by omega

/-- A CSR write changes CSRs, or starts what its CSR starts in the core (R60, R95). -/
theorem csrWrite_change (s : State) (h : Hart) (n : Nat) (m v : Word) : CsrChange s (csrWrite s h n m v) h n := by
  have hcore (k : Nat) (x : Word) : CsrChange s (setCoreCsr s h.core k x) h n := csrChange_setCoreCsr s h n h.core k x
  unfold csrWrite
  refine csrChange_ite (fun _ => csrChange_setThrCsr s h _ id) fun _ => csrChange_ite (fun _ => csrChange_setThrCsr s h _ id) fun _ =>
    csrChange_ite (fun _ => csrChange_setThrCsr s h _ fun _ => ?prog) fun _ => csrChange_ite (fun _ => csrChange_setThrCsr s h _ id) fun _ =>
    csrChange_ite (fun _ => hcore _ _) fun _ => csrChange_ite (fun _ => csrChange_ite (fun _ => csrChange_refl s h n) fun _ => hcore _ _) fun _ =>
    csrChange_ite (fun _ => hcore _ _) fun _ => csrChange_ite (fun _ => csrChange_setThrCsr s h _ id) fun _ =>
    csrChange_ite (fun _ => hcore _ _) fun _ => csrChange_ite (fun _ => hcore _ _) fun _ => csrChange_ite (fun _ => hcore _ _) fun _ =>
    csrChange_ite (fun _ => (writeClksel_keepsThreads s h.core m v).csrChange h n) fun _ => csrChange_ite (fun hn => ?save) fun _ =>
    csrChange_ite (fun _ => writeGuardedCsr_change s h n m v) fun _ => csrChange_refl s h n
  case prog =>
    unfold progKey
    omega
  case save =>
    cases hk : saveKey (thr s h) n with
    | none => exact csrChange_refl s h n
    | some k => exact writeSave_change s h m v (saveKey_ge hn.1 hk)

theorem csrLatch_keepsThreads (s : State) (h : Hart) (n : Nat) : KeepsThreads s (csrLatch s h n) := by
  unfold csrLatch
  split
  · exact keepsThreads_setCoreCsr s h.core _ _
  · exact .refl s

/-! ### The commit of a CSR access -/

/-- What the statement of a CSR access says of it, with `P` for its own effect. -/
def CsrReads (s : State) (h : Hart) (rd : GReg) (i : Instr) (n : Nat) (P : State → Prop) : Prop :=
  ∃ t, exec i s = .next t ∧ (thr t h).pc = (thr s h).pc + 4 ∧ SameMemory s t ∧ SameRegs s t ∧ (∀ j, j ≠ h → thr t j = thr s j) ∧
    P t ∧ (n ≠ 0x400 → greg t h rd = (if rd = 0 then 0 else csrValue s h n) ∧ ∀ r, r ≠ rd → greg t h r = greg s h r)

/-- The old value goes to rd and the instruction commits. -/
def csrCommitted (s u : State) (h : Hart) (rd : GReg) (n : Nat) : State := retire (setGreg u h rd (csrValue s h n)) h

theorem thr_csrCommitted (s u : State) (h : Hart) (rd : GReg) (n : Nat) :
    thr (csrCommitted s u h rd n) h = afterCommit ((thr u h).wr rd (csrValue s h n)) ((thr u h).pc + 4) := by
  rw [csrCommitted, retire_setGreg, setGreg_eq, thr_retireTo, thr_setThr_same, afterCommit]

/-- The CSRs of the thread, and of the core but for its counters of commits, are as the access left them. -/
theorem getCsr_csrCommitted (s u : State) (h : Hart) (rd : GReg) (n k : Nat) :
    (thr (csrCommitted s u h rd n) h).getCsr k = (thr u h).getCsr k := by
  rw [thr_csrCommitted]
  exact thread_wr_getCsr _ _ _ _

theorem coreCsr_csrCommitted (s u : State) (h : Hart) (rd : GReg) (n : Nat) {k : Nat} (hk : k ≠ issuedCsr h) (hl : k ≠ 0x11C) :
    coreCsr (csrCommitted s u h rd n) h.core k = coreCsr u h.core k :=
  (coreCsr_retire _ h hk hl).trans (coreCsr_setThr u h _ _ _)

/-- An access that changes CSRs alone commits with the old value in rd (R60, R70). -/
theorem csrReads_of_change {s u : State} {h : Hart} {n : Nat} (hi : canIssue s h = true) (hu : CsrChange s u h n) {rd : GReg}
    {i : Instr} {P : State → Prop} (hexec : exec i s = .next (csrCommitted s u h rd n)) (hP : P (csrCommitted s u h rd n)) :
    CsrReads s h rd i n P := by
  obtain ⟨heq, hothers, hthr, hwstat⟩ := hu
  have hw : (thr u h).window = [] := by
    rw [hthr]
    exact window_of_canIssue hi
  have honly : OnlyThread u (csrCommitted s u h rd n) h := (onlyThread_setThr u h _).trans (retire_oneCommit _ h).1
  have hrd : ∀ r, greg (csrCommitted s u h rd n) h r = ((thr u h).wr rd (csrValue s h n)).rd r := fun r => by
    rw [greg, thr_csrCommitted, greg_afterCommit]
  refine ⟨_, hexec, ?_, fun x => ?_, fun o => ?_, fun j hj => ?_, hP, fun hn => ⟨?_, fun r hr => ?_⟩⟩
  · rw [thr_csrCommitted, hthr]
    rfl
  · rw [honly.sameMemory x, heq]
    rfl
  · rw [honly.sameRegs o, heq]
    rfl
  · rw [honly.others j hj, hothers j hj]
  · rw [hrd, thread_rd_wr_same hw]
  · have hcwp : (thr u h).cwp = (thr s h).cwp := cwp_congr (hwstat hn)
    rw [hrd, thread_rd_wr_other hw _ hr, greg]
    refine thread_rd_of_cwp ?_ ?_ ?_ hcwp ?_ ?_ r <;> rw [hthr]

/-- A write that no check stops (R60, R95). -/
theorem csrAccess_reads {s : State} {h : Hart} {rd : GReg} {n : Nat} {m v w : Word} (hi : canIssue s h = true)
    (hl : csrListed n = true) (ha : csrAllowed (thr s h).mode n = true) (hg : csrGuardedWrite s h n = false) {i : Instr}
    {P : State → Prop} (hexec : exec i s = csrAccess s h rd n m v w)
    (hP : P (csrCommitted s (csrWrite (csrLatch s h n) h n m v) h rd n)) : CsrReads s h rd i n P := by
  refine csrReads_of_change hi ?_ (hexec.trans ?_) hP
  · exact csrChange_trans ((csrLatch_keepsThreads s h n).csrChange h n) (csrWrite_change _ h n m v)
  · simp only [csrAccess, csrTraps, hl, ha, hg, Bool.not_true, Bool.and_false, Bool.or_false, firstTrap_cons_false, firstTrap_nil,
      issue_ok hi]
    rfl

/-- A number that is not listed, or not allowed to its mode, traps (R60, R453). -/
theorem csrTraps_illegal (s : State) (h : Hart) {n : Nat} (hl : csrListed n = false) (write : Bool) (w : Word) (k : Res) :
    firstTrap s (csrTraps s h n write w) k = .trap s (trapIllegal w) := by
  simp [csrTraps, hl]

theorem csrTraps_privilege (s : State) (h : Hart) {n : Nat} (hl : csrListed n = true) (ha : csrAllowed (thr s h).mode n = false)
    (write : Bool) (w : Word) (k : Res) : firstTrap s (csrTraps s h n write w) k = .trap s (trapPrivilege w) := by
  simp [csrTraps, hl, ha]

/-- Each of the four accesses meets its checks first (R453). -/
theorem exec_csr_checks (h : Hart) (rd rs1 : GReg) (n : BitVec 12) (s : State) :
    ∀ i ∈ [Instr.csrr h rd n, .csrw h rd rs1 n, .csrs h rd rs1 n, .csrc h rd rs1 n],
      ∃ write k, exec i s = issue s h (firstTrap s (csrTraps s h n.toNat write (insnWord i)) k) := by
  simp only [List.forall_mem_cons]
  exact ⟨⟨_, _, rfl⟩, ⟨_, _, rfl⟩, ⟨_, _, rfl⟩, ⟨_, _, rfl⟩, fun _ hmem => absurd hmem List.not_mem_nil⟩

/-! ### The CSRs that the statement names (R61, R62) -/

theorem csrValue_farwin (s : State) (h : Hart) : csrValue s h 0x003 = (thr s h).getCsr 0x003 := rfl

theorem csrValue_satf (s : State) (h : Hart) : csrValue s h 0x001 = (thr s h).getCsr 0x001 := rfl

theorem csrValue_rseed (s : State) (h : Hart) : csrValue s h 0x004 = coreCsr s h.core 0x004 := rfl

/-- FARWIN after an access (R60, R95). -/
theorem farwin_written (s : State) (h : Hart) (rd : GReg) (m v : Word) :
    csrValue (csrCommitted s (csrWrite s h 3 m v) h rd 3) h 3 = rwBits (csrValue s h 3) 0x1FFFF m v := by
  rw [csrValue_farwin, getCsr_csrCommitted]
  simp [csrWrite, setThrCsr, modThr, csrValue_farwin]

/-- SATF after an access (R61, R95). -/
theorem satf_written (s : State) (h : Hart) (rd : GReg) (m v : Word) :
    csrValue (csrCommitted s (csrWrite s h 1 m v) h rd 1) h 1 = w1cBits (csrValue s h 1) 0x3F m v := by
  rw [csrValue_satf, getCsr_csrCommitted]
  simp [csrWrite, setThrCsr, modThr, csrValue_satf]

/-- RSEED after a CSRW: no write leaves it at 0 (R61). -/
theorem rseed_written (s : State) (h : Hart) (rd : GReg) (v : Word) :
    csrValue (csrCommitted s (csrWrite s h 4 0xFFFFFFFF v) h rd 4) h 4 = if v = 0 then 1 else v := by
  rw [csrValue_rseed, coreCsr_csrCommitted _ _ _ _ _ (by simp only [issuedCsr]; omega) (by decide)]
  simp only [csrWrite, rwBits_all_all]
  exact coreCsr_setCoreCsr_same s h.core 4 _

/-- A CSRW of WSTAT that would leave RESIDENT at 0 or above 8 keeps it, and takes CWP (R15, R61). -/
theorem wstat_kept (old v : Word) (hv : bits v 7 4 = 0 ∨ 8 < bits v 7 4) :
    let w := keepField old (rwBits old 0xF7 0xFFFFFFFF v) 7 4 1 8
    bits w 7 4 = bits old 7 4 ∧ bits w 2 0 = bits v 2 0 := by
  have hnew : ∀ i < 32, bit (0xF7 : Word) i = true → bit (rwBits old 0xF7 0xFFFFFFFF v) i = bit v i := fun i hi hrw => by
    have hall : ∀ i < 32, bit (0xFFFFFFFF : Word) i = true := by decide
    rw [bit_rwBits _ _ _ _ hi, hrw, hall i hi]
    rfl
  have hres : ∀ i, 4 ≤ i → i ≤ 7 → bit (0xF7 : Word) i = true := fun i h1 h2 => by
    have : ∀ i < 8, 4 ≤ i → bit (0xF7 : Word) i = true := by decide
    exact this i (by omega) h1
  have hcwp : ∀ i, i ≤ 2 → bit (0xF7 : Word) i = true := by decide
  have hfield : bits (rwBits old 0xF7 0xFFFFFFFF v) 7 4 = bits v 7 4 :=
    bits_congr fun i h1 h2 => hnew i (by omega) (hres i h1 h2)
  have hkeep : keepField old (rwBits old 0xF7 0xFFFFFFFF v) 7 4 1 8 =
      putBits (rwBits old 0xF7 0xFFFFFFFF v) 7 4 (bits old 7 4) := if_neg (by omega)
  intro w
  have hw : w = putBits (rwBits old 0xF7 0xFFFFFFFF v) 7 4 (bits old 7 4) := hkeep
  rw [hw]
  refine ⟨bits_congr fun i h1 h2 => ?_, bits_congr fun i _ h2 => ?_⟩
  · rw [bit_putBits _ (by omega), if_pos ⟨h1, h2⟩]
    rw [testBit_bits, Nat.add_sub_cancel' h1, decide_eq_true (by omega), Bool.true_and]
  · rw [bit_putBits _ (by omega), if_neg (by omega), hnew i (by omega) (hcwp i h2)]

/-- Settles O15: an access by the change its number makes, FARWIN, SATF, RSEED and WSTAT by their fields, and the two traps. -/
theorem csrAccessesReadAndWrite : Obligations.CsrAccessesReadAndWrite := by
  unfold Obligations.CsrAccessesReadAndWrite
  intro h rd rs1 n s hi x reads
  have htraps {i : Instr} {tr : Trap} (hl : (thr s h).level ≠ 3) (hexec : exec i s = issue s h (.trap s tr)) :
      ∃ t, exec i s = .next t ∧ TrapTaken s t h tr ∧ SameMemory s t ∧ SameRegs s t := by
    obtain ⟨t, ht, htaken, honly⟩ := issue_trap hi hl hexec
    exact ⟨t, ht, htaken, honly.sameMemory, honly.sameRegs⟩
  have hpu {k : Nat} (hk : k < 5) {i : Instr} {m v w : Word} {P : State → Prop} (hexec : exec i s = csrAccess s h rd k m v w)
      (hP : P (csrCommitted s (csrWrite s h k m v) h rd k)) : reads i k P := by
    have hlisted : csrListed k = true := by simp [csrListed, show k ≤ 5 by omega]
    have hallowed : csrAllowed (thr s h).mode k = true := by simp [csrAllowed, show k / 1024 = 0 by omega]
    have hplain : csrGuardedWrite s h k = false := by simp [csrGuardedWrite, show ¬ 1025 ≤ k by omega]
    have hlatch : csrLatch s h k = s := if_neg (by omega)
    exact csrAccess_reads hi hlisted hallowed hplain hexec (by rwa [hlatch])
  refine ⟨fun hl ha => ?csrr, fun hl ha hg => ⟨csrAccess_reads hi hl ha hg rfl trivial, csrAccess_reads hi hl ha hg rfl trivial,
    csrAccess_reads hi hl ha hg rfl trivial⟩, hpu (by decide) rfl ?farW, hpu (by decide) rfl ?farS, hpu (by decide) rfl ?farC,
    hpu (by decide) rfl ?satW, hpu (by decide) rfl ?satS, hpu (by decide) rfl ?satC, hpu (by decide) rfl ?seed,
    fun hm hv => ?wstat, fun hl hn => ?illegal, fun hl hn ha => ?privilege⟩
  case csrr =>
    refine csrReads_of_change hi ((csrLatch_keepsThreads s h n.toNat).csrChange h n.toNat) ?_ fun k => ?_
    · show execCsrr h rd n s = _
      simp only [execCsrr, csrTraps, hl, ha, Bool.not_true, Bool.false_and, Bool.or_false, firstTrap_cons_false, firstTrap_nil,
        issue_ok hi]
      rfl
    · rw [getCsr_csrCommitted, (csrLatch_keepsThreads s h n.toNat).2]
  case farW =>
    rw [farwin_written]
    exact rwBits_all_and _ _ x
  case farS =>
    rw [farwin_written]
    exact rwBits_set _ _ x
  case farC =>
    rw [farwin_written]
    exact rwBits_clear _ _ x
  case satW =>
    rw [satf_written]
    exact w1cBits_all _ _ x
  case satS =>
    rw [satf_written]
    exact w1cBits_set _ _ x
  case satC =>
    rw [satf_written]
    exact w1cBits_clear _ _ x
  case seed => exact rseed_written s h rd x
  case wstat =>
    obtain ⟨hres, hcwp⟩ := wstat_kept ((thr s h).getCsr 0x400) x hv
    refine csrAccess_reads hi (by decide) (by simpa [csrAllowed] using hm) (by simp [csrGuardedWrite]) rfl ?_
    have hwstat : (thr (csrCommitted s (csrWrite (csrLatch s h 0x400) h 0x400 0xFFFFFFFF x) h rd 0x400) h).getCsr 0x400 =
        keepField ((thr s h).getCsr 0x400) (rwBits ((thr s h).getCsr 0x400) 0xF7 0xFFFFFFFF x) 7 4 1 8 := by
      rw [getCsr_csrCommitted]
      simp [csrLatch, csrWrite, setThrCsr, modThr]
    exact ⟨(congrArg (bits · 7 4) hwstat).trans hres, (congrArg (bits · 2 0) hwstat).trans hcwp⟩
  case illegal =>
    intro i hmem
    obtain ⟨write, k, hexec⟩ := exec_csr_checks h rd rs1 n s i hmem
    exact htraps hl (hexec.trans (congrArg _ (csrTraps_illegal s h hn write _ k)))
  case privilege =>
    intro i hmem
    obtain ⟨write, k, hexec⟩ := exec_csr_checks h rd rs1 n s i hmem
    exact htraps hl (hexec.trans (congrArg _ (csrTraps_privilege s h hn ha write _ k)))

end Sys2Proof.Machine
end

section
/-! PROOFS. The resumable long instructions: how one begins and how one ends (R83 to R86). -/

namespace Sys2Proof.Machine

/-! ### PROG and the end of a long instruction (R61, R85) -/

@[simp] theorem progKey_putCsr (u : Thread) (n : Nat) (v : Word) : progKey (u.putCsr n v) = progKey u := rfl

theorem setProg_eq (s : State) (h : Hart) (v : Word) : setProg s h v = setThr s h ((thr s h).putCsr (progKey (thr s h)) v) := rfl

@[simp] theorem prog_setProg (s : State) (h : Hart) (v : Word) : prog (setProg s h v) h = v := by
  simp [prog, thrCsr, setProg_eq]

/-- A thread whose long instruction has completed: PROG is 0 and nothing is waited for (R85). -/
def endedThread (u : Thread) : Thread := { u with csr := sput u.csr (progKey u) 0, wait := .none, cur := none }

theorem endWait_setProg (s : State) (h : Hart) :
    endWait (setProg s h 0) h = retireTo (setThr s h (endedThread (thr s h))) h ((thr s h).pc + 4) := by
  rw [endWait, setProg_eq, modThr_setThr, retire_setThr]
  rfl

theorem getCsr_endedThread_prog (u : Thread) : (endedThread u).getCsr (progKey u) = 0 := getCsr_putCsr_same u _ 0

theorem getCsr_endedThread_other (u : Thread) {n : Nat} (hn : n < 0x1000) : (endedThread u).getCsr n = u.getCsr n :=
  getCsr_putCsr_other u 0 (by unfold progKey; omega)

/-- A wait that ends with PROG 0: its thread goes on after it, and memory is as before (R85). -/
theorem endWait_setProg_fields (s : State) (h : Hart) :
    (thr (endWait (setProg s h 0) h) h).wait = .none ∧ prog (endWait (setProg s h 0) h) h = 0 ∧
      (thr (endWait (setProg s h 0) h) h).pc = (thr s h).pc + 4 ∧ (endWait (setProg s h 0) h).mem = s.mem := by
  have hthr : thr (endWait (setProg s h 0) h) h = afterCommit (endedThread (thr s h)) ((thr s h).pc + 4) := by
    rw [endWait_setProg, thr_retireTo, thr_setThr_same, afterCommit]
  refine ⟨by rw [hthr, afterCommit, endedThread], ?_, by rw [hthr, afterCommit], ?_⟩
  · rw [prog, thrCsr, hthr]
    exact getCsr_endedThread_prog (thr s h)
  · rw [endWait_setProg, retireTo_mem, setThr_mem]

theorem prog_setGreg (s : State) (h : Hart) (r : GReg) (v : Word) : prog (setGreg s h r v) h = prog s h := by
  simp [prog, thrCsr, setGreg_eq, progKey]

theorem thr_setGreg_same (s : State) (h : Hart) (r : GReg) (v : Word) : thr (setGreg s h r v) h = (thr s h).wr r v := by
  rw [setGreg_eq, thr_setThr_same]

theorem mem_setGreg (s : State) (h : Hart) (r : GReg) (v : Word) : (setGreg s h r v).mem = s.mem := by
  rw [setGreg_eq, setThr_mem]

/-- The resumable long instructions (R83). -/
inductive IsLong : Instr → Prop where
  | memcpyv (h : Hart) (ra rb rn : GReg) : IsLong (.memcpyv h ra rb rn)
  | gatherv (h : Hart) (ra rb rc rn : GReg) (k : BitVec 3) : IsLong (.gatherv h ra rb rc rn k)
  | scanv (h : Hart) (ra rb rc rn : GReg) (ty : ScanType) : IsLong (.scanv h ra rb rc rn ty)

theorem IsLong.kind_lt {i : Instr} (hi : IsLong i) : longKind i < 4 := by
  cases hi
  · exact (by decide : 1 < 4)
  · exact (by decide : 2 < 4)
  · exact (by decide : 3 < 4)

/-- A MEMCPYV that completes ends its wait and no more (R85). -/
theorem endLong_memcpyv (s : State) (h g : Hart) (ra rb rn : GReg) (v : Word) :
    endLong s h (.memcpyv g ra rb rn) v = endWait (setProg s h 0) h := rfl

theorem endLong_gatherv (s : State) (h g : Hart) (ra rb r rn : GReg) (k : BitVec 3) (v : Word) :
    endLong s h (.gatherv g ra rb r rn k) v = endWait (setProg s h 0) h := rfl

theorem endLong_scanv (s : State) (h g : Hart) (ra rb r rn : GReg) (ty : ScanType) (v : Word) :
    endLong s h (.scanv g ra rb r rn ty) v = setGreg (endWait (setProg s h 0) h) h r (scanSum ty v) := rfl

/-- What a completed long instruction leaves: its thread goes on after it, with PROG 0, and memory is as before (R85). -/
theorem IsLong.endLong_fields {i : Instr} (hi : IsLong i) (s : State) (h : Hart) (rc : Word) :
    (thr (endLong s h i rc) h).wait = .none ∧ prog (endLong s h i rc) h = 0 ∧
      (thr (endLong s h i rc) h).pc = (thr s h).pc + 4 ∧ (endLong s h i rc).mem = s.mem := by
  have hended := endWait_setProg_fields s h
  cases hi with
  | memcpyv g ra rb rn => rwa [endLong_memcpyv]
  | gatherv g ra rb r rn k => rwa [endLong_gatherv]
  | scanv g ra rb r rn ty =>
    rw [endLong_scanv, prog_setGreg]
    rwa [thr_setGreg_same, mem_setGreg, thread_wr_wait, thread_wr_pc]

/-- The end of a MEMCPYV writes no register (R85). -/
theorem greg_endLong_memcpyv (s : State) (h : Hart) (ra rb rn : GReg) (rc : Word) (r : GReg) :
    greg (endLong s h (.memcpyv h ra rb rn) rc) h r = greg s h r := by
  have hcwp : (endedThread (thr s h)).cwp = (thr s h).cwp := cwp_congr (getCsr_endedThread_other (thr s h) (by decide))
  rw [endLong_memcpyv, endWait_setProg, greg_retireTo, greg, thr_setThr_same, greg]
  refine thread_rd_of_cwp ?_ ?_ ?_ hcwp ?_ ?_ r <;> rfl

/-! ### The beginning of a long instruction (R84, R85) -/

/-- PROG as a long instruction begins: its KIND, COUNT 0 and DIR (R85). -/
def progBegun (kind : Nat) (dir : Bool) : Word := BitVec.ofNat 32 (2 ^ 24 * kind + 2 ^ 26 * dir.toNat)

theorem progBegun_fields {kind : Nat} (hk : kind < 4) (dir : Bool) :
    bits (progBegun kind dir) 25 24 = kind ∧ bits (progBegun kind dir) 23 0 = 0 ∧ bit (progBegun kind dir) 26 = dir := by
  have hd : dir.toNat ≤ 1 := dir.toNat_le
  have hval : (2 ^ 24 * kind + 2 ^ 26 * dir.toNat) % 2 ^ 32 = 2 ^ 24 * kind + 2 ^ 26 * dir.toNat := by omega
  simp only [progBegun, bits, bit, BitVec.toNat_ofNat, hval, Nat.shiftRight_eq_div_pow, Nat.testBit_eq_decide_div_mod_eq]
  refine ⟨by omega, by omega, ?_⟩
  have hbit : (2 ^ 24 * kind + 2 ^ 26 * dir.toNat) / 2 ^ 26 % 2 = dir.toNat := by omega
  rw [hbit]
  cases dir <;> rfl

theorem misalignedOf_aligned {l : List (Word × Nat)} (hl : ∀ e ∈ l, e.1.toNat % e.2 = 0) : misalignedOf l = [] := by
  have hnone : l.filter (fun e => misaligned e.1 e.2) = [] :=
    List.filter_eq_nil_iff.mpr fun e he => by simp [misaligned, hl e he]
  simp [misalignedOf, hnone]

/-- The bits of a count above the limit of R84. -/
theorem countBits_eq (n : Word) : bits n 31 24 = n.toNat / 2 ^ 24 := by
  have := n.isLt
  rw [bits, Nat.shiftRight_eq_div_pow]
  omega

/-- A count of 2^24 or more traps before anything else (R84). -/
theorem startLong_tooLong {s : State} {h : Hart} {rn : GReg} (hn : 2 ^ 24 ≤ (greg s h rn).toNat) (i : Instr) (ra rb rc : GReg)
    (al : List (Word × Nat)) : startLong s h i ra rb rc rn al = .trap s (trapOperand (insnWord i)) := by
  rw [startLong, countBits_eq, decide_eq_true (by omega), firstTrap_cons_true]

/-- With a count below 2^24 and aligned operands it begins (R84). -/
theorem startLong_begins {s : State} {h : Hart} {rn : GReg} (hn : (greg s h rn).toNat < 2 ^ 24) {al : List (Word × Nat)}
    (hal : ∀ e ∈ al, e.1.toNat % e.2 = 0) (i : Instr) (ra rb rc : GReg) :
    startLong s h i ra rb rc rn al =
      .ok (beginLong s h i (greg s h ra) (greg s h rb) (greg s h rc) (greg s h rn)) := by
  rw [startLong, countBits_eq, misalignedOf_aligned hal, decide_eq_false (by omega), firstTrap_cons_false, firstTrap_nil]

/-- A long instruction with nothing kept in PROG begins at 0, and with nothing to do ends at once (R85). -/
theorem beginLong_eq {s : State} {h : Hart} (hidle : bit (prog s h) 31 = false) (i : Instr) (ra rb rc rn : Word) :
    beginLong s h i ra rb rc rn =
      let u := setProg s h (progBegun (longKind i)
        (decide (longKind i = 1) && decide (rb.toNat < ra.toNat) && decide (ra.toNat < rb.toNat + rn.toNat)))
      if rn.toNat ≤ progCount u h then endLong u h i rc
      else modThr u h fun t => { t with wait := .long ra rb rc rn, cur := some i } := by
  simp only [beginLong, hidle, Bool.false_and, Bool.false_eq_true, if_false]
  rfl

/-- A long instruction begins with COUNT 0 (R85). -/
theorem progCount_begun (s : State) (h : Hart) {kind : Nat} (hk : kind < 4) (dir : Bool) :
    progCount (setProg s h (progBegun kind dir)) h = 0 := by
  rw [progCount, prog_setProg]
  exact (progBegun_fields hk dir).2.1

theorem beginLong_ends {s : State} {h : Hart} (hidle : bit (prog s h) 31 = false) {i : Instr} (hk : longKind i < 4)
    (ra rb rc : Word) :
    ∃ u, beginLong s h i ra rb rc 0 = endLong u h i rc ∧ u.mem = s.mem ∧ (thr u h).pc = (thr s h).pc := by
  rw [beginLong_eq hidle]
  simp only [progCount_begun s h hk, show (0 : Word).toNat ≤ 0 from Nat.le_refl 0, if_true]
  refine ⟨_, rfl, rfl, ?_⟩
  rw [setProg_eq, thr_setThr_same]
  rfl

end Sys2Proof.Machine
end

section
/-! PROOFS. How a long instruction waits, and a step of MEMCPYV within local memory (R83 to R86). -/

namespace Sys2Proof.Machine

/-! ### A long instruction that has begun (R85) -/

/-- A thread in a long instruction that has begun: PROG holds `v` and the operands wait (R85). -/
def begunThread (u : Thread) (i : Instr) (v ra rb rc rn : Word) : Thread :=
  { u with csr := sput u.csr (progKey u) v, wait := .long ra rb rc rn, cur := some i }

theorem begun_eq (s : State) (h : Hart) (i : Instr) (v ra rb rc rn : Word) :
    (modThr (setProg s h v) h fun t => { t with wait := .long ra rb rc rn, cur := some i }) =
      setThr s h (begunThread (thr s h) i v ra rb rc rn) := by
  rw [setProg_eq, modThr_setThr]
  rfl

theorem prog_begun (s : State) (h : Hart) (i : Instr) (v ra rb rc rn : Word) :
    prog (setThr s h (begunThread (thr s h) i v ra rb rc rn)) h = v := by
  rw [prog, thrCsr, thr_setThr_same]
  exact getCsr_putCsr_same (thr s h) (progKey (thr s h)) v

/-- With something to do a long instruction waits with its operands (R83, R85). -/
theorem beginLong_waits {s : State} {h : Hart} (hidle : bit (prog s h) 31 = false) {i : Instr} (hk : longKind i < 4)
    (ra rb rc : Word) {rn : Word} (hn : rn ≠ 0) :
    beginLong s h i ra rb rc rn = setThr s h (begunThread (thr s h) i (progBegun (longKind i)
      (decide (longKind i = 1) && decide (rb.toNat < ra.toNat) && decide (ra.toNat < rb.toNat + rn.toNat))) ra rb rc rn) := by
  have hpos : ¬ rn.toNat ≤ 0 := fun hle => hn (BitVec.eq_of_toNat_eq (Nat.le_zero.mp hle))
  rw [beginLong_eq hidle]
  simp only [progCount_begun s h hk, if_neg hpos, begun_eq]

/-- What a long instruction that begins leaves to be seen (R84, R85). -/
structure LongBegun (s t : State) (h : Hart) (i : Instr) (ra rb rc rn : Word) : Prop where
  memory : SameMemory s t
  waits : rn ≠ 0 → (thr t h).wait = .long ra rb rc rn ∧ (thr t h).cur = some i ∧ (thr t h).pc = (thr s h).pc ∧
    bits (prog t h) 25 24 = longKind i ∧ bits (prog t h) 23 0 = 0 ∧
    bit (prog t h) 26 = decide (longKind i = 1 ∧ rb.toNat < ra.toNat ∧ ra.toNat < rb.toNat + rn.toNat)
  ends : rn = 0 → (thr t h).wait = .none ∧ prog t h = 0 ∧ (thr t h).pc = (thr s h).pc + 4

theorem IsLong.begun {i : Instr} (hi : IsLong i) {s : State} {h : Hart} (hidle : bit (prog s h) 31 = false) (ra rb rc rn : Word) :
    LongBegun s (beginLong s h i ra rb rc rn) h i ra rb rc rn := by
  by_cases hn : rn = 0
  · subst hn
    obtain ⟨u, heq, hmem, hpc⟩ := beginLong_ends hidle hi.kind_lt ra rb rc
    obtain ⟨hwait, hprog, hpc', hmem'⟩ := hi.endLong_fields u h rc
    rw [heq]
    exact ⟨fun _ => by rw [byteAt, hmem', hmem, byteAt], fun hne => absurd rfl hne, fun _ => ⟨hwait, hprog, by rw [hpc', hpc]⟩⟩
  · rw [beginLong_waits hidle hi.kind_lt ra rb rc hn]
    refine ⟨fun _ => by rw [byteAt, setThr_mem, byteAt], fun _ => ?_, fun h0 => absurd h0 hn⟩
    obtain ⟨hkind, hcount, hdir⟩ := progBegun_fields hi.kind_lt
      (decide (longKind i = 1) && decide (rb.toNat < ra.toNat) && decide (ra.toNat < rb.toNat + rn.toNat))
    rw [prog_begun, thr_setThr_same, hdir]
    exact ⟨rfl, rfl, rfl, hkind, hcount, by simp only [Bool.decide_and, Bool.and_assoc]⟩

/-! ### A range of local memory in pieces (R83) -/

/-- What `cutLines` needs to reach the end of a range: fuel for its lines, and no carry out of the address. -/
structure Cuttable (f : Nat) (va : Word) (n : Nat) : Prop where
  fuel : n = 0 ∨ n + va.toNat % 64 ≤ 64 * f
  top : va.toNat + n < 2 ^ 32

/-- The length of the first piece of a range. -/
def firstPiece (va : Word) (n : Nat) : Nat := Nat.min n (64 - va.toNat % 64)

theorem firstPiece_bounds (va : Word) {n : Nat} (hn : n ≠ 0) : 0 < firstPiece va n ∧ firstPiece va n ≤ n :=
  ⟨Nat.lt_min.mpr ⟨by omega, by omega⟩, Nat.min_le_left _ _⟩

theorem cutLines_succ (f : Nat) (va : Word) {n : Nat} (hn : n ≠ 0) :
    cutLines (f + 1) va n =
      (va, firstPiece va n) :: cutLines f (va + BitVec.ofNat 32 (firstPiece va n)) (n - firstPiece va n) := by
  rw [cutLines, if_neg hn]
  rfl

theorem cutLines_zero (f : Nat) (va : Word) : cutLines f va 0 = [] := by
  cases f with
  | zero => rfl
  | succ f => rw [cutLines, if_pos rfl]

theorem Cuttable.next_toNat {f : Nat} {va : Word} {n : Nat} (hc : Cuttable f va n) :
    (va + BitVec.ofNat 32 (firstPiece va n)).toNat = va.toNat + firstPiece va n := by
  have hle : firstPiece va n ≤ n := Nat.min_le_left _ _
  have htop := hc.top
  rw [BitVec.toNat_add, BitVec.toNat_ofNat]
  omega

theorem Cuttable.next {f : Nat} {va : Word} {n : Nat} (hc : Cuttable (f + 1) va n) (hn : n ≠ 0) :
    Cuttable f (va + BitVec.ofNat 32 (firstPiece va n)) (n - firstPiece va n) := by
  have hfuel := hc.fuel.resolve_left hn
  have htop := hc.top
  have hpiece : firstPiece va n = n ∨ firstPiece va n = 64 - va.toNat % 64 ∧ 64 - va.toNat % 64 ≤ n :=
    (Nat.le_total n (64 - va.toNat % 64)).imp Nat.min_eq_left fun hle => ⟨Nat.min_eq_right hle, hle⟩
  constructor
  · rw [hc.next_toNat]
    omega
  · rw [hc.next_toNat]
    omega

/-- Induction over the pieces of a range: the empty range, and a first piece before the rest. -/
theorem Cuttable.induction {P : Nat → Word → Nat → Prop} (hzero : ∀ f va, P f va 0)
    (hsucc : ∀ f va n, n ≠ 0 → Cuttable (f + 1) va n →
      P f (va + BitVec.ofNat 32 (firstPiece va n)) (n - firstPiece va n) → P (f + 1) va n)
    {f : Nat} {va : Word} {n : Nat} (hc : Cuttable f va n) : P f va n := by
  induction f generalizing va n with
  | zero =>
    have hn : n = 0 := by
      have := hc.fuel
      omega
    subst hn
    exact hzero 0 va
  | succ f ih =>
    by_cases hn : n = 0
    · subst hn
      exact hzero _ va
    · exact hsucc f va n hn hc (ih (hc.next hn))

/-- Each piece of a range is part of it, and none is empty. -/
theorem Cuttable.pieces_within {f : Nat} {va : Word} {n : Nat} (hc : Cuttable f va n) :
    ∀ p ∈ cutLines f va n, va.toNat ≤ p.1.toNat ∧ p.1.toNat + p.2 ≤ va.toNat + n ∧ 0 < p.2 := by
  refine hc.induction (P := fun f va n => ∀ p ∈ cutLines f va n, va.toNat ≤ p.1.toNat ∧ p.1.toNat + p.2 ≤ va.toNat + n ∧ 0 < p.2)
    (fun f va p hp => absurd (cutLines_zero f va ▸ hp) List.not_mem_nil) fun f va n hn hc ih p hp => ?_
  obtain ⟨hpos, hle⟩ := firstPiece_bounds va hn
  rw [cutLines_succ f va hn] at hp
  rcases List.mem_cons.mp hp with rfl | hrest
  · exact ⟨Nat.le_refl _, Nat.add_le_add_left hle _, hpos⟩
  · have := ih p hrest
    rw [hc.next_toNat] at this
    omega

/-- A range of at most 64 bytes that ends within local memory is cut into whole pieces. -/
theorem cuttable_step {c : Nat} {va : Word} {n : Nat} (hn : n ≤ 64) (hv : va.toNat + n ≤ localSize c) : Cuttable 4 va n := by
  have hsize : localSize c ≤ 0x60000 := by
    rw [localSize]
    split <;> decide
  exact ⟨by omega, by omega⟩

theorem readMem_append (s : State) (a m n : Nat) : readMem s a m ++ readMem s (a + m) n = readMem s a (m + n) := by
  simp only [readMem, List.range_add, List.map_append, List.map_map]
  congr 1
  exact List.map_congr_left fun i _ => by simp [Nat.add_assoc]

theorem memPutAll_append (m : List Host.Cell) (a : Nat) (xs ys : List Byte) :
    memPutAll m a (xs ++ ys) = memPutAll (memPutAll m a xs) (a + xs.length) ys := by
  induction xs generalizing m a with
  | nil => rfl
  | cons x r ih => simp [memPutAll, ih, Nat.add_assoc, Nat.add_comm 1]

/-- The pieces of a range of local memory give its bytes in order. -/
theorem Cuttable.gatherBytes_own (s : State) (h : Hart) {f : Nat} {va : Word} {n : Nat} (hc : Cuttable f va n)
    (hv : va.toNat + n ≤ localSize h.core) :
    gatherBytes s h (cutLines f va n) = some (s, readLocal s h.core va.toNat n) := by
  refine hc.induction (P := fun f va n => va.toNat + n ≤ localSize h.core →
    gatherBytes s h (cutLines f va n) = some (s, readLocal s h.core va.toNat n))
    (fun f va _ => by rw [cutLines_zero]; rfl) (fun f va n hn hc ih hv => ?_) hv
  obtain ⟨hpos, hle⟩ := firstPiece_bounds va hn
  rw [hc.next_toNat] at ih
  have hpiece : pieceBytes s h (va, firstPiece va n) = some (s, readLocal s h.core va.toNat (firstPiece va n)) := by
    simp only [pieceBytes, coreView_own (show va.toNat < localSize h.core by omega)]
  rw [cutLines_succ f va hn]
  simp only [gatherBytes, hpiece, ih (by omega), Option.map_some, readLocal, ← Nat.add_assoc, readMem_append,
    Nat.add_sub_cancel' hle]

/-! ### The reads of a step within local memory (R83, R68) -/

theorem isLocalAddr_localBase (c off : Nat) : isLocalAddr (localBase c + off) = true := by
  rw [isLocalAddr, localBase, decide_eq_true_eq]
  split <;> omega

theorem mem_upFrom {a n j : Nat} : j ∈ upFrom a n ↔ a ≤ j ∧ j < a + n := by
  simp only [upFrom, List.mem_map, List.mem_range]
  exact ⟨fun ⟨i, hi, hj⟩ => by omega, fun hj => ⟨j - a, by omega, by omega⟩⟩

/-- A part of a range of local memory without poison has none (R261, R262). -/
theorem isPoisoned_part {s : State} {a n b k : Nat} (hlocal : isLocalAddr a = true) (hclean : isPoisoned s a n = false)
    (hab : a ≤ b) (hbk : b + k ≤ a + n) (hk : 0 < k) : isPoisoned s b k = false := by
  have hlocalb : isLocalAddr b = true := by
    rw [isLocalAddr, decide_eq_true_eq] at hlocal ⊢
    omega
  simp only [isPoisoned, sectorsOf, hlocal, hlocalb, if_true, if_neg (show ¬ n = 0 by omega), if_neg (show ¬ k = 0 by omega),
    List.any_eq_false, mem_upFrom] at hclean ⊢
  exact fun j hj => hclean j (by omega)

theorem ownOf_own {s : State} {h : Hart} {p : Word × Nat} (hv : p.1.toNat < localSize h.core) :
    ownOf s h p = some (localBase h.core + p.1.toNat) := by simp only [ownOf, coreView_own hv]

theorem farOf_own {s : State} {h : Hart} {p : Word × Nat} (hv : p.1.toNat < localSize h.core) : farOf s h p = none := by
  simp only [farOf, coreView_own hv]

/-- The demand read of one piece of a step (R261). -/
def pieceFound (s : State) (h : Hart) (p : Word × Nat) : State :=
  match ownOf s h p with
  | some a => demandRead s a p.2
  | none => s

/-- A piece of a step in local memory that holds poison (R68). -/
def piecePoisoned (s : State) (h : Hart) (p : Word × Nat) : Bool :=
  match ownOf s h p with
  | some a => isPoisoned s a p.2
  | none => false

/-- `stepRead` by its parts, each under a name. -/
theorem stepRead_eq (s : State) (h : Hart) (va : Word) (n : Nat) :
    stepRead s h va n =
      let ps := stepPieces va n
      let s := ps.foldl (fun s p => pieceFound s h p) s
      match ps.find? (piecePoisoned s h) with
      | some p => .trap s (trapPoison p.1)
      | none =>
        let out := ps.filter fun p => (farOf s h p).isSome && (stepAccess s h p).isNone
        if out.isEmpty then
          match gatherBytes s h ps with
          | some x => .bytes x.1 x.2
          | none => .waits s
        else if 16 < laneUsed s h.core + out.length then .waits s
        else .waits (out.foldl (fun s p => laneSend s h (.longStep p.2) p.1 ((farOf s h p).getD 0) false) s) := rfl

theorem pieceFound_clean {s : State} (hlatent : s.latent = []) (h : Hart) (p : Word × Nat) : pieceFound s h p = s := by
  rw [pieceFound]
  split
  · exact demandRead_clean hlatent _ _
  · rfl

/-- A step reads its bytes of local memory at once where it finds no error and no poison (R68, R83). -/
theorem stepRead_own {s : State} {h : Hart} {va : Word} {n : Nat} (hn : n ≤ 64) (hv : va.toNat + n ≤ localSize h.core)
    (hlatent : s.latent = []) (hpoison : isPoisoned s (localBase h.core + va.toNat) n = false) :
    stepRead s h va n = .bytes s (readLocal s h.core va.toNat n) := by
  have hc := cuttable_step hn hv
  have hin : ∀ p ∈ stepPieces va n, p.1.toNat < localSize h.core := fun p hp => by
    have := hc.pieces_within p hp
    omega
  have hfold : (stepPieces va n).foldl (fun s p => pieceFound s h p) s = s :=
    List.foldl_fixed' (pieceFound_clean hlatent h) _
  have hbad : (stepPieces va n).find? (piecePoisoned s h) = none := List.find?_eq_none.mpr fun p hp => by
    obtain ⟨hlo, hhi, hpos⟩ := hc.pieces_within p hp
    have hclean := isPoisoned_part (isLocalAddr_localBase _ _) hpoison (Nat.add_le_add_left hlo _)
      (show localBase h.core + p.1.toNat + p.2 ≤ _ by omega) hpos
    simp only [piecePoisoned, ownOf_own (hin p hp), hclean, Bool.false_eq_true, not_false_eq_true]
  have hout : (stepPieces va n).filter (fun p => (farOf s h p).isSome && (stepAccess s h p).isNone) = [] :=
    List.filter_eq_nil_iff.mpr fun p hp => by simp [farOf_own (hin p hp)]
  have hgather : gatherBytes s h (stepPieces va n) = _ := hc.gatherBytes_own s h hv
  rw [stepRead_eq]
  simp only [hfold, hbad, hout, hgather]
  rfl

/-- No byte of a range that an access may reach is refused or a hole, so that a step's ranges raise nothing (R151, R453). -/
theorem rangesTrap_none {s : State} {h : Hart} {l : List (Word × Nat)} (hl : ∀ e ∈ l, viewTrap s h e.1 e.2 = none) :
    rangesTrap s h l = none := by
  have hclass (k : ViewClass) (hk : ∀ e ∈ l, firstOfClass s h e.1 e.2 k = none) : lowestOfClass s h l k = none := by
    have hnil : l.filterMap (fun e => (firstOfClass s h e.1 e.2 k).map BitVec.toNat) = [] :=
      List.filterMap_eq_nil_iff.mpr fun e he => by rw [hk e he, Option.map_none]
    rw [lowestOfClass, hnil]
    rfl
  have hboth : ∀ e ∈ l, firstOfClass s h e.1 e.2 .tenancy = none ∧ firstOfClass s h e.1 e.2 .bus = none := fun e he => by
    have hview := hl e he
    rw [viewTrap] at hview
    split at hview
    · cases hview
    · next htenancy => exact ⟨htenancy, Option.map_eq_none_iff.mp hview⟩
  simp only [rangesTrap, hclass .tenancy fun e he => (hboth e he).1, hclass .bus fun e he => (hboth e he).2, Option.map_none]

/-! ### The writes of a step within local memory (R83) -/

/-- A state after writes of memory that find no error: only bytes and poison differ (R261, R262). -/
def written (s : State) (m : List Host.Cell) (z : List Nat) : State := { s with mem := m, poison := z }

theorem cleanSectors_written {s : State} (hlatent : s.latent = []) (m : List Host.Cell) (z ks : List Nat) :
    ∃ z', cleanSectors (written s m z) ks = written s m z' := by
  obtain ⟨⟩ := s
  subst hlatent
  exact ⟨_, rfl⟩

theorem demandReads_written {s : State} (hlatent : s.latent = []) (m : List Host.Cell) (z gs : List Nat) :
    gs.foldl (fun s g => demandRead s g 1) (written s m z) = written s m z :=
  List.foldl_fixed' (fun g => demandRead_clean (s := written s m z) hlatent g 1) gs

theorem renewChecks_written {s : State} (hlatent : s.latent = []) (m : List Host.Cell) (z : List Nat) (a n : Nat) :
    ∃ z', renewChecks (written s m z) a n = written s m z' := by
  obtain ⟨z', hz⟩ := cleanSectors_written hlatent m z (wholeSectors a n)
  simp only [renewChecks, hz]
  split
  · rw [demandReads_written hlatent]
    exact cleanSectors_written hlatent m z' _
  · exact ⟨z', rfl⟩

/-- A write that finds no error stores its bytes, and only poison changes besides (R261, R262). -/
theorem writeMem_written {s : State} (hlatent : s.latent = []) (m : List Host.Cell) (z : List Nat) (a : Nat) (bs : List Byte) :
    ∃ z', writeMem (written s m z) a bs = written s (memPutAll m a bs) z' := by
  rw [writeMem]
  split
  · next hempty => exact ⟨z, by rw [List.isEmpty_iff.mp hempty, memPutAll]⟩
  · obtain ⟨z', hz⟩ := renewChecks_written hlatent m z a bs.length
    exact ⟨z', by rw [hz]; rfl⟩

/-- The writes of a step's pieces, each with its bytes off the front of a list. -/
def storePieces (h : Hart) (ps : List (Word × Nat)) (r : Option State × List Byte) : Option State × List Byte :=
  ps.foldl (fun (r : Option State × List Byte) p =>
    (r.1.bind fun s => storeTo s h p.1 (r.2.take p.2), r.2.drop p.2)) r

/-- A store of a piece in local memory outside the outbox line of its thread. -/
theorem storeTo_written {s : State} (hlatent : s.latent = []) {h : Hart} {va : Word} {bs : List Byte}
    (hv : va.toNat < localSize h.core) (ho : va.toNat + bs.length ≤ outboxOff s h ∨ outboxOff s h + 64 ≤ va.toNat)
    (m : List Host.Cell) (z : List Nat) :
    ∃ z', storeTo (written s m z) h va bs = some (written s (memPutAll m (localBase h.core + va.toNat) bs) z') := by
  obtain ⟨z', hz⟩ := writeMem_written hlatent m z (localBase h.core + va.toNat) bs
  exact ⟨z', by rw [storeTo_own (s := written s m z) hv ho, writeLocal, hz]⟩

/-- The pieces of a range of local memory outside the outbox line are stored as one write of all their bytes (R83). -/
theorem Cuttable.storePieces_own {s : State} (hlatent : s.latent = []) (h : Hart) {f : Nat} {va : Word} {n : Nat}
    (hc : Cuttable f va n) (hv : va.toNat + n ≤ localSize h.core)
    (ho : va.toNat + n ≤ outboxOff s h ∨ outboxOff s h + 64 ≤ va.toNat) (m : List Host.Cell) (z : List Nat) {bs : List Byte}
    (hbs : bs.length = n) :
    ∃ z', storePieces h (cutLines f va n) (some (written s m z), bs) =
      (some (written s (memPutAll m (localBase h.core + va.toNat) bs) z'), []) := by
  refine hc.induction (P := fun f va n => ∀ (m : List Host.Cell) (z : List Nat) (bs : List Byte), bs.length = n →
    va.toNat + n ≤ localSize h.core → (va.toNat + n ≤ outboxOff s h ∨ outboxOff s h + 64 ≤ va.toNat) →
    ∃ z', storePieces h (cutLines f va n) (some (written s m z), bs) =
      (some (written s (memPutAll m (localBase h.core + va.toNat) bs) z'), []))
    (fun f va m z bs hbs _ _ => ⟨z, by rw [cutLines_zero, List.eq_nil_of_length_eq_zero hbs]; rfl⟩)
    (fun f va n hn hc ih m z bs hbs hv ho => ?_) m z bs hbs hv ho
  obtain ⟨hpos, hle⟩ := firstPiece_bounds va hn
  have htake : (bs.take (firstPiece va n)).length = firstPiece va n := by rw [List.length_take, hbs, Nat.min_eq_left hle]
  have hdrop : (bs.drop (firstPiece va n)).length = n - firstPiece va n := by rw [List.length_drop, hbs]
  obtain ⟨z₁, hfirst⟩ := storeTo_written (bs := bs.take (firstPiece va n)) hlatent (show va.toNat < localSize h.core by omega)
    (by omega) m z
  rw [hc.next_toNat] at ih
  obtain ⟨z₂, hrest⟩ := ih (memPutAll m (localBase h.core + va.toNat) (bs.take (firstPiece va n))) z₁ _ hdrop (by omega) (by omega)
  refine ⟨z₂, ?_⟩
  rw [← List.take_append_drop (firstPiece va n) bs, memPutAll_append, List.take_append_drop, htake, Nat.add_assoc, ← hrest,
    cutLines_succ f va hn, storePieces, List.foldl_cons, storePieces, Option.bind_some, hfirst]

/-! ### The step of a MEMCPYV (R83, R85) -/

theorem laneUsed_dropStepReads (s : State) (h : Hart) : laneUsed (dropStepReads s h) h.core ≤ laneUsed s h.core := by
  have hlane := List.length_filter_le (fun a : LaneAccess => decide (a.tid ≠ h.tid) || !a.kind.isLongStep) (core s h.core).lane
  simp only [laneUsed, tileInFlight, dropStepReads, core_modCore_same]
  omega

theorem thr_dropStepReads (s : State) (h j : Hart) : thr (dropStepReads s h) j = thr s j := by
  rw [dropStepReads, thr_modCore]
  exact fun _ => rfl

/-- The writes of a step within local memory, outside the outbox line, close it at once (R83). -/
theorem closeStep_own {s : State} (hlatent : s.latent = []) {h : Hart} {va : Word} {bs : List Byte} {n : Nat} (hbs : bs.length = n)
    (hn : n ≤ 64) (hv : va.toNat + n ≤ localSize h.core) (ho : va.toNat + n ≤ outboxOff s h ∨ outboxOff s h + 64 ≤ va.toNat)
    (hroom : laneUsed s h.core ≤ 16) (m : Nat) (rc : Word) :
    ∃ z, closeStep s h va bs m rc =
      .done (written (dropStepReads s h) (memPutAll s.mem (localBase h.core + va.toNat) bs) z) m rc := by
  have hc := cuttable_step hn hv
  obtain ⟨z, hz⟩ := hc.storePieces_own (s := dropStepReads s h) hlatent h hv ho s.mem s.poison hbs
  have hfar : (stepPieces va bs.length).filter (fun p => (farOf (dropStepReads s h) h p).isSome) = [] :=
    List.filter_eq_nil_iff.mpr fun p hp => by
      have hwithin := hc.pieces_within p (hbs ▸ hp)
      rw [farOf_own (show p.1.toNat < localSize h.core by omega)]
      exact Bool.false_ne_true
  have hwrite : stepWrite (dropStepReads s h) h va bs =
      some (written (dropStepReads s h) (memPutAll s.mem (localBase h.core + va.toNat) bs) z) := by
    have hfold : stepWrite (dropStepReads s h) h va bs = if 16 < laneUsed (dropStepReads s h) h.core +
        ((stepPieces va bs.length).filter fun p => (farOf (dropStepReads s h) h p).isSome).length then none
        else (storePieces h (stepPieces va bs.length) (some (dropStepReads s h), bs)).1 := rfl
    have hused := laneUsed_dropStepReads s h
    rw [hfold, hfar, List.length_nil, if_neg (by omega), hbs]
    exact congrArg Prod.fst hz
  exact ⟨z, by rw [closeStep, hwrite]⟩

/-- A step of MEMCPYV that moves all its bytes within local memory (R83). -/
theorem memcpyStep_own {s : State} {h : Hart} {x y m : Word} (hm : m.toNat ≤ 64) (hlatent : s.latent = [])
    (hx : x.toNat + m.toNat ≤ localSize h.core) (hy : y.toNat + m.toNat ≤ localSize h.core)
    (hvx : viewTrap s h x m.toNat = none) (hvy : viewTrap s h y m.toNat = none)
    (hpoison : isPoisoned s (localBase h.core + y.toNat) m.toNat = false)
    (ho : x.toNat + m.toNat ≤ outboxOff s h ∨ outboxOff s h + 64 ≤ x.toNat) (hroom : laneUsed s h.core ≤ 16) :
    ∃ z, memcpyStep s h x y m 0 = .done (written (dropStepReads s h)
      (memPutAll s.mem (localBase h.core + x.toNat) (readLocal s h.core y.toNat m.toNat)) z) m.toNat 0 := by
  obtain ⟨z, hz⟩ := closeStep_own hlatent (readMem_length s (localBase h.core + y.toNat) m.toNat) hm hx ho hroom m.toNat 0
  refine ⟨z, ?_⟩
  have hn : Nat.min 64 (m.toNat - 0) = m.toNat := Nat.min_eq_right hm
  have hoff : (if bit (prog s h) 26 = true then m.toNat - 0 - m.toNat else 0) = 0 := by
    split <;> omega
  have hranges : rangesTrap s h [(y, m.toNat), (x, m.toNat)] = none := rangesTrap_none (by simp [hvx, hvy])
  simp only [memcpyStep, hn, hoff, BitVec.ofNat_eq_ofNat, BitVec.add_zero, hranges, stepRead_own hm hy hlatent hpoison]
  exact hz

/-- The last step of a MEMCPYV ends it (R85). -/
theorem exec_longStep_ends {s : State} {h g : Hart} {ra rb rn : GReg} {x y w m : Word} (hwait : (thr s h).wait = .long x y w m)
    (hcur : (thr s h).cur = some (.memcpyv g ra rb rn)) (hruns : coreRuns s h.core = true) (hnamed : threadNamed s h = true)
    (hline : takeableLine s h = none) (hcount : progCount s h = 0) {u : State} {rc : Word}
    (hstep : memcpyStep s h x y m 0 = .done u m.toNat rc) :
    exec (.longStep h) s = .next (endLong u h (.memcpyv g ra rb rn) rc) := by
  have hexec : exec (.longStep h) s = execLongStep h s := rfl
  have hnext : nextStep s h (.memcpyv g ra rb rn) x y w m = .done u m.toNat rc := by
    rw [← hstep, ← hcount]
    rfl
  rw [hexec]
  simp only [execLongStep, hwait, hcur, hruns, hnamed, hline, hnext, hcount, stepBoundary, Nat.zero_add, Nat.le_refl, if_true,
    Bool.not_true, Option.isSome_none, Bool.false_and, Bool.or_self, Bool.false_eq_true, if_false]

/-- Settles O14: PROG and the operands tell how a long instruction begins, and a step of MEMCPYV reads all its bytes before it
writes any. -/
theorem longInstructionsBeginAndStep : Obligations.LongInstructionsBeginAndStep := by
  unfold Obligations.LongInstructionsBeginAndStep
  intro h ra rb rc rn k ty s a b c n al begins
  have hbegins {i : Instr} {kind : Nat} {ok : Prop} {r : GReg} {l : List (Word × Nat)} (hi : IsLong i) (hkind : longKind i = kind)
      (hexec : exec i s = issue s h (startLong s h i ra rb r rn l)) (hal : ok → ∀ e ∈ l, e.1.toNat % e.2 = 0) :
      begins i kind ok := by
    subst hkind
    refine fun hissue hl hidle => ⟨fun hn hok => ?_, fun hn => ?_⟩
    · have hbegun := hi.begun hidle (greg s h ra) (greg s h rb) (greg s h r) n
      rw [startLong_begins hn (hal hok), issue_ok hissue] at hexec
      refine ⟨_, hexec, hbegun.memory, fun hne => ?_, hbegun.ends⟩
      obtain ⟨hwait, hrest⟩ := hbegun.waits hne
      exact ⟨⟨_, hwait⟩, hrest⟩
    · rw [startLong_tooLong hn] at hexec
      obtain ⟨t, ht, htaken, honly⟩ := issue_trap hissue hl hexec
      exact ⟨t, ht, htaken, honly.sameMemory⟩
  refine ⟨hbegins (.memcpyv h ra rb rn) rfl rfl (fun _ => by simp), hbegins (.gatherv h ra rb rc rn k) rfl rfl ?_,
    hbegins (.scanv h ra rb rc rn ty) rfl rfl ?_, ?_⟩
  · rintro ⟨hb, ha, hc⟩
    simpa using ⟨hb, hc, ha⟩
  · rintro ⟨ha, hb⟩
    have hbytes : scanBytes ty = if ty = .satQ15 then 2 else 4 := by cases ty <;> rfl
    simpa [hbytes] using ⟨hb, ha⟩
  · intro x y w m hwait hcur hruns hnamed hline _ hmem hlatent hcount _ hm hroom hx hy hvx hvy hpoison ho
    obtain ⟨z, hz⟩ := memcpyStep_own hm hlatent hx hy hvx hvy hpoison ho hroom
    have hlen : (readLocal s h.core y.toNat m.toNat).length = m.toNat := readMem_length s _ _
    generalize hu : written (dropStepReads s h)
      (memPutAll s.mem (localBase h.core + x.toNat) (readLocal s h.core y.toNat m.toNat)) z = u at hz
    have humem : u.mem = memPutAll s.mem (localBase h.core + x.toNat) (readLocal s h.core y.toNat m.toNat) := by rw [← hu, written]
    have huthr : thr u h = thr s h := by
      rw [← hu]
      exact thr_dropStepReads s h h
    obtain ⟨hwait', hprog, hpc, hmem'⟩ := (IsLong.memcpyv h ra rb rn).endLong_fields u h 0
    have hbyte (j : Nat) : byteAt (endLong u h (.memcpyv h ra rb rn) 0) j =
        memGet (memPutAll s.mem (localBase h.core + x.toNat) (readLocal s h.core y.toNat m.toNat)) j := by
      rw [byteAt, hmem', humem]
    refine ⟨_, exec_longStep_ends hwait hcur hruns hnamed hline hcount hz, hwait', by rw [hpc, huthr], hprog, fun j hj => ?_,
      fun j hj => ?_, fun r => by rw [greg_endLong_memcpyv, greg, huthr, greg]⟩
    · rw [hbyte, memGet_memPutAll_outside _ hmem (by rwa [hlen]), byteAt]
    · rw [hbyte, memGet_memPutAll_inside _ hmem (by rwa [hlen])]
      exact readMem_getElem s _ _ _

end Sys2Proof.Machine
end

section
/-! PROOFS. Rules of the lane port: accesses sent, found, changed and dropped, and what leaves the rest of the state alone. -/

namespace Sys2Proof.Machine

/-! ### The accesses of a port (R202) -/

theorem laneFind_of_lane {s t : State} {c : Nat} (hl : (core t c).lane = (core s c).lane) (id : Nat) :
    laneFind t c id = laneFind s c id := by
  rw [laneFind, hl, laneFind]

/-- The access that a number names bears it. -/
theorem id_of_laneFind {s : State} {c id : Nat} {a : LaneAccess} (hf : laneFind s c id = some a) : a.id = id := by
  simpa using List.find?_some hf

/-- A change of accesses that keeps their numbers, seen through a search by number. -/
theorem find?_map_id {f : LaneAccess → LaneAccess} (hf : ∀ a, (f a).id = a.id) (l : List LaneAccess) (id : Nat) :
    (l.map f).find? (fun a => a.id == id) = (l.find? fun a => a.id == id).map f := by
  rw [List.find?_map]
  congr 2
  exact funext fun a => by simp [hf]

theorem laneFind_mapLane {s t : State} {c : Nat} {f : LaneAccess → LaneAccess} (hf : ∀ a, (f a).id = a.id)
    (hl : (core t c).lane = (core s c).lane.map f) (id : Nat) : laneFind t c id = (laneFind s c id).map f := by
  rw [laneFind, hl, find?_map_id hf, laneFind]

theorem laneFind_laneMod {s : State} {c id : Nat} {a : LaneAccess} (hf : laneFind s c id = some a)
    {f : LaneAccess → LaneAccess} (hid : ∀ b, (f b).id = b.id) : laneFind (laneMod s c id f) c id = some (f a) := by
  rw [laneFind_mapLane (s := s) (f := fun b => if b.id = id then f b else b) (fun b => by split <;> simp [hid])
    (by simp only [laneMod, core_modCore_same]), hf, Option.map_some, if_pos (id_of_laneFind hf)]

theorem laneFind_laneDrop (s : State) (c id : Nat) : laneFind (laneDrop s c id) c id = none := by
  simp [laneFind, laneDrop]

/-- What changes one thread alone changes no access. -/
theorem OnlyThread.lane {s t : State} {h : Hart} (ho : OnlyThread s t h) : (core t h.core).lane = (core s h.core).lane := by
  obtain ⟨-, -, -, hcore⟩ := ho
  rw [hcore]

/-! ### What an event of the port leaves alone -/

/-- Memory, every thread, the CSRs of core `c` and whether it runs are as before. -/
structure PortFrame (s t : State) (c : Nat) : Prop where
  mem : t.mem = s.mem
  threads : ∀ j, thr t j = thr s j
  csrs : ∀ n, coreCsr t c n = coreCsr s c n
  run : (core t c).run = (core s c).run

theorem PortFrame.trans {s t u : State} {c : Nat} (hst : PortFrame s t c) (htu : PortFrame t u c) : PortFrame s u c :=
  ⟨htu.mem.trans hst.mem, fun j => (htu.threads j).trans (hst.threads j), fun n => (htu.csrs n).trans (hst.csrs n),
    htu.run.trans hst.run⟩

theorem sameMemory_of_mem {s t : State} (hm : t.mem = s.mem) : SameMemory s t := fun _ => by rw [byteAt, hm, byteAt]

theorem PortFrame.sameMemory {s t : State} {c : Nat} (hf : PortFrame s t c) : SameMemory s t := sameMemory_of_mem hf.mem

theorem portFrame_of_cores {s t : State} (hm : t.mem = s.mem) (hc : t.cores = s.cores) (c : Nat) : PortFrame s t c := by
  have hcore : core t c = core s c := by rw [core, hc, core]
  exact ⟨hm, thr_of_cores hc, fun n => by rw [coreCsr, hcore, coreCsr], by rw [hcore]⟩

theorem portFrame_modCore (s : State) (c : Nat) {f : Core → Core} (ht : ∀ k, (f k).threads = k.threads)
    (hcsr : ∀ k, (f k).csr = k.csr) (hrun : ∀ k, (f k).run = k.run) : PortFrame s (modCore s c f) c :=
  ⟨rfl, thr_modCore s ht, coreCsr_modCore s hcsr c, by rw [core_modCore_same, hrun]⟩

theorem portFrame_laneDrop (s : State) (c id : Nat) : PortFrame s (laneDrop s c id) c :=
  portFrame_modCore s c (fun _ => rfl) (fun _ => rfl) fun _ => rfl

theorem portFrame_laneMod (s : State) (c id : Nat) (f : LaneAccess → LaneAccess) : PortFrame s (laneMod s c id f) c :=
  portFrame_modCore s c (fun _ => rfl) (fun _ => rfl) fun _ => rfl

theorem portFrame_countLaneBeats (s : State) (c dev : Nat) : PortFrame s (countLaneBeats s c dev) c :=
  portFrame_of_cores (keepsMachine_countLaneBeats s c dev).mem (keepsMachine_countLaneBeats s c dev).cores c

/-- The line buffer takes a line; the accesses of the port stay (R223). -/
theorem bufferFill_frame (s : State) (c a : Nat) (line : List Byte) :
    PortFrame s (bufferFill s c a line) c ∧ (core (bufferFill s c a line) c).lane = (core s c).lane := by
  have hset (b : List (Nat × List Byte)) (n : Nat) :
      PortFrame s (modCore s c fun k => { k with readBuf := b, laneNext := n }) c ∧
        (core (modCore s c fun k => { k with readBuf := b, laneNext := n }) c).lane = (core s c).lane :=
    ⟨portFrame_modCore s c (fun _ => rfl) (fun _ => rfl) fun _ => rfl, by rw [core_modCore_same]⟩
  unfold bufferFill
  dsimp only
  split
  · exact ⟨portFrame_of_cores rfl rfl c, rfl⟩
  · exact hset _ _

/-! ### Accesses sent (R202, R203) -/

/-- An access as it goes into the port and is sent at once. -/
def sentAccess (s : State) (h : Hart) (kind : AccessKind) (va : Word) (dev : Nat) (volat : Bool) : LaneAccess :=
  ⟨laneId s h.core, h.tid, kind, va, dev, volat, now s, true, false, [], none, none, [], none⟩

/-- An access that is no finish write goes into the port behind the others. -/
theorem laneSend_unarmed {s : State} {h : Hart} {kind : AccessKind} {va : Word} {dev : Nat} {volat : Bool}
    (harmed : ((sentAccess s h kind va dev volat).isStore && bit (thr s h).finArmed (thr s h).level.toNat) = false) :
    laneSend s h kind va dev volat =
      modCore s h.core fun k => { k with lane := k.lane ++ [sentAccess s h kind va dev volat], laneNext := k.laneNext + 1 } := by
  have hsend : laneSend s h kind va dev volat =
      if (sentAccess s h kind va dev volat).isStore && bit (thr s h).finArmed (thr s h).level.toNat then
        laneSend s h kind va dev volat
      else modCore s h.core fun k => { k with lane := k.lane ++ [sentAccess s h kind va dev volat], laneNext := k.laneNext + 1 } := by
    rw [harmed]
    have hunarmed := harmed
    simp only [sentAccess, laneId] at hunarmed
    simp only [laneSend, hunarmed]
    rfl
  rwa [harmed] at hsend

/-! ### Lines raised and failures recorded (R151, R203) -/

/-- The port of core `c` holds the accesses it held. -/
def SameLane (s t : State) (c : Nat) : Prop := (core t c).lane = (core s c).lane

theorem SameLane.refl (s : State) (c : Nat) : SameLane s s c := rfl

theorem SameLane.trans {s t u : State} {c : Nat} (hst : SameLane s t c) (htu : SameLane t u c) : SameLane s u c :=
  Eq.trans htu hst

theorem sameLane_ite {s t u : State} {c : Nat} {p : Prop} [Decidable p] (ht : SameLane s t c) (hu : SameLane s u c) :
    SameLane s (if p then t else u) c := by
  split
  · exact ht
  · exact hu

theorem sameLane_modCore (s : State) (c : Nat) {f : Core → Core} (hf : ∀ k, (f k).lane = k.lane) :
    SameLane s (modCore s c f) c := by rw [SameLane, core_modCore_same, hf]

theorem sameLane_setCoreCsr (s : State) (c n : Nat) (v : Word) : SameLane s (setCoreCsr s c n v) c :=
  sameLane_modCore s c fun _ => rfl

theorem sameLane_setThr (s : State) (h : Hart) (u : Thread) : SameLane s (setThr s h u) h.core :=
  (onlyThread_setThr s h u).lane

theorem sameLane_pendLine (s : State) (c l : Nat) (v : Word) : SameLane s (pendLine s c l v) c :=
  sameLane_ite (.refl s c) ((sameLane_setCoreCsr s c _ _).trans (sameLane_modCore _ c fun _ => rfl))

/-- An event on a line changes no access of its core (R153, R154). -/
theorem sameLane_raiseLine (s : State) (c l : Nat) (v : Word) : SameLane s (raiseLine s c l v) c := by
  have hcount (k : Sparse Nat) (n : Nat) : SameLane s (modCore s c fun x => { x with stormCnt := k, stormAt := n }) c :=
    sameLane_modCore s c fun _ => rfl
  have hstuck (u : State) (w x : Word) : SameLane u (pendLine (countCore (setCoreCsr u c (0x820 + l) w) c 0x11B 1) c 31 x) c :=
    ((sameLane_setCoreCsr u c _ w).trans (sameLane_setCoreCsr _ c _ _)).trans (sameLane_pendLine _ c 31 x)
  refine (sameLane_ite ?_ (.refl s c)).trans (sameLane_pendLine _ c l v)
  exact sameLane_ite ((hcount _ _).trans (hstuck _ _ _)) (hcount _ _)

/-- The first fault is recorded in registers alone (R203). -/
theorem recordLaneFault_eq (s : State) (c status addr : Nat) :
    recordLaneFault s c status addr = { s with regs := (recordLaneFault s c status addr).regs } := by
  unfold recordLaneFault
  split <;> rfl

theorem reg_recordLaneFault {s : State} {c : Nat} (hd : isDrvCore c = false) (hv : flag s (Reg.cmpLpFault c) 31 = false)
    (status addr : Nat) :
    reg (recordLaneFault s c status addr) (Reg.cmpLpFault c) = BitVec.ofNat 32 (status % 256 + 2 ^ 31) := by
  have hlo : Reg.cmpLpFault c ≠ Reg.cmpLpAddrLo c := by simp only [Reg.cmpLpFault, Reg.cmpLpAddrLo]; omega
  have hhi : Reg.cmpLpFault c ≠ Reg.cmpLpAddrHi c := by simp only [Reg.cmpLpFault, Reg.cmpLpAddrHi]; omega
  simp only [recordLaneFault, hd, hv, Bool.or_self, Bool.false_eq_true, if_false]
  rw [reg_setReg_other _ _ hlo, reg_setReg_other _ _ hhi, reg_setReg_same]

theorem wakeFence_of_not_fence {s : State} {h : Hart} (hw : ∀ rd, (thr s h).wait ≠ .fence rd) : wakeFence s h = s := by
  unfold wakeFence
  split
  · next rd hrd => exact absurd hrd (hw rd)
  · rfl

theorem coverFailed_id (id status : Nat) (a : LaneAccess) : (coverFailed id status a).id = a.id := by
  unfold coverFailed
  split <;> rfl

/-- A failure of a thread's store as its port reports it: the fault recorded, line 30 raised, the pending failure as given, and
the finish writes that cover the store told (R203, R227, R229). -/
def failureReported (s : State) (h : Hart) (id status addr : Nat) (v : Word) (f : Option PendingFailure) : State :=
  modCore (modThr (raiseLine (recordLaneFault s h.core status addr) h.core 30 v) h fun t => { t with pendFail := f }) h.core
    fun k => { k with lane := k.lane.map (coverFailed id status) }

end Sys2Proof.Machine
end

section
/-! PROOFS. The events of the lane port: answers, acknowledgements, deadlines, finish writes and policing (R195, R202, R203,
R225 to R229). -/

namespace Sys2Proof.Machine

/-! ### Accesses that issue (R69, R202, R203) -/

/-- A .V load of the far view goes into the port and into the window of its thread (R69, R74, R202). -/
theorem exec_ldW_far {s : State} {h : Hart} (hi : canIssue s h = true) {rb : GReg} {off : BitVec 13} {d : Nat}
    (ha : (memAddr s h rb off).toNat % 4 = 0) (hv : viewTrap s h (memAddr s h rb off) 4 = none)
    (hfar : coreView s h (memAddr s h rb off) = .far d) (hroom : laneUsed s h.core < 16) (rd : GReg) :
    exec (.ldW h rd rb true off) s = .next (holdIssued (laneSend s h (.load rd 4 true) (memAddr s h rb off) d true) h rd
      (.load (laneId s h.core)) ((thr s h).pc + 4)) := by
  have hexec : exec (.ldW h rd rb true off) s = loadInsn s h rd rb off 4 true true := rfl
  have hfull : laneFull s h.core = false := decide_eq_false (Nat.not_le.mpr hroom)
  rw [hexec, loadInsn_of_canIssue hi, ← issue_ok hi]
  simp only [load, issueTraps_aligned s h ha, hv, hfar, farLoad, bufferServed, Bool.true_or, if_true, sendLoad, hfull,
    Bool.false_eq_true, if_false]

/-- A store of the far view goes into the port and commits (R70, R203). -/
theorem exec_stW_far {s : State} {h : Hart} (hi : canIssue s h = true) {rb : GReg} {off : BitVec 13} {d : Nat}
    (ha : (memAddr s h rb off).toNat % 4 = 0) (hv : viewTrap s h (memAddr s h rb off) 4 = none)
    (hfar : coreView s h (memAddr s h rb off) = .far d) (hroom : laneUsed s h.core < 16) (rs : GReg) :
    exec (.stW h rs rb off) s = .next (retire (laneSend s h (.store (leBytes 4 (greg s h rs).toNat)) (memAddr s h rb off) d
      false) h) := by
  have hexec : exec (.stW h rs rb off) s = storeInsn s h rs rb off 4 := rfl
  have hfull : laneFull s h.core = false := decide_eq_false (Nat.not_le.mpr hroom)
  rw [hexec, storeInsn_of_canIssue hi, ← issue_ok hi]
  simp only [store, issueTraps_aligned s h ha, hv, storeTo, hfar, hfull, Bool.false_eq_true, if_false]

theorem farLoad_issued {s : State} {h : Hart} (hi : canIssue s h = true) {rb : GReg} {off : BitVec 13} {d : Nat}
    (ha : (memAddr s h rb off).toNat % 4 = 0) (hv : viewTrap s h (memAddr s h rb off) 4 = none)
    (hfar : coreView s h (memAddr s h rb off) = .far d) (hroom : laneUsed s h.core < 16) (rd : GReg) :
    ∃ t, exec (.ldW h rd rb true off) s = .next t ∧
      (thr t h).window = [⟨(thr s h).pc, rd, .load (core s h.core).laneNext⟩] ∧
      (∃ a, (core t h.core).lane = (core s h.core).lane ++ [a] ∧ a.kind = .load rd 4 true ∧ a.addr = d ∧ a.sent = true) ∧
      (thr t h).pc = (thr s h).pc + 4 ∧ coreCsr t h.core (issuedCsr h) = coreCsr s h.core (issuedCsr h) ∧ SameMemory s t := by
  have hsend := laneSend_unarmed (s := s) (h := h) (kind := .load rd 4 true) (va := memAddr s h rb off) (dev := d)
    (volat := true) rfl
  generalize hu : laneSend s h (.load rd 4 true) (memAddr s h rb off) d true = u at hsend
  have hframe : PortFrame s u h.core := by
    rw [hsend]
    exact portFrame_modCore s h.core (fun _ => rfl) (fun _ => rfl) fun _ => rfl
  have hlane : (core u h.core).lane = (core s h.core).lane ++ [sentAccess s h (.load rd 4 true) (memAddr s h rb off) d true] := by
    rw [hsend, core_modCore_same]
  have hthr : thr u h = thr s h := hframe.threads h
  refine ⟨_, exec_ldW_far hi ha hv hfar hroom rd, ?_⟩
  rw [hu, holdIssued, modThr, thr_setThr_same, hthr, window_of_canIssue hi]
  exact ⟨rfl, ⟨_, Eq.trans (sameLane_setThr u h _) hlane, rfl, rfl, rfl⟩, rfl, by rw [coreCsr_setThr, hframe.csrs],
    sameMemory_of_mem (by rw [setThr_mem, hframe.mem])⟩

theorem farStore_issued {s : State} {h : Hart} (hi : canIssue s h = true) {rb : GReg} {off : BitVec 13} {d : Nat}
    (ha : (memAddr s h rb off).toNat % 4 = 0) (hv : viewTrap s h (memAddr s h rb off) 4 = none)
    (hfar : coreView s h (memAddr s h rb off) = .far d) (hroom : laneUsed s h.core < 16)
    (harmed : bit (thr s h).finArmed (thr s h).level.toNat = false) (rs : GReg) :
    ∃ t, exec (.stW h rs rb off) s = .next t ∧ (thr t h).pc = (thr s h).pc + 4 ∧ SameMemory s t ∧
      ∃ a, (core t h.core).lane = (core s h.core).lane ++ [a] ∧ a.kind = .store (leBytes 4 (greg s h rs).toNat) ∧
        a.addr = d ∧ a.sent = true := by
  have hsend := laneSend_unarmed (s := s) (h := h) (kind := .store (leBytes 4 (greg s h rs).toNat)) (va := memAddr s h rb off)
    (dev := d) (volat := false) (by rw [harmed, Bool.and_false])
  generalize hu : laneSend s h (.store (leBytes 4 (greg s h rs).toNat)) (memAddr s h rb off) d false = u at hsend
  have hframe : PortFrame s u h.core := by
    rw [hsend]
    exact portFrame_modCore s h.core (fun _ => rfl) (fun _ => rfl) fun _ => rfl
  have hlane : (core u h.core).lane = (core s h.core).lane ++
      [sentAccess s h (.store (leBytes 4 (greg s h rs).toNat)) (memAddr s h rb off) d false] := by
    rw [hsend, core_modCore_same]
  refine ⟨_, exec_stW_far hi ha hv hfar hroom rs, ?_⟩
  rw [hu, thr_retire, hframe.threads]
  exact ⟨rfl, sameMemory_of_mem (by rw [retire_mem, hframe.mem]), _, (retire_oneCommit u h).1.lane.trans hlane, rfl, rfl, rfl⟩

/-! ### Answers (R69, R74, R203) -/

theorem hostPerforms_answered {s : State} {c : Nat} {a : LaneAccess} {r : AccessResult} (hr : a.result = some r) :
    hostPerforms s c a = false := by simp [hostPerforms, hr]

/-- The answer of a load with its data (R69, R203). -/
theorem exec_farLoadAnswer_load {s : State} {c id : Nat} {a : LaneAccess} (hf : laneFind s c id = some a) {rd : GReg} {n : Nat}
    {sg : Bool} {data line : List Byte} (hk : a.kind = .load rd n sg) (hr : a.result = some (.ok data line))
    (hserved : beatServed s c a.addr false = true) :
    exec (.farLoadAnswer c id) s =
      .next (takeAnswer (laneDrop (countLaneBeats s c a.addr) c id) (hartOf c a.tid) a data line) := by
  have hexec : exec (.farLoadAnswer c id) s = execFarLoadAnswer c id s := rfl
  have hfetch : (a.kind == .fetch) = false := by rw [hk]; rfl
  have hstore : a.isStore = false := by rw [LaneAccess.isStore, hk]
  have hstep : a.kind.isLongStep = false := by rw [hk]; rfl
  rw [hexec]
  simp only [execFarLoadAnswer, hf, hostPerforms_answered hr, hr, hserved, hfetch, hstore, hstep, Bool.not_true, Bool.or_self,
    Bool.false_and, Bool.false_eq_true, if_false, Option.isSome_some, if_true]

/-- The entry of a thread's window for the load of a number, answered (R69). -/
def answered (id : Nat) (v : Held) (e : Issued) : Issued := if e.held = .load id then { e with held := v } else e

/-- The answer of the oldest load of a window is taken at once (R69, R71). -/
theorem answerLoad_oldest {s : State} {h : Hart} {id : Nat} {p : Word} {rd : GReg} {l : List Issued}
    (hrun : (core s h.core).run = .running) (hw : (thr s h).window = ⟨p, rd, .load id⟩ :: l) {v : Held} (hv : v ≠ .load id) :
    answerLoad s h id v = commitWindow h (⟨p, rd, v⟩ :: l.map (answered id v)) s := by
  have hfirst : answered id v ⟨p, rd, .load id⟩ = ⟨p, rd, v⟩ := if_pos rfl
  have hmap : ((thr s h).window.map fun e => if e.held = .load id then { e with held := v } else e) =
      ⟨p, rd, v⟩ :: l.map (answered id v) := by
    rw [← hfirst, hw]
    rfl
  have hne : ¬ (⟨p, rd, v⟩ :: l.map (answered id v)) = ⟨p, rd, .load id⟩ :: l := fun he => by
    injection he with hhead
    injection hhead with _ _ hheld
    exact hv hheld
  simp only [answerLoad, hrun, ne_eq, not_true, if_false, hmap]
  rw [hw, if_neg hne]

/-- The state after the commit of the one load of a window (R69). -/
def loadCommitted (s : State) (h : Hart) (rd : GReg) (v : Word) : State :=
  modThr (noteHandlerIssue (countCore (setGreg s h rd v) h.core (issuedCsr h) 1) h) h fun t => { t with window := [] }

theorem commitWindow_ready (s : State) (h : Hart) (p : Word) (rd : GReg) (v : Word) :
    commitWindow h [⟨p, rd, .ready v⟩] s = loadCommitted s h rd v := rfl

theorem onlyThread_loadCommitted (s : State) (h : Hart) (rd : GReg) (v : Word) : OnlyThread s (loadCommitted s h rd v) h :=
  (((onlyThread_modThr s h _).trans (onlyThread_countCore _ h _ 1)).trans (onlyThread_noteHandlerIssue _ h)).trans
    (onlyThread_modThr _ h _)

theorem thr_loadCommitted (s : State) (h : Hart) (rd : GReg) (v : Word) :
    thr (loadCommitted s h rd v) h = { (thr s h).wr rd v with latFrom := none, window := [] } := by
  rw [loadCommitted, modThr, thr_setThr_same, thr_noteHandlerIssue, thr_countCore, thr_setGreg_same]

theorem coreCsr_loadCommitted (s : State) (h : Hart) (rd : GReg) (v : Word) :
    coreCsr (loadCommitted s h rd v) h.core (issuedCsr h) = coreCsr s h.core (issuedCsr h) + 1 := by
  rw [loadCommitted, coreCsr_modThr, coreCsr_noteHandlerIssue_other _ h (issuedCsr_ne_latency h), coreCsr_countCore_same, setGreg,
    coreCsr_modThr]
  rfl

/-- A load that awaits its answer forwards nothing: registers are read from the files (R70, R74). -/
theorem thread_rd_loading {t : Thread} {p : Word} {rd : GReg} {id : Nat} (hw : t.window = [⟨p, rd, .load id⟩]) (r : GReg) :
    t.rd r = t.fileRd r := by
  by_cases h0 : r = 0
  · simp [h0, Thread.rd, Thread.fileRd]
  · simp only [Thread.rd, if_neg h0, Thread.writer, hw, List.reverse_singleton, List.find?_cons, List.find?_nil]
    cases rd == r <;> rfl

/-- A register after the commit of a load: rd is as loaded, every other as it was (R50, R69). -/
theorem greg_loadCommitted {s : State} {h : Hart} {p : Word} {rd : GReg} {id : Nat}
    (hw : (thr s h).window = [⟨p, rd, .load id⟩]) (v : Word) :
    greg (loadCommitted s h rd v) h rd = (if rd = 0 then 0 else v) ∧
      ∀ r, r ≠ rd → greg (loadCommitted s h rd v) h r = greg s h r := by
  have hread (r : GReg) : greg (loadCommitted s h rd v) h r = ((thr s h).wr rd v).fileRd r := by
    rw [greg, thr_loadCommitted, thread_rd_empty rfl]
    rfl
  exact ⟨by rw [hread, thread_fileRd_wr_same], fun r hr => by
    rw [hread, thread_fileRd_wr_other _ v hr, greg, thread_rd_loading hw]⟩

/-- The line buffer aside, a load's data commits it where it is the only instruction of its window (R69, R223). -/
theorem takeAnswer_load {s : State} {h : Hart} {a : LaneAccess} {rd : GReg} {n : Nat} {sg : Bool} {data line : List Byte}
    {p : Word} (hk : a.kind = .load rd n sg) (hrun : (core s h.core).run = .running)
    (hw : (thr s h).window = [⟨p, rd, .load a.id⟩]) :
    ∃ u, takeAnswer s h a data line = loadCommitted u h rd (extendBytes data sg) ∧ PortFrame s u h.core ∧ SameLane s u h.core := by
  have hissued : loadIssued s h a.id = true := by simp [loadIssued, hw]
  have hfill : PortFrame s (if a.volat then s else bufferFill s h.core a.addr (freshLine a line)) h.core ∧
      SameLane s (if a.volat then s else bufferFill s h.core a.addr (freshLine a line)) h.core := by
    split
    · exact ⟨portFrame_of_cores rfl rfl _, .refl s _⟩
    · exact bufferFill_frame s h.core a.addr _
  obtain ⟨hframe, hlane⟩ := hfill
  have holdest := answerLoad_oldest (v := .ready (extendBytes data sg)) (hframe.run.trans hrun)
    ((congrArg Thread.window (hframe.threads h)).trans hw) Held.noConfusion
  refine ⟨_, ?_, hframe, hlane⟩
  rw [← commitWindow_ready _ h p, ← List.map_nil, ← holdest]
  simp only [takeAnswer, hk, hissued, if_true]

/-- FAR_LOAD_ANSWER: the load leaves the port and commits with its bytes (R69, R203). -/
theorem farLoad_answered {s : State} {c id : Nat} {a : LaneAccess} (hf : laneFind s c id = some a) {rd : GReg} {n : Nat}
    {sg : Bool} {data line : List Byte} {p : Word} (hk : a.kind = .load rd n sg) (hr : a.result = some (.ok data line))
    (hserved : beatServed s c a.addr false = true) (hrun : (core s c).run = .running)
    (hw : (thr s (hartOf c a.tid)).window = [⟨p, rd, .load id⟩]) :
    ∃ t, exec (.farLoadAnswer c id) s = .next t ∧ laneFind t c id = none ∧ (thr t (hartOf c a.tid)).window = [] ∧
      (thr t (hartOf c a.tid)).pc = (thr s (hartOf c a.tid)).pc ∧
      greg t (hartOf c a.tid) rd = (if rd = 0 then 0 else extendBytes data sg) ∧
      (∀ r, r ≠ rd → greg t (hartOf c a.tid) r = greg s (hartOf c a.tid) r) ∧
      coreCsr t c (issuedCsr (hartOf c a.tid)) = coreCsr s c (issuedCsr (hartOf c a.tid)) + 1 ∧ SameMemory s t := by
  generalize hh : hartOf c a.tid = h at hw ⊢
  have hcore : h.core = c := by rw [← hh, hartOf]
  have hexec := exec_farLoadAnswer_load hf hk hr hserved
  have hdropped : PortFrame s (laneDrop (countLaneBeats s c a.addr) c id) c :=
    (portFrame_countLaneBeats s c a.addr).trans (portFrame_laneDrop _ c id)
  have hnone := laneFind_laneDrop (countLaneBeats s c a.addr) c id
  generalize laneDrop (countLaneBeats s c a.addr) c id = w at hexec hdropped hnone
  rw [hh] at hexec
  subst hcore
  obtain ⟨u, hu, hframe, hlane⟩ := takeAnswer_load (data := data) (line := line) hk (hdropped.run.trans hrun)
    (by rw [hdropped.threads, hw, id_of_laneFind hf])
  have hall := hdropped.trans hframe
  have hthr : thr u h = thr s h := hall.threads h
  obtain ⟨hrd, hother⟩ := greg_loadCommitted (s := u) (by rw [hthr, hw]) (extendBytes data sg)
  have honly := onlyThread_loadCommitted u h rd (extendBytes data sg)
  refine ⟨_, hexec.trans (congrArg _ hu), ?_, ?_, ?_, hrd, fun r hr => ?_, ?_, ?_⟩
  · rw [laneFind_of_lane (honly.lane.trans hlane), hnone]
  · rw [thr_loadCommitted]
  · rw [thr_loadCommitted, hthr]
    exact thread_wr_pc _ _ _
  · rw [hother r hr, greg, hthr, greg]
  · rw [coreCsr_loadCommitted, hall.csrs]
  · exact sameMemory_of_mem (honly.mem_eq.trans hall.mem)

end Sys2Proof.Machine
end

section
/-! PROOFS. How an access of the lane port ends otherwise: acknowledged, timed out, released and policed (R195, R202, R203,
R225 to R229). -/

namespace Sys2Proof.Machine

/-! ### Stores acknowledged (R203, R225) -/

/-- A store ends well: its access is gone, and with no FENCE waiting nothing else but the port and its buffer changes (R223, R225,
R229). -/
theorem storeDone_frame {s : State} {h : Hart} (a : LaneAccess) (bs : List Byte) (hw : ∀ rd, (thr s h).wait ≠ .fence rd) :
    PortFrame s (storeDone s h a bs) h.core ∧ laneFind (storeDone s h a bs) h.core a.id = none ∧ SameRegs s (storeDone s h a bs) := by
  have hbuffer (u : State) : PortFrame u (bufferStore u h.core a.addr bs) h.core :=
    portFrame_modCore u h.core (fun _ => rfl) (fun _ => rfl) fun _ => rfl
  have hacked (u : State) : PortFrame u (storeAcked u h a.id) h.core :=
    portFrame_modCore u h.core (fun _ => rfl) (fun _ => rfl) fun _ => rfl
  have hframe := ((portFrame_laneDrop s h.core a.id).trans (hbuffer _)).trans (hacked _)
  have hfence : storeDone s h a bs = storeAcked (bufferStore (laneDrop s h.core a.id) h.core a.addr bs) h a.id :=
    wakeFence_of_not_fence fun rd => by rw [hframe.threads]; exact hw rd
  rw [hfence]
  refine ⟨hframe, ?_, fun _ => rfl⟩
  rw [laneFind_mapLane (s := bufferStore (laneDrop s h.core a.id) h.core a.addr bs)
      (f := fun b => { b with covers := b.covers.filter (· != a.id) }) (fun _ => rfl)
      (by simp only [storeAcked, core_modCore_same]),
    laneFind_mapLane (s := laneDrop s h.core a.id)
      (f := fun b => if b.addr / 128 = a.addr / 128 then { b with laid := b.laid ++ [(a.addr, bs)] } else b)
      (fun b => by split <;> rfl) (by simp only [bufferStore, core_modCore_same]),
    laneFind_laneDrop]
  rfl

theorem exec_farStoreAck_ok {s : State} {c id : Nat} {a : LaneAccess} (hf : laneFind s c id = some a)
    {bs data line : List Byte} (hk : a.kind = .store bs) (hr : a.result = some (.ok data line))
    (hserved : beatServed s c a.addr false = true) :
    exec (.farStoreAck c id) s = .next (storeDone (countLaneBeats s c a.addr) (hartOf c a.tid) a bs) := by
  have hexec : exec (.farStoreAck c id) s = execFarStoreAck c id s := rfl
  rw [hexec]
  simp only [execFarStoreAck, hf, hk, hserved, hostPerforms_answered hr, hr, Bool.not_true, Bool.false_eq_true, if_false]

/-- FAR_STORE_ACK: the store leaves the port and its thread goes on (R203, R225). -/
theorem farStore_acked {s : State} {c id : Nat} {a : LaneAccess} (hf : laneFind s c id = some a)
    {bs data line : List Byte} (hk : a.kind = .store bs) (hr : a.result = some (.ok data line))
    (hw : ∀ rd, (thr s (hartOf c a.tid)).wait ≠ .fence rd) (hserved : beatServed s c a.addr false = true) :
    ∃ t, exec (.farStoreAck c id) s = .next t ∧ laneFind t c id = none ∧ thr t (hartOf c a.tid) = thr s (hartOf c a.tid) ∧
      SameMemory s t ∧ SameRegs s t := by
  have hbeats := portFrame_countLaneBeats s c a.addr
  obtain ⟨hframe, hnone, hregs⟩ := storeDone_frame (s := countLaneBeats s c a.addr) (h := hartOf c a.tid) a bs
    fun rd => by rw [hbeats.threads]; exact hw rd
  have hall : PortFrame s _ c := hbeats.trans hframe
  rw [id_of_laneFind hf] at hnone
  exact ⟨_, exec_farStoreAck_ok hf hk hr hserved, hnone, hall.threads _, hall.sameMemory,
    fun o => (hregs o).trans ((keepsMachine_countLaneBeats s c a.addr).sameRegs o)⟩

/-- With no usable slot on the path neither an answer nor an acknowledgement comes (R194, R248). -/
theorem answers_unserved {s : State} {c id : Nat} {a : LaneAccess} (hf : laneFind s c id = some a)
    (hserved : beatServed s c a.addr false = false) :
    exec (.farLoadAnswer c id) s = .next s ∧ exec (.farStoreAck c id) s = .next s := by
  have hload : exec (.farLoadAnswer c id) s = execFarLoadAnswer c id s := rfl
  have hstore : exec (.farStoreAck c id) s = execFarStoreAck c id s := rfl
  rw [hload, hstore]
  constructor
  · simp only [execFarLoadAnswer, hf, hserved, Bool.not_false, Bool.or_true, Bool.true_or, if_true]
  · simp only [execFarStoreAck, hf, hserved, Bool.not_false, if_true]
    split <;> rfl

/-! ### Failures reported (R203, R227, R229) -/

theorem portFrame_recordLaneFault (s : State) (c status addr : Nat) : PortFrame s (recordLaneFault s c status addr) c := by
  rw [recordLaneFault_eq]
  refine portFrame_of_cores ?_ ?_ c <;> rfl

/-- What a reported failure leaves: line 30 pending, the thread with its pending failure as given, the fault's registers and the
finish writes told (R203, R227, R229). -/
theorem failureReported_fields (s : State) (h : Hart) (id status addr : Nat) (v : Word) (f : Option PendingFailure) :
    (failureReported s h id status addr v f).mem = s.mem ∧
      thr (failureReported s h id status addr v f) h = { thr s h with pendFail := f } ∧
      bit (coreCsr (failureReported s h id status addr v f) h.core 0x804) 30 = true ∧
      (∀ j, laneFind (failureReported s h id status addr v f) h.core j = (laneFind s h.core j).map (coverFailed id status)) ∧
      SameRegs (recordLaneFault s h.core status addr) (failureReported s h id status addr v f) := by
  have hrecord := portFrame_recordLaneFault s h.core status addr
  have hlane : SameLane s (recordLaneFault s h.core status addr) h.core := by
    rw [recordLaneFault_eq]
    exact .refl s _
  generalize hu : recordLaneFault s h.core status addr = u at hrecord hlane
  have hraised : PendingGrows u (raiseLine u h.core 30 v) h.core := pendingGrows_raiseLine u h.core v (by decide)
  have hpending : bit (coreCsr (raiseLine u h.core 30 v) h.core 0x804) 30 = true := pending_raiseLine u h.core v (by decide)
  have hkept := sameLane_raiseLine u h.core 30 v
  obtain ⟨hkeep, -⟩ := hraised
  have hmem : (raiseLine u h.core 30 v).mem = s.mem := (raiseLine_mem u h.core 30 v).trans hrecord.mem
  have hthr : thr (raiseLine u h.core 30 v) h = thr s h := (hkeep.2 h).trans (hrecord.threads h)
  have hregs : SameRegs u (raiseLine u h.core 30 v) := hkeep.sameRegs
  simp only [failureReported, hu]
  generalize raiseLine u h.core 30 v = w at hpending hkept hmem hthr hregs
  refine ⟨hmem, ?_, ?_, fun j => ?_, hregs⟩
  · rw [thr_modCore _ (by exact fun _ => rfl), modThr, thr_setThr_same, hthr]
  · rwa [coreCsr_modCore _ (by exact fun _ => rfl), coreCsr_modThr]
  · rw [laneFind_mapLane (s := modThr w h fun t => { t with pendFail := f }) (coverFailed_id id status)
      (by rw [core_modCore_same]), modThr, laneFind_of_lane (sameLane_setThr w h _), laneFind_of_lane (hlane.trans hkept)]

theorem storeFailed_eq {s : State} {h : Hart} (hp : (thr s h).pendFail = none) (id status addr : Nat) :
    storeFailed s h id status addr =
      failureReported s h id status addr (BitVec.ofNat 32 status) (some ⟨BitVec.ofNat 8 status, addr⟩) := by
  have hrecord := portFrame_recordLaneFault s h.core status addr
  obtain ⟨hkeep, -⟩ := pendingGrows_raiseLine (recordLaneFault s h.core status addr) h.core (BitVec.ofNat 32 status)
    (show 30 < 32 by decide)
  have hthr := (hkeep.2 h).trans (hrecord.threads h)
  simp only [storeFailed, hthr, hp, failureReported]

/-! ### Deadlines (R203, R217) -/

/-- The state in which an access has left the port at its deadline (R203, R361). -/
def timedOut (s : State) (c id : Nat) : State := laneDrop (linkForget s (.lane c id)) c id

theorem portFrame_timedOut (s : State) (c id : Nat) : PortFrame s (timedOut s c id) c := by
  have hforgot : PortFrame s (linkForget s (.lane c id)) c := by refine portFrame_of_cores ?_ ?_ c <;> rfl
  exact hforgot.trans (portFrame_laneDrop _ c id)

theorem exec_laneAccessDeadline {s : State} {c id : Nat} {a : LaneAccess} (hf : laneFind s c id = some a) (hsent : a.sent = true)
    (hlate : a.issued + laneDeadline s c ≤ now s) :
    exec (.laneAccessDeadline c id) s =
      if a.isStore then .next (wakeFence (storeFailed (timedOut s c id) (hartOf c a.tid) id 0x05 a.addr) (hartOf c a.tid))
      else .next (answerTrap (timedOut s c id) (hartOf c a.tid) a (trapWait 0 (targetNode s c a.addr))) := by
  have hexec : exec (.laneAccessDeadline c id) s = execLaneAccessDeadline c id s := rfl
  rw [hexec]
  simp only [execLaneAccessDeadline, hf, hsent, decide_eq_false (Nat.not_lt.mpr hlate), Bool.not_true, Bool.or_self,
    Bool.false_eq_true, if_false, timedOut]

/-- A store at its deadline: the failure is recorded for its thread and its port, and line 30 is pending (R203, R227). -/
theorem store_timedOut {s : State} {c id : Nat} {a : LaneAccess} (hf : laneFind s c id = some a) {bs : List Byte}
    (hk : a.kind = .store bs) (hsent : a.sent = true) (hlate : a.issued + laneDeadline s c ≤ now s)
    (hw : ∀ rd, (thr s (hartOf c a.tid)).wait ≠ .fence rd) (hp : (thr s (hartOf c a.tid)).pendFail = none)
    (hd : isDrvCore c = false) (hv : flag s (Reg.cmpLpFault c) 31 = false) :
    ∃ t, exec (.laneAccessDeadline c id) s = .next t ∧ laneFind t c id = none ∧
      (thr t (hartOf c a.tid)).pendFail = some ⟨0x05, a.addr⟩ ∧ fld t (Reg.cmpLpFault c) 7 0 = 0x05 ∧
      flag t (Reg.cmpLpFault c) 31 = true ∧ bit (coreCsr t c 0x804) 30 = true ∧ SameMemory s t := by
  have hstore : a.isStore = true := by rw [LaneAccess.isStore, hk]
  have hframe := portFrame_timedOut s c id
  have hnone : laneFind (timedOut s c id) c id = none := laneFind_laneDrop _ c id
  have hvalid : flag (timedOut s c id) (Reg.cmpLpFault c) 31 = false := hv
  have hexec := exec_laneAccessDeadline hf hsent hlate
  rw [if_pos hstore] at hexec
  generalize timedOut s c id = u at hexec hframe hnone hvalid
  have hthr := hframe.threads (hartOf c a.tid)
  rw [storeFailed_eq (by rw [hthr, hp])] at hexec
  obtain ⟨hmem, hthread, hpending, hlane, hregs⟩ :=
    failureReported_fields u (hartOf c a.tid) id 0x05 a.addr (BitVec.ofNat 32 5) (some ⟨BitVec.ofNat 8 5, a.addr⟩)
  have hfault : reg (failureReported u (hartOf c a.tid) id 0x05 a.addr (BitVec.ofNat 32 5) (some ⟨BitVec.ofNat 8 5, a.addr⟩))
      (Reg.cmpLpFault c) = BitVec.ofNat 32 (0x05 % 256 + 2 ^ 31) := (hregs _).trans (reg_recordLaneFault hd hvalid 0x05 a.addr)
  rw [wakeFence_of_not_fence (by rw [hthread, hthr]; exact hw)] at hexec
  refine ⟨_, hexec, (hlane id).trans (congrArg (Option.map _) hnone), congrArg Thread.pendFail hthread, ?_, ?_, hpending,
    sameMemory_of_mem (hmem.trans hframe.mem)⟩
  · rw [fld, hfault]
    decide
  · rw [flag, hfault]
    decide

/-! ### A trap squashes what is behind it (R71, R122) -/

theorem voidFill_cases (s : State) (h : Hart) (i : Option Instr) :
    voidFill s h i = s ∨ voidFill s h i = modCore s h.core fun k => { k with latch := none } := by
  unfold voidFill
  split
  · exact ite_eq_or_eq _ _ _
  · exact ite_eq_or_eq _ _ _
  · exact .inl rfl

theorem voidFill_frame (s : State) (h : Hart) (i : Option Instr) :
    PortFrame s (voidFill s h i) h.core ∧ SameLane s (voidFill s h i) h.core := by
  rcases voidFill_cases s h i with heq | heq <;> rw [heq]
  · exact ⟨portFrame_of_cores rfl rfl _, .refl s _⟩
  · exact ⟨portFrame_modCore s h.core (fun _ => rfl) (fun _ => rfl) fun _ => rfl, sameLane_modCore s h.core fun _ => rfl⟩

/-- The cycles of a squashed tile or matrix instruction, counted as waste (R122, R125). -/
def squashCounted (s : State) (h : Hart) : State :=
  let n := Nat.min 2 (coreCycle s h.core - (thr s h).curAt)
  match (thr s h).cur.bind tileUse with
  | some u =>
    if (thr s h).wait = .tile then countCore (countCore s h.core 0x103 n) h.core (if u.matrix then 0x100 else 0x106) n else s
  | none => s

theorem squashYounger_eq (s : State) (h : Hart) :
    squashYounger s h =
      voidFill (modThr (squashCounted s h) h fun t => { t with window := [], wait := .none, cur := none }) h (thr s h).cur := rfl

theorem squashCounted_frame (s : State) (h : Hart) :
    OnlyThread s (squashCounted s h) h ∧ thr (squashCounted s h) h = thr s h ∧
      ∀ n, 0x106 < n → coreCsr (squashCounted s h) h.core n = coreCsr s h.core n := by
  have hcounted (k n : Nat) (hk : k ≤ 0x106) :
      OnlyThread s (countCore (countCore s h.core 0x103 n) h.core k n) h ∧
        thr (countCore (countCore s h.core 0x103 n) h.core k n) h = thr s h ∧
        ∀ j, 0x106 < j → coreCsr (countCore (countCore s h.core 0x103 n) h.core k n) h.core j = coreCsr s h.core j :=
    ⟨(onlyThread_countCore s h _ _).trans (onlyThread_countCore _ h _ _), by rw [thr_countCore, thr_countCore], fun j hj => by
      rw [coreCsr_countCore_other _ _ (.inr (by omega)), coreCsr_countCore_other _ _ (.inr (by omega))]⟩
  unfold squashCounted
  dsimp only
  split
  · split
    · exact hcounted _ _ (by split <;> decide)
    · exact ⟨.refl s h, rfl, fun _ _ => rfl⟩
  · exact ⟨.refl s h, rfl, fun _ _ => rfl⟩

/-- What a squash leaves: the window of its thread and what it waited for are gone; memory, the port and the vector bases stay. -/
theorem squashYounger_fields (s : State) (h : Hart) :
    thr (squashYounger s h) h = { thr s h with window := [], wait := .none, cur := none } ∧
      (∀ n, 0x106 < n → coreCsr (squashYounger s h) h.core n = coreCsr s h.core n) ∧
      SameLane s (squashYounger s h) h.core ∧ (squashYounger s h).mem = s.mem := by
  obtain ⟨honly, hthr, hcsr⟩ := squashCounted_frame s h
  rw [squashYounger_eq]
  generalize squashCounted s h = u at honly hthr hcsr
  have hcleared := onlyThread_modThr u h fun t => { t with window := [], wait := .none, cur := none }
  obtain ⟨hframe, hlane⟩ := voidFill_frame (modThr u h fun t => { t with window := [], wait := .none, cur := none }) h (thr s h).cur
  refine ⟨?_, fun n hn => ?_, SameLane.trans (honly.trans hcleared).lane hlane, ?_⟩
  · rw [hframe.threads, modThr, thr_setThr_same, hthr]
  · rw [hframe.csrs, coreCsr_modThr, hcsr n hn]
  · rw [hframe.mem, hcleared.mem_eq, honly.mem_eq]

/-- A thread that has entered its trap handler has issued nothing (R71). -/
theorem window_takeTrap {s : State} {h : Hart} (hl : (thr s h).level ≠ 3) (tr : Trap) (epc : Word) :
    (thr (takeTrap s h tr epc) h).window = [] := by
  have hnote : thr (noteHandlerIssue s h) h = { thr s h with latFrom := none } := thr_noteHandlerIssue s h
  obtain ⟨x, hx⟩ := thr_enterTrap (noteHandlerIssue s h) h tr epc
  rw [hnote] at hx
  simp only [takeTrap, if_neg hl]
  exact congrArg Thread.window hx

/-- A load at its deadline where it is the oldest: its thread takes the wait-timeout trap at the load (R71, R203). -/
theorem load_timedOut {s : State} {c id : Nat} {a : LaneAccess} (hf : laneFind s c id = some a) {rd : GReg} {n : Nat} {sg : Bool}
    {p : Word} {l : List Issued} (hk : a.kind = .load rd n sg) (hsent : a.sent = true)
    (hlate : a.issued + laneDeadline s c ≤ now s) (hl : (thr s (hartOf c a.tid)).level ≠ 3) (hrun : (core s c).run = .running)
    (hw : (thr s (hartOf c a.tid)).window = ⟨p, rd, .load id⟩ :: l) :
    ∃ t, exec (.laneAccessDeadline c id) s = .next t ∧ laneFind t c id = none ∧ (thr t (hartOf c a.tid)).window = [] ∧
      TrapTakenAt s t (hartOf c a.tid) (trapWait 0 (targetNode s c a.addr)) p ∧ SameMemory s t := by
  have hstore : a.isStore = false := by rw [LaneAccess.isStore, hk]
  have hexec := exec_laneAccessDeadline hf hsent hlate
  rw [hstore, if_neg Bool.false_ne_true] at hexec
  generalize trapWait 0 (targetNode s c a.addr) = tr at hexec ⊢
  have hframe := portFrame_timedOut s c id
  have hnone : laneFind (timedOut s c id) c id = none := laneFind_laneDrop _ c id
  generalize timedOut s c id = u at hexec hframe hnone
  generalize hh : hartOf c a.tid = h at hexec hl hw ⊢
  have hcore : h.core = c := by rw [← hh, hartOf]
  subst hcore
  have hthr := hframe.threads h
  have hanswer : answerTrap u h a tr = takeTrap (squashYounger u h) h tr p := by
    have hrun' := hframe.run.trans hrun
    have holdest := answerLoad_oldest (v := .trap tr) hrun' ((congrArg Thread.window hthr).trans hw) Held.noConfusion
    rw [← id_of_laneFind hf] at holdest
    simp only [answerTrap, hrun', hk, ne_eq, not_true, if_false, holdest]
    rfl
  obtain ⟨hsquashed, hcsr, hlane, hmem⟩ := squashYounger_fields u h
  have hlevel : (thr (squashYounger u h) h).level ≠ 3 := by rwa [hsquashed, hthr]
  obtain ⟨htaken, honly⟩ := takeTrap_taken (squashYounger u h) h tr p hlevel
  refine ⟨_, hexec.trans (congrArg _ hanswer), ?_, window_takeTrap hlevel tr p, htaken.of_agrees ?_ ?_ ?_, ?_⟩
  · rw [laneFind_of_lane (hlane.trans honly.lane), hnone]
  · rw [hsquashed, hthr]
  · rw [hcsr _ (by decide), hframe.csrs]
  · rw [hcsr _ (by decide), hframe.csrs]
  · exact sameMemory_of_mem (honly.mem_eq.trans (hmem.trans hframe.mem))

/-! ### Finish writes (R229) -/

/-- A held finish write whose covered writes have ended is sent (R229). -/
theorem finishWrite_sent {s : State} {h : Hart} {id : Nat} {a : LaneAccess} (hf : laneFind s h.core id = some a)
    (hcovers : a.covers = []) (hheld : (core s h.core).lane.find? (fun b => decide (b.tid = h.tid) && b.finish && !b.sent) = some a)
    (hp : (thr s h).pendFail = none) (hc : a.covFail = none) :
    ∃ t, exec (.finishWriteRelease h) s = .next t ∧ (∃ b, laneFind t h.core id = some b ∧ b.sent = true ∧ b.issued = now s) ∧
      thr t h = thr s h ∧ SameMemory s t := by
  have hexec : exec (.finishWriteRelease h) s =
      .next (laneMod s h.core id fun b => { b with sent := true, issued := now s }) := by
    have hrelease : exec (.finishWriteRelease h) s = execFinishWriteRelease h s := rfl
    rw [hrelease]
    simp only [execFinishWriteRelease, hheld, hcovers, hp, hc, id_of_laneFind hf, List.isEmpty_nil, Bool.not_true,
      Bool.false_eq_true, if_false, Option.isNone_none, Bool.and_self, if_true]
  have hframe := portFrame_laneMod s h.core id fun b => { b with sent := true, issued := now s }
  exact ⟨_, hexec, ⟨_, laneFind_laneMod hf fun _ => rfl, rfl, rfl⟩, hframe.threads h, hframe.sameMemory⟩

/-- A held finish write of a thread with a pending failure is dropped and the failure, consumed, reported (R229). -/
theorem finishWrite_dropped {s : State} {h : Hart} {id : Nat} {a : LaneAccess} (hf : laneFind s h.core id = some a)
    (hcovers : a.covers = []) (hheld : (core s h.core).lane.find? (fun b => decide (b.tid = h.tid) && b.finish && !b.sent) = some a)
    {f : PendingFailure} (hp : (thr s h).pendFail = some f) (hw : ∀ rd, (thr s h).wait ≠ .fence rd) :
    ∃ t, exec (.finishWriteRelease h) s = .next t ∧ laneFind t h.core id = none ∧ (thr t h).pendFail = none ∧
      bit (coreCsr t h.core 0x804) 30 = true ∧ SameMemory s t := by
  have hexec : exec (.finishWriteRelease h) s =
      .next (wakeFence (failureReported (laneDrop s h.core id) h id f.status.toNat f.addr (f.status.setWidth 32) none) h) := by
    have hrelease : exec (.finishWriteRelease h) s = execFinishWriteRelease h s := rfl
    rw [hrelease]
    simp only [execFinishWriteRelease, hheld, hcovers, hp, id_of_laneFind hf, List.isEmpty_nil, Bool.not_true,
      Bool.false_eq_true, if_false, Option.isNone_some, Bool.false_and, failureReported]
  have hframe := portFrame_laneDrop s h.core id
  have hnone := laneFind_laneDrop s h.core id
  generalize laneDrop s h.core id = u at hexec hframe hnone
  obtain ⟨hmem, hthread, hpending, hlane, -⟩ := failureReported_fields u h id f.status.toNat f.addr (f.status.setWidth 32) none
  rw [wakeFence_of_not_fence (by rw [hthread, hframe.threads]; exact hw)] at hexec
  exact ⟨_, hexec, (hlane id).trans (congrArg (Option.map _) hnone), congrArg Thread.pendFail hthread, hpending,
    sameMemory_of_mem (hmem.trans hframe.mem)⟩

/-! ### Policing (R195) -/

/-- The police record of a beat (R195). -/
def policeWord (lane index tag : Nat) : Word := BitVec.ofNat 32 (lane + 256 * index + 65536 * (tag % 16) + 2 ^ 31)

theorem policeWord_fields {lane index : Nat} (hl : lane < 122) (hi : index < 64) (tag : Nat) :
    bit (policeWord lane index tag) 31 = true ∧ bits (policeWord lane index tag) 7 0 = lane ∧
      bits (policeWord lane index tag) 13 8 = index := by
  have htag : tag % 16 < 16 := Nat.mod_lt _ (by decide)
  generalize hg : tag % 16 = g at htag
  have hval : (lane + 256 * index + 65536 * g + 2 ^ 31) % 2 ^ 32 = lane + 256 * index + 65536 * g + 2 ^ 31 := by omega
  simp only [policeWord, hg, bits, bit, BitVec.toNat_ofNat, hval, Nat.shiftRight_eq_div_pow, Nat.testBit_eq_decide_div_mod_eq,
    decide_eq_true_eq]
  omega

/-- A beat in a slot that its tag does not own is recorded and refused (R195). -/
theorem beat_policed {s : State} {c id : Nat} {a : LaneAccess} (hf : laneFind s c id = some a) {lane index : Nat}
    (hsent : a.sent = true) (hr : a.result = none) (hd : isDrvCore c = false) (hl : lane < 122) (hi : index < 64)
    (howner : slotEntry s lane index % 16 ≠ (rectOf s c).getD 16) (hv : flag s Reg.cmpLanePolice 31 = false) :
    ∃ t, exec (.laneBeatArrival c id lane index) s = .next t ∧
      (∃ b, laneFind t c id = some b ∧ b.result = some (.fail 0x07)) ∧ flag t Reg.cmpLanePolice 31 = true ∧
      fld t Reg.cmpLanePolice 7 0 = lane ∧ fld t Reg.cmpLanePolice 13 8 = index ∧ SameMemory s t := by
  have hexec : exec (.laneBeatArrival c id lane index) s =
      .next (laneMod (setReg s Reg.cmpLanePolice (policeWord lane index ((rectOf s c).getD 16))) c id
        fun b => { b with result := some (.fail 0x07) }) := by
    have harrival : exec (.laneBeatArrival c id lane index) s = execLaneBeatArrival c id lane index s := rfl
    rw [harrival]
    simp only [execLaneBeatArrival, hf, hsent, hr, hd, decide_eq_false (Nat.not_le.mpr hl), decide_eq_false (Nat.not_le.mpr hi),
      decide_eq_false howner, hv, Bool.not_true, Option.isSome_none, Bool.or_self, Bool.false_and, Bool.false_eq_true, if_false,
      policeWord]
  obtain ⟨hvalid, hlane, hindex⟩ := policeWord_fields hl hi ((rectOf s c).getD 16)
  generalize policeWord lane index ((rectOf s c).getD 16) = w at hexec hvalid hlane hindex
  have hfind : laneFind (setReg s Reg.cmpLanePolice w) c id = some a := hf
  have hreg : reg (laneMod (setReg s Reg.cmpLanePolice w) c id fun b => { b with result := some (.fail 0x07) })
      Reg.cmpLanePolice = w := reg_setReg_same s Reg.cmpLanePolice w
  refine ⟨_, hexec, ⟨_, laneFind_laneMod hfind fun _ => rfl, rfl⟩, ?_, ?_, ?_, fun _ => rfl⟩
  · rw [flag, hreg, hvalid]
  · rw [fld, hreg, hlane]
  · rw [fld, hreg, hindex]

/-- Settles O22: each event of the lane port by the lemma that says what its access comes to. -/
theorem lanePortAccessesEnd : Obligations.LanePortAccessesEnd := by
  unfold Obligations.LanePortAccessesEnd
  constructor
  · intro h rd rb off d s hi va ha hv hfar hroom
    exact ⟨farLoad_issued hi ha hv hfar hroom rd, fun harmed => farStore_issued hi ha hv hfar hroom harmed rd⟩
  intro c id a s hf h
  refine ⟨?answer, ?ack, ?unserved, ?store, ?load, ?finish, ?police⟩
  case answer =>
    intro rd n sg data line p hk hr hserved hrun hw
    exact farLoad_answered hf hk hr hserved hrun hw
  case ack =>
    intro bs data line hk hr hw hserved
    exact farStore_acked hf hk hr hw hserved
  case unserved => exact answers_unserved hf
  case store =>
    intro bs hk hsent hlate hw hp hd hv
    exact store_timedOut hf hk hsent hlate hw hp hd hv
  case load =>
    intro rd n sg p l hk hsent hlate hl hrun hw
    exact load_timedOut hf hk hsent hlate hl hrun hw
  case finish =>
    intro bs hk hfin hsent hcovers hheld
    exact ⟨finishWrite_sent (h := hartOf c a.tid) hf hcovers hheld,
      fun f hp hw => finishWrite_dropped (h := hartOf c a.tid) hf hcovers hheld hp hw⟩
  case police =>
    intro lane index hsent hr hd hl hi howner hv
    exact beat_policed hf hsent hr hd hl hi howner hv

end Sys2Proof.Machine
end

section
/-! PROOFS. Elements of vector registers: packing and unpacking, and the element operations as operations of words (R98, R99). -/

namespace Sys2Proof.Machine

/-! ### Elements of a line (R98) -/

/-- Element `k` of a line cut into elements of `w` bits (R98). -/
def lineElem (w : Nat) (v : Line) (k : Nat) : BitVec w := v.extractLsb' (k * w) w

theorem elemCount_eq (et : ElemType) : elemCount et = 512 / elemWidth et := by cases et <;> rfl

theorem elemCount_mul_width (et : ElemType) : elemCount et * elemWidth et = 512 := by cases et <;> rfl

theorem elemWidth_pos (et : ElemType) : 0 < elemWidth et := by cases et <;> decide

theorem elemS_eq (et : ElemType) (v : Line) (k : Nat) : elemS et v k = (lineElem (elemWidth et) v k).toInt := by
  have hword : BitVec.ofNat (elemWidth et) (elemU et v k) = lineElem (elemWidth et) v k :=
    BitVec.eq_of_toNat_eq (by simp [elemU, lineElem])
  rw [elemS, hword]

theorem toNat_emod_two_pow_lt (x : Int) (w : Nat) : (x % 2 ^ w).toNat < 2 ^ w := by
  have hlt := Int.emod_lt_of_pos x (two_pow_pos w)
  have hnn := Int.emod_nonneg x (two_pow_pos w).ne'
  zify
  omega

theorem packBits_lt (w : Nat) (xs : List Int) : packBits w xs < 2 ^ (w * xs.length) := by
  induction xs with
  | nil => exact Nat.one_pos
  | cons x r ih =>
    have hx := toNat_emod_two_pow_lt x w
    calc packBits w (x :: r)
      _ < 2 ^ w + 2 ^ w * packBits w r := Nat.add_lt_add_right hx _
      _ = 2 ^ w * (packBits w r + 1) := by ring
      _ ≤ 2 ^ w * 2 ^ (w * r.length) := Nat.mul_le_mul_left _ ih
      _ = 2 ^ (w * (x :: r).length) := by rw [← pow_add, List.length_cons]; ring

theorem packBits_digit (w : Nat) (xs : List Int) {k : Nat} (hk : k < xs.length) :
    packBits w xs / 2 ^ (k * w) % 2 ^ w = (xs[k] % 2 ^ w).toNat := by
  induction xs generalizing k with
  | nil => exact absurd hk (Nat.not_lt_zero k)
  | cons x r ih =>
    have hx : (x % 2 ^ w).toNat < 2 ^ w := toNat_emod_two_pow_lt x w
    cases k with
    | zero => simp [packBits, Nat.mod_eq_of_lt hx]
    | succ k =>
      have htail : packBits w (x :: r) / 2 ^ w = packBits w r := by
        rw [packBits, Nat.add_mul_div_left _ _ (Nat.two_pow_pos w), Nat.div_eq_of_lt hx, Nat.zero_add]
      rw [Nat.succ_mul, Nat.add_comm, pow_add, ← Nat.div_div_eq_div_mul, htail]
      exact ih (by simpa using hk)

theorem toNat_ofNat_of_lt {w v : Nat} (h : v < 2 ^ w) : (BitVec.ofNat w v).toNat = v := by
  rw [BitVec.toNat_ofNat, Nat.mod_eq_of_lt h]

theorem toNat_packElems {et : ElemType} {xs : List Int} (hn : xs.length ≤ elemCount et) :
    (packElems et xs).toNat = packBits (elemWidth et) xs := by
  refine toNat_ofNat_of_lt ?_
  rw [← elemCount_mul_width et, Nat.mul_comm]
  exact Nat.lt_of_lt_of_le (packBits_lt _ xs) (Nat.pow_le_pow_right (by decide) (Nat.mul_le_mul_left _ hn))

/-- An element of a packed line is the one it was packed from, reduced to its width. -/
theorem lineElem_packElems {et : ElemType} {xs : List Int} {k : Nat} (hk : k < xs.length) (hn : xs.length ≤ elemCount et) :
    lineElem (elemWidth et) (packElems et xs) k = BitVec.ofInt (elemWidth et) xs[k] := by
  refine BitVec.eq_of_toNat_eq ?_
  rw [lineElem, BitVec.extractLsb'_toNat, toNat_packElems hn, Nat.shiftRight_eq_div_pow, packBits_digit _ _ hk,
    BitVec.toNat_ofInt, Nat.cast_pow, Nat.cast_ofNat]

/-- A line packed from a value for each place. -/
theorem lineElem_pack_map {et : ElemType} {n k : Nat} (f : Nat → Int) (hn : n ≤ elemCount et) (hk : k < n) :
    lineElem (elemWidth et) (packElems et ((List.range n).map f)) k = BitVec.ofInt (elemWidth et) (f k) := by
  rw [lineElem_packElems (by simpa using hk) (by simpa using hn)]
  simp

theorem zipWith_elems (et : ElemType) (f : Int → Int → Int) (a b : Line) :
    List.zipWith f (elems et a) (elems et b) = (List.range (elemCount et)).map fun k => f (elemS et a k) (elemS et b k) := by
  rw [elems, elems, List.zipWith_map, List.zipWith_self]

/-- An element of an element-wise operation. -/
theorem lineElem_mapElems {et : ElemType} (f : Int → Int → Int) (a b : Line) {k : Nat} (hk : k < 512 / elemWidth et) :
    lineElem (elemWidth et) (mapElems et f a b) k =
      BitVec.ofInt _ (f (lineElem (elemWidth et) a k).toInt (lineElem (elemWidth et) b k).toInt) := by
  rw [mapElems, zipWith_elems, lineElem_pack_map _ le_rfl (elemCount_eq et ▸ hk), elemS_eq, elemS_eq]

/-! ### Operations of one element, as operations of words (R99) -/

theorem ofInt_sub_toInt {w : Nat} (x y : BitVec w) : BitVec.ofInt w (x.toInt - y.toInt) = x - y := by
  rw [sub_eq_add_neg, BitVec.ofInt_add, BitVec.ofInt_neg, BitVec.ofInt_toInt, BitVec.ofInt_toInt, BitVec.sub_eq_add_neg]

theorem ofInt_min_toInt {w : Nat} (x y : BitVec w) : BitVec.ofInt w (min x.toInt y.toInt) = if x.sle y then x else y := by
  simp only [min_def, BitVec.sle_iff_toInt_le]
  split <;> exact BitVec.ofInt_toInt

theorem ofInt_max_toInt {w : Nat} (x y : BitVec w) : BitVec.ofInt w (max x.toInt y.toInt) = if x.sle y then y else x := by
  simp only [max_def, BitVec.sle_iff_toInt_le]
  split <;> exact BitVec.ofInt_toInt

/-- The mask of a comparison: all ones or 0 (R99). -/
theorem ofInt_maskOf (w : Nat) (p : Prop) [Decidable p] :
    BitVec.ofInt w (maskOf (decide p)) = if p then BitVec.allOnes w else 0 := by
  have hones : BitVec.ofInt w (-1) = BitVec.allOnes w := by
    rw [BitVec.ofInt_neg, ← BitVec.neg_one_eq_allOnes]
    rfl
  by_cases h : p
  · simp [maskOf, h, hones]
  · simp [maskOf, h]

theorem ofInt_shiftElem_left {w : Nat} (x : BitVec w) (n : Nat) (ar : Bool) :
    BitVec.ofInt w (shiftElem w true ar n x.toInt) = x <<< n := by
  simp only [shiftElem, if_true]
  split
  case isTrue h => simp [BitVec.shiftLeft_eq_zero h]
  case isFalse h =>
    have hpow : BitVec.ofInt w (2 ^ n) = BitVec.twoPow w n := by
      refine BitVec.eq_of_toNat_eq ?_
      rw [BitVec.toNat_twoPow, BitVec.toNat_ofInt]
      exact_mod_cast Int.toNat_natCast (2 ^ n % 2 ^ w)
    rw [BitVec.ofInt_mul, BitVec.ofInt_toInt, hpow, BitVec.shiftLeft_eq_mul_twoPow]

theorem ofInt_shiftElem_right {w : Nat} (x : BitVec w) (n : Nat) :
    BitVec.ofInt w (shiftElem w false false n x.toInt) = x >>> n := by
  have hnat : x.toInt % 2 ^ w = x.toNat := by
    have hlt : (x.toNat : Int) < 2 ^ w := by exact_mod_cast x.isLt
    have hmod := Int.bmod_emod (x := x.toNat) (m := 2 ^ w)
    rw [← BitVec.toInt_eq_toNat_bmod, Nat.cast_pow, Nat.cast_ofNat] at hmod
    rw [hmod, Int.emod_eq_of_lt (Int.natCast_nonneg _) hlt]
  simp only [shiftElem, Bool.false_eq_true, if_false, hnat]
  split
  case isTrue h => simp [BitVec.ushiftRight_eq_zero h]
  case isFalse h =>
    have hdiv : (x.toNat : Int) / 2 ^ n = ((x >>> n).toNat : Int) := by
      rw [BitVec.toNat_ushiftRight, Nat.shiftRight_eq_div_pow]
      exact_mod_cast rfl
    rw [hdiv, BitVec.ofInt_natCast, BitVec.ofNat_toNat, BitVec.setWidth_eq]

/-- A signed value shifted right by its whole width or more keeps its sign alone. -/
theorem toInt_div_two_pow {w : Nat} (x : BitVec w) {n : Nat} (h : w ≤ n) :
    x.toInt / 2 ^ n = if x.toInt < 0 then -1 else 0 := by
  have hlow := BitVec.le_toInt x
  have hhigh := BitVec.toInt_lt (x := x)
  have hle : (2 : Int) ^ (w - 1) ≤ 2 ^ n := pow_le_pow_right₀ (by decide) (by omega)
  rw [Int.ediv_eq_iff_of_pos (two_pow_pos n)]
  split <;> constructor <;> omega

theorem ofInt_shiftElem_arith {w : Nat} (x : BitVec w) (n : Nat) :
    BitVec.ofInt w (shiftElem w false true n x.toInt) = x.sshiftRight n := by
  simp only [BitVec.sshiftRight_eq, Int.shiftRight_eq_div_pow, shiftElem, Bool.false_eq_true, if_false, if_true, Nat.cast_pow,
    Nat.cast_ofNat]
  split
  case isTrue h => rw [toInt_div_two_pow x h]
  case isFalse => rfl

end Sys2Proof.Machine
end

section
/-! PROOFS. The vector instructions that write their result unsaturated (R97 to R99). -/

namespace Sys2Proof.Machine

/-! ### Vector registers of a thread (R97) -/

theorem setVreg_eq (s : State) (h : Hart) (r : VReg) (v : Line) :
    setVreg s h r v = setThr s h { thr s h with v := sput (thr s h).v r.toNat v } := rfl

theorem vreg_of_thr {s t : State} {h : Hart} (hv : (thr t h).v = (thr s h).v) (r : VReg) : vreg t h r = vreg s h r := by
  rw [vreg, hv, vreg]

/-- A vector register that was just written reads as written, and every other as before. -/
theorem vreg_of_sput {s t : State} {h : Hart} {vd : VReg} {v : Line} (hv : (thr t h).v = sput (thr s h).v vd.toNat v) :
    vreg t h vd = v ∧ ∀ r, r ≠ vd → vreg t h r = vreg s h r := by
  refine ⟨by rw [vreg, hv, sget_sput_same], fun r hr => ?_⟩
  have hne : r.toNat ≠ vd.toNat := fun e => hr (BitVec.eq_of_toNat_eq e)
  rw [vreg, hv, sget_sput_other _ _ _ hne, vreg]

theorem vreg_setVreg_same (s : State) (h : Hart) (r : VReg) (v : Line) : vreg (setVreg s h r v) h r = v := by
  simp [vreg, setVreg_eq]

theorem vreg_setVreg_other (s : State) (h : Hart) {r q : VReg} (v : Line) (hq : q ≠ r) :
    vreg (setVreg s h r v) h q = vreg s h q := by
  have hne : q.toNat ≠ r.toNat := fun e => hq (BitVec.eq_of_toNat_eq e)
  simp [vreg, setVreg_eq, hne]

@[simp] theorem setVreg_mem (s : State) (h : Hart) (r : VReg) (v : Line) : (setVreg s h r v).mem = s.mem := rfl

/-! ### Instructions with one vector result (R99) -/

/-- A core of the mesh has the wide units (R371). -/
theorem firstTrap_noWide {s : State} {h : Hart} (hmesh : isDrvCore h.core = false) (w : Word) (l : List (Bool × Trap)) (k : Res) :
    firstTrap s (noWide h w :: l) k = firstTrap s l k := by
  rw [noWide, hmesh, firstTrap_cons_false]

/-- On a core of the mesh an instruction that writes a value to vd commits with it. -/
theorem writeVd_commits {s : State} {h : Hart} (hi : canIssue s h = true) (hmesh : isDrvCore h.core = false) {i : Instr}
    {vd : VReg} {v : Line} {w : Word} (hexec : exec i s = writeVd s h w vd v) :
    ∃ t, exec i s = .next t ∧ CommitsVec s t h vd v := by
  obtain ⟨hone, hthr⟩ := setThr_commits s h (u := { thr s h with v := sput (thr s h).v vd.toNat v }) rfl ((thr s h).pc + 4)
  refine ⟨_, ?_, hone, ?_⟩
  · rw [hexec, writeVd, firstTrap_noWide hmesh, firstTrap_nil, issue_ok hi, setVreg_eq, retire_setThr]
  · obtain ⟨hsame, hother⟩ := vreg_of_sput (s := s) (vd := vd) (v := v) (by rw [hthr, afterCommit])
    exact ⟨hsame, hother, by rw [hthr]; rfl⟩

/-- On a Drover core a vector instruction raises the illegal-instruction trap (R371). -/
theorem wide_illegal {s : State} {h : Hart} (hi : canIssue s h = true) (hdrv : isDrvCore h.core = true)
    (hl : (thr s h).level ≠ 3) {i : Instr} {l : List (Bool × Trap)} {k : Res}
    (hexec : exec i s = issue s h (firstTrap s (noWide h (insnWord i) :: l) k)) :
    ∃ t, exec i s = .next t ∧ TrapTaken s t h (trapIllegal (insnWord i)) := by
  rw [noWide, hdrv, firstTrap_cons_true] at hexec
  obtain ⟨t, ht, htaken, -⟩ := issue_trap hi hl hexec
  exact ⟨t, ht, htaken⟩

theorem ofInt_halfOfByte (x : BitVec 8) : BitVec.ofInt 16 (x.toInt * 2 ^ 8) = (x ++ (0 : BitVec 8)).setWidth 16 := by
  rw [BitVec.ofInt_mul, BitVec.setWidth_eq]
  revert x
  decide

/-- CVT.BH of a vector: halfword `k` holds byte `k` of the low half (R99). -/
theorem lineElem_halvesOfBytes (v : Line) {k : Nat} (hk : k < elemCount .b16) :
    lineElem 16 (packElems .b16 (((elems .b8 v).take 32).map fun x => x * 2 ^ 8)) k =
      (v.extractLsb' (8 * k) 8 ++ (0 : BitVec 8)).setWidth 16 := by
  have hlow : (elems .b8 v).take 32 = (List.range 32).map (elemS .b8 v) := by
    rw [elems, ← List.map_take, List.take_range]
    rfl
  rw [hlow, List.map_map]
  refine (lineElem_pack_map (et := .b16) _ le_rfl hk).trans ?_
  rw [Function.comp_apply, elemS_eq, Nat.mul_comm]
  exact ofInt_halfOfByte _

/-- Settles O23: each instruction by the commit of its line, whose elements are the operation of the operands' elements. -/
theorem vectorOperationsWorkPerElement : Obligations.VectorOperationsWorkPerElement := by
  unfold Obligations.VectorOperationsWorkPerElement
  intro h et vd vs1 vs2 rd rs2 s hi w a b m n el gives
  have hgives {i : Instr} {v : Line} {f : Nat → BitVec w} (hexec : exec i s = writeVd s h (insnWord i) vd v)
      (hv : ∀ k, k < 512 / w → lineElem w v k = f k) : gives i f := by
    refine ⟨fun hmesh => ?_, fun hdrv hl => wide_illegal hi hdrv hl hexec⟩
    obtain ⟨t, ht, hcommits⟩ := writeVd_commits hi hmesh hexec
    exact ⟨t, v, ht, hcommits, hv⟩
  have hzip {i : Instr} {f : Int → Int → Int} {g : BitVec w → BitVec w → BitVec w}
      (hexec : exec i s = writeVd s h (insnWord i) vd (mapElems et f a b))
      (hg : ∀ x y : BitVec w, BitVec.ofInt w (f x.toInt y.toInt) = g x y) : gives i fun k => g (el a k) (el b k) :=
    hgives hexec fun k hk => (lineElem_mapElems f a b hk).trans (hg _ _)
  have hshift {i : Instr} {left arith : Bool} {g : BitVec w → BitVec w}
      (hexec : exec i s = shiftElems s h (insnWord i) et left arith vd vs1 rs2)
      (hg : ∀ x : BitVec w, BitVec.ofInt w (shiftElem w left arith n x.toInt) = g x) : gives i fun k => g (el a k) := by
    refine hgives hexec fun k hk => ?_
    rw [elems, List.map_map, lineElem_pack_map _ le_rfl (elemCount_eq et ▸ hk), Function.comp_apply, elemS_eq]
    exact hg _
  refine ⟨hzip rfl fun x y => ?add, hzip rfl ofInt_sub_toInt, hzip rfl fun x y => ?mul, hzip rfl ofInt_min_toInt,
    hzip rfl ofInt_max_toInt, hzip (g := fun x y => if x = y then BitVec.allOnes w else 0) rfl fun x y => ?eq,
    hzip (g := fun x y => if x.slt y then BitVec.allOnes w else 0) rfl fun x y => ?lt, hgives rfl fun _ _ => rfl,
    hgives rfl fun _ _ => rfl, hgives rfl fun _ _ => rfl, hgives rfl fun _ _ => rfl, hshift rfl fun x => ofInt_shiftElem_left x n _,
    hshift rfl fun x => ofInt_shiftElem_right x n, hshift rfl fun x => ofInt_shiftElem_arith x n, hgives rfl fun k hk => ?bcast,
    fun hhalf => ?half, fun hmesh => ?ext⟩
  case add => rw [BitVec.ofInt_add, BitVec.ofInt_toInt, BitVec.ofInt_toInt]
  case mul => rw [BitVec.ofInt_mul, BitVec.ofInt_toInt, BitVec.ofInt_toInt]
  case eq => simp only [ofInt_maskOf, BitVec.toInt_inj]
  case lt => simp only [ofInt_maskOf, BitVec.slt_iff_toInt_lt]
  case bcast =>
    rw [lineElem_packElems (by simpa [elemCount_eq] using hk) (by simp), List.getElem_replicate, BitVec.ofInt_natCast,
      BitVec.ofNat_toNat]
  case half =>
    subst hhalf
    exact hgives rfl fun k hk => lineElem_halvesOfBytes a (elemCount_eq .b16 ▸ hk)
  case ext =>
    have hexec : exec (.vext h et rd vs1 rs2) s = issue s h (.ok (retireTo (setGreg s h rd
        (wordOf (elemS et a (n % elemCount et)))) h ((thr s h).pc + 4))) := by
      rw [← retire_setGreg]
      exact congrArg (issue s h) (firstTrap_noWide hmesh _ [] _)
    rw [elemS_eq, elemCount_eq] at hexec
    exact link_commits hi hexec

end Sys2Proof.Machine
end

section
/-! PROOFS. The vector instructions that saturate or narrow: clamped elements, SATF.VEC and its counter, the draws (R99, R100). -/

namespace Sys2Proof.Machine

/-! ### Runs of narrowings (R79 to R81) -/

/-- The generator after a number of narrowings under a mode: one draw each under STOCH, else none (R81). -/
def seedAfter (mode : Nat) (seed : Word) (k : Nat) : Word := if mode = 3 then nextRandom^[k] seed else seed

/-- The rounded quotient of the narrowing at place `k` of a run (R79, R81). -/
def quotientAt (mode d : Nat) (seed : Word) (k : Nat) (x : Int) : Int :=
  roundShift x d mode (drawBits (seedAfter mode seed (k + 1)))

theorem seedAfter_succ (mode : Nat) (seed : Word) (k : Nat) :
    seedAfter mode seed (k + 1) = seedAfter mode (seedAfter mode seed 1) k := by
  unfold seedAfter
  split
  · rfl
  · rfl

/-- A run of narrowings: each quotient clamped, the generator advanced, and whether a clamp changed some quotient (R79, R81). -/
theorem narrowAll_eq (n : Narrowing) (mode d w : Nat) (xs : List Int) :
    narrowAll n mode d w xs = ((xs.mapIdx (quotientAt mode d n.seed)).map (satTo w),
      ⟨seedAfter mode n.seed xs.length, n.sat || (xs.mapIdx (quotientAt mode d n.seed)).any (saturates w)⟩) := by
  induction xs generalizing n with
  | nil => simp [narrowAll, seedAfter]
  | cons x r ih =>
    have hfirst : narrow n mode x d w = (satTo w (quotientAt mode d n.seed 0 x),
        ⟨seedAfter mode n.seed 1, n.sat || saturates w (quotientAt mode d n.seed 0 x)⟩) := rfl
    have hrest : (fun k => quotientAt mode d n.seed (k + 1)) = quotientAt mode d (seedAfter mode n.seed 1) := by
      funext k y
      rw [quotientAt, quotientAt, seedAfter_succ mode n.seed]
    simp only [narrowAll, hfirst, ih, List.mapIdx_cons, hrest, List.map_cons, List.any_cons, List.length_cons, Bool.or_assoc,
      seedAfter_succ mode n.seed r.length]

/-- Only STOCH looks at the draw (R79). -/
theorem roundShift_draw_unused {mode : Nat} (hm : mode < 3) (x : Int) (d r q : Nat) :
    roundShift x d mode r = roundShift x d mode q := by
  match mode, hm with
  | 0, _ => rfl
  | 1, _ => rfl
  | 2, _ => rfl

theorem mode_lt (w : Word) : bits w 1 0 < 4 := Nat.mod_lt _ (by decide)

theorem quotientAt_eq {mode : Nat} (hm : mode < 4) (d : Nat) (seed : Word) (k : Nat) (x : Int) :
    quotientAt mode d seed k x = roundShift x d mode (if mode = 3 then (nextRandom^[k + 1] seed).toNat / 65536 else 0) := by
  unfold quotientAt seedAfter
  by_cases h3 : mode = 3
  · rw [if_pos h3, if_pos h3, drawBits]
  · exact roundShift_draw_unused (by omega) x d _ _

/-! ### Clamped elements (R78, R99) -/

/-- Saturation is noted exactly where the clamp changes the value (R78). -/
theorem saturates_iff_satTo_ne (w : Nat) (x : Int) : saturates w x = decide (satTo w x ≠ x) := by
  have hpos := two_pow_pos (w - 1)
  rw [saturates_eq, satTo_eq]
  refine decide_eq_decide.mpr ?_
  generalize (2 : Int) ^ (w - 1) = m at hpos ⊢
  omega

theorem toInt_ofInt_satTo {w : Nat} (hw : 0 < w) (x : Int) : (BitVec.ofInt w (satTo w x)).toInt = satTo w x := by
  have hpos := two_pow_pos (w - 1)
  refine BitVec.toInt_ofInt_eq_self hw ?_ ?_ <;> rw [satTo_eq] <;> omega

/-! ### Instructions with a saturated vector result (R62, R99, R125) -/

/-- The state in which a saturating vector instruction commits: the clamped elements in vd, the generator at `seed`, SATF.VEC
and its counter. -/
def vecSaturated (s : State) (h : Hart) (et : ElemType) (vd : VReg) (ys : List Int) (seed : Word) : State :=
  vecSat (endNarrow (setVreg s h vd (packElems et (ys.map (satTo (elemWidth et))))) h ⟨seed, false⟩ satfVec) h
    (ys.any (saturates (elemWidth et)))

/-- SATF.VEC set and counted, and nothing else (R62, R125). -/
theorem vecSat_fields (s : State) (h : Hart) (c : Bool) :
    OnlyThread s (vecSat s h c) h ∧ thr (vecSat s h c) h = flagged (thr s h) c satfVec ∧
      coreCsr (vecSat s h c) h.core 0x107 = coreCsr s h.core 0x107 + (if c then 1 else 0) ∧
      coreCsr (vecSat s h c) h.core 0x004 = coreCsr s h.core 0x004 := by
  cases c
  · exact ⟨.refl s h, rfl, by simp [vecSat], rfl⟩
  · have hstate : vecSat s h true = countCore (setSatf s h satfVec) h.core 0x107 1 := rfl
    rw [hstate]
    refine ⟨(onlyThread_modThr s h _).trans (onlyThread_countCore _ h _ _), ?_, ?_, ?_⟩
    · simp [setSatf, setThrCsr, modThr, thrCsr, flagged]
    · simp [coreCsr_countCore_same, setSatf, setThrCsr]
    · simp [coreCsr_countCore_other, setSatf, setThrCsr]

theorem coreCsr_endNarrow_other (s : State) (h : Hart) (n : Narrowing) (f : Word) {k : Nat} (hk : k ≠ 0x004) :
    coreCsr (endNarrow s h n f) h.core k = coreCsr s h.core k := by
  have hflag (t : State) : coreCsr (if n.sat then setSatf t h f else t) h.core k = coreCsr t h.core k := by
    split
    · exact coreCsr_modThr t h _ h.core k
    · rfl
  refine (hflag _).trans ?_
  split
  · rfl
  · exact coreCsr_setCoreCsr_other s _ (.inr hk)

/-- What a saturating vector instruction leaves once it has committed (R62, R70, R81, R99). -/
theorem retire_vecSaturated (s : State) (h : Hart) (et : ElemType) (vd : VReg) (ys : List Int) (seed : Word) :
    let sat := ys.any (saturates (elemWidth et))
    let t := retire (vecSaturated s h et vd ys seed) h
    OnlyThread s t h ∧ coreCsr t h.core 0x107 = coreCsr s h.core 0x107 + (if sat then 1 else 0) ∧
      coreCsr t h.core 0x004 = seed ∧
      thr t h = afterCommit (flagged { thr s h with
        v := sput (thr s h).v vd.toNat (packElems et (ys.map (satTo (elemWidth et)))) } sat satfVec) ((thr s h).pc + 4) := by
  intro sat t
  have hissued : (0x107 : Nat) ≠ issuedCsr h := by simp only [issuedCsr]; omega
  obtain ⟨hthr, honly, hseed⟩ := endNarrow_setThr s h { thr s h with
    v := sput (thr s h).v vd.toNat (packElems et (ys.map (satTo (elemWidth et)))) } ⟨seed, false⟩ satfVec
  obtain ⟨hsat, hflags, hcount, hkeep⟩ := vecSat_fields
    (endNarrow (setVreg s h vd (packElems et (ys.map (satTo (elemWidth et))))) h ⟨seed, false⟩ satfVec) h sat
  refine ⟨(honly.trans hsat).trans (retire_oneCommit _ h).1, ?_, ?_, ?_⟩
  · rw [coreCsr_retire _ h hissued (by decide), vecSaturated, hcount, coreCsr_endNarrow_other _ _ _ _ (by decide), setVreg_eq,
      coreCsr_setThr]
  · exact (coreCsr_retireTo_seed _ h _).trans (hkeep.trans hseed)
  · rw [setVreg_eq, hthr] at hflags
    rw [thr_retire, vecSaturated, setVreg_eq, hflags, flagged_pc]
    rfl

/-- A saturating vector instruction: each element clamped, SATF.VEC and its counter where a clamp changed one, and every other
register as before (R99). -/
theorem vecSaturated_commits {s : State} {h : Hart} {i : Instr} {et : ElemType} {vd : VReg} {n : Nat} {f : Nat → Int} {seed : Word}
    (hexec : exec i s = .next (retire (vecSaturated s h et vd ((List.range n).map f) seed) h)) (hn : n ≤ elemCount et) :
    let w := elemWidth et
    let clamp := fun x : Int => max (-2 ^ (w - 1)) (min (2 ^ (w - 1) - 1) x)
    let sat := (List.range n).any fun k => decide (clamp (f k) ≠ f k)
    ∃ t, exec i s = .next t ∧ OnlyThread s t h ∧ (thr t h).pc = (thr s h).pc + 4 ∧
      (∀ k, k < n → (lineElem w (vreg t h vd) k).toInt = clamp (f k)) ∧ (∀ r, r ≠ vd → vreg t h r = vreg s h r) ∧
      (∀ r, greg t h r = greg s h r) ∧ (thr t h).acc = (thr s h).acc ∧
      ((thr t h).getCsr 0x001 = (thr s h).getCsr 0x001 ||| (if sat then 8 else 0) ∧
        coreCsr t h.core 0x107 = coreCsr s h.core 0x107 + (if sat then 1 else 0)) ∧ coreCsr t h.core 0x004 = seed := by
  intro w clamp sat
  have hsat : ((List.range n).map f).any (saturates w) = sat := by
    rw [List.any_map]
    congr 1
    funext k
    rw [Function.comp_apply, saturates_iff_satTo_ne, satTo_eq]
  obtain ⟨honly, hcount, hseed, hthr⟩ := retire_vecSaturated s h et vd ((List.range n).map f) seed
  rw [hsat] at hcount hthr
  obtain ⟨hvd, hother⟩ := vreg_of_sput (s := s) (vd := vd) (v := packElems et (((List.range n).map f).map (satTo w)))
    (by rw [hthr, afterCommit, flagged_v])
  refine ⟨_, hexec, honly, by rw [hthr, afterCommit], fun k hk => ?elem, hother, fun r => ?greg, ?acc, ⟨?satf, hcount⟩, hseed⟩
  case elem =>
    rw [hvd, List.map_map, lineElem_pack_map _ hn hk, Function.comp_apply, toInt_ofInt_satTo (elemWidth_pos et), satTo_eq]
  case greg =>
    rw [greg, hthr, greg_afterCommit, flagged_rd]
    exact thread_rd_congr rfl rfl rfl rfl rfl rfl r
  case acc => rw [hthr, afterCommit, flagged_acc]
  case satf =>
    rw [hthr]
    exact (getCsr_flagged _ sat satfVec).1

/-! ### VADDS, VSUBS, VMULQ and VCVT.HB (R99, R100) -/

theorem mapIdx_map_range {α β : Type} (f : Nat → α → β) (g : Nat → α) (n : Nat) :
    ((List.range n).map g).mapIdx f = (List.range n).map fun k => f k (g k) :=
  List.ext_getElem (by simp) fun k _ _ => by simp

/-- A saturating sum or difference commits with its exact elements clamped, and draws nothing. -/
theorem exec_satElems {s : State} {h : Hart} (hi : canIssue s h = true) (hmesh : isDrvCore h.core = false) {i : Instr}
    {w : Word} {et : ElemType} {vd : VReg} {f : Int → Int → Int} {a b : Line} (hexec : exec i s = satElems s h w et vd f a b) :
    exec i s = .next (retire (vecSaturated s h et vd ((List.range (elemCount et)).map fun k =>
      f (lineElem (elemWidth et) a k).toInt (lineElem (elemWidth et) b k).toInt) (coreCsr s h.core 0x004)) h) := by
  have hkeep (u : Thread) : endNarrow (setThr s h u) h ⟨coreCsr s h.core 0x004, false⟩ satfVec = setThr s h u := by
    simp [endNarrow]
  simp only [hexec, satElems, firstTrap_noWide hmesh, firstTrap_nil, issue_ok hi, zipWith_elems, elemS_eq, vecSaturated, setVreg_eq,
    hkeep]

/-- A narrowing of elements that no trap stops commits with its quotients clamped, and one draw each under STOCH. -/
theorem exec_narrowElems {s : State} {h : Hart} (hi : canIssue s h = true) (hmesh : isDrvCore h.core = false) {i : Instr}
    {w : Word} {pre : List (Bool × Trap)} (hpre : ∀ k, firstTrap s pre k = k) {et : ElemType} {vd : VReg} {d n : Nat}
    {g : Nat → Int} (hexec : exec i s = narrowElems s h w pre et vd d ((List.range n).map g)) :
    exec i s = .next (retire (vecSaturated s h et vd ((List.range n).map fun k =>
      quotientAt (rmode s h) d (coreCsr s h.core 0x004) k (g k)) (seedAfter (rmode s h) (coreCsr s h.core 0x004) n)) h) := by
  simp only [hexec, narrowElems, narrowAll_eq, mapIdx_map_range, firstTrap_noWide hmesh, hpre, issue_ok hi, startNarrow,
    List.length_map, List.length_range, Bool.false_or, vecSaturated]

theorem elems_eq (et : ElemType) (v : Line) :
    elems et v = (List.range (elemCount et)).map fun k => (lineElem (elemWidth et) v k).toInt := by
  simp only [elems, funext (elemS_eq et v)]

/-- A line packed from 32 bytes is 0 in its upper half. -/
theorem packElems_high {xs : List Int} (hx : xs.length = 32) : (packElems .b8 xs).extractLsb' 256 256 = 0 := by
  have hlt : packBits (elemWidth .b8) xs < 2 ^ 256 := by
    simpa [hx, elemWidth] using packBits_lt 8 xs
  have hcount : xs.length ≤ elemCount .b8 := by
    rw [hx]
    decide
  refine BitVec.eq_of_toNat_eq ?_
  rw [BitVec.extractLsb'_toNat, toNat_packElems hcount, Nat.shiftRight_eq_div_pow, Nat.div_eq_of_lt hlt]
  rfl

/-- Settles O24: each instruction by the commit of its exact elements, or of its rounded quotients, clamped. -/
theorem vectorNarrowingSaturatesAndDraws : Obligations.VectorNarrowingSaturatesAndDraws := by
  unfold Obligations.VectorNarrowingSaturatesAndDraws
  intro h et vd vs1 vs2 s hi hmesh a b el clamp mode seed gives rnd w
  have hnarrow {i : Instr} {pre : List (Bool × Trap)} {e : ElemType} {n d : Nat} {xs : List Int} {g : Nat → Int}
      (hpre : ∀ k, firstTrap s pre k = k) (hexec : exec i s = narrowElems s h (insnWord i) pre e vd d xs)
      (hxs : xs = (List.range n).map g) :
      exec i s = .next (retire (vecSaturated s h e vd ((List.range n).map fun k => rnd (g k) d k)
        (nextRandom^[if mode = 3 then n else 0] seed)) h) := by
    have hround (k : Nat) : quotientAt mode d seed k (g k) = rnd (g k) d k := quotientAt_eq (mode_lt _) d seed k (g k)
    have hseed : seedAfter mode seed n = nextRandom^[if mode = 3 then n else 0] seed := by
      unfold seedAfter
      split <;> rfl
    rw [← hseed, ← funext hround]
    exact exec_narrowElems hi hmesh hpre (hexec.trans (congrArg _ hxs))
  have hhalves := hnarrow (i := .vcvtHb h vd vs1) (n := 32) (g := el 16 a) (fun _ => rfl) rfl (elems_eq .b16 a)
  refine ⟨?adds, ?subs, fun h32 => ?mulq, fun h32 hl => ?mulqTrap, ?cvt, fun t ht => ?high⟩
  case adds =>
    rw [← elemCount_eq]
    exact vecSaturated_commits (exec_satElems hi hmesh rfl) le_rfl
  case subs =>
    rw [← elemCount_eq]
    exact vecSaturated_commits (exec_satElems hi hmesh rfl) le_rfl
  case mulq =>
    have hpre (k : Res) : firstTrap s [(decide (et = .b32), trapIllegal (insnWord (.vmulq h et vd vs1 vs2)))] k = k := by
      rw [decide_eq_false h32, firstTrap_cons_false, firstTrap_nil]
    have hproducts : List.zipWith (fun x y => x * y) (elems et a) (elems et b) =
        (List.range (elemCount et)).map fun k => el w a k * el w b k := by
      simp only [zipWith_elems, elemS_eq]
      rfl
    rw [← elemCount_eq]
    exact vecSaturated_commits (hnarrow hpre rfl hproducts) le_rfl
  case mulqTrap =>
    subst h32
    obtain ⟨t, ht, htaken, -⟩ := issue_trap hi hl (i := .vmulq h .b32 vd vs1 vs2)
      (congrArg (issue s h) (firstTrap_noWide hmesh _ _ _))
    exact ⟨t, ht, htaken⟩
  case cvt => exact vecSaturated_commits hhalves (by decide)
  case high =>
    obtain ⟨-, -, -, hthr⟩ := retire_vecSaturated s h .b8 vd ((List.range 32).map fun k => rnd (el 16 a k) 8 k)
      (nextRandom^[if mode = 3 then 32 else 0] seed)
    obtain rfl := Host.Outcome.next.inj (hhalves.symm.trans ht)
    rw [(vreg_of_sput (s := s) (by rw [hthr, afterCommit, flagged_v])).1]
    exact packElems_high (by simp)

end Sys2Proof.Machine
end

section
/-! PROOFS. VLD and VST: one line of the core's own local memory, and the traps elsewhere (R102). -/

namespace Sys2Proof.Machine

/-! ### Bytes of a line (R11) -/

theorem pow_256 (n : Nat) : 256 ^ n = 2 ^ (8 * n) := (pow_mul 2 8 n).symm

theorem leNat_digit (bs : List Byte) {k : Nat} (hk : k < bs.length) : BitVec.ofNat 8 (leNat bs / 2 ^ (8 * k)) = bs[k] := by
  have hbytes := leBytes_getElem bs.length (leNat bs) (i := k) (by rwa [leBytes_length])
  simp only [leBytes_leNat, pow_256] at hbytes
  exact hbytes.symm

/-- Byte `k` of a line made of 64 bytes. -/
theorem extract_bytesLine {bs : List Byte} (hlen : bs.length = 64) {k : Nat} (hk : k < bs.length) :
    (bytesLine bs).extractLsb' (8 * k) 8 = bs[k] := by
  have hwidth : 8 * bs.length = 512 := by omega
  have hlt : leNat bs < 2 ^ 512 := by
    rw [← hwidth, ← pow_256]
    exact leNat_lt bs
  rw [← leNat_digit bs hk, BitVec.extractLsb', bytesLine, toNat_ofNat_of_lt hlt, Nat.shiftRight_eq_div_pow]

/-- Byte `k` of the bytes of a line. -/
theorem lineBytes_getElem (v : Line) {k : Nat} (hk : k < (lineBytes v).length) :
    (lineBytes v)[k] = v.extractLsb' (8 * k) 8 := by
  simp only [lineBytes, leBytes_getElem, BitVec.extractLsb', Nat.shiftRight_eq_div_pow, pow_256]

theorem lineBytes_length (v : Line) : (lineBytes v).length = 64 := leBytes_length 64 _

/-- The bytes that a write of local memory leaves (R66). -/
theorem writeLocal_bytes {s : State} (hm : MemoryCanonical s) (c off : Nat) (bs : List Byte) :
    SameMemoryBut s (writeLocal s c off bs) (localBase c + off) bs.length ∧
      ∀ k (hk : k < bs.length), byteAt (writeLocal s c off bs) (localBase c + off + k) = bs[k] :=
  ⟨fun x hx => memGet_writeMem_outside s _ x bs hm hx, fun k hk => memGet_writeMem_inside s _ k bs hm hk⟩

/-! ### The traps of a vector access (R102, R144, R453) -/

theorem localSize_mesh {c : Nat} (hmesh : isDrvCore c = false) : localSize c = 0x60000 := by
  rw [localSize, hmesh]
  rfl

theorem vecTraps_misaligned {s : State} {h : Hart} (hmesh : isDrvCore h.core = false) {va : Word} (ha : va.toNat % 64 ≠ 0)
    (w : Word) (k : Res) : firstTrap s (vecTraps s h w va) k = .trap s (trapMisaligned va) := by
  rw [vecTraps, firstTrap_noWide hmesh, misaligned, decide_eq_true ha, firstTrap_cons_true]

theorem vecTraps_outside {s : State} {h : Hart} (hmesh : isDrvCore h.core = false) {va : Word} (ha : va.toNat % 64 = 0)
    (hv : 0x60000 ≤ va.toNat) (w : Word) (k : Res) : firstTrap s (vecTraps s h w va) k = .trap s (trapBus va 0x01) := by
  rw [vecTraps, firstTrap_noWide hmesh, misaligned, decide_eq_false (not_not.mpr ha), firstTrap_cons_false,
    decide_eq_false (Nat.not_lt.mpr hv), Bool.false_and, Bool.false_and, firstTrap_cons_false, decide_eq_true hv,
    firstTrap_cons_true]

/-- A line within local memory that the worlds allow raises no trap. -/
theorem vecTraps_usable {s : State} {h : Hart} (hmesh : isDrvCore h.core = false) {va : Word} (ha : va.toNat % 64 = 0)
    (hv : va.toNat + 64 ≤ 0x60000) (hg : (thr s h).mode.guarded = true ∨ inGlmem s h.core va.toNat = false) (w : Word) (k : Res) :
    firstTrap s (vecTraps s h w va) k = k := by
  have hallowed : (!(thr s h).mode.guarded && inGlmem s h.core va.toNat) = false := by
    rcases hg with hg | hg <;> simp [hg]
  rw [vecTraps, firstTrap_noWide hmesh, misaligned, decide_eq_false (not_not.mpr ha), firstTrap_cons_false, Bool.and_assoc,
    hallowed, Bool.and_false, firstTrap_cons_false, decide_eq_false (show ¬ 0x60000 ≤ va.toNat by omega), firstTrap_cons_false, firstTrap_nil]

/-! ### VLD and VST (R102) -/

/-- VLD of a usable line that holds no error commits with its bytes. -/
theorem vld_commits {s : State} {h : Hart} (hi : canIssue s h = true) (hmesh : isDrvCore h.core = false) {rb : GReg}
    {off : BitVec 13} (htraps : ∀ w k, firstTrap s (vecTraps s h w (vecAddr s h rb off)) k = k) (hlatent : s.latent = [])
    (hpoison : isPoisoned s (localBase h.core + (vecAddr s h rb off).toNat) 64 = false) (vd : VReg) :
    ∃ t, exec (.vld h vd rb off) s = .next t ∧
      CommitsVec s t h vd (bytesLine (readMem s (localBase h.core + (vecAddr s h rb off).toNat) 64)) := by
  have hvd : exec (.vld h vd rb off) s = writeVd s h 0 vd
      (bytesLine (readMem s (localBase h.core + (vecAddr s h rb off).toNat) 64)) := by
    rw [writeVd, firstTrap_noWide hmesh]
    refine congrArg (issue s h) ((htraps _ _).trans ?_)
    rw [demandRead_clean hlatent, hpoison, firstTrap_cons_false]
  exact writeVd_commits hi hmesh hvd

/-- VST of a usable line outside the outbox line writes it and commits. -/
theorem exec_vst {s : State} {h : Hart} (hi : canIssue s h = true) {rb : GReg} {off : BitVec 13}
    (htraps : ∀ w k, firstTrap s (vecTraps s h w (vecAddr s h rb off)) k = k)
    (ha : (vecAddr s h rb off).toNat % 64 = 0) (ho : outboxOff s h ≠ (vecAddr s h rb off).toNat) (vs : VReg) :
    exec (.vst h vs rb off) s =
      .next (retire (writeLocal s h.core (vecAddr s h rb off).toNat (lineBytes (vreg s h vs))) h) := by
  have hout : (vecAddr s h rb off).toNat + (lineBytes (vreg s h vs)).length ≤ outboxOff s h ∨
      outboxOff s h + 64 ≤ (vecAddr s h rb off).toNat := by
    rw [lineBytes_length]
    unfold outboxOff at ho ⊢
    omega
  rw [← issue_ok hi, ← storeLocal_outside hout]
  exact congrArg (issue s h) (htraps _ _)

/-- Settles O25: a load by the commit of the line it read, a store by its bytes, and the two traps in their order. -/
theorem vectorMemoryMovesOneLine : Obligations.VectorMemoryMovesOneLine := by
  unfold Obligations.VectorMemoryMovesOneLine
  intro h vd rb off s hi hmesh va base usable
  have hsize := localSize_mesh hmesh
  have hfree : usable → ∀ w k, firstTrap s (vecTraps s h w va) k = k := fun ⟨ha, hv, hg⟩ =>
    vecTraps_usable hmesh ha (hsize ▸ hv) hg
  have htraps {i : Instr} {w : Word} {k : Res} (hl : (thr s h).level ≠ 3)
      (hexec : exec i s = issue s h (firstTrap s (vecTraps s h w va) k)) :
      (va.toNat % 64 ≠ 0 → ∃ t, exec i s = .next t ∧ TrapTaken s t h (trapMisaligned va) ∧ SameMemory s t) ∧
      (va.toNat % 64 = 0 → localSize h.core ≤ va.toNat → ∃ t, exec i s = .next t ∧
        TrapTaken s t h (trapBus va 0x01) ∧ SameMemory s t) := by
    refine ⟨fun ha => ?_, fun ha hv => ?_⟩
    · obtain ⟨t, ht, htaken, honly⟩ := issue_trap hi hl (hexec.trans (congrArg _ (vecTraps_misaligned hmesh ha w k)))
      exact ⟨t, ht, htaken, honly.sameMemory⟩
    · obtain ⟨t, ht, htaken, honly⟩ := issue_trap hi hl (hexec.trans (congrArg _ (vecTraps_outside hmesh ha (hsize ▸ hv) w k)))
      exact ⟨t, ht, htaken, honly.sameMemory⟩
  refine ⟨fun hu hlatent hpoison => ?load, fun hu hm ho => ⟨_, exec_vst hi (hfree hu) hu.1 ho vd, ?store⟩, fun hl => ?_⟩
  case load =>
    obtain ⟨t, ht, hcommits⟩ := vld_commits hi hmesh (hfree hu) hlatent hpoison vd
    refine ⟨t, _, ht, hcommits, fun k hk => ?_⟩
    rw [extract_bytesLine (readMem_length _ _ _) (by simpa using hk), readMem_getElem]
    rfl
  case store =>
    have hlen := lineBytes_length (vreg s h vd)
    obtain ⟨hother, hbytes⟩ := writeLocal_bytes hm h.core va.toNat (lineBytes (vreg s h vd))
    refine ⟨fun x hx => ?_, fun k hk => ?_, ?_⟩
    · rw [byteAt_retire]
      exact hother x (by rwa [hlen])
    · rw [byteAt_retire]
      exact (hbytes k (by rwa [hlen])).trans (lineBytes_getElem _ _)
    · rw [thr_retire, thr_writeLocal, afterCommit]
  rw [List.forall_mem_cons, List.forall_mem_singleton]
  exact ⟨htraps hl rfl, htraps hl rfl⟩

end Sys2Proof.Machine
end

section
/-! PROOFS. The issue of tile and matrix instructions: the wait that follows, the wait before, and the checks (R106 to R110,
R119, R120, R125). -/

namespace Sys2Proof.Machine

/-! ### A thread that waits for its instruction to complete (R119, R125) -/

/-- The cycles in which a ready instruction waited to issue go to TILE_WAIT (R120, R125). -/
theorem coreCsr_endTileWait_count (s : State) (h : Hart) :
    coreCsr (endTileWait s h) h.core 0x105 = coreCsr s h.core 0x105 + (match (thr s h).tileWait with
      | some e => BitVec.ofNat 32 (coreCycle s h.core - e.2)
      | none => 0) := by
  cases hw : (thr s h).tileWait with
  | none => simp [endTileWait, hw]
  | some e => simp [endTileWait, hw, coreCsr_countCore_same]

/-- The issue of a tile or matrix instruction changes its thread and TILE_WAIT alone (R119, R125). -/
theorem startTile_fields (s : State) (h : Hart) (i : Instr) :
    OnlyThread s (startTile s h i) h ∧
      thr (startTile s h i) h = { thr s h with
        wait := .tile, cur := some i, tileWait := none, curAt := coreCycle s h.core, rowsDone := 0 } ∧
      coreCsr (startTile s h i) h.core 0x105 = coreCsr (endTileWait s h) h.core 0x105 := by
  refine ⟨(onlyThread_endTileWait s h).trans (onlyThread_modThr _ h _), ?_, coreCsr_modThr _ h _ _ _⟩
  simp [startTile, modThr]

/-- A tile instruction of a thread with no older instruction open takes its checks in order, or waits (R69, R120). -/
theorem tileIssue_of_canIssue {s : State} {h : Hart} (hi : canIssue s h = true) (hmesh : isDrvCore h.core = false) (i : Instr)
    (srcs : List GReg) (checks : List (Bool × Trap)) :
    tileIssue s h i srcs checks =
      if tileFree s h i then issue s h (firstTrap s checks (.ok (startTile s h i))) else .next (waitTile s h i) := by
  simp only [tileIssue, canFollow_of_canIssue hi, hmesh, hi, Bool.false_and, Bool.false_eq_true, if_false, Bool.or_true,
    firstTrap_cons_false, Machine.when, if_true]

/-- A check that passes before checks that pass. -/
theorem pass_cons {c : Bool} {t : Trap} {l : List (Bool × Trap)} (hc : c = false) (hl : l.all (fun e => !e.1) = true) :
    ((c, t) :: l).all (fun e => !e.1) = true := by
  rw [List.all_cons, hc, hl]
  rfl

theorem firstTrap_of_pass {l : List (Bool × Trap)} (hl : l.all (fun e => !e.1) = true) (s : State) (k : Res) :
    firstTrap s l k = k := by
  induction l with
  | nil => rfl
  | cons e r ih =>
    obtain ⟨he, hr⟩ := (Bool.and_eq_true _ _).mp hl
    obtain ⟨b, t⟩ := e
    obtain rfl : b = false := by simpa using he
    exact ih hr

/-! ### The checks of a block of local memory (R110) -/

/-- No address of a range lies in an interval above it, or in an empty one. -/
theorem lowestOf_none {lo hi a n : Nat} (ha : a < 2 ^ 32) (h : hi ≤ lo ∨ a + n ≤ lo) : lowestOf lo hi [(a, n)] = none := by
  have hnone : lowestIn lo hi a n = none := by
    rw [lowestIn, Nat.mod_eq_of_lt ha]
    refine if_neg ?_
    simp only [Nat.max_def, Nat.min_def]
    split <;> split <;> omega
  simp [lowestOf, hnone]

/-- An aligned block inside local memory with no guarded region in the way raises no trap (R110, R144). -/
theorem blockTraps_none {s : State} {h : Hart} {r : GReg} {al n : Nat} (ha : (greg s h r).toNat % al = 0)
    (hn : (greg s h r).toNat + n ≤ 0x60000)
    (hg : (thr s h).mode.guarded = true ∨ bits (coreCsr s h.core 0x802) 14 8 = 0) :
    (blockTraps s h r al n).all (fun e => !e.1) = true := by
  have hword := (greg s h r).isLt
  have hworld : (if (thr s h).mode.guarded then none else lowestOf (4096 * bits (coreCsr s h.core 0x802) 6 0)
      (4096 * (bits (coreCsr s h.core 0x802) 6 0 + bits (coreCsr s h.core 0x802) 14 8)) [((greg s h r).toNat, n)]) = none := by
    rcases hg with hg | hg
    · rw [if_pos hg]
    · rw [hg, Nat.add_zero, lowestOf_none hword (.inl le_rfl), ite_self]
  refine pass_cons (decide_eq_false (not_not.mpr ha)) (pass_cons ?_ (pass_cons ?_ rfl))
  · rw [hworld]
    rfl
  · rw [lowestOf_none hword (.inr hn)]
    rfl

/-- Q-typed tiles of one type and row length without poisoned rows raise no trap (R107, R108). -/
theorem mmaTraps_none {s : State} {h : Hart} {ta tb : TReg} (hq : (tile s h.core ta).etype ≠ 2)
    (ht : (tile s h.core ta).etype = (tile s h.core tb).etype) (hb : (tile s h.core ta).bpr = (tile s h.core tb).bpr)
    (hx : badRow (tile s h.core ta) = none) (hy : badRow (tile s h.core tb) = none) :
    (mmaTraps s h ta tb).all (fun e => !e.1) = true := by
  refine pass_cons ?_ (pass_cons (decide_eq_false (not_not.mpr hb)) (pass_cons ?_ (pass_cons ?_ rfl)))
  · rw [← ht, decide_eq_false hq, decide_eq_false (not_not.mpr rfl)]
    rfl
  · rw [hx]
    rfl
  · rw [hy]
    rfl

/-- Settles O26: each instruction by the wait that its issue leaves once its checks pass, or by the first check that fails. -/
theorem tileInstructionsIssueOrTrap : Obligations.TileInstructionsIssueOrTrap := by
  unfold Obligations.TileInstructionsIssueOrTrap
  intro h t ts a rs1 rs2 rd vd k s hi hmesh x y r waited waits inside products
  have hwaits {i : Instr} {srcs : List GReg} {checks : List (Bool × Trap)} (hexec : exec i s = tileIssue s h i srcs checks)
      (hchecks : checks.all (fun e => !e.1) = true) : waits i := by
    intro hfree
    obtain ⟨honly, hthr, hcount⟩ := startTile_fields s h i
    refine ⟨_, ?_, honly, hthr, hcount.trans (coreCsr_endTileWait_count s h)⟩
    rw [hexec, tileIssue_of_canIssue hi hmesh, if_pos hfree, firstTrap_of_pass hchecks, issue_ok hi]
  have htraps {i : Instr} {srcs : List GReg} {checks : List (Bool × Trap)} {c : Bool} {tr : Trap} (hl : (thr s h).level ≠ 3)
      (hfree : tileFree s h i = true) (hexec : exec i s = tileIssue s h i srcs ((c, tr) :: checks)) (hc : c = true) :
      ∃ u, exec i s = .next u ∧ TrapTaken s u h tr := by
    rw [tileIssue_of_canIssue hi hmesh, if_pos hfree, hc, firstTrap_cons_true] at hexec
    obtain ⟨u, hu, htaken, -⟩ := issue_trap hi hl hexec
    exact ⟨u, hu, htaken⟩
  have hinside (hr : r % 32 < x.rows) : decide (x.rows ≤ r % 32) = false := decide_eq_false (Nat.not_le.mpr hr)
  refine ⟨fun hok => hwaits rfl (pass_cons (by rw [hok]; rfl) rfl), hwaits rfl rfl, hwaits rfl rfl, hwaits rfl rfl,
    hwaits rfl rfl, hwaits rfl rfl, fun hr hgood => hwaits rfl (pass_cons (hinside hr) (pass_cons hgood rfl)),
    fun hr => hwaits rfl (pass_cons (hinside hr) rfl), fun hrows => ⟨hwaits rfl hrows, hwaits rfl hrows⟩,
    fun ⟨ha, hn, hg⟩ => ⟨hwaits rfl (blockTraps_none ha hn hg), hwaits rfl (blockTraps_none ha hn hg)⟩,
    fun ⟨ha, hn, hg⟩ => ⟨hwaits rfl (blockTraps_none ha hn hg), hwaits rfl (blockTraps_none ha hn hg)⟩,
    fun ⟨hq, ht, hb, hx, hy⟩ => ⟨hwaits rfl (mmaTraps_none hq ht hb hx hy), hwaits rfl (mmaTraps_none hq ht hb hx hy)⟩,
    fun hq hc => hwaits rfl (pass_cons ?narrow rfl),
    fun hbusy => ⟨waitTile s h (.tzero h t), ?busy, onlyThread_modThr s h _, thr_setThr_same s h _⟩,
    fun hl hfree hbad => htraps hl hfree rfl (by rw [hbad]; rfl), fun hl hfree hne => htraps hl hfree rfl ?mma⟩
  case narrow => exact Bool.or_eq_false_iff.mpr ⟨decide_eq_false hq, decide_eq_false (Nat.not_lt.mpr hc)⟩
  case busy => exact (tileIssue_of_canIssue hi hmesh _ _ _).trans (by rw [hbusy]; rfl)
  case mma => exact (Bool.or_eq_true _ _).mpr (.inr (decide_eq_true hne))

end Sys2Proof.Machine
end

section
/-! PROOFS. Tiles and accumulators under updates of the state, and what the completion of a tile instruction leaves (R119,
R121, R125). -/

namespace Sys2Proof.Machine

/-! ### Updates that leave tiles and accumulators alone -/

theorem OnlyThread.tile {s t : State} {h : Hart} (ho : OnlyThread s t h) (q : TReg) :
    Machine.tile t h.core q = Machine.tile s h.core q := by
  obtain ⟨-, -, -, hcore⟩ := ho
  rw [Machine.tile, hcore, Machine.tile]

theorem OnlyThread.accTile {s t : State} {h : Hart} (ho : OnlyThread s t h) (a : AReg) :
    Machine.accTile t h.core a = Machine.accTile s h.core a := by
  obtain ⟨-, -, -, hcore⟩ := ho
  rw [Machine.accTile, hcore, Machine.accTile]

theorem OnlyThread.latch {s t : State} {h : Hart} (ho : OnlyThread s t h) : (core t h.core).latch = (core s h.core).latch := by
  obtain ⟨-, -, -, hcore⟩ := ho
  rw [hcore]

/-- Nothing but counters of cores and of the ledger has changed (R125, R340). -/
structure OnlyCounters (s t : State) : Prop where
  mem : t.mem = s.mem
  regs : t.regs = s.regs
  pkg : t.pkg = s.pkg
  core : ∀ c, core t c = { Machine.core s c with csr := (Machine.core t c).csr }

theorem OnlyCounters.refl (s : State) : OnlyCounters s s := ⟨rfl, rfl, rfl, fun _ => rfl⟩

theorem OnlyCounters.trans {s t u : State} (hst : OnlyCounters s t) (htu : OnlyCounters t u) : OnlyCounters s u := by
  refine ⟨htu.mem.trans hst.mem, htu.regs.trans hst.regs, htu.pkg.trans hst.pkg, fun c => ?_⟩
  rw [htu.core, hst.core]

theorem onlyCounters_countCore (s : State) (c n d : Nat) : OnlyCounters s (countCore s c n d) := by
  refine ⟨rfl, rfl, rfl, fun e => ?_⟩
  by_cases he : e = c
  · subst he
    simp [countCore, setCoreCsr]
  · simp [countCore, setCoreCsr, he]

theorem onlyCounters_ledgerCore (s : State) (c k n : Nat) : OnlyCounters s (ledgerCore s c k n) := by
  unfold ledgerCore
  split <;> exact ⟨rfl, rfl, rfl, fun _ => rfl⟩

theorem onlyCounters_ite {s t u : State} {p : Prop} [Decidable p] (ht : OnlyCounters s t) (hu : OnlyCounters s u) :
    OnlyCounters s (if p then t else u) := by
  split
  · exact ht
  · exact hu

namespace OnlyCounters

variable {s t : State} (ho : OnlyCounters s t)
include ho

theorem thr (h : Hart) : Machine.thr t h = Machine.thr s h := by rw [Machine.thr, ho.core, Machine.thr]

theorem greg (h : Hart) (r : GReg) : Machine.greg t h r = Machine.greg s h r := by rw [Machine.greg, ho.thr, Machine.greg]

theorem vreg (h : Hart) (r : VReg) : Machine.vreg t h r = Machine.vreg s h r := vreg_of_thr (by rw [ho.thr]) r

theorem tile (c : Nat) (q : TReg) : Machine.tile t c q = Machine.tile s c q := by rw [Machine.tile, ho.core, Machine.tile]

theorem accTile (c : Nat) (a : AReg) : Machine.accTile t c a = Machine.accTile s c a := by
  rw [Machine.accTile, ho.core, Machine.accTile]

theorem sameMemory : SameMemory s t := sameMemory_of_mem ho.mem

theorem canonical (hm : MemoryCanonical s) : MemoryCanonical t := by rwa [MemoryCanonical, ho.mem]

theorem sameRegs : SameRegs s t := fun _ => by simp [reg, ho.regs, ho.pkg]

end OnlyCounters

/-- The cycles of a unit are counters (R116, R125). -/
theorem onlyCounters_countTile (s : State) (h : Hart) (i : Instr) (cycles : Nat) (whole : Bool) :
    OnlyCounters s (countTile s h i cycles whole) := by
  have hcount (k n : Nat) (t : State) := onlyCounters_countCore t h.core k n
  unfold countTile
  split
  · exact .refl s
  next u hu =>
    have hunit := hcount (if u.matrix then 0x100 else 0x106) cycles s
    dsimp only
    generalize countCore s h.core (if u.matrix then 0x100 else 0x106) cycles = t at hunit ⊢
    split
    · exact (hunit.trans (hcount _ _ t)).trans (onlyCounters_ite (onlyCounters_ledgerCore _ _ _ _) (.refl _))
    · exact (hunit.trans (hcount _ _ t)).trans (onlyCounters_ite (onlyCounters_ledgerCore _ _ _ _) (.refl _))
    · exact hunit

/-! ### A tile or an accumulator written (R103, R111, R118) -/

@[simp] theorem thr_setTile (s : State) (c : Nat) (t : TReg) (x : Tile) (h : Hart) : thr (setTile s c t x) h = thr s h :=
  thr_modCore s (fun _ => by rfl) h

@[simp] theorem thr_setAccTile (s : State) (c : Nat) (a : AReg) (x : AccTile) (h : Hart) : thr (setAccTile s c a x) h = thr s h :=
  thr_modCore s (fun _ => by rfl) h

@[simp] theorem tile_setTile_same (s : State) (c : Nat) (t : TReg) (x : Tile) : tile (setTile s c t x) c t = x := by
  simp [tile, setTile]

theorem tile_setTile_other (s : State) (c : Nat) {t q : TReg} (x : Tile) (hq : q ≠ t) :
    tile (setTile s c t x) c q = tile s c q := by
  have hne : q.toNat ≠ t.toNat := fun e => hq (BitVec.eq_of_toNat_eq e)
  simp [tile, setTile, hne]

@[simp] theorem accTile_setAccTile_same (s : State) (c : Nat) (a : AReg) (x : AccTile) : accTile (setAccTile s c a x) c a = x := by
  simp [accTile, setAccTile]

theorem accTile_setAccTile_other (s : State) (c : Nat) {a b : AReg} (x : AccTile) (hb : b ≠ a) :
    accTile (setAccTile s c a x) c b = accTile s c b := by
  have hne : b.toNat ≠ a.toNat := fun e => hb (BitVec.eq_of_toNat_eq e)
  simp [accTile, setAccTile, hne]

@[simp] theorem tile_setAccTile (s : State) (c : Nat) (a : AReg) (x : AccTile) (q : TReg) :
    tile (setAccTile s c a x) c q = tile s c q := by
  simp [tile, setAccTile]

@[simp] theorem setTile_mem (s : State) (c : Nat) (t : TReg) (x : Tile) : (setTile s c t x).mem = s.mem := rfl
@[simp] theorem reg_setTile (s : State) (c : Nat) (t : TReg) (x : Tile) (o : Nat) : reg (setTile s c t x) o = reg s o := rfl
@[simp] theorem setAccTile_mem (s : State) (c : Nat) (a : AReg) (x : AccTile) : (setAccTile s c a x).mem = s.mem := rfl

/-! ### Completion (R119, R121) -/

/-- A thread of a running core waits for its tile or matrix instruction, with no older one open. -/
structure WaitsIn (s : State) (h : Hart) (i : Instr) : Prop where
  wait : (thr s h).wait = .tile
  cur : (thr s h).cur = some i
  window : (thr s h).window = []
  run : (core s h.core).run = .running

/-- The end of a wait commits its instruction and changes nothing but its thread and counters of its core (R69). -/
theorem endWait_fields (s : State) (h : Hart) :
    OnlyThread s (endWait s h) h ∧
      thr (endWait s h) h = afterCommit { thr s h with wait := .none, cur := none } ((thr s h).pc + 4) :=
  ⟨(onlyThread_modThr s h _).trans (retire_oneCommit _ h).1, thr_retire_modThr s h _⟩

@[simp] theorem greg_endWait (s : State) (h : Hart) (r : GReg) : greg (endWait s h) h r = greg s h r := by
  rw [greg, (endWait_fields s h).2, greg_afterCommit, greg]
  exact thread_rd_congr rfl rfl rfl rfl rfl rfl r

@[simp] theorem vreg_endWait (s : State) (h : Hart) (r : VReg) : vreg (endWait s h) h r = vreg s h r :=
  vreg_of_thr (by rw [(endWait_fields s h).2, afterCommit]) r

@[simp] theorem endWait_mem (s : State) (h : Hart) : (endWait s h).mem = s.mem := by
  rw [endWait, retire_mem, modThr_mem]

@[simp] theorem reg_endWait (s : State) (h : Hart) (o : Nat) : reg (endWait s h) o = reg s o :=
  (endWait_fields s h).1.sameRegs o


@[simp] theorem tile_endWait (s : State) (h : Hart) (q : TReg) : tile (endWait s h) h.core q = tile s h.core q :=
  (endWait_fields s h).1.tile q

@[simp] theorem accTile_endWait (s : State) (h : Hart) (a : AReg) : accTile (endWait s h) h.core a = accTile s h.core a :=
  (endWait_fields s h).1.accTile a

@[simp] theorem byteAt_endWait (s : State) (h : Hart) (x : Nat) : byteAt (endWait s h) x = byteAt s x := by
  rw [byteAt, endWait_mem, byteAt]

/-- What a completed instruction did stands, its thread's wait has ended and its pc has moved on (R119, R121). -/
theorem WaitsIn.completes {s s' : State} {h : Hart} {i : Instr} {n : Nat} (hw : WaitsIn s h i)
    (heff : tileEffect (countTile s h i n true) h i = .ok s') (hpc : (thr s' h).pc = (thr s h).pc) :
    exec (.tileInstructionComplete h n none) s = .next (endWait s' h) ∧ (thr (endWait s' h) h).wait = .none ∧
      (thr (endWait s' h) h).pc = (thr s h).pc + 4 := by
  obtain ⟨-, hthr⟩ := endWait_fields s' h
  refine ⟨?_, by rw [hthr, afterCommit], by rw [hthr, hpc, afterCommit]⟩
  show execTileInstructionComplete h n none s = _
  simp only [execTileInstructionComplete, completeTile, Machine.when, hw.window, hw.run, hw.cur, hw.wait, heff, ne_eq,
    not_true_eq_false, if_false, List.isEmpty_nil, decide_true, Bool.and_self, if_true]

/-- A tile instruction that writes one tile: that tile is its result, and memory, the registers of the part and every other
tile are as before (R121). -/
theorem WaitsIn.writes_tile {s : State} {h : Hart} {i : Instr} {n : Nat} (hw : WaitsIn s h i) {t : TReg} {x : Tile}
    (heff : tileEffect (countTile s h i n true) h i = .ok (setTile (countTile s h i n true) h.core t x)) :
    ∃ u, exec (.tileInstructionComplete h n none) s = .next u ∧ (thr u h).wait = .none ∧ (thr u h).pc = (thr s h).pc + 4 ∧
      (SameMemory s u ∧ SameRegs s u ∧ ∀ q, q ≠ t → tile u h.core q = tile s h.core q) ∧ tile u h.core t = x := by
  have hcounted := onlyCounters_countTile s h i n true
  obtain ⟨hexec, hwait, hpc⟩ := hw.completes heff (by rw [thr_setTile, hcounted.thr])
  refine ⟨_, hexec, hwait, hpc, ⟨sameMemory_of_mem ?_, fun o => ?_, fun q hq => ?_⟩, ?_⟩
  · rw [endWait_mem, setTile_mem, hcounted.mem]
  · rw [reg_endWait, reg_setTile, hcounted.sameRegs o]
  · rw [tile_endWait, tile_setTile_other _ _ _ hq, hcounted.tile]
  · rw [tile_endWait, tile_setTile_same]

end Sys2Proof.Machine
end

section
/-! PROOFS. Rows, exponents and poison bits of a tile, and the bytes that AST stores (R103, R104, R112). -/

namespace Sys2Proof.Machine

/-! ### Rows (R103, R104) -/

/-- Two lines agree in a byte where they agree in its bits. -/
theorem extract_byte_eq {v w : Line} {k : Nat} (h : ∀ j, j < 8 → v.getLsbD (8 * k + j) = w.getLsbD (8 * k + j)) :
    v.extractLsb' (8 * k) 8 = w.extractLsb' (8 * k) 8 := by
  refine BitVec.eq_of_getLsbD_eq fun j hj => ?_
  simp only [BitVec.getLsbD_extractLsb', hj, decide_true, Bool.true_and, h j hj]

theorem getLsbD_shown (t : Tile) (i j : Nat) : (t.shown i).getLsbD j = (decide (j < 8 * t.bpr) && (t.row i).getLsbD j) := by
  rw [Tile.shown, BitVec.getLsbD_ofNat, Nat.testBit_mod_two_pow]
  by_cases hj : j < 512
  · simp [hj, BitVec.getLsbD]
  · simp [hj, BitVec.getLsbD_of_ge _ j (Nat.le_of_not_lt hj)]

/-- A row within the shape: bytes from BPR on read as 0 (R104). -/
theorem shown_byte (t : Tile) (i k : Nat) :
    (t.shown i).extractLsb' (8 * k) 8 = if k < t.bpr then (t.row i).extractLsb' (8 * k) 8 else 0 := by
  split
  case isTrue hk =>
    refine extract_byte_eq fun j hj => ?_
    rw [getLsbD_shown, decide_eq_true (show 8 * k + j < 8 * t.bpr by omega), Bool.true_and]
  case isFalse hk =>
    refine BitVec.eq_of_getLsbD_eq fun j hj => ?_
    rw [BitVec.getLsbD_extractLsb', getLsbD_shown, decide_eq_false (show ¬ 8 * k + j < 8 * t.bpr by omega)]
    simp

@[simp] theorem row_setRow_other (t : Tile) {i k : Nat} (v : Line) (hk : k ≠ i) : (t.setRow i v).row k = t.row k := by
  simp [Tile.row, Tile.setRow, hk]

theorem getLsbD_setRow (t : Tile) (i : Nat) (v : Line) {j : Nat} (hj : j < 512) :
    ((t.setRow i v).row i).getLsbD j = if j < 8 * t.bpr then v.getLsbD j else (t.row i).getLsbD j := by
  have hrow : (t.setRow i v).row i =
      BitVec.ofNat 512 ((t.row i).toNat / 2 ^ (8 * t.bpr) * 2 ^ (8 * t.bpr) + v.toNat % 2 ^ (8 * t.bpr)) := by
    simp [Tile.row, Tile.setRow]
  rw [hrow, BitVec.getLsbD_ofNat, decide_eq_true hj, Bool.true_and, Nat.mul_comm,
    Nat.testBit_two_pow_mul_add _ (Nat.mod_lt _ (Nat.two_pow_pos _))]
  split
  case isTrue h => simp [Nat.testBit_mod_two_pow, h, BitVec.getLsbD]
  case isFalse h =>
    rw [← Nat.shiftRight_eq_div_pow, Nat.testBit_shiftRight, Nat.add_sub_cancel' (Nat.le_of_not_lt h), BitVec.getLsbD]

/-- Bytes [0, BPR) of a row replaced, the storage beyond kept (R104). -/
theorem setRow_byte (t : Tile) (i : Nat) (v : Line) {k : Nat} (hk : k < 64) :
    ((t.setRow i v).row i).extractLsb' (8 * k) 8 =
      if k < t.bpr then v.extractLsb' (8 * k) 8 else (t.row i).extractLsb' (8 * k) 8 := by
  split
  case isTrue h =>
    refine extract_byte_eq fun j hj => ?_
    rw [getLsbD_setRow t i v (by omega), if_pos (by omega)]
  case isFalse h =>
    refine extract_byte_eq fun j hj => ?_
    rw [getLsbD_setRow t i v (by omega), if_neg (by omega)]

/-! ### Exponents and poison bits (R103) -/

theorem bad_setBad_same (t : Tile) {i : Nat} (b : Bool) (hi : i < 32) : (t.setBad i b).bad i = b := by
  rw [Tile.bad, Tile.setBad, bit_putBit _ _ hi hi, if_pos rfl]

/-- Every key of a range holds one value. -/
theorem sget_range_const {α : Type} (v d : α) {n k : Nat} (hk : k < n) :
    sget ((List.range n).map fun i => (i, v)) k d = v := by
  have hfrom : ∀ n a, a ≤ k → k < a + n → sget ((List.range' a n).map fun i => (i, v)) k d = v := by
    intro n
    induction n with
    | zero => intro a ha hlt; omega
    | succ n ih =>
      intro a ha hlt
      rw [List.range'_succ, List.map_cons, sget]
      by_cases h : k = a
      · rw [if_pos h]
      · rw [if_neg h, if_neg (by omega), ih (a + 1) (by omega) (by omega)]
  rw [List.range_eq_range']
  exact hfrom n 0 (Nat.zero_le k) (by omega)

/-- A tile with nothing in its rows. -/
theorem emptyTile_fields (r b : Nat) (e : BitVec 2) (k : Nat) :
    (Tile.mk r b e [] 0 []).row k = 0 ∧ (Tile.mk r b e [] 0 []).exp k = 0 ∧ (Tile.mk r b e [] 0 []).bad k = false := by
  refine ⟨rfl, rfl, ?_⟩
  simp [Tile.bad, bit]

/-! ### Bytes in memory (R109, R112) -/

/-- A concatenation of pieces of one length. -/
theorem length_flatMap_range {α : Type} (f : Nat → List α) {m : Nat} (hf : ∀ j, (f j).length = m) (n : Nat) :
    ((List.range n).flatMap f).length = m * n := by
  simp [List.length_flatMap, hf, Nat.mul_comm]

/-- A concatenation of pieces of one length, by piece and place. -/
theorem getElem?_flatMap_range {α : Type} (f : Nat → List α) {m : Nat} (hf : ∀ j, (f j).length = m) {n j k : Nat} (hj : j < n)
    (hk : k < m) : ((List.range n).flatMap f)[m * j + k]? = (f j)[k]? := by
  induction n with
  | zero => exact absurd hj (Nat.not_lt_zero j)
  | succ n ih =>
    have hlen := length_flatMap_range f hf n
    rw [List.range_succ, List.flatMap_append, List.flatMap_singleton]
    rcases Nat.lt_succ_iff_lt_or_eq.mp hj with h | rfl
    · have hle : m * (j + 1) ≤ m * n := Nat.mul_le_mul_left m h
      rw [Nat.mul_succ] at hle
      rw [List.getElem?_append_left (by omega), ih h]
    · rw [List.getElem?_append_right (by omega), hlen, Nat.add_sub_cancel_left]

/-- The bytes of one row of an accumulator, without its exponent (R112). -/
def accRowBytes (a : AccTile) (i : Nat) : List Byte :=
  (List.range 32).flatMap fun j => leBytes 8 (BitVec.ofInt 64 (a.get i j)).toNat

theorem accRowBytes_length (a : AccTile) (i : Nat) : (accRowBytes a i).length = 256 :=
  length_flatMap_range _ (fun _ => leBytes_length 8 _) 32

theorem accBytes_eq (a : AccTile) :
    accBytes a = (List.range 32).flatMap (accRowBytes a) ++ (List.range 32).map fun i => (a.exp i).signExtend 8 := rfl

theorem accBytes_length (a : AccTile) : (accBytes a).length = 8224 := by
  rw [accBytes_eq, List.length_append, length_flatMap_range _ (accRowBytes_length a), List.length_map, List.length_range]

/-- Element (p, q) of an accumulator is stored as 8 bytes at 256 p + 8 q (R112). -/
theorem accBytes_elem (a : AccTile) {p q b : Nat} (hp : p < 32) (hq : q < 32) (hb : b < 8)
    (hlt : 256 * p + (8 * q + b) < (accBytes a).length) :
    (accBytes a)[256 * p + (8 * q + b)] = (BitVec.ofInt 64 (a.get p q)).extractLsb' (8 * b) 8 := by
  have hrows := length_flatMap_range _ (accRowBytes_length a) 32
  have hbyte : b < (leBytes 8 (BitVec.ofInt 64 (a.get p q)).toNat).length := by rwa [leBytes_length]
  have hget : (accBytes a)[256 * p + (8 * q + b)]? = (leBytes 8 (BitVec.ofInt 64 (a.get p q)).toNat)[b]? := by
    rw [accBytes_eq, List.getElem?_append_left (by omega), getElem?_flatMap_range _ (accRowBytes_length a) hp (by omega)]
    exact getElem?_flatMap_range _ (fun _ => leBytes_length 8 _) hq hb
  rw [List.getElem?_eq_getElem hlt, List.getElem?_eq_getElem hbyte, leBytes_getElem, Option.some.injEq] at hget
  rw [hget, BitVec.extractLsb', Nat.shiftRight_eq_div_pow, pow_256]

theorem accTile_of_cores {s t : State} (h : t.cores = s.cores) (c : Nat) (a : AReg) : accTile t c a = accTile s c a := by
  simp [accTile, core, h]

/-- AST up to line `n`: the first 64 n of its bytes are in memory, and no core has changed (R112, R231). -/
theorem foldl_storeAccLine (h : Hart) (a : AReg) (base : Nat) (s : State) {n : Nat} (hn : n ≤ 129) :
    let u := (List.range n).foldl (storeAccLine h a base) s
    u.cores = s.cores ∧
      u.mem = memPutAll s.mem (localBase h.core + base) ((accBytes (accTile s h.core a)).take (64 * n)) := by
  induction n with
  | zero => exact ⟨rfl, rfl⟩
  | succ n ih =>
    obtain ⟨hcores, hmem⟩ := ih (by omega)
    have hlen := accBytes_length (accTile s h.core a)
    rw [List.range_succ, List.foldl_append, List.foldl_cons, List.foldl_nil]
    generalize (List.range n).foldl (storeAccLine h a base) s = u at hcores hmem ⊢
    refine ⟨(writeMem_cores _ _ _).trans hcores, ?_⟩
    rw [storeAccLine, writeLocal, writeMem_mem, hmem, accTile_of_cores hcores, Nat.mul_succ, List.take_add, memPutAll_append,
      List.length_take, hlen, Nat.min_eq_left (by omega), Nat.add_assoc]

end Sys2Proof.Machine
end

section
/-! PROOFS. The completions of tile instructions: the tile, accumulator, register or memory that each writes (R106, R109, R112,
R121, R231). -/

namespace Sys2Proof.Machine

/-! ### AST, whole and part-way (R112, R231) -/

/-- What AST has written by line `n`: the first 64 n of the accumulator's bytes, and no core has changed. -/
theorem astLines {s : State} (hm : MemoryCanonical s) (h : Hart) (a : AReg) (rs : GReg) {n : Nat} (hn : n ≤ 129) :
    let u := tileRows s h (.ast h a rs) 0 n
    let base := localBase h.core + (greg s h rs).toNat
    let bs := (accBytes (accTile s h.core a)).take (64 * n)
    u.cores = s.cores ∧ SameMemoryBut s u base bs.length ∧ ∀ k (hk : k < bs.length), byteAt u (base + k) = bs[k] := by
  intro u base bs
  have hu : u = (List.range n).foldl (storeAccLine h a (greg s h rs).toNat) s := by
    show (((List.range 129).take n).drop 0).foldl _ s = _
    rw [List.drop_zero, List.take_range, Nat.min_eq_left hn]
  obtain ⟨hcores, hmem⟩ := foldl_storeAccLine h a (greg s h rs).toNat s hn
  rw [← hu] at hcores hmem
  refine ⟨hcores, fun x hx => ?_, fun k hk => ?_⟩
  · rw [byteAt, hmem]
    exact memGet_memPutAll_outside bs hm hx
  · rw [byteAt, hmem]
    exact memGet_memPutAll_inside bs hm hk

/-- A progress of AST up to line `k` leaves its thread waiting there (R231). -/
theorem WaitsIn.ast_progress {s : State} {h : Hart} {a : AReg} {rs : GReg} (hw : WaitsIn s h (.ast h a rs))
    (hd : (thr s h).rowsDone = 0) {k : Nat} (hk : 0 < k) (n : Nat) :
    exec (.tileInstructionComplete h n (some k)) s =
      .next (modThr (tileRows s h (.ast h a rs) 0 k) h fun t => { t with rowsDone := k }) := by
  have hlater : ¬((thr s h).wait ≠ .tile ∨ k ≤ (thr s h).rowsDone) := by
    rintro (hne | hle)
    · exact hne hw.wait
    · omega
  show execTileInstructionComplete h n (some k) s = _
  simp only [execTileInstructionComplete, tileProgress, Machine.when, hw.window, hw.run, hw.cur, if_neg hlater,
    List.isEmpty_nil, decide_true, Bool.and_self, if_true]
  rw [hd]

/-- AST leaves the bytes of its accumulator in local memory, and its thread goes on (R112, R121). -/
theorem WaitsIn.ast_completes {s : State} {h : Hart} {a : AReg} {rs : GReg} (hw : WaitsIn s h (.ast h a rs))
    (hm : MemoryCanonical s) (hd : (thr s h).rowsDone = 0) (n : Nat) :
    let base := localBase h.core + (greg s h rs).toNat
    let bs := accBytes (accTile s h.core a)
    ∃ u, exec (.tileInstructionComplete h n none) s = .next u ∧ (thr u h).wait = .none ∧ (thr u h).pc = (thr s h).pc + 4 ∧
      SameMemoryBut s u base bs.length ∧ ∀ k (hk : k < bs.length), byteAt u (base + k) = bs[k] := by
  intro base bs
  have hc := onlyCounters_countTile s h (.ast h a rs) n true
  have heff : tileEffect (countTile s h (.ast h a rs) n true) h (.ast h a rs) =
      .ok (tileRows (countTile s h (.ast h a rs) n true) h (.ast h a rs) 0 129) := by
    rw [← hd, ← hc.thr]
    rfl
  obtain ⟨hcores, hother, hbytes⟩ := astLines (hc.canonical hm) h a rs (n := 129) le_rfl
  rw [hc.accTile, hc.greg, List.take_of_length_le (by rw [accBytes_length]; decide)] at hother hbytes
  obtain ⟨hexec, hwait, hpc⟩ := hw.completes heff (by rw [thr_of_cores hcores, hc.thr])
  refine ⟨_, hexec, hwait, hpc, fun x hx => ?_, fun k hk => ?_⟩
  · rw [byteAt_endWait, hother x hx, hc.sameMemory]
  · rw [byteAt_endWait, hbytes k hk]

/-! ### What the other completions write -/

theorem bits_lt {n : Nat} (w : BitVec n) (hi lo : Nat) : bits w hi lo < 2 ^ (hi + 1 - lo) := Nat.mod_lt _ (Nat.two_pow_pos _)

/-- Settles O27: each instruction by the one state that its completion writes. -/
theorem tileInstructionsCompleteInOneStep : Obligations.TileInstructionsCompleteInOneStep := by
  unfold Obligations.TileInstructionsCompleteInOneStep
  intro h t ts a rs1 rd vd n s hwait hwin hrun x w i ends quiet
  have hw {c : Instr} (hc : (thr s h).cur = some c) : WaitsIn s h c := ⟨hwait, hc, hwin, hrun⟩
  have hcounted (c : Instr) := onlyCounters_countTile s h c n true
  have hends {c : Instr} {s' : State} {P : State → Prop} (heff : tileEffect (countTile s h c n true) h c = .ok s')
      (hpc : (thr s' h).pc = (thr s h).pc) (hP : P (endWait s' h)) : ends c P := fun hc => by
    obtain ⟨hexec, hend, hnext⟩ := (hw hc).completes heff hpc
    exact ⟨_, hexec, hend, hnext, hP⟩
  have htile {c : Instr} {y : Tile} {P : State → Prop}
      (heff : tileEffect (countTile s h c n true) h c = .ok (setTile (countTile s h c n true) h.core t y))
      (hP : ∀ u, quiet u → tile u h.core t = y → P u) : ends c P := fun hc => by
    obtain ⟨u, hexec, hend, hnext, hquiet, hy⟩ := (hw hc).writes_tile heff
    exact ⟨u, hexec, hend, hnext, hP u hquiet hy⟩
  refine ⟨htile rfl fun u hq hy => ⟨hq, ?stencil⟩, htile rfl fun u hq hy => ⟨hq, ?tzero⟩, htile rfl fun u hq hy => ⟨hq, ?tmov⟩,
    htile rfl fun u hq hy => ⟨hq, ?texps⟩, hends rfl ?shapePc ?trdsh, fun _ => hends rfl ?rowPc ?trv,
    fun _ => htile rfl fun u hq hy => ⟨hq, ?vtr⟩, hends rfl ?zeroPc ?azero, fun hm => hends rfl ?expsPc ?texpst,
    fun hm hd hc => ?ast, fun k hm hd hc h0 hk => ?progress⟩
  case stencil =>
    rw [hy, (hcounted _).greg]
    exact ⟨rfl, rfl, toNat_ofNat_of_lt (bits_lt w 14 13), emptyTile_fields _ _ _⟩
  case tzero =>
    rw [hy, (hcounted _).tile]
    exact ⟨rfl, emptyTile_fields _ _ _⟩
  case tmov => exact hy.trans ((hcounted _).tile _ _)
  case texps =>
    rw [hy, (hcounted _).tile, (hcounted _).greg]
    exact ⟨rfl, fun k hk => (sget_range_const _ _ hk).trans (BitVec.ofNat_toNat _ _)⟩
  case shapePc => rw [thr_setGreg_same, thread_wr_pc, (hcounted _).thr]
  case trdsh =>
    have hempty : (thr (countTile s h (.trdsh h t rd) n true) h).window = [] := by rw [(hcounted _).thr, hwin]
    refine ⟨fun b => ?_, ?_, fun r hr => ?_⟩
    · rw [byteAt_endWait, byteAt_setGreg, (hcounted _).sameMemory]
    · rw [greg_endWait, greg_setGreg_same hempty, (hcounted _).tile]
      rfl
    · rw [greg_endWait, greg_setGreg_other hempty _ hr, (hcounted _).greg]
  case rowPc => rw [setVreg_eq, thr_setThr_same, (hcounted _).thr]
  case trv =>
    refine ⟨fun b => ?_, fun r hr => ?_, fun k _ => ?_⟩
    · rw [byteAt_endWait, byteAt, setVreg_mem, (hcounted _).mem, byteAt]
    · rw [vreg_endWait, vreg_setVreg_other _ _ _ hr, (hcounted _).vreg]
    · rw [vreg_endWait, vreg_setVreg_same, shown_byte, (hcounted _).tile, rowOf, (hcounted _).greg]
  case vtr =>
    rw [hy, (hcounted _).tile, (hcounted _).vreg, rowOf, (hcounted _).greg]
    exact ⟨bad_setBad_same _ _ (Nat.mod_lt _ (by decide)), fun k hk => row_setRow_other _ _ hk, fun k hk => setRow_byte _ _ _ hk⟩
  case zeroPc => rw [thr_setAccTile, (hcounted _).thr]
  case azero =>
    refine ⟨fun b => ?_, fun p q => ?_, fun p hp => ?_, fun b hb => ?_⟩
    · rw [byteAt_endWait, byteAt, setAccTile_mem, (hcounted _).mem, byteAt]
    · rw [accTile_endWait, accTile_setAccTile_same]
      rfl
    · rw [accTile_endWait, accTile_setAccTile_same, (hcounted _).greg]
      exact (sget_range_const _ _ hp).trans (BitVec.ofNat_toNat _ _)
    · rw [accTile_endWait, accTile_setAccTile_other _ _ _ hb, (hcounted _).accTile]
  case expsPc => rw [thr_writeLocal, (hcounted _).thr]
  case texpst =>
    rw [(hcounted _).greg, (hcounted _).tile]
    have hlen : (x.rowList.map fun i => (x.exp i).signExtend 8).length = x.rows := by simp [Tile.rowList]
    obtain ⟨hother, hbytes⟩ := writeLocal_bytes ((hcounted (.texpst h t rs1)).canonical hm) h.core w.toNat
      (x.rowList.map fun i => (x.exp i).signExtend 8)
    refine ⟨fun b hb => ?_, fun k hk => ?_⟩
    · rw [byteAt_endWait, hother b (by rwa [hlen]), (hcounted _).sameMemory]
    · rw [byteAt_endWait]
      exact (hbytes k (by rwa [hlen])).trans (by simp [Tile.rowList])
  case ast =>
    have hlen := accBytes_length (accTile s h.core a)
    obtain ⟨u, hexec, hend, hnext, hother, hbytes⟩ := (hw hc).ast_completes hm hd n
    refine ⟨u, hexec, hend, hnext, hlen ▸ hother, fun p q b hp hq hb => ?_⟩
    rw [Nat.add_assoc, Nat.add_assoc, hbytes _ (by omega), accBytes_elem _ hp hq hb]
  case progress =>
    have hlen : ((accBytes (accTile s h.core a)).take (64 * k)).length = 64 * k := by
      rw [List.length_take, accBytes_length]
      omega
    obtain ⟨hcores, hother, -⟩ := astLines hm h a rs1 (n := k) (by omega)
    have hthr := thr_of_cores hcores h
    refine ⟨_, (hw hc).ast_progress hd h0 n, ?_, ?_, ?_, fun b hb => hother b (by rwa [hlen])⟩
    all_goals rw [modThr, thr_setThr_same]
    all_goals rw [hthr]
    exact hwait

end Sys2Proof.Machine
end

section
/-! PROOFS. MMA and MMS: every element of the accumulator once, with one saturation, and the completion (R113, R114, R118, R121). -/

namespace Sys2Proof.Machine

/-! ### Elements of an accumulator (R111) -/

theorem get_put_same (a : AccTile) (i j : Nat) (v : Int) : (a.put i j (satTo 40 v)).get i j = satTo 40 v := by
  rw [AccTile.get, AccTile.put, sget_sput_same, toInt_ofInt_satTo (by decide)]

theorem get_put_other (a : AccTile) {i j p q : Nat} (v : Int) (hj : j < 32) (hq : q < 32) (h : (p, q) ≠ (i, j)) :
    (a.put i j v).get p q = a.get p q := by
  have hne : 32 * p + q ≠ 32 * i + j := fun e => h (by
    rw [Prod.mk.injEq]
    omega)
  rw [AccTile.get, AccTile.put, sget_sput_other _ _ _ hne, AccTile.get]

/-! ### The run over all elements (R113) -/

/-- The exact value of an element before its saturation: the old element with the term added or subtracted (R113). -/
def exactElem (sub : Bool) (term : Nat → Nat → Int) (a : AccTile) (e : Nat × Nat) : Int :=
  a.get e.1 e.2 + (if sub then -term e.1 e.2 else term e.1 e.2)

/-- Elements taken in turn, none twice: each becomes its exact value saturated, every other stays, and so do the exponents; it is
noted whether some value was saturated. -/
theorem foldl_accStep (sub : Bool) (term : Nat → Nat → Int) {l : List (Nat × Nat)} (hnodup : l.Nodup) (hcols : ∀ e ∈ l, e.2 < 32)
    (r : AccRun) :
    let u := l.foldl (fun r e => accStep sub term r e.1 e.2) r
    u.acc.exps = r.acc.exps ∧ u.sat = (r.sat || l.any fun e => saturates 40 (exactElem sub term r.acc e)) ∧
      ∀ p q, q < 32 → u.acc.get p q = if (p, q) ∈ l then satTo 40 (exactElem sub term r.acc (p, q)) else r.acc.get p q := by
  induction l generalizing r with
  | nil => simp
  | cons e l ih =>
    obtain ⟨hnew, hrest⟩ := List.nodup_cons.mp hnodup
    have hcol : e.2 < 32 := hcols e (by simp)
    have hother (f : Nat × Nat) (hf : f ≠ e) (hq : f.2 < 32) :
        (accStep sub term r e.1 e.2).acc.get f.1 f.2 = r.acc.get f.1 f.2 := get_put_other _ _ hcol hq hf
    have hexact (f : Nat × Nat) (hf : f ∈ l) :
        exactElem sub term (accStep sub term r e.1 e.2).acc f = exactElem sub term r.acc f := by
      rw [exactElem, hother f (fun heq => hnew (heq ▸ hf)) (hcols f (by simp [hf])), exactElem]
    obtain ⟨hexps, hsat, hget⟩ := ih hrest (fun f hf => hcols f (by simp [hf])) (accStep sub term r e.1 e.2)
    refine ⟨hexps, ?_, fun p q hq => ?_⟩
    · have hany : (l.any fun f => saturates 40 (exactElem sub term (accStep sub term r e.1 e.2).acc f)) =
          l.any fun f => saturates 40 (exactElem sub term r.acc f) := by
        rw [Bool.eq_iff_iff, List.any_eq_true, List.any_eq_true]
        exact exists_congr fun f => and_congr_right fun hf => by rw [hexact f hf]
      rw [List.foldl_cons, hsat, hany, List.any_cons, ← Bool.or_assoc]
      rfl
    · rw [List.foldl_cons, hget p q hq]
      by_cases hl : (p, q) ∈ l
      · rw [if_pos hl, if_pos (List.mem_cons_of_mem _ hl), hexact _ hl]
      · by_cases he : (p, q) = e
        · subst he
          rw [if_neg hl, if_pos (by simp)]
          exact get_put_same _ _ _ _
        · rw [if_neg hl, if_neg (by simp [he, hl])]
          exact hother (p, q) he hq

/-- Every element of rows below `m` and columns below `n` (R113). -/
theorem accAll_fields (sub : Bool) (term : Nat → Nat → Int) {m n : Nat} (hn : n ≤ 32) (a : AccTile) :
    let u := accAll sub term m n a
    u.acc.exps = a.exps ∧
      u.sat = ((List.range m ×ˢ List.range n).any fun e => saturates 40 (exactElem sub term a e)) ∧
      ∀ p q, q < 32 → u.acc.get p q = if p < m ∧ q < n then satTo 40 (exactElem sub term a (p, q)) else a.get p q := by
  intro u
  have hpairs : u = (List.range m ×ˢ List.range n).foldl (fun r e => accStep sub term r e.1 e.2) ⟨a, false⟩ := by
    show _ = ((List.range m).flatMap fun i => (List.range n).map (Prod.mk i)).foldl _ _
    simp only [List.foldl_flatMap, List.foldl_map]
    rfl
  obtain ⟨hexps, hsat, hget⟩ := foldl_accStep sub term (l := List.range m ×ˢ List.range n)
    (List.Nodup.product List.nodup_range List.nodup_range)
    (fun e he => Nat.lt_of_lt_of_le (List.mem_range.mp (List.mem_product.mp he).2) hn) ⟨a, false⟩
  rw [← hpairs] at hexps hsat hget
  refine ⟨hexps, hsat.trans (Bool.false_or _), fun p q hq => (hget p q hq).trans ?_⟩
  simp only [List.mem_product, List.mem_range]

/-! ### Completion (R113, R118, R121, R125) -/

theorem onlyThread_flagIf (s : State) (h : Hart) (c : Bool) (f : Word) : OnlyThread s (flagIf s h c f) h :=
  onlyThread_ite (onlyThread_setThr s h _) (.refl s h)

theorem thr_flagIf (s : State) (h : Hart) (c : Bool) (f : Word) : thr (flagIf s h c f) h = flagged (thr s h) c f := by
  cases c
  · rfl
  · exact thr_setThr_same s h _

/-- The reuse latch set (R118). -/
def setLatch (s : State) (c : Nat) (t : TReg) : State := modCore s c fun k => { k with latch := some t }

theorem setLatch_fields (s : State) (h : Hart) (t : TReg) :
    (∀ a, accTile (setLatch s h.core t) h.core a = accTile s h.core a) ∧
      (∀ q, tile (setLatch s h.core t) h.core q = tile s h.core q) ∧ (core (setLatch s h.core t) h.core).latch = some t ∧
      thr (setLatch s h.core t) h = thr s h ∧ (setLatch s h.core t).mem = s.mem :=
  ⟨fun a => by simp [accTile, setLatch], fun q => by simp [tile, setLatch], by simp [setLatch],
    thr_modCore s (fun _ => by rfl) h, rfl⟩

/-- What MMA and MMS leave: the accumulator of the run over all elements, SATF.MACC, the reuse latch at tb, and every tile, the
other accumulators and memory as they were (R118, R121). -/
theorem doMma_fields (s : State) (h : Hart) (sub : Bool) (a : AReg) (ta tb : TReg) :
    let x := tile s h.core ta
    let y := tile s h.core tb
    let c := accTile s h.core a
    let r := accAll sub (mmaTerm x y c) x.rows y.rows c
    let u := doMma s h sub a ta tb
    accTile u h.core a = r.acc ∧ (∀ b, b ≠ a → accTile u h.core b = accTile s h.core b) ∧
      (∀ q, tile u h.core q = tile s h.core q) ∧ (core u h.core).latch = some tb ∧
      thr u h = flagged (thr s h) r.sat satfMacc ∧ u.mem = s.mem := by
  intro x y c r u
  have hcounted : OnlyCounters s (if (core s h.core).latch = some tb then countCore s h.core 0x102 1 else s) :=
    onlyCounters_ite (onlyCounters_countCore s _ _ _) (.refl s)
  have hu : u = setLatch (flagIf (setAccTile (if (core s h.core).latch = some tb then countCore s h.core 0x102 1 else s) h.core a
      r.acc) h r.sat satfMacc) h.core tb := rfl
  generalize (if (core s h.core).latch = some tb then countCore s h.core 0x102 1 else s) = t at hcounted hu
  have hflag := onlyThread_flagIf (setAccTile t h.core a r.acc) h r.sat satfMacc
  obtain ⟨hacc, htile, hlatch, hthr, hmem⟩ := setLatch_fields (flagIf (setAccTile t h.core a r.acc) h r.sat satfMacc) h tb
  rw [hu]
  refine ⟨?_, fun b hb => ?_, fun q => ?_, hlatch, ?_, ?_⟩
  · rw [hacc, hflag.accTile, accTile_setAccTile_same]
  · rw [hacc, hflag.accTile, accTile_setAccTile_other _ _ _ hb, hcounted.accTile]
  · rw [htile, hflag.tile, tile_setAccTile, hcounted.tile]
  · rw [hthr, thr_flagIf, thr_setAccTile, hcounted.thr]
  · rw [hmem, hflag.mem_eq, setAccTile_mem, hcounted.mem]

/-- The completion of MMA or MMS leaves what its run leaves, its wait ended and its pc moved on (R121). -/
theorem WaitsIn.mma_completes {s : State} {h : Hart} {sub : Bool} {a : AReg} {ta tb : TReg}
    (hw : WaitsIn s h (if sub then .mms h a ta tb else .mma h a ta tb)) (n : Nat) :
    let x := tile s h.core ta
    let y := tile s h.core tb
    let c := accTile s h.core a
    let r := accAll sub (mmaTerm x y c) x.rows y.rows c
    ∃ u, exec (.tileInstructionComplete h n none) s = .next u ∧ (thr u h).wait = .none ∧ (thr u h).pc = (thr s h).pc + 4 ∧
      accTile u h.core a = r.acc ∧ (∀ b, b ≠ a → accTile u h.core b = accTile s h.core b) ∧
      (∀ q, tile u h.core q = tile s h.core q) ∧ (core u h.core).latch = some tb ∧
      (thr u h).getCsr 0x001 = (flagged (thr s h) r.sat satfMacc).getCsr 0x001 ∧ SameMemory s u := by
  have hc := onlyCounters_countTile s h (if sub then .mms h a ta tb else .mma h a ta tb) n true
  have heff : tileEffect (countTile s h (if sub then .mms h a ta tb else .mma h a ta tb) n true) h
      (if sub then .mms h a ta tb else .mma h a ta tb) =
      .ok (doMma (countTile s h (if sub then .mms h a ta tb else .mma h a ta tb) n true) h sub a ta tb) := by
    cases sub <;> rfl
  have hended := hw.completes heff
  generalize countTile s h (if sub then .mms h a ta tb else .mma h a ta tb) n true = t at hc hended
  intro x y c r
  obtain ⟨hacc, haccs, htiles, hlatch, hthr, hmem⟩ := doMma_fields t h sub a ta tb
  simp only [hc.tile, hc.accTile] at hacc hthr haccs htiles
  rw [hc.thr] at hthr
  obtain ⟨hexec, hend, hpc⟩ := hended (by rw [hthr, flagged_pc])
  obtain ⟨honly, hlast⟩ := endWait_fields (doMma t h sub a ta tb) h
  refine ⟨_, hexec, hend, hpc, ?_, fun b hb => ?_, fun q => ?_, honly.latch.trans hlatch, ?_, sameMemory_of_mem ?_⟩
  · rw [accTile_endWait, hacc]
  · rw [accTile_endWait, haccs b hb]
  · rw [tile_endWait, htiles q]
  · rw [hlast, ← hthr]
    rfl
  · rw [endWait_mem, hmem, hc.mem]

/-- Settles O28: the run over all elements gives the accumulator and the flag, and the completion leaves the rest. -/
theorem matrixProductsAccumulate : Obligations.MatrixProductsAccumulate := by
  unfold Obligations.MatrixProductsAccumulate
  intro h a ta tb n sub s hwait hcur x y c exact _ hy hwin hrun
  have hw : WaitsIn s h (if sub then .mms h a ta tb else .mma h a ta tb) := ⟨hwait, hcur, hwin, hrun⟩
  obtain ⟨u, hexec, hend, hpc, hacc, haccs, htiles, hlatch, hsatf, hmem⟩ := hw.mma_completes n
  obtain ⟨hexps, hsat, hget⟩ := accAll_fields sub (mmaTerm x y c) (m := x.rows) hy c
  have hexact (i j : Nat) : exactElem sub (mmaTerm x y c) c (i, j) = exact i j := by
    cases sub <;> simp [exactElem, mmaTerm, exact]
  have hflag : (accAll sub (mmaTerm x y c) x.rows y.rows c).sat = true ↔
      ∃ i < x.rows, ∃ j < y.rows, exact i j < -2 ^ 39 ∨ 2 ^ 39 ≤ exact i j := by
    simp only [hsat, List.any_eq_true, Prod.exists, List.mem_product, List.mem_range, hexact, saturates_eq, decide_eq_true_eq]
    exact ⟨fun ⟨i, j, ⟨hi, hj⟩, hout⟩ => ⟨i, hi, j, hj, hout⟩, fun ⟨i, hi, j, hj, hout⟩ => ⟨i, j, ⟨hi, hj⟩, hout⟩⟩
  refine ⟨u, hexec, hend, hpc, fun i j hi hj => ?_, fun i j hj hout => ?_, fun i => ?_, haccs, htiles, hlatch, ?_, hmem⟩
  · rw [hacc, hget i j (by omega), if_pos ⟨hi, hj⟩, hexact, satTo_eq]
  · rw [hacc, hget i j hj, if_neg hout]
  · rw [hacc, AccTile.exp, hexps, AccTile.exp]
  · rw [hsatf, (getCsr_flagged _ _ _).1]
    exact congrArg _ (if_congr hflag rfl rfl)

end Sys2Proof.Machine
end

section
/-! PROOFS. The trap instruction, the return from a trap, and gates (R145 to R147). -/

namespace Sys2Proof.Machine

/-! ### TRAP (R146) -/

/-- TRAP counts itself and is taken with EPC after it (R146, R162). -/
theorem exec_trap {s : State} {h : Hart} (hi : canIssue s h = true) (imm : BitVec 12) :
    exec (.trap h imm) s =
      .next (takeTrap (countCore s h.core (issuedCsr h) 1) h (trapCall (imm.setWidth 32)) ((thr s h).pc + 4)) :=
  if_pos hi

/-- A trap raised by an instruction that has counted itself is the trap of its thread as it was. -/
theorem takeTrap_countCore (s : State) (h : Hart) (tr : Trap) (epc : Word) (hl : (thr s h).level ≠ 3) :
    TrapTakenAt s (takeTrap (countCore s h.core (issuedCsr h) 1) h tr epc) h tr epc ∧
      OnlyThread s (takeTrap (countCore s h.core (issuedCsr h) 1) h tr epc) h := by
  have hthr : thr (countCore s h.core (issuedCsr h) 1) h = thr s h := thr_countCore s _ _ _ h
  have hcsr {n : Nat} (hn : 0x400 ≤ n) : coreCsr (countCore s h.core (issuedCsr h) 1) h.core n = coreCsr s h.core n :=
    coreCsr_countCore_other s 1 (.inr (ne_issuedCsr hn h))
  obtain ⟨htaken, honly⟩ := takeTrap_taken (countCore s h.core (issuedCsr h) 1) h tr epc (by rwa [hthr])
  exact ⟨htaken.of_agrees (by rw [hthr]) (hcsr (by decide)) (hcsr (by decide)), (onlyThread_countCore s h _ 1).trans honly⟩

/-! ### ERET (R147) -/

/-- A key that was dropped reads as its default. -/
theorem sget_sdrop_of_dropped {α : Type} (m : Sparse α) {p : Nat → Bool} {k : Nat} (d : α) (hp : p k = true) :
    sget (sdrop m p) k d = d := by
  induction m with
  | nil => rfl
  | cons e r ih =>
    obtain ⟨j, v⟩ := e
    have hcons : sdrop ((j, v) :: r) p = if p j then sdrop r p else (j, v) :: sdrop r p := by
      cases hj : p j <;> simp [sdrop, hj]
    rw [hcons]
    split
    · exact ih
    · next hj =>
      have hne : k ≠ j := fun e => hj (e ▸ hp)
      simp [sget, hne, ih]

/-- A mode by its two-bit encoding (R160). -/
theorem ofCode_bits (w : Word) : Mode.ofCode (bits w 1 0) =
    if bits w 1 0 = 0 then .pu else if bits w 1 0 = 1 then .ps else if bits w 1 0 = 2 then .gu else .gs := by
  rw [Mode.ofCode, show bits w 1 0 % 4 = bits w 1 0 from Nat.mod_eq_of_lt (bits_lt w 1 0)]

theorem mode_not_guarded_iff (m : Mode) : m.guarded = false ↔ m = .pu ∨ m = .ps := by cases m <;> decide

/-- A thread that has left its handler: what ESTAT and EPC of the handler's level held is in force again (R147). -/
def leftHandler (u : Thread) : Thread :=
  let n := u.level.toNat - 1
  let est := u.getCsr (0x415 + 4 * n)
  let m := Mode.ofCode (bits est 1 0)
  { u with
    pc := u.getCsr (0x414 + 4 * n)
    mode := m
    prio := BitVec.ofNat 4 (bits est 5 2)
    level := BitVec.ofNat 2 n
    fetched := none
    shadow := if bit est 6 && !m.guarded then sdrop u.shadow fun k => decide (8 * n ≤ k) && decide (k < 8 * n + 8)
      else u.shadow }

theorem returnTrap_eq (s : State) (h : Hart) : returnTrap s h = setThr s h (leftHandler (thr s h)) := rfl

/-- The shadow registers of the level left are cleared exactly on the way from a Guarded handler to a Plain mode (R148). -/
theorem shadow_leftHandler (u : Thread) {j : Nat} (hj : j < 8) :
    let n := u.level.toNat - 1
    let est := u.getCsr (0x415 + 4 * n)
    let m := Mode.ofCode (bits est 1 0)
    sget (leftHandler u).shadow (8 * n + j) 0 =
      if bit est 6 = true ∧ (m = .pu ∨ m = .ps) then 0 else sget u.shadow (8 * n + j) 0 := by
  intro n est m
  have hcond : (bit est 6 && !m.guarded) = true ↔ bit est 6 = true ∧ (m = .pu ∨ m = .ps) := by
    rw [Bool.and_eq_true, Bool.not_eq_true', mode_not_guarded_iff]
  have hshadow : (leftHandler u).shadow =
      if bit est 6 && !m.guarded then sdrop u.shadow fun k => decide (8 * n ≤ k) && decide (k < 8 * n + 8)
      else u.shadow := rfl
  rw [hshadow]
  by_cases hc : bit est 6 = true ∧ (m = .pu ∨ m = .ps)
  · rw [if_pos (hcond.mpr hc), if_pos hc]
    exact sget_sdrop_of_dropped _ _ (by simpa using hj)
  · rw [if_neg (mt hcond.mp hc), if_neg hc]

theorem leftHandler_numbers (u : Thread) :
    (leftHandler u).prio.toNat = bits (u.getCsr (0x415 + 4 * (u.level.toNat - 1))) 5 2 ∧
      (leftHandler u).level.toNat = u.level.toNat - 1 := by
  have hprio : bits (u.getCsr (0x415 + 4 * (u.level.toNat - 1))) 5 2 < 2 ^ 4 := bits_lt _ 5 2
  have hlevel : u.level.toNat - 1 < 2 ^ 2 := Nat.lt_of_le_of_lt (Nat.sub_le _ _) u.level.isLt
  exact ⟨toNat_ofNat_of_lt hprio, toNat_ofNat_of_lt hlevel⟩

/-- At level 1, 2 or 3 ERET commits with its handler left. -/
theorem eret_commits {s : State} {h : Hart} (hi : canIssue s h = true) (hl : (thr s h).level ≠ 0) :
    ∃ t, exec (.eret h) s = .next t ∧ CommitsAs s t h (leftHandler (thr s h)) (leftHandler (thr s h)).pc := by
  have hexec : exec (.eret h) s = issue s h (firstTrap s [(decide ((thr s h).level = 0), trapIllegal (insnWord (.eret h)))]
      (.ok (retireTo (returnTrap s h) h (thr (returnTrap s h) h).pc))) := rfl
  refine ⟨_, ?_, setThr_commits s h (u := leftHandler (thr s h)) rfl _⟩
  rw [hexec, decide_eq_false hl, firstTrap_cons_false, firstTrap_nil, issue_ok hi, returnTrap_eq, thr_setThr_same]

theorem eret_illegal {s : State} {h : Hart} (hl : (thr s h).level = 0) :
    exec (.eret h) s = issue s h (.trap s (trapIllegal (insnWord (.eret h)))) := by
  show execEret h s = _
  rw [execEret, decide_eq_true hl, firstTrap_cons_true]

/-! ### WGATE (R145) -/

theorem across_eq (m : Mode) : m.across = Mode.ofCode ((m.code + 2) % 4) := by cases m <;> rfl

/-- WGATE above level 0 is illegal; at level 0 its gate may refuse it, or lets it across (R145). -/
theorem exec_wgate (h : Hart) (n : BitVec 4) (s : State) :
    let g := coreCsr s h.core (0x810 + n.toNat)
    exec (.wgate h n) s = issue s h (firstTrap s
      [(decide ((thr s h).level ≠ 0), trapIllegal (insnWord (.wgate h n))),
        (!bit g 0 || decide (bit g 1 ≠ (thr s h).mode.guarded), trapGate (n.setWidth 32))]
      (.ok (retireTo (setThr s h { thr s h with mode := Mode.ofCode (((thr s h).mode.code + 2) % 4) }) h
        (g &&& ~~~(3 : Word))))) := by
  rw [← across_eq]
  rfl

/-- Settles O17: each instruction by its trap, its return or its gate. -/
theorem trapAndReturn : Obligations.TrapAndReturn := by
  unfold Obligations.TrapAndReturn
  intro h imm n s hi u l est back gate
  have htraps {i : Instr} {tr : Trap} (hl : u.level ≠ 3) (hexec : exec i s = issue s h (.trap s tr)) :
      ∃ t, exec i s = .next t ∧ TrapTaken s t h tr := by
    obtain ⟨t, ht, htaken, -⟩ := issue_trap hi hl hexec
    exact ⟨t, ht, htaken⟩
  have hzero : u.level = 0 → u.level ≠ 3 := fun e => by rw [e]; decide
  refine ⟨fun hl => ?trap, fun hl => ?eret, fun hl => htraps (hzero hl) (eret_illegal hl), fun hl hvalid hdir => ?cross,
    fun hl hrefused => htraps (hzero hl) ?refused, fun hl h3 => htraps h3 ?illegal⟩
  case trap =>
    obtain ⟨htaken, honly⟩ := takeTrap_countCore s h (trapCall (imm.setWidth 32)) (u.pc + 4) hl
    exact ⟨_, exec_trap hi imm, htaken, honly.sameMemory, honly.sameRegs⟩
  case eret =>
    obtain ⟨t, ht, ⟨honly, -⟩, hthr⟩ := eret_commits hi hl
    obtain ⟨hprio, hlevel⟩ := leftHandler_numbers u
    have hback : Mode.ofCode (bits est 1 0) = back := ofCode_bits est
    rw [← hback]
    refine ⟨t, ht, ?_⟩
    rw [hthr]
    exact ⟨rfl, rfl, hprio, hlevel, rfl, rfl, rfl, rfl, rfl, fun j hj => shadow_leftHandler u hj, honly.sameMemory,
      honly.sameRegs⟩
  case cross =>
    refine ⟨_, ?_, setThr_commits s h (u := { u with mode := Mode.ofCode ((u.mode.code + 2) % 4) }) rfl _⟩
    rw [exec_wgate, decide_eq_false (not_not.mpr hl), hvalid, decide_eq_false (not_not.mpr hdir), Bool.not_true, Bool.or_false,
      firstTrap_cons_false, firstTrap_cons_false, firstTrap_nil, issue_ok hi]
  case refused =>
    have hgate : (!bit gate 0 || decide (bit gate 1 ≠ u.mode.guarded)) = true := by
      rwa [Bool.or_eq_true, Bool.not_eq_true', decide_eq_true_eq]
    rw [exec_wgate, decide_eq_false (not_not.mpr hl), hgate, firstTrap_cons_false, firstTrap_cons_true, trapGate]
  case illegal => rw [exec_wgate, decide_eq_true hl, firstTrap_cons_true]

end Sys2Proof.Machine
end

section
/-! PROOFS. HOLD windows, waits for flags and for the time base, and the start of a released thread (R133, R139, R141, R155). -/

namespace Sys2Proof.Machine

/-! ### HOLD (R155) -/

/-- A HOLD of 1 to 512 cycles commits with its window. -/
theorem hold_commits {s : State} {h : Hart} (hi : canIssue s h = true) {n : BitVec 12} (h1 : 1 ≤ n.toNat) (h512 : n.toNat ≤ 512)
    {w : HoldWindow} (hexec : exec (.hold h n) s = issue s h (firstTrap s
      [(decide (n.toNat = 0) || decide (512 < n.toNat), trapIllegal (insnWord (.hold h n)))]
      (.ok (retire (setThr s h { thr s h with hold := some w }) h)))) :
    ∃ t, exec (.hold h n) s = .next t ∧ CommitsAs s t h { thr s h with hold := some w } ((thr s h).pc + 4) := by
  have hlegal : (decide (n.toNat = 0) || decide (512 < n.toNat)) = false := by
    rw [Bool.or_eq_false_iff, decide_eq_false_iff_not, decide_eq_false_iff_not]
    omega
  refine ⟨_, ?_, setThr_commits s h (u := { thr s h with hold := some w }) rfl _⟩
  rw [hexec, hlegal, firstTrap_cons_false, firstTrap_nil, issue_ok hi, retire_setThr]

/-- With no window open, one opens now (R155). -/
theorem hold_opens {s : State} {h : Hart} (hi : canIssue s h = true) {n : BitVec 12} (h1 : 1 ≤ n.toNat) (h512 : n.toNat ≤ 512)
    (hopen : (thr s h).hold = none) :
    let mx := bits (coreCsr s h.core 0x402) 9 0
    let c := coreCycle s h.core
    ∃ t, exec (.hold h n) s = .next t ∧ CommitsAs s t h
      { thr s h with hold := some ⟨c, c + Nat.min n.toNat mx, decide (mx < n.toNat)⟩ } ((thr s h).pc + 4) := by
  intro mx c
  refine hold_commits hi h1 h512 ?_
  have hends : Nat.min (c + n.toNat) (c + mx) = c + Nat.min n.toNat mx := Nat.add_min_add_left c n.toNat mx
  show execHold h n s = _
  rw [← hends]
  simp only [execHold, hopen]
  rfl

/-- A window that is open is extended, within the bound that its opening set (R155). -/
theorem hold_extends {s : State} {h : Hart} (hi : canIssue s h = true) {n : BitVec 12} (h1 : 1 ≤ n.toNat) (h512 : n.toNat ≤ 512)
    {w : HoldWindow} (hopen : (thr s h).hold = some w) :
    let mx := bits (coreCsr s h.core 0x402) 9 0
    let c := coreCycle s h.core
    ∃ t, exec (.hold h n) s = .next t ∧ CommitsAs s t h
      { thr s h with hold := some ⟨w.opened, Nat.min (c + n.toNat) (w.opened + mx), decide (mx < n.toNat)⟩ }
      ((thr s h).pc + 4) := by
  intro mx c
  refine hold_commits hi h1 h512 ?_
  show execHold h n s = _
  simp only [execHold, hopen]
  rfl

/-- A window that ends sets OVR for its thread, and counts, exactly where it was clipped (R155). -/
theorem coreCsr_endHold_clipped {s : State} {h : Hart} {w : HoldWindow} (hw : (thr s h).hold = some w) :
    coreCsr (endHold s h) h.core 0x119 = coreCsr s h.core 0x119 + (if w.clipped then 1 else 0) ∧
      bit (coreCsr (endHold s h) h.core 0x402) (16 + h.tid.toNat) =
        (w.clipped || bit (coreCsr s h.core 0x402) (16 + h.tid.toNat)) := by
  have htid : 16 + h.tid.toNat < 32 := by have := h.tid.isLt; omega
  cases hc : w.clipped
  · simp [endHold, hw, hc]
  · simp [endHold, hw, hc, coreCsr_countCore_same, coreCsr_countCore_other, coreCsr_setCoreCsr_other, bit_putBit _ _ htid htid]

/-- The state after a HOLD window: HOVR notes what is takeable where the window was clipped (R155). -/
def holdEnded (s : State) (h : Hart) (w : HoldWindow) : State :=
  if w.clipped then modThr (endHold s h) h fun t => { t with hovr := takeableSet (endHold s h) h } else endHold s h

theorem exec_holdWindowEnd {s : State} {h : Hart} {w : HoldWindow} (hw : (thr s h).hold = some w)
    (hpast : w.ends ≤ coreCycle s h.core) : exec (.holdWindowEnd h) s = .next (holdEnded s h w) := by
  show execHoldWindowEnd h s = _
  simp only [execHoldWindowEnd, hw, if_neg (Nat.not_lt.mpr hpast), holdEnded]

/-- HOVR is no CSR: what a window leaves of the CSRs of its core is what its end does (R155). -/
theorem holdEnded_fields (s : State) (h : Hart) (w : HoldWindow) :
    OnlyThread s (holdEnded s h w) h ∧ (thr (holdEnded s h w) h).hold = none ∧
      ∀ n, coreCsr (holdEnded s h w) h.core n = coreCsr (endHold s h) h.core n := by
  have hended := onlyThread_endHold s h
  unfold holdEnded
  split
  · exact ⟨hended.trans (onlyThread_modThr _ h _), by simp [modThr], fun n => coreCsr_modThr _ h _ _ n⟩
  · exact ⟨hended, by simp, fun _ => rfl⟩

/-! ### WFE (R141) -/

theorem wait_of_canIssue {s : State} {h : Hart} (hi : canIssue s h = true) : (thr s h).wait = .none := by
  simp only [canIssue, threadFree, Bool.and_eq_true, decide_eq_true_eq] at hi
  obtain ⟨⟨-, ⟨⟨-, hwait⟩, -⟩, -⟩, -⟩ := hi
  exact hwait

/-- A flag of the mask that is set is taken into rd and cleared. -/
theorem wfe_takes {s : State} {h : Hart} (hi : canIssue s h = true) {mask : BitVec 8} (hf : (thr s h).evf &&& mask ≠ 0)
    (rd rs1 : GReg) (idle : Bool) :
    ∃ t, exec (.wfe h rd rs1 mask idle) s = .next t ∧
      CommitsReg (setThr s h { thr s h with evf := (thr s h).evf &&& ~~~mask }) t h rd (((thr s h).evf &&& mask).setWidth 32)
        ((thr s h).pc + 4) := by
  have hmask : mask ≠ 0 := fun e => hf (by rw [e]; exact BitVec.and_zero)
  have hwindow : (thr (setThr s h { thr s h with evf := (thr s h).evf &&& ~~~mask }) h).window = [] := by
    rw [thr_setThr_same]
    exact window_of_canIssue hi
  refine ⟨_, ?_, setGreg_commits hwindow rd _ _⟩
  show execWfe h rd rs1 mask idle s = _
  simp only [execWfe, decide_eq_false hmask, Bool.false_and, firstTrap_cons_false, firstTrap_nil, if_pos hf, issue_ok hi]
  rw [retire_setGreg, modThr, thr_setThr_same]

/-- Without a flag, and with a timeout, its thread waits. -/
theorem exec_wfe_waits {s : State} {h : Hart} (hi : canIssue s h = true) {mask : BitVec 8} (hf : (thr s h).evf &&& mask = 0)
    {rs1 : GReg} {idle : Bool} (hlegal : mask ≠ 0 ∨ idle = true) (ht : greg s h rs1 ≠ 0) (rd : GReg) :
    exec (.wfe h rd rs1 mask idle) s =
      .next (setThr s h { thr s h with wait := .wfe rd mask idle (now s + (greg s h rs1).toNat) }) := by
  have hoperand : (decide (mask = 0) && !idle) = false := by
    rw [Bool.and_eq_false_iff, decide_eq_false_iff_not, Bool.not_eq_false']
    exact hlegal
  show execWfe h rd rs1 mask idle s = _
  simp only [execWfe, hoperand, firstTrap_cons_false, firstTrap_nil, hf, ne_eq, not_true, if_false, if_neg ht, issue_ok hi]
  rfl

/-- At its deadline a WFE of a running core, with no interrupt to take first, has expired. -/
theorem exec_wfeTimeout {s : State} {h : Hart} {rd : GReg} {mask : BitVec 8} {idle : Bool} {dl : Nat}
    (hw : (thr s h).wait = .wfe rd mask idle dl) (hrun : (core s h.core).run = .running) (hdl : dl ≤ now s)
    (hno : takeableLine s h = none) :
    exec (.wfeTimeout h) s = .next (if idle then endWait (setGreg s h rd 0) h
      else takeTrap s h (trapWait mask.toNat (waitSender s h mask)) (thr s h).pc) := by
  show execWfeTimeout h s = _
  have hstays : (decide ((core s h.core).run ≠ .running) || decide (now s < dl) || (takeableLine s h).isSome) = false := by
    rw [hno, decide_eq_false (not_not.mpr hrun), decide_eq_false (Nat.not_lt.mpr hdl)]
    rfl
  cases idle <;> simp only [execWfeTimeout, hw, hstays, wfeExpired, Bool.false_eq_true, if_false, if_true]

theorem exec_wfeTimeout_halted {s : State} {h : Hart} (hrun : (core s h.core).run ≠ .running) :
    exec (.wfeTimeout h) s = .next s := by
  show execWfeTimeout h s = _
  unfold execWfeTimeout
  split
  · rw [decide_eq_true hrun]
    rfl
  · rfl

/-! ### TWAIT (R139) -/

theorem timeReached_iff (s : State) (cmp : Word) : timeReached s cmp = true ↔ 0 ≤ (BitVec.ofNat 32 (now s) - cmp).toInt :=
  decide_eq_true_iff

/-- A thread that has set its timer compare register (R139). -/
def withTimer (u : Thread) (cmp : Word) (w : Wait) : Thread := { u with timer := cmp, wait := w }

/-- The timer compare register and the wait are no part of a scalar register. -/
theorem withTimer_rd (u : Thread) (cmp : Word) (w : Wait) (r : GReg) : (withTimer u cmp w).rd r = u.rd r :=
  thread_rd_congr rfl rfl rfl rfl rfl rfl r

theorem exec_twait (h : Hart) (rs1 : GReg) (s : State) :
    let cmp := greg s h rs1
    let s' := setThr s h (withTimer (thr s h) cmp (thr s h).wait)
    exec (.twait h rs1) s = issue s h (.ok (if timeReached s cmp then retire s' h
      else modThr s' h fun t => { t with wait := .twait cmp })) := rfl

/-- TWAIT commits where the time base has reached its compare value. -/
theorem exec_twait_late {s : State} {h : Hart} (hi : canIssue s h = true) {rs1 : GReg}
    (hlate : timeReached s (greg s h rs1) = true) :
    exec (.twait h rs1) s =
      .next (retireTo (setThr s h (withTimer (thr s h) (greg s h rs1) .none)) h ((thr s h).pc + 4)) := by
  rw [exec_twait, if_pos hlate, issue_ok hi, retire_setThr, wait_of_canIssue hi, withTimer]

/-- TWAIT waits where the time base has yet to reach its compare value. -/
theorem exec_twait_early {s : State} {h : Hart} (hi : canIssue s h = true) {rs1 : GReg}
    (hearly : ¬timeReached s (greg s h rs1) = true) :
    exec (.twait h rs1) s = .next (setThr s h (withTimer (thr s h) (greg s h rs1) (.twait (greg s h rs1)))) := by
  rw [exec_twait, if_neg hearly, issue_ok hi, modThr_setThr, withTimer, withTimer]

theorem exec_twaitDone {s : State} {h : Hart} {cmp : Word} (hw : (thr s h).wait = .twait cmp)
    (hrun : (core s h.core).run = .running) (hlate : 0 ≤ (BitVec.ofNat 32 (now s) - cmp).toInt) (hno : takeableLine s h = none) :
    exec (.twaitDone h) s = .next (endWait s h) := by
  show execTwaitDone h s = _
  simp only [execTwaitDone, hw, hrun, (timeReached_iff s cmp).mpr hlate, hno, decide_true, Option.isNone_none, Bool.and_self,
    Machine.when, if_true]

theorem exec_twaitDone_halted {s : State} {h : Hart} (hrun : (core s h.core).run ≠ .running) :
    exec (.twaitDone h) s = .next s := by
  show execTwaitDone h s = _
  unfold execTwaitDone
  split
  · rw [decide_eq_false hrun]
    rfl
  · rfl

/-- A thread whose wait has ended has moved on by 4. -/
theorem thr_endWait_setGreg (s : State) (h : Hart) (rd : GReg) (v : Word) :
    (thr (endWait (setGreg s h rd v) h) h).wait = .none ∧ (thr (endWait (setGreg s h rd v) h) h).pc = (thr s h).pc + 4 := by
  rw [(endWait_fields _ h).2, thr_setGreg_same]
  exact ⟨rfl, by rw [afterCommit, thread_wr_pc]⟩

theorem exec_threadStart {s : State} {h : Hart} (hw : (thr s h).wait = .start) :
    exec (.threadStart h) s = .next (setThr s h { thr s h with wait := .none }) := by
  show execThreadStart h s = _
  rw [execThreadStart, decide_eq_true hw]
  rfl

/-- Settles O18: each instruction and event by the one state that it leads to. -/
theorem waitsEndAsTheManualSays : Obligations.WaitsEndAsTheManualSays := by
  unfold Obligations.WaitsEndAsTheManualSays
  intro h rd rs1 n mask idle s u mx c
  refine ⟨fun hi h1 h512 hw => hold_opens hi h1 h512 hw, fun w hi h1 h512 hw => hold_extends hi h1 h512 hw, ?holdEnd,
    fun hi hf => wfe_takes hi hf rd rs1 idle, ?wfeWaits, ?wfeTimeout, fun hi => ?twait, ?twaitDone,
    fun hrun => ⟨exec_wfeTimeout_halted hrun, exec_twaitDone_halted hrun⟩,
    fun hw => ⟨_, exec_threadStart hw, thr_setThr_same s h _, fun j hj => thr_setThr_other s _ hj⟩⟩
  case holdEnd =>
    intro w hw hpast
    obtain ⟨honly, hclosed, hcsr⟩ := holdEnded_fields s h w
    obtain ⟨hcount, hovr⟩ := coreCsr_endHold_clipped hw
    exact ⟨_, exec_holdWindowEnd hw hpast, hclosed, (hcsr _).trans hcount, by rw [hcsr, hovr], honly.sameMemory, honly.sameRegs⟩
  case wfeWaits =>
    intro hi hf hlegal ht
    refine ⟨_, exec_wfe_waits hi hf hlegal ht rd, ?_⟩
    rw [thr_setThr_same]
    exact ⟨rfl, rfl, (onlyThread_setThr s h _).sameMemory⟩
  case wfeTimeout =>
    intro dl hw hwindow hrun hdl hno
    have hexec := exec_wfeTimeout hw hrun hdl hno
    refine ⟨fun hidle => ?_, fun hidle hl => ?_⟩ <;> subst hidle
    · obtain ⟨hwait, hpc⟩ := thr_endWait_setGreg s h rd 0
      refine ⟨_, hexec, hwait, hpc, ?_, fun r hr => ?_⟩
      · rw [if_pos rfl, greg_endWait, greg_setGreg_same hwindow, ite_self]
      · rw [if_pos rfl, greg_endWait, greg_setGreg_other hwindow _ hr]
    · exact ⟨_, hexec, (takeTrap_taken s h _ _ hl).1⟩
  case twait =>
    by_cases hlate : timeReached s (greg s h rs1) = true
    · have hreached := (timeReached_iff s _).mp hlate
      obtain ⟨⟨honly, -⟩, hthr⟩ := setThr_commits s h (u := withTimer u (greg s h rs1) .none) rfl (u.pc + 4)
      refine ⟨_, exec_twait_late hi hlate, ?_⟩
      rw [hthr]
      refine ⟨rfl, fun _ => ⟨rfl, rfl⟩, fun hneg => absurd hreached (Int.not_le.mpr hneg), fun r => ?_, honly.sameMemory⟩
      rw [greg, hthr, greg_afterCommit, withTimer_rd, greg]
    · have hneg := mt (timeReached_iff s _).mpr hlate
      refine ⟨_, exec_twait_early hi hlate, ?_⟩
      rw [thr_setThr_same]
      refine ⟨rfl, fun hreached => absurd hreached hneg, fun _ => ⟨rfl, rfl⟩, fun r => ?_, (onlyThread_setThr s h _).sameMemory⟩
      rw [greg, thr_setThr_same, withTimer_rd, greg]
  case twaitDone =>
    intro cmp hw hrun hlate hno
    refine ⟨_, exec_twaitDone hw hrun hlate hno, ?_, ?_, fun r => greg_endWait s h r⟩ <;> rw [(endWait_fields s h).2]
    · rfl
    · rfl

end Sys2Proof.Machine
end

section
/-! PROOFS. The release of a thread from its start block (R131, R133, R134). -/

namespace Sys2Proof.Machine

/-! ### The registers of a start block (R133) -/

/-- A write of g1 to g15 (R50). -/
theorem thread_wr_global (t : Thread) {r : GReg} (v : Word) (h0 : r.toNat ≠ 0) (h16 : r.toNat < 16) :
    t.wr r v = { t with g := sput t.g r.toNat v } := by
  rw [Thread.wr, if_neg h0, if_pos h16]

/-- With no instruction in the window, g1 to g15 read what the thread keeps in them (R50). -/
theorem thread_rd_global {t : Thread} (hw : t.window = []) {r : GReg} (h0 : r.toNat ≠ 0) (h16 : r.toNat < 16) :
    t.rd r = sget t.g r.toNat 0 := by
  rw [thread_rd_empty hw, Thread.fileRd, if_neg h0, if_pos h16]

/-- A thread with g1 to gn taken from a block of words, from word 2 on (R133). -/
def globalsLoaded (u : Thread) (word : Nat → Word) (n : Nat) : Thread :=
  (List.range n).foldl (fun t i => t.wr (BitVec.ofNat 5 (i + 1)) (word (i + 2))) u

theorem globalsLoaded_succ (u : Thread) (word : Nat → Word) (n : Nat) :
    globalsLoaded u word (n + 1) = (globalsLoaded u word n).wr (BitVec.ofNat 5 (n + 1)) (word (n + 2)) := by
  rw [globalsLoaded, List.range_succ, List.foldl_append]
  rfl

theorem sget_globalsLoaded (u : Thread) (word : Nat → Word) {n i : Nat} (hn : n < 16) (h1 : 1 ≤ i) (hi : i ≤ n) :
    sget (globalsLoaded u word n).g i 0 = word (i + 1) := by
  induction n with
  | zero => omega
  | succ n ih =>
    have hreg : (BitVec.ofNat 5 (n + 1)).toNat = n + 1 := toNat_ofNat_of_lt (by omega)
    rw [globalsLoaded_succ, thread_wr_global _ _ (by omega) (by omega), hreg]
    rcases Nat.eq_or_lt_of_le hi with rfl | hlt
    · exact sget_sput_same _ _ _ _
    · rw [sget_sput_other _ _ _ (Nat.ne_of_lt hlt)]
      exact ih (by omega) (by omega)

/-! ### A released thread (R131, R133) -/

/-- A thread that has started and waits for its first issue (R133). -/
def releasedAt (u : Thread) (pc : Word) (m : Mode) : Thread := { u.start pc m with wait := .start }

theorem releasedAt_windows (u : Thread) (pc : Word) (m : Mode) :
    (releasedAt u pc m).cwp = 0 ∧ (releasedAt u pc m).resident = 1 :=
  ⟨cwp_setWstat u 0 1, resident_setWstat u 0 1⟩

/-- A start keeps g1 to g15 (R131). -/
theorem releasedAt_rd (u : Thread) (pc : Word) (m : Mode) {r : GReg} (h0 : r.toNat ≠ 0) (h16 : r.toNat < 16) :
    (releasedAt u pc m).rd r = sget u.g r.toNat 0 :=
  thread_rd_global rfl h0 h16

/-- A thread with the registers that a block of words gives it (R133). -/
def blockLoaded (u : Thread) (word : Nat → Word) : Thread := (globalsLoaded u word 14).wr 15 0

theorem blockLoaded_g (u : Thread) (word : Nat → Word) : (blockLoaded u word).g = sput (globalsLoaded u word 14).g 15 0 := by
  rw [blockLoaded, thread_wr_global _ _ (by decide) (by decide)]
  rfl

/-- g1 to g14 of a released thread are words of its block, and g15 is 0 (R133). -/
theorem blockLoaded_rd (u : Thread) (word : Nat → Word) (pc : Word) (m : Mode) :
    (releasedAt (blockLoaded u word) pc m).rd 15 = 0 ∧
      ∀ i, 1 ≤ i → i ≤ 14 → (releasedAt (blockLoaded u word) pc m).rd (BitVec.ofNat 5 i) = word (i + 1) := by
  refine ⟨?_, fun i h1 h14 => ?_⟩
  · rw [releasedAt_rd _ _ _ (by decide) (by decide), blockLoaded_g]
    exact sget_sput_same _ _ _ _
  · have hreg : (BitVec.ofNat 5 i).toNat = i := toNat_ofNat_of_lt (by omega)
    rw [releasedAt_rd _ _ _ (by omega) (by omega), blockLoaded_g, hreg, sget_sput_other _ _ _ (by omega)]
    exact sget_globalsLoaded u word (by decide) h1 h14

/-! ### TREL (R133, R134, R453) -/

/-- The thread of core `c` that an operand of TREL names. -/
def namedThread (c : Nat) (x : Word) : Hart := ⟨c, BitVec.ofNat 2 x.toNat⟩

/-- The state once TREL has released the thread that its operand names. -/
def threadReleased (s : State) (h : Hart) (x : Word) (word : Nat → Word) : State :=
  retire (setThr s (namedThread h.core x) (releasedAt (blockLoaded (thr s (namedThread h.core x)) word) (word 0)
    (Mode.ofCode (bits (word 1) 1 0)))) h

/-- The worlds keep a thread from reading its start block at `a` (R144). -/
def blockRefused (s : State) (h : Hart) (a : Word) : Bool :=
  decide (a.toNat + 64 ≤ localSize h.core) && !(thr s h).mode.guarded &&
    (inGlmem s h.core a.toNat || inGlmem s h.core (a.toNat + 63))

/-- The state once TREL has read its start block at `a`, where it may (R261). -/
def blockRead (s : State) (h : Hart) (a : Word) : State :=
  if decide (a.toNat + 64 ≤ localSize h.core) && !blockRefused s h a then demandRead s (localBase h.core + a.toNat) 64 else s

theorem blockRead_clean {s : State} (hlatent : s.latent = []) (h : Hart) (a : Word) : blockRead s h a = s := by
  rw [blockRead, demandRead_clean hlatent, ite_self]

/-- What keeps TREL in a supervisor mode of thread 0 from releasing a thread, with its start block at `a` read in state `r`
(R133, R453). -/
def releaseTraps (s r : State) (h : Hart) (x a w : Word) : List (Bool × Trap) :=
  let word := fun i => localWord r h.core (a.toNat + 4 * i)
  let inLocal := decide (a.toNat + 64 ≤ localSize h.core)
  let poisoned := inLocal && isPoisoned r (localBase h.core + a.toNat) 64
  let readable := inLocal && !blockRefused s h a && !poisoned
  [(readable && !(thr s h).mode.guarded && decide (2 ≤ bits (word 1) 1 0), trapPrivilege w),
    (decide ((namedThread h.core x).tid = 0) || decide ((thr s (namedThread h.core x)).status ≠ .unreleased) ||
      decide (bits x 5 2 ≠ 0), trapOperand w),
    (readable && (decide (bits (word 1) 31 2 ≠ 0) || decide (word 0 &&& 3 ≠ 0)), trapOperand w),
    (blockRefused s h a, trapTenancy a), (!inLocal, trapBus a 0x01), (poisoned, trapPoison a)]

/-- TREL takes the first of its traps, or releases the thread that its operand names. -/
theorem exec_trel (h : Hart) (rs1 : GReg) (s : State) :
    let x := greg s h rs1
    let a := x &&& ~~~(63 : Word)
    let r := blockRead s h a
    exec (.trel h rs1) s = issue s h (firstTrap s
      [(decide (h.tid ≠ 0), trapIllegal (insnWord (.trel h rs1))),
        (!(thr s h).mode.super, trapPrivilege (insnWord (.trel h rs1)))]
      (firstTrap r (releaseTraps s r h x a (insnWord (.trel h rs1)))
        (.ok (threadReleased r h x fun i => localWord r h.core (a.toNat + 4 * i))))) := rfl

/-- TREL commits in its own thread and starts the thread that it names. -/
theorem threadReleased_threads (s : State) {h : Hart} {x : Word} (hne : namedThread h.core x ≠ h) (word : Nat → Word) :
    (thr (threadReleased s h x word) h).pc = (thr s h).pc + 4 ∧
      thr (threadReleased s h x word) (namedThread h.core x) =
        releasedAt (blockLoaded (thr s (namedThread h.core x)) word) (word 0) (Mode.ofCode (bits (word 1) 1 0)) := by
  refine ⟨?_, ?_⟩
  · rw [threadReleased, thr_retire, thr_setThr_other s _ hne.symm]
  · exact ((retire_oneCommit _ h).1.others _ hne).trans (thr_setThr_same s _ _)

theorem threadReleased_mem (s : State) (h : Hart) (x : Word) (word : Nat → Word) : (threadReleased s h x word).mem = s.mem := by
  rw [threadReleased, retire_mem, setThr_mem]

/-- A start mode of 0 or 1 is PU or PS, and no bit above its field is set. -/
theorem plainMode_fields {w : Word} (hw : w.toNat ≤ 1) :
    bits w 1 0 < 2 ∧ bits w 31 2 = 0 ∧ Mode.ofCode (bits w 1 0) = if w = 0 then .pu else .ps := by
  have hcases : w = 0 ∨ w = 1 := by
    rcases Nat.le_one_iff_eq_zero_or_eq_one.mp hw with h | h
    · exact .inl (BitVec.eq_of_toNat_eq h)
    · exact .inr (BitVec.eq_of_toNat_eq h)
  rcases hcases with rfl | rfl <;> decide

/-- A start block that its thread may read, for an unreleased thread, in a Plain mode, raises no trap (R133, R453). -/
theorem releaseTraps_pass {s : State} {h : Hart} {x a : Word} (hlocal : a.toNat + 64 ≤ localSize h.core)
    (hrefused : blockRefused s h a = false) (hpoison : isPoisoned s (localBase h.core + a.toNat) 64 = false)
    (hzero : (namedThread h.core x).tid ≠ 0) (hstatus : (thr s (namedThread h.core x)).status = .unreleased)
    (hreserved : bits x 5 2 = 0) (haligned : (localWord s h.core a.toNat).toNat % 4 = 0)
    (hplain : (localWord s h.core (a.toNat + 4)).toNat ≤ 1) (w : Word) :
    (releaseTraps s s h x a w).all (fun e => !e.1) = true := by
  obtain ⟨hmode, hhigh, -⟩ := plainMode_fields hplain
  refine pass_cons ?mode (pass_cons ?named (pass_cons ?block (pass_cons hrefused (pass_cons ?bus (pass_cons ?poison rfl)))))
  case mode => rw [decide_eq_false (Nat.not_le.mpr hmode), Bool.and_false]
  case named =>
    rw [decide_eq_false hzero, decide_eq_false (not_not.mpr hstatus), decide_eq_false (not_not.mpr hreserved)]
    rfl
  case block =>
    have hstart := (and_three_eq_zero_iff _).mpr haligned
    show (_ && (decide (bits _ 31 2 ≠ 0) || decide (localWord s h.core a.toNat &&& 3 ≠ 0))) = false
    rw [decide_eq_false (not_not.mpr hhigh), decide_eq_false (not_not.mpr hstart), Bool.or_self, Bool.and_false]
  case bus => rw [decide_eq_true hlocal, Bool.not_true]
  case poison => rw [hpoison, Bool.and_false]

/-- TREL by thread 0 in a supervisor mode, with no error to find and no trap to raise, releases its thread. -/
theorem trel_releases {s : State} {h : Hart} (hi : canIssue s h = true) (h0 : h.tid = 0)
    (hsuper : (thr s h).mode.super = true) (hlatent : s.latent = []) {rs1 : GReg} {x a : Word} (hx : x = greg s h rs1)
    (ha : a = x &&& ~~~(63 : Word))
    (hpass : (releaseTraps s s h x a (insnWord (.trel h rs1))).all (fun e => !e.1) = true) :
    exec (.trel h rs1) s = .next (threadReleased s h x fun i => localWord s h.core (a.toNat + 4 * i)) := by
  subst hx ha
  rw [exec_trel, blockRead_clean hlatent, hsuper, decide_eq_false (not_not.mpr h0), Bool.not_true, firstTrap_cons_false,
    firstTrap_cons_false, firstTrap_nil, firstTrap_of_pass hpass, issue_ok hi]

/-- TREL is for thread 0 alone (R134). -/
theorem trel_illegal {s : State} {h : Hart} (hk : h.tid ≠ 0) (rs1 : GReg) :
    exec (.trel h rs1) s = issue s h (.trap s (trapIllegal (insnWord (.trel h rs1)))) := by
  rw [exec_trel, decide_eq_true hk, firstTrap_cons_true]

/-- Settles O19: the thread named by its start block, and any other thread than 0 by its trap. -/
theorem threadReleaseStartsTheNamedThread : Obligations.ThreadReleaseStartsTheNamedThread := by
  unfold Obligations.ThreadReleaseStartsTheNamedThread
  intro c rs1 s h x off tgt word
  refine ⟨fun hi hmode hlocal hfirst hlast hlatent hpoison hreserved hzero hstatus haligned hplain => ?release,
    fun k hk hi hl => ?other⟩
  case release =>
    have hnamed : namedThread c x = tgt := congrArg (Hart.mk c) (BitVec.ofNat_toNat 2 x)
    have hne : namedThread c x ≠ h := fun e => hzero (congrArg Hart.tid (hnamed.symm.trans e))
    have hrefused : blockRefused s h (x &&& ~~~(63 : Word)) = false := by
      rw [blockRefused, hfirst, hlast, Bool.or_self, Bool.and_false]
    have hpass := releaseTraps_pass (h := h) (x := x) hlocal hrefused hpoison (by rwa [hnamed]) (by rwa [hnamed]) hreserved
      haligned hplain (insnWord (.trel h rs1))
    have hexec : exec (.trel h rs1) s = .next (threadReleased s h x word) :=
      trel_releases hi rfl (by rw [hmode]; rfl) hlatent rfl rfl hpass
    have hmem : SameMemory s (threadReleased s h x word) := sameMemory_of_mem (threadReleased_mem s h x word)
    obtain ⟨hpc, htgt⟩ := threadReleased_threads s (h := h) hne word
    obtain ⟨hcwp, hresident⟩ := releasedAt_windows (blockLoaded (thr s tgt) word) (word 0) (Mode.ofCode (bits (word 1) 1 0))
    obtain ⟨hlink, hregs⟩ := blockLoaded_rd (thr s tgt) word (word 0) (Mode.ofCode (bits (word 1) 1 0))
    obtain ⟨-, -, hstart⟩ := plainMode_fields hplain
    rw [hnamed] at htgt
    generalize threadReleased s h x word = t at hexec hmem hpc htgt
    refine ⟨t, hexec, hpc, ?_⟩
    simp only [greg, htgt]
    exact ⟨rfl, rfl, rfl, hstart, rfl, rfl, hcwp, hresident, hlink, hregs, hmem⟩
  case other =>
    obtain ⟨t, ht, htaken, -⟩ := issue_trap hi hl (trel_illegal (h := ⟨c, k⟩) hk rs1)
    exact ⟨t, ht, htaken⟩

end Sys2Proof.Machine
end

section
/-! PROOFS. The entry of an interrupt: which line is taken, and what its handler's thread holds (R146, R151, R152, R162). -/

namespace Sys2Proof.Machine

/-! ### The line that is taken (R152) -/

/-- A search by fold that keeps what it holds or takes an element with a property: what it comes to is what it held, or has that
property. -/
theorem foldl_pick {α : Type} {p : α → Prop} {f : Option α → α → Option α} (hf : ∀ b x, f b x = b ∨ p x ∧ f b x = some x)
    {l : α} (xs : List α) {b : Option α} (h : xs.foldl f b = some l) : b = some l ∨ l ∈ xs ∧ p l := by
  induction xs generalizing b with
  | nil => exact .inl h
  | cons x xs ih =>
    rcases ih h with hx | ⟨hmem, hp⟩
    · rcases hf b x with hkeep | ⟨hp, htake⟩
      · exact .inl (hkeep ▸ hx)
      · obtain rfl : x = l := Option.some.inj (htake.symm.trans hx)
        exact .inr ⟨List.mem_cons_self, hp⟩
    · exact .inr ⟨List.mem_cons_of_mem _ hmem, hp⟩

/-- The line that is taken is one of the 32, and takeable. -/
theorem takeable_of_takeableLine {s : State} {h : Hart} {l : Nat} (hl : takeableLine s h = some l) :
    l < 32 ∧ takeable s h l = true := by
  have hpick := foldl_pick (p := fun l => takeable s h l = true) ?_ _ hl
  · obtain ⟨hmem, htake⟩ := hpick.resolve_left (Option.some_ne_none l).symm
    exact ⟨List.mem_range.mp hmem, htake⟩
  · intro b x
    by_cases hx : takeable s h x = true
    · simp only [if_pos hx]
      split
      · exact .inr ⟨hx, rfl⟩
      · split
        · exact .inr ⟨hx, rfl⟩
        · exact .inl rfl
    · simp only [if_neg hx, true_or]

/-- No line is takeable for a thread at level 3, or in a HOLD window (R152, R155). -/
theorem thread_of_takeable {s : State} {h : Hart} {l : Nat} (hl : takeable s h l = true) :
    (thr s h).level ≠ 3 ∧ (thr s h).hold = none := by
  simp only [takeable, Bool.and_eq_true, decide_eq_true_eq, Option.isNone_iff_eq_none] at hl
  obtain ⟨⟨⟨-, hlevel⟩, hhold⟩, -⟩ := hl
  exact ⟨hlevel, hhold⟩

/-! ### The entry (R146) -/

/-- ESTAT as an entry to the level above `n` writes it (R160). -/
def estatWord (m : Mode) (p : BitVec 4) (guarded hovr : Bool) (n : Nat) : Word :=
  BitVec.ofNat 32 (m.code + 4 * p.toNat + 64 * guarded.toNat + 128 * hovr.toNat + 512 * (n + 1))

theorem estatWord_fields (m : Mode) (p : BitVec 4) (g o : Bool) {n : Nat} (hn : n < 3) :
    bits (estatWord m p g o n) 1 0 = m.code ∧ bits (estatWord m p g o n) 5 2 = p.toNat ∧ bit (estatWord m p g o n) 6 = g := by
  have hp := p.isLt
  have hm : m.code < 4 := by cases m <;> decide
  have hg := g.toNat_le
  have ho := o.toNat_le
  have hval : (estatWord m p g o n).toNat = m.code + 4 * p.toNat + 64 * g.toNat + 128 * o.toNat + 512 * (n + 1) :=
    toNat_ofNat_of_lt (by omega)
  have hbit : (m.code + 4 * p.toNat + 64 * g.toNat + 128 * o.toNat + 512 * (n + 1)) / 2 ^ 6 % 2 = g.toNat := by omega
  simp only [bits, bit, hval, Nat.shiftRight_eq_div_pow, Nat.testBit_eq_decide_div_mod_eq, hbit]
  exact ⟨by omega, by omega, by cases g <;> rfl⟩

/-- The CSRs of a thread with the save registers of the next level written (R146, R160). -/
def withSaved (u : Thread) (tr : Trap) (epc est : Word) : Thread :=
  let k := 0x414 + 4 * u.level.toNat
  (((u.putCsr k (epc &&& ~~~(3 : Word))).putCsr (k + 1) est).putCsr (k + 2)
    (BitVec.ofNat 32 (tr.cause % 256 + 256 * (tr.status % 256)))).putCsr (k + 3) tr.eval

theorem getCsr_withSaved (u : Thread) (tr : Trap) (epc est : Word) :
    let n := u.level.toNat
    (withSaved u tr epc est).getCsr (0x414 + 4 * n) = epc &&& ~~~(3 : Word) ∧
      (withSaved u tr epc est).getCsr (0x415 + 4 * n) = est ∧
      (withSaved u tr epc est).getCsr (0x416 + 4 * n) = BitVec.ofNat 32 (tr.cause % 256 + 256 * (tr.status % 256)) ∧
      (withSaved u tr epc est).getCsr (0x417 + 4 * n) = tr.eval := by
  have hkeys : ∀ n, 0x415 + 4 * n = 0x414 + 4 * n + 1 ∧ 0x416 + 4 * n = 0x414 + 4 * n + 2 ∧ 0x417 + 4 * n = 0x414 + 4 * n + 3 :=
    fun n => by omega
  obtain ⟨hest, hcause, heval⟩ := hkeys u.level.toNat
  simp [withSaved, Thread.getCsr, Thread.putCsr, hest, hcause, heval]

/-- A thread as an interrupt of world `g` and priority `p` enters its handler at `pc` (R146, R152). -/
def interruptedThread (u : Thread) (tr : Trap) (epc pc : Word) (g : Bool) (p : BitVec 4) (o : Bool) : Thread :=
  { withSaved u tr epc (estatWord u.mode u.prio g o u.level.toNat) with
    level := BitVec.ofNat 2 (u.level.toNat + 1)
    mode := if g then .gs else .ps
    prio := p
    hovr := 0
    window := []
    wait := .none
    cur := none
    fetched := none
    hold := none
    tileWait := none
    pc := pc }

/-- The registers of a thread are its handler's (R146). -/
theorem interruptedThread_files (u : Thread) (tr : Trap) (epc pc : Word) (g : Bool) (p : BitVec 4) (o : Bool) :
    let w := interruptedThread u tr epc pc g p o
    w.g = u.g ∧ w.win = u.win ∧ w.shadow = u.shadow :=
  ⟨rfl, rfl, rfl⟩

/-- The program counter at the vector of a trap taken to a world (R151). -/
def vectorPc (s : State) (h : Hart) (g : Bool) (vec : Nat) : Word :=
  (coreCsr s h.core (if g then 0x800 else 0x401) &&& ~~~(0xFFF : Word)) + BitVec.ofNat 32 (64 * vec)

/-- With no HOLD window open, a trap that is no wait timeout closes what its thread waits to issue, enters the handler and
counts (R125, R146, R162). -/
theorem enterTrap_noHold {s : State} {h : Hart} (hhold : (thr s h).hold = none) {tr : Trap} (hcause : tr.cause ≠ 0x0F)
    (epc : Word) (g : Bool) (p : BitVec 4) (o : Bool) :
    enterTrap s h tr epc g p o = countCore (setThr (endTileWait s h) h
      (interruptedThread (thr s h) tr epc (vectorPc s h g tr.vec) g p o)) h.core (0x114 + h.tid.toNat) 1 := by
  have hclosed : endHold s h = s := by simp only [endHold, hhold]
  have hbase : (if g then coreCsr (endTileWait s h) h.core 0x800 else coreCsr (endTileWait s h) h.core 0x401) =
      coreCsr s h.core (if g then 0x800 else 0x401) := by
    cases g <;> exact coreCsr_endTileWait s h (by decide)
  unfold enterTrap
  simp only [hhold, hclosed, hbase, if_neg hcause, thr_endTileWait, Bool.false_eq_true, if_false]
  rfl

theorem onlyThread_takeInterrupt (s : State) (h : Hart) (l : Nat) (epc : Word) : OnlyThread s (takeInterrupt s h l epc) h :=
  ((onlyThread_setCoreCsr s h _ _).trans (onlyThread_countCore _ h _ _)).trans (onlyThread_enterTrap _ h _ _ _ _ _)

/-- The trap that a line is taken as (R151). -/
def lineTrap (s : State) (c l : Nat) : Trap := ⟨0x40 + l, 0, sget (core s c).lineEval l 0, 16 + l⟩

/-- The state in which a line is taken: it is no longer pending, and its entry is counted (R151, R162). -/
def lineTaken (s : State) (c l : Nat) : State :=
  countCore (setCoreCsr s c 0x804 (putBit (coreCsr s c 0x804) l false)) c 0x118 1

theorem lineTaken_fields (s : State) (c : Nat) {l : Nat} (hl : l < 32) :
    (∀ j, thr (lineTaken s c l) j = thr s j) ∧ bit (coreCsr (lineTaken s c l) c 0x804) l = false ∧
      coreCsr (lineTaken s c l) c 0x118 = coreCsr s c 0x118 + 1 ∧
      ∀ n, n ≠ 0x804 → n ≠ 0x118 → coreCsr (lineTaken s c l) c n = coreCsr s c n := by
  refine ⟨fun j => ?_, ?_, ?_, fun n h1 h2 => ?_⟩
  · rw [lineTaken, thr_countCore, thr_setCoreCsr]
  · rw [lineTaken, coreCsr_countCore_other _ _ (.inr (by decide)), coreCsr_setCoreCsr_same, bit_putBit _ _ hl hl, if_pos rfl]
  · rw [lineTaken, coreCsr_countCore_same, coreCsr_setCoreCsr_other _ _ (.inr (by decide))]
    rfl
  · rw [lineTaken, coreCsr_countCore_other _ _ (.inr h2), coreCsr_setCoreCsr_other _ _ (.inr h1)]

/-- What an interrupt leaves of its thread and its core, where no HOLD window is open (R146, R151, R152). -/
theorem takeInterrupt_fields {s : State} {h : Hart} (hhold : (thr s h).hold = none) {l : Nat} (hl : l < 32) (epc : Word) :
    let p := bits (coreCsr s h.core (0x820 + l)) 3 0
    thr (takeInterrupt s h l epc) h = interruptedThread (thr s h) (lineTrap s h.core l) epc
        (vectorPc s h (decide (8 ≤ p)) (16 + l)) (decide (8 ≤ p)) (BitVec.ofNat 4 p) (bit (thr s h).hovr l) ∧
      bit (coreCsr (takeInterrupt s h l epc) h.core 0x804) l = false ∧
      coreCsr (takeInterrupt s h l epc) h.core 0x118 = coreCsr s h.core 0x118 + 1 := by
  intro p
  have heq : takeInterrupt s h l epc = enterTrap (lineTaken s h.core l) h (lineTrap s h.core l) epc (decide (8 ≤ p))
      (BitVec.ofNat 4 p) (bit (thr s h).hovr l) := rfl
  obtain ⟨hthreads, hpending, hcount, hbase⟩ := lineTaken_fields s h.core hl
  generalize lineTaken s h.core l = v at heq hthreads hpending hcount hbase
  have hthr := hthreads h
  have hvector : vectorPc v h (decide (8 ≤ p)) (16 + l) = vectorPc s h (decide (8 ≤ p)) (16 + l) := by
    rw [vectorPc, hbase _ (by split <;> decide) (by split <;> decide), vectorPc]
  have hcause : (lineTrap s h.core l).cause ≠ 0x0F := by
    show 0x40 + l ≠ 0x0F
    omega
  rw [enterTrap_noHold (by rw [hthr]; exact hhold) hcause] at heq
  have htid := h.tid.isLt
  have hcsr {n : Nat} (h1 : n ≠ 0x105) (h2 : 0x118 ≤ n) : coreCsr (takeInterrupt s h l epc) h.core n = coreCsr v h.core n := by
    rw [heq, coreCsr_countCore_other _ _ (.inr (by omega)), coreCsr_setThr, coreCsr_endTileWait _ _ h1]
  refine ⟨?_, by rw [hcsr (by decide) (by decide), hpending], by rw [hcsr (by decide) (by decide), hcount]⟩
  rw [heq, thr_countCore, thr_setThr_same, hthr]
  exact congrArg (interruptedThread (thr s h) (lineTrap s h.core l) epc · _ _ _) hvector

/-- A thread that waits for nothing and has nothing uncommitted enters its interrupt at its program counter (R149). -/
theorem exec_interruptEntry {s : State} {h : Hart} {l : Nat} (hruns : coreRuns s h.core = true)
    (hl : takeableLine s h = some l) (hwait : (thr s h).wait = .none) (hwindow : (thr s h).window = []) (kept ran cycles : Nat) :
    exec (.interruptEntry h kept ran cycles) s = .next (modThr (takeInterrupt s h l (thr s h).pc) h
      fun t => { t with latFrom := some (coreCycle s h.core, cycles) }) := by
  show execInterruptEntry h kept ran cycles s = _
  simp only [execInterruptEntry, hl, hruns, interruptWork, hwait, hwindow, List.isEmpty_nil, Bool.not_true, Bool.false_eq_true,
    if_false]

/-- The handler is entered, and the moment from which its latency counts is noted (R149, R162). -/
theorem interruptEntry_enters {s : State} {h : Hart} {l : Nat} (hruns : coreRuns s h.core = true)
    (hline : takeableLine s h = some l) (hwait : (thr s h).wait = .none) (hwindow : (thr s h).window = [])
    (kept ran cycles : Nat) :
    let p := bits (coreCsr s h.core (0x820 + l)) 3 0
    ∃ t, exec (.interruptEntry h kept ran cycles) s = .next t ∧ OnlyThread s t h ∧
      thr t h = { interruptedThread (thr s h) (lineTrap s h.core l) (thr s h).pc (vectorPc s h (decide (8 ≤ p)) (16 + l))
        (decide (8 ≤ p)) (BitVec.ofNat 4 p) (bit (thr s h).hovr l) with latFrom := some (coreCycle s h.core, cycles) } ∧
      bit (coreCsr t h.core 0x804) l = false ∧ coreCsr t h.core 0x118 = coreCsr s h.core 0x118 + 1 := by
  intro p
  obtain ⟨hl, htake⟩ := takeable_of_takeableLine hline
  obtain ⟨-, hhold⟩ := thread_of_takeable htake
  obtain ⟨hthr, hpending, hcount⟩ := takeInterrupt_fields hhold hl (thr s h).pc
  refine ⟨_, exec_interruptEntry hruns hline hwait hwindow kept ran cycles,
    (onlyThread_takeInterrupt s h l _).trans (onlyThread_modThr _ h _), ?_, ?_, ?_⟩
  · rw [modThr, thr_setThr_same, hthr]
  · rw [coreCsr_modThr, hpending]
  · rw [coreCsr_modThr, hcount]

/-- Settles O20: the thread of the entry by its fields, the line and the counter by the CSRs of its core. -/
theorem interruptEntrySavesAndVectors : Obligations.InterruptEntrySavesAndVectors := by
  unfold Obligations.InterruptEntrySavesAndVectors
  intro h kept ran cycles l s hruns hline hwait hwindow u n p base
  obtain ⟨hl, htake⟩ := takeable_of_takeableLine hline
  obtain ⟨hlevel, -⟩ := thread_of_takeable htake
  have hn := level_lt_three hlevel
  obtain ⟨t, hexec, honly, hthr, hpending, hcount⟩ := interruptEntry_enters hruns hline hwait hwindow kept ran cycles
  obtain ⟨hmode, hprio, hworld⟩ := estatWord_fields u.mode u.prio (decide (8 ≤ p)) (bit u.hovr l) hn
  obtain ⟨hepc, hest, hcause, heval⟩ := getCsr_withSaved u (lineTrap s h.core l) u.pc
    (estatWord u.mode u.prio (decide (8 ≤ p)) (bit u.hovr l) n)
  obtain ⟨hg, hwin, hshadow⟩ := interruptedThread_files u (lineTrap s h.core l) u.pc
    (vectorPc s h (decide (8 ≤ p)) (16 + l)) (decide (8 ≤ p)) (BitVec.ofNat 4 p) (bit u.hovr l)
  have hcsr (k : Nat) : (thr t h).getCsr k =
      (withSaved u (lineTrap s h.core l) u.pc (estatWord u.mode u.prio (decide (8 ≤ p)) (bit u.hovr l) n)).getCsr k := by
    rw [hthr]
    rfl
  have hworldIs {α : Type} (a b : α) : (if decide (8 ≤ p) then a else b) = if 8 ≤ p then a else b :=
    if_congr decide_eq_true_iff rfl rfl
  have hvector : vectorPc s h (decide (8 ≤ p)) (16 + l) =
      (base &&& ~~~(0xFFF : Word)) + BitVec.ofNat 32 (64 * (16 + l)) := by rw [vectorPc, hworldIs]
  have hcode : (0x40 + l) % 256 + 256 * (0 % 256) = 0x40 + l := by omega
  refine ⟨t, hexec, hpending, ?_⟩
  rw [hcsr, hcsr, hcsr, hcsr, hepc, hest, hcause, heval, hthr]
  exact ⟨nextLevel_toNat hn, toNat_ofNat_of_lt (bits_lt _ 3 0), hworldIs _ _, hvector, rfl, hmode, hprio, hworld,
    congrArg (BitVec.ofNat 32) hcode, rfl, hcount, rfl, hg, hwin, hshadow, honly.sameMemory, honly.sameRegs, honly.others⟩

end Sys2Proof.Machine
end

section
/-! PROOFS. Instruction fetch from local memory, IFLUSH and FENCE (R96, R226, R227, R229, R258, R455). -/

namespace Sys2Proof.Machine

/-! ### Words of a line (R11) -/

theorem leNat_drop (bs : List Byte) (k : Nat) : leNat (bs.drop k) = leNat bs / 256 ^ k := by
  induction k generalizing bs with
  | zero => simp
  | succ k ih =>
    cases bs with
    | nil => simp [leNat]
    | cons b r =>
      have hb := b.isLt
      have hdiv : (b.toNat + 256 * leNat r) / 256 = leNat r := by omega
      rw [List.drop_succ_cons, ih, leNat, pow_succ', ← Nat.div_div_eq_div_mul, hdiv]

theorem leNat_take (bs : List Byte) (k : Nat) : leNat (bs.take k) = leNat bs % 256 ^ k := by
  induction k generalizing bs with
  | zero => simp [leNat, Nat.mod_one]
  | succ k ih =>
    cases bs with
    | nil => simp [leNat]
    | cons b r =>
      have hb := b.isLt
      have hdiv : (b.toNat + 256 * leNat r) / 256 = leNat r := by omega
      have hmod : (b.toNat + 256 * leNat r) % 256 = b.toNat := by omega
      rw [List.take_succ_cons, leNat, ih, leNat, pow_succ', Nat.mod_mul, hdiv, hmod]

/-- The number that a line of 64 bytes spells. -/
theorem toNat_bytesLine {bs : List Byte} (hlen : bs.length = 64) : (bytesLine bs).toNat = leNat bs := by
  have hwidth : 8 * bs.length = 512 := by omega
  refine toNat_ofNat_of_lt ?_
  rw [← hwidth, ← pow_256]
  exact leNat_lt bs

/-- A word of a line is the one that its four bytes spell. -/
theorem lineWord_bytesLine {bs : List Byte} (hlen : bs.length = 64) (off : Nat) :
    lineWord (bytesLine bs) off = BitVec.ofNat 32 (leNat ((bs.drop (off % 64)).take 4)) := by
  refine BitVec.eq_of_toNat_eq ?_
  rw [lineWord, toNat_bytesLine hlen, leNat_take, leNat_drop, Nat.shiftRight_eq_div_pow, pow_256, BitVec.toNat_ofNat,
    BitVec.toNat_ofNat, pow_256, Nat.mod_mod]

theorem localBase_line (c : Nat) : localBase c % 64 = 0 := by
  unfold localBase
  split <;> omega

/-- The word at an aligned offset of local memory, out of its line. -/
theorem lineWord_local (s : State) (c : Nat) {off : Nat} (ha : off % 4 = 0) :
    lineWord (bytesLine (readMem s ((localBase c + off) / 64 * 64) 64)) off = localWord s c off := by
  have hbase := localBase_line c
  have hstart : (localBase c + off) / 64 * 64 + off % 64 = localBase c + off := by omega
  rw [lineWord_bytesLine (readMem_length _ _ _), readMem_slice s _ (by omega), hstart, localWord, readLocal]

/-! ### Instruction fetch (R258, R455) -/

/-- A word that its thread's core can issue: it decodes, and is no wide instruction on a Drover core (R91, R371). -/
def FetchLegal (h : Hart) (w : Word) : Prop :=
  (Sys2Proof.decode h w).isSome = true ∧ (isDrvCore h.core = true → bits w 31 27 < 24)

theorem fetchLegal_iff (h : Hart) (w : Word) :
    FetchLegal h w ↔ ((Sys2Proof.decode h w).isNone || (isDrvCore h.core && decide (24 ≤ bits w 31 27))) = false := by
  rw [FetchLegal, Bool.or_eq_false_iff, Bool.and_eq_false_imp, ← Option.not_isSome, Bool.not_eq_false']
  simp only [decide_eq_false_iff_not, Nat.not_le]

/-- A legal word is held for its thread's issue. -/
theorem fetchWord_legal {s : State} {h : Hart} {w : Word} (hlegal : FetchLegal h w) :
    fetchWord s h w = modThr s h fun t => { t with fetched := some w, wait := .none } := by
  rw [fetchWord, (fetchLegal_iff h w).mp hlegal, if_neg Bool.false_ne_true]

theorem fetchWord_illegal {s : State} {h : Hart} {w : Word} (hillegal : ¬FetchLegal h w) (hwindow : (thr s h).window = []) :
    fetchWord s h w = takeTrap s h (trapIllegal w) (thr s h).pc := by
  have hword := Bool.not_eq_false _ ▸ mt (fetchLegal_iff h w).mpr hillegal
  rw [fetchWord, hword, if_pos rfl, hwindow, if_pos List.isEmpty_nil]

/-- A line put in the cache changes the cache alone (R258). -/
theorem portFrame_icFill (s : State) (c line : Nat) (v : Line) : PortFrame s (icFill s c line v) c := by
  have hset (m : Sparse (Nat × Line)) (n : Nat) : PortFrame s (modCore s c fun k => { k with icache := m, icFills := n }) c :=
    portFrame_modCore s c (fun _ => rfl) (fun _ => rfl) fun _ => rfl
  unfold icFill
  split
  · exact portFrame_of_cores rfl rfl c
  · exact hset _ _

/-- The fetch of a legal word leaves it to be issued, and nothing else of the thread changes but that it waits for no fetch. -/
theorem fetchWord_brings {s v : State} {h : Hart} (hframe : PortFrame s v h.core) {w : Word} (hlegal : FetchLegal h w) :
    (thr (fetchWord v h w) h).fetched = some w ∧ (thr (fetchWord v h w) h).pc = (thr s h).pc ∧
      SameMemory s (fetchWord v h w) ∧ (∀ r, greg (fetchWord v h w) h r = greg s h r) ∧
      ∀ j, j ≠ h → thr (fetchWord v h w) j = thr s j := by
  have hthr : thr (fetchWord v h w) h = { thr s h with fetched := some w, wait := .none } := by
    rw [fetchWord_legal hlegal, modThr, thr_setThr_same, hframe.threads]
  refine ⟨by rw [hthr], by rw [hthr], sameMemory_of_mem ?_, fun r => ?_, fun j hj => ?_⟩
  · rw [fetchWord_legal hlegal, modThr_mem, hframe.mem]
  · rw [greg, hthr]
    exact thread_rd_congr rfl rfl rfl rfl rfl rfl r
  · rw [fetchWord_legal hlegal, modThr, thr_setThr_other _ _ hj, hframe.threads]

/-- A word that is no instruction raises the illegal-instruction trap once every older instruction has committed (R455). -/
theorem fetchWord_traps {s v : State} {h : Hart} (hframe : PortFrame s v h.core) {w : Word} (hillegal : ¬FetchLegal h w)
    (hwindow : (thr s h).window = []) (hl : (thr s h).level ≠ 3) : TrapTaken s (fetchWord v h w) h (trapIllegal w) := by
  have hthr := hframe.threads h
  rw [fetchWord_illegal hillegal (by rw [hthr, hwindow]), hthr]
  obtain ⟨htaken, -⟩ := takeTrap_taken v h (trapIllegal w) (thr s h).pc (by rwa [hthr])
  exact htaken.of_agrees (by rw [hthr]) (hframe.csrs _) (hframe.csrs _)

/-- An empty cache serves nothing (R258). -/
theorem icServe_empty {s : State} {c : Nat} (hempty : (core s c).icache = []) (line : Nat) : icServe s c line = (s, none) := by
  have hline : icLine s c line = none := by rw [icLine, hempty]; rfl
  rw [icServe]
  split
  · simp only [icMeet, hline]
  · rfl

/-- A fetch that no check stops takes the word of its line out of local memory (R258). -/
theorem exec_instructionFetch {s : State} {h : Hart} (hi : canIssue s h = true) (hnone : (thr s h).fetched = none)
    (hflush : (core s h.core).iflush = false) (hpc : (thr s h).pc.toNat % 4 = 0)
    (hlocal : (thr s h).pc.toNat + 4 ≤ localSize h.core) (hview : viewTrap s h (thr s h).pc 4 = none)
    (hempty : (core s h.core).icache = []) (hlatent : s.latent = [])
    (hpoison : isPoisoned s ((localBase h.core + (thr s h).pc.toNat) / 64 * 64) 64 = false) :
    ∃ u, PortFrame s u h.core ∧
      exec (.instructionFetch h) s = .next (fetchWord u h (localWord s h.core (thr s h).pc.toNat)) := by
  refine ⟨_, portFrame_icFill s h.core ((localBase h.core + (thr s h).pc.toNat) / 64)
    (bytesLine (readMem s ((localBase h.core + (thr s h).pc.toNat) / 64 * 64) 64)), ?_⟩
  have hown : coreView s h (thr s h).pc = .own (thr s h).pc.toNat := coreView_own (by omega)
  show execInstructionFetch h s = _
  simp only [execInstructionFetch, hi, hnone, hflush, hview, hown, icServe_empty hempty, demandRead_clean hlatent, hpoison,
    lineWord_local s h.core hpc, Bool.true_or, Bool.not_true, Option.isSome_none, Bool.or_self, Bool.false_eq_true, if_false]

/-! ### IFLUSH (R96) -/

theorem exec_iflush {s : State} {h : Hart} (hi : canIssue s h = true) :
    exec (.iflush h) s = .next (retire (modCore s h.core fun k => { k with iflush := true }) h) := issue_ok hi _

theorem exec_iflushDone {s : State} {c : Nat} (hflush : (core s c).iflush = true) :
    exec (.iflushDone c) s = .next (modCore s c fun k => { k with iflush := false, icache := [] }) := if_pos hflush

/-! ### FENCE (R226, R227, R229) -/

/-- The state in which FENCE has armed its thread's level, where FIN asks for it (R229). -/
def fenceArmed (s : State) (h : Hart) (fin : Bool) : State :=
  if fin then modThr s h fun t => { t with finArmed := t.finArmed ||| BitVec.ofNat 4 (2 ^ t.level.toNat) } else s

/-- Arming touches its thread alone, and of it only which levels are armed. -/
theorem fenceArmed_fields (s : State) (h : Hart) (fin : Bool) :
    OnlyThread s (fenceArmed s h fin) h ∧
      thr (fenceArmed s h fin) h = { thr s h with finArmed := (thr (fenceArmed s h fin) h).finArmed } ∧
      ∀ l, l < 4 → bit (thr (fenceArmed s h fin) h).finArmed l =
        (bit (thr s h).finArmed l || (fin && decide (l = (thr s h).level.toNat))) := by
  cases fin
  · exact ⟨.refl s h, rfl, fun l _ => by simp [fenceArmed]⟩
  · have harmed : fenceArmed s h true =
        setThr s h { thr s h with finArmed := (thr s h).finArmed ||| BitVec.ofNat 4 (2 ^ (thr s h).level.toNat) } := rfl
    have hlevel : 2 ^ (thr s h).level.toNat < 2 ^ 4 := Nat.pow_lt_pow_right (by decide) (thr s h).level.isLt
    rw [harmed, thr_setThr_same]
    refine ⟨onlyThread_setThr s h _, rfl, fun l _ => ?_⟩
    rw [bit, BitVec.toNat_or, Nat.testBit_or, toNat_ofNat_of_lt hlevel, Nat.testBit_two_pow, bit, Bool.true_and]
    exact congrArg _ (decide_eq_decide.mpr eq_comm)

/-- The state in which a FENCE with FV waits (R226). -/
def fenceWaiting (s : State) (h : Hart) (fin : Bool) (rd : GReg) : State :=
  modThr (fenceArmed s h fin) h fun t => { t with wait := .fence rd }

theorem fenceWaiting_fields (s : State) (h : Hart) (fin : Bool) (rd : GReg) :
    OnlyThread s (fenceWaiting s h fin rd) h ∧ thr (fenceWaiting s h fin rd) h =
      { thr s h with finArmed := (thr (fenceArmed s h fin) h).finArmed, wait := .fence rd } := by
  obtain ⟨honly, hthr, -⟩ := fenceArmed_fields s h fin
  refine ⟨honly.trans (onlyThread_modThr _ h _), ?_⟩
  rw [fenceWaiting, modThr, thr_setThr_same, hthr]

/-- FENCE with a flag issues: with FV it waits for what it waits for, and without it commits with 0 in rd. -/
theorem exec_fence {s : State} {h : Hart} (hi : canIssue s h = true) {ll fv fin : Bool} (hany : (ll || fv || fin) = true)
    (rd : GReg) :
    exec (.fence h rd ll fv fin) s = .next (if fv then wakeFence (fenceWaiting s h fin rd) h
      else retire (setGreg (fenceArmed s h fin) h rd 0) h) := by
  have hexec : exec (.fence h rd ll fv fin) s = issue s h (firstTrap s
      [(!ll && !fv && !fin, trapIllegal (insnWord (.fence h rd ll fv fin)))]
      (.ok (if fv then wakeFence (fenceWaiting s h fin rd) h
        else retire (setGreg (fenceArmed s h fin) h rd 0) h))) := rfl
  have hnone : (!ll && !fv && !fin) = false := by rw [← Bool.not_or, ← Bool.not_or, hany, Bool.not_true]
  rw [hexec, hnone, firstTrap_cons_false, firstTrap_nil, issue_ok hi]

theorem running_of_canIssue {s : State} {h : Hart} (hi : canIssue s h = true) : (core s h.core).run = .running := by
  simp only [canIssue, coreRuns, coreLive, Bool.and_eq_true, decide_eq_true_eq] at hi
  obtain ⟨⟨⟨⟨⟨⟨-, hrun⟩, -⟩, -⟩, -⟩, -⟩, -⟩ := hi
  exact hrun

/-- The status that FENCE reports of a pending failure, 0 where there is none (R227). -/
def failStatus (p : Option PendingFailure) : Word :=
  let st : Byte := match p with
    | some f => f.status
    | none => 0
  st.setWidth 32

/-- The state in which a FENCE with FV commits: the read line buffer is empty and the failure consumed (R226, R227). -/
def fenceReported (s : State) (h : Hart) : State := modThr (bufferEmpty s h.core) h fun t => { t with pendFail := none }

theorem commitFence_eq (s : State) (h : Hart) (rd : GReg) :
    commitFence s h rd = endWait (setGreg (fenceReported s h) h rd (failStatus (thr s h).pendFail)) h := rfl

/-- A FENCE with FV commits at once where its thread has no far-view access left (R226). -/
theorem wakeFence_commits {s : State} {h : Hart} {rd : GReg} (hw : (thr s h).wait = .fence rd) (hclear : laneClear s h = true)
    (hrun : (core s h.core).run = .running) : wakeFence s h = commitFence s h rd := by
  simp only [wakeFence, hw, hclear, hrun, decide_true, Bool.and_self, if_true]

/-- What a FENCE with FV leaves of its thread, its core and memory, once it commits (R226, R227). -/
theorem commitFence_fields {s : State} {h : Hart} (hwindow : (thr s h).window = []) (rd : GReg) :
    let t := commitFence s h rd
    (thr t h).pc = (thr s h).pc + 4 ∧ (thr t h).wait = .none ∧ (thr t h).pendFail = none ∧ (core t h.core).readBuf = [] ∧
      greg t h rd = (if rd = 0 then 0 else failStatus (thr s h).pendFail) ∧
      (∀ r, r ≠ rd → greg t h r = greg s h r) ∧ t.mem = s.mem := by
  have hthr : thr (fenceReported s h) h = { thr s h with pendFail := none } := by
    rw [fenceReported, modThr, thr_setThr_same, bufferEmpty, thr_modCore s (fun _ => by rfl)]
  have hbuf : (core (fenceReported s h) h.core).readBuf = [] := by
    rw [fenceReported, modThr, core_setThr_same, bufferEmpty, core_modCore_same]
  have hmem : (fenceReported s h).mem = s.mem := rfl
  have hreg (r : GReg) : greg (fenceReported s h) h r = greg s h r := by
    rw [greg, hthr]
    exact thread_rd_congr rfl rfl rfl rfl rfl rfl r
  have hempty : (thr (fenceReported s h) h).window = [] := by
    rw [hthr]
    exact hwindow
  rw [commitFence_eq]
  generalize fenceReported s h = u at hthr hbuf hmem hreg hempty
  obtain ⟨honly, hended⟩ := endWait_fields (setGreg u h rd (failStatus (thr s h).pendFail)) h
  obtain ⟨-, -, -, hcore⟩ := (onlyThread_modThr u h _).trans honly
  obtain ⟨hwait, hpc⟩ := thr_endWait_setGreg u h rd (failStatus (thr s h).pendFail)
  refine ⟨by rw [hpc, hthr], hwait, ?_, by rw [hcore, hbuf], ?_, fun r hr => ?_, ?_⟩
  · rw [hended, thr_setGreg_same, thread_wr_eq, hthr]
    rfl
  · rw [greg_endWait, greg_setGreg_same hempty]
  · rw [greg_endWait, greg_setGreg_other hempty _ hr, hreg]
  · rw [endWait_mem, mem_setGreg, hmem]

/-- FENCE with FV and nothing left to wait for empties the line buffer and reports (R226, R227). -/
theorem fence_reports {s : State} {h : Hart} (hi : canIssue s h = true) {fv : Bool} (hfv : fv = true)
    (hclear : laneClear s h = true) (ll fin : Bool) (rd : GReg) :
    ∃ t, exec (.fence h rd ll fv fin) s = .next t ∧ (thr t h).pc = (thr s h).pc + 4 ∧ (thr t h).wait = .none ∧
      (thr t h).pendFail = none ∧ (core t h.core).readBuf = [] ∧
      greg t h rd = (if rd = 0 then 0 else failStatus (thr s h).pendFail) ∧
      (∀ r, r ≠ rd → greg t h r = greg s h r) ∧ t.mem = s.mem := by
  have hexec := exec_fence hi (ll := ll) (fv := fv) (fin := fin) (by rw [hfv, Bool.or_true, Bool.true_or]) rd
  rw [if_pos hfv] at hexec
  obtain ⟨honly, hthr⟩ := fenceWaiting_fields s h fin rd
  generalize fenceWaiting s h fin rd = v at hexec honly hthr
  have hsame := honly.mem_eq
  obtain ⟨-, -, -, hcore⟩ := honly
  have hrun : (core v h.core).run = .running := by rw [hcore, running_of_canIssue hi]
  have hclear' : laneClear v h = true := by
    rw [laneClear, hcore]
    exact hclear
  have hreg (r : GReg) : greg v h r = greg s h r := by
    rw [greg, hthr]
    exact thread_rd_congr rfl rfl rfl rfl rfl rfl r
  rw [wakeFence_commits (by rw [hthr]) hclear' hrun] at hexec
  obtain ⟨hpc, hwait, hfail, hbuf, hrd, hother, hmem⟩ :=
    commitFence_fields (s := v) (h := h) (by rw [hthr]; exact window_of_canIssue hi) rd
  rw [hthr] at hpc hrd
  exact ⟨_, hexec, hpc, hwait, hfail, hbuf, hrd, fun r hr => (hother r hr).trans (hreg r), hmem.trans hsame⟩

/-- FENCE without FV commits with 0 in rd, and arms the thread's level where FIN asks for it (R221, R229). -/
theorem fence_passes {s : State} {h : Hart} (hi : canIssue s h = true) {ll fv fin : Bool} (hfv : fv = false)
    (hany : (ll || fin) = true) (rd : GReg) :
    ∃ t, exec (.fence h rd ll fv fin) s = .next t ∧ (thr t h).pc = (thr s h).pc + 4 ∧ greg t h rd = 0 ∧
      (thr t h).pendFail = (thr s h).pendFail ∧ (∀ r, r ≠ rd → greg t h r = greg s h r) ∧
      (∀ l, l < 4 → bit (thr t h).finArmed l =
        (bit (thr s h).finArmed l || (fin && decide (l = (thr s h).level.toNat)))) ∧ SameMemory s t := by
  have hexec := exec_fence hi (ll := ll) (fv := fv) (fin := fin) (by rw [hfv, Bool.or_false, hany]) rd
  rw [if_neg (by rw [hfv]; exact Bool.false_ne_true)] at hexec
  obtain ⟨honly, hthr, harmed⟩ := fenceArmed_fields s h fin
  generalize fenceArmed s h fin = v at hexec honly hthr harmed
  have hwindow : (thr v h).window = [] := by
    rw [hthr]
    exact window_of_canIssue hi
  have hreg (r : GReg) : greg v h r = greg s h r := by
    rw [greg, hthr]
    exact thread_rd_congr rfl rfl rfl rfl rfl rfl r
  have hcommit : thr (retire (setGreg v h rd 0) h) h = afterCommit ((thr v h).wr rd 0) ((thr v h).pc + 4) := by
    rw [retire_setGreg, thr_retireTo, thr_setGreg_same, afterCommit]
  have hframe : ((thr v h).wr rd 0).pendFail = (thr v h).pendFail ∧ ((thr v h).wr rd 0).finArmed = (thr v h).finArmed := by
    rw [thread_wr_eq]
    exact ⟨rfl, rfl⟩
  obtain ⟨hpend, hfin⟩ := hframe
  refine ⟨_, hexec, ?_, ?_, ?_, fun r hr => ?_, fun l hl => ?_, sameMemory_of_mem ?_⟩
  · rw [hcommit, afterCommit, hthr]
  · rw [greg_retire, greg_setGreg_same hwindow, ite_self]
  · rw [hcommit, afterCommit, hpend, hthr]
  · rw [greg_retire, greg_setGreg_other hwindow _ hr, hreg]
  · rw [hcommit, afterCommit, hfin, harmed l hl]
  · rw [retire_mem, mem_setGreg, honly.mem_eq]

/-- Settles O21: the fetch by the word of its line, the flush and the fence by what each leaves. -/
theorem fetchFlushAndFence : Obligations.FetchFlushAndFence := by
  unfold Obligations.FetchFlushAndFence
  intro h rd ll fv fin s u pc w legal
  refine ⟨fun hi hnone hflush ha hlocal hview hempty hlatent hpoison => ?fetch, fun hi => ?iflush, fun hflush => ?done,
    fun hi hfv hclear => ?fenceFv, fun hi hfv hflags => ?fence⟩
  case fetch =>
    obtain ⟨v, hframe, hexec⟩ := exec_instructionFetch hi hnone hflush ha hlocal hview hempty hlatent hpoison
    refine ⟨fun hlegal => ?_, fun hillegal hl => ?_⟩
    · exact ⟨_, hexec, fetchWord_brings hframe hlegal⟩
    · exact ⟨_, hexec, fetchWord_traps hframe hillegal (window_of_canIssue hi) hl⟩
  case iflush =>
    refine ⟨_, exec_iflush hi, ?_, ?_, sameMemory_of_mem (by rw [retire_mem, modCore_mem])⟩
    · rw [core_retire, core_modCore_same]
    · rw [thr_retire, thr_modCore s (fun _ => by rfl)]
  case done =>
    refine ⟨_, exec_iflushDone hflush, ?_, ?_, sameMemory_of_mem (modCore_mem s _ _), thr_modCore s fun _ => rfl⟩ <;>
      rw [core_modCore_same]
  case fenceFv =>
    obtain ⟨t, hexec, hpc, hwait, hfail, hbuf, hrd, hother, hmem⟩ := fence_reports hi hfv hclear ll fin rd
    refine ⟨t, hexec, hpc, hwait, hfail, hbuf, ?_, hother, sameMemory_of_mem hmem⟩
    rw [hrd]
    cases u.pendFail <;> rfl
  case fence =>
    obtain ⟨t, hexec, hfields⟩ := fence_passes hi hfv (by simpa using hflags) rd
    exact ⟨t, hexec, hfields⟩

end Sys2Proof.Machine
end

section
/-! PROOFS. Fields and bits of a register after one of it was written. -/

namespace Sys2Proof.Machine

/-! ### Fields of words -/

/-- A field reads as the number written to it, cut to its width. -/
theorem bits_putBits_same (w : Word) {hi lo : Nat} (hhi : hi < 32) (v : Nat) :
    bits (putBits w hi lo v) hi lo = v % 2 ^ (hi + 1 - lo) := by
  refine Nat.eq_of_testBit_eq fun i => ?_
  rw [testBit_bits, Nat.testBit_mod_two_pow]
  by_cases h : i < hi + 1 - lo
  · rw [bit_putBits w (by omega), if_pos (by omega), Nat.add_sub_cancel_left]
  · simp [h]

/-- A field that shares no bit with the one written reads as before. -/
theorem bits_putBits_apart (w : Word) {hi lo h l : Nat} (hh : h < 32) (hapart : h < lo ∨ hi < l) (v : Nat) :
    bits (putBits w hi lo v) h l = bits w h l :=
  bits_congr fun i h1 h2 => by rw [bit_putBits w (by omega), if_neg (by omega)]

/-! ### Fields and bits of a register -/

theorem fld_setReg_same (s : State) (o : Nat) (v : Word) (hi lo : Nat) : fld (setReg s o v) o hi lo = bits v hi lo := by
  rw [fld, reg_setReg_same]

theorem fld_setFld_same (s : State) (o : Nat) {hi lo : Nat} (hhi : hi < 32) (v : Nat) :
    fld (setFld s o hi lo v) o hi lo = v % 2 ^ (hi + 1 - lo) := by
  rw [fld, reg_setFld_same, bits_putBits_same _ hhi]

theorem fld_setFld_apart (s : State) (o : Nat) {hi lo h l : Nat} (hh : h < 32) (hapart : h < lo ∨ hi < l) (v : Nat) :
    fld (setFld s o hi lo v) o h l = fld s o h l := by
  rw [fld, reg_setFld_same, bits_putBits_apart _ hh hapart, fld]

theorem flag_setFlag_same (s : State) (o : Nat) {i : Nat} (hi : i < 32) (b : Bool) : flag (setFlag s o i b) o i = b := by
  rw [flag, reg_setFlag_same, bit_putBit _ b hi hi, if_pos rfl]

end Sys2Proof.Machine
end

section
/-! PROOFS. The waybill engine: its word of state, its faults, and the last repeat of a LOOP at the end of the store (R169, R172,
R179, R457). -/

namespace Sys2Proof.Machine

/-! ### The engine of a core (R167, R180) -/

@[simp] theorem reg_modWb (s : State) (c : Nat) (f : Waybill → Waybill) (o : Nat) : reg (modWb s c f) o = reg s o := rfl

@[simp] theorem modWb_mem (s : State) (c : Nat) (f : Waybill → Waybill) : (modWb s c f).mem = s.mem := rfl

@[simp] theorem wbOf_modWb_same (s : State) (c : Nat) (f : Waybill → Waybill) : wbOf (modWb s c f) c = f (wbOf s c) := by
  rw [wbOf, modWb, core_modCore_same, wbOf]

/-! ### Entries without transfers (R169) -/

/-- An engine at an entry of a listed OP is not at one of a reserved OP. -/
theorem not_reserved_of_wbAt {s : State} {c op : Nat} (hop : op ≤ 6) (hat : wbAt s c op = true) : wbReserved s c = false := by
  simp only [wbAt, Bool.and_eq_true, decide_eq_true_eq] at hat
  obtain ⟨-, hentry⟩ := hat
  simp [wbReserved, hentry, hop]

theorem wbState_of_wbAt {s : State} {c op : Nat} (hat : wbAt s c op = true) : wbState s c = 2 := by
  simp only [wbAt, Bool.and_eq_true, decide_eq_true_eq] at hat
  obtain ⟨⟨-, hstate⟩, -⟩ := hat
  exact hstate

/-- An entry that passes its start checks does what its OP says. -/
theorem wbSimple_starts {s : State} {c op : Nat} (hop : op ≤ 6) (hat : wbAt s c op = true) (hnew : (wbOf s c).started = none)
    (hcheck : wbCheck s c (wbEntry s c) = none) (k : State → State) : wbSimple s c op k = .next (k s) := by
  simp [wbSimple, not_reserved_of_wbAt hop hat, hat, hnew, hcheck]

/-! ### Faults (R172, R457) -/

/-- The word of CMP_WB_FAULT that records a fault (R172, R180). -/
def faultWord (status entry dir peer : Nat) : Word :=
  BitVec.ofNat 32 (status + 256 * (entry % 1024) + 2 ^ 18 * (dir % 4) + 2 ^ 20 * (peer % 1024) + 2 ^ 31)

/-- A fault is recorded in CMP_WB_FAULT. -/
theorem reg_wbFault (s : State) (c status entry dir peer : Nat) :
    reg (wbFault s c status entry dir peer) (Reg.cmpWbFault c) = faultWord status entry dir peer := by
  obtain ⟨hkeeps, -⟩ := pendingGrows_raiseLine
    (setReg (setWbState (modWb s c wbFresh) c 3) (Reg.cmpWbFault c) (faultWord status entry dir peer)) c
    (l := 29) (BitVec.ofNat 32 status) (by decide)
  exact (hkeeps.sameRegs _).trans (reg_setReg_same _ _ _)

/-- Past entry 1,023 the engine faults (R457). -/
theorem wbAdvance_past {s : State} {c : Nat} (hpc : wbPc s c = 1023) : wbAdvance s c = wbFault s c 0x0B 1023 0 0x3FF :=
  if_pos hpc

/-- The last repeat of a LOOP at entry 1,023 faults the engine (R179, R457). -/
theorem exec_wbLoop_past {s : State} {c : Nat} (hat : wbAt s c 6 = true) (hnew : (wbOf s c).started = none)
    (hcheck : wbCheck s c (wbEntry s c) = none) (hleft : (wbOf s c).loopLeft = none) (hone : wbBeats (wbEntry s c) = 1)
    (hpc : wbPc s c = 1023) : ∃ u, exec (.wbLoop c) s = .next (wbFault u c 0x0B 1023 0 0x3FF) := by
  refine ⟨modWb s c fun w => { w with loopLeft := none, offset := 0 }, ?_⟩
  show execWbLoop c s = _
  rw [execWbLoop, wbSimple_starts (by decide) hat hnew hcheck]
  simp only [hleft, hone, Nat.sub_self, if_true]
  exact congrArg _ (wbAdvance_past hpc)

/-! ### A LOOP at the end of the store -/

/-- A running engine of core 0 at entry 1,023 of its store, a LOOP of one repeat to entry 1,022; everything else is as after
reset. -/
def loopAtEnd : State :=
  { State.reset with
    pkg := { State.reset.pkg with pwrok := true, perst := true, slumber := false }
    regs := [(Reg.cmpWbStat 0, 0x3FF0002)]
    cores := [(0, { Core.reset with wb := { Waybill.reset with store := [(1023, 0x6001FF0000000000)] } })] }

theorem loopAtEnd_starts :
    wbAt loopAtEnd 0 6 = true ∧ (wbOf loopAtEnd 0).started = none ∧ wbCheck loopAtEnd 0 (wbEntry loopAtEnd 0) = none := by
  decide +kernel

theorem loopAtEnd_ends :
    (wbOf loopAtEnd 0).loopLeft = none ∧ wbBeats (wbEntry loopAtEnd 0) = 1 ∧ wbPc loopAtEnd 0 = 1023 ∧
      reg loopAtEnd (Reg.cmpWbFault 0) = 0x3FF00000 := by
  decide +kernel

/-- Refutes O31: of LOOP the statement says that no register but CMP_WB_STAT changes, whatever its entry; the last repeat of a
LOOP at entry 1,023 faults the engine, and CMP_WB_FAULT records that (R172, R457). -/
theorem not_waybillEntriesWithoutTransfers : ¬ Obligations.WaybillEntriesWithoutTransfers := by
  unfold Obligations.WaybillEntriesWithoutTransfers
  intro h
  obtain ⟨-, -, -, hloop, -⟩ := h 0 loopAtEnd
  obtain ⟨t, hexec, -, hregs, -⟩ := hloop loopAtEnd_starts
  obtain ⟨hat, hnew, hcheck⟩ := loopAtEnd_starts
  obtain ⟨hleft, hone, hpc, hclear⟩ := loopAtEnd_ends
  obtain ⟨u, hfault⟩ := exec_wbLoop_past hat hnew hcheck hleft hone hpc
  obtain rfl : wbFault u 0 0x0B 1023 0 0x3FF = t := by simpa using hfault.symm.trans hexec
  have hsame := hregs (Reg.cmpWbFault 0) (by decide)
  rw [reg_wbFault, hclear] at hsame
  exact absurd hsame (by decide)

end Sys2Proof.Machine
end

section
/-! PROOFS. The links of the mesh: one side of a link changed, its other side at the neighbour, and what a clock that waits for
quiet links leaves alone (R24, R164). -/

namespace Sys2Proof.Machine

/-! ### Neighbours (R47, R178) -/

theorem neighbour_of_pkg {s t : State} (h : t.pkg = s.pkg) (c d : Nat) : neighbour t c d = neighbour s c d := by
  simp only [neighbour, h]

/-- No core is its own neighbour. -/
theorem neighbour_ne {s : State} {c d n : Nat} (h : neighbour s c d = some n) : n ≠ c := by
  unfold neighbour at h
  split_ifs at h <;> (simp only [Option.some.injEq] at h; omega)

theorem opposite_ne {d e : Nat} (hd : d < 4) (he : e < 4) (hne : d ≠ e) : opposite d ≠ opposite e := by
  simp only [opposite]
  omega

/-! ### One side of a link changed (R164) -/

theorem link_modLink_same (s : State) (c d : Nat) (f : NbrLink → NbrLink) : link (modLink s c d f) c d = f (link s c d) := by
  rw [link, modLink, core_modCore_same, sget_sput_same, link]

theorem link_modLink_dir (s : State) (c : Nat) {d e : Nat} (f : NbrLink → NbrLink) (he : e ≠ d) (k : Nat) :
    link (modLink s c d f) k e = link s k e := by
  by_cases hk : k = c
  · rw [hk, link, modLink, core_modCore_same, sget_sput_other _ _ _ he, link]
  · rw [link, modLink, core_modCore_other s _ hk, link]

theorem link_modLink_core (s : State) {c k : Nat} (d : Nat) (f : NbrLink → NbrLink) (hk : k ≠ c) (e : Nat) :
    link (modLink s c d f) k e = link s k e := by
  rw [link, modLink, core_modCore_other s _ hk, link]

/-- The neighbour's side of a link is the link of the neighbour in the opposite direction. -/
theorem modPeer_of_neighbour {s : State} {c d n : Nat} (h : neighbour s c d = some n) (f : NbrLink → NbrLink) :
    modPeer s c d f = modLink s n (opposite d) f := by
  simp only [modPeer, h]

/-- A change of the neighbour's side leaves this core's side, and every link in another direction. -/
theorem link_modPeer_own (s : State) (c d : Nat) (f : NbrLink → NbrLink) (e : Nat) : link (modPeer s c d f) c e = link s c e := by
  unfold modPeer
  split
  next n h => exact link_modLink_core s _ f (neighbour_ne h).symm e
  next => rfl

theorem link_modPeer_peer {s : State} {c d n : Nat} (hn : neighbour s c d = some n) (f : NbrLink → NbrLink) :
    link (modPeer s c d f) n (opposite d) = f (link s n (opposite d)) := by
  rw [modPeer_of_neighbour hn, link_modLink_same]

theorem link_modPeer_dir (s : State) (c : Nat) {d e : Nat} (f : NbrLink → NbrLink) (he : e ≠ opposite d) (k : Nat) :
    link (modPeer s c d f) k e = link s k e := by
  unfold modPeer
  split
  · exact link_modLink_dir s _ f he k
  · rfl

/-! ### What leaves everything but one core and some registers alone -/

theorem OnlyCoreRegs.trans {s t u : State} {c : Nat} {l : List Nat} (hst : OnlyCoreRegs s t c l) (htu : OnlyCoreRegs t u c l) :
    OnlyCoreRegs s u c l := by
  obtain ⟨est, cst, rst⟩ := hst
  obtain ⟨etu, ctu, rtu⟩ := htu
  exact ⟨by rw [etu, est], fun d hd => (ctu d hd).trans (cst d hd), fun o ho => (rtu o ho).trans (rst o ho)⟩

theorem onlyCoreRegs_modCore (s : State) (c : Nat) (f : Core → Core) (l : List Nat) : OnlyCoreRegs s (modCore s c f) c l :=
  ⟨rfl, fun _ hd => core_modCore_other s f hd, fun _ _ => rfl⟩

theorem onlyCoreRegs_setReg (s : State) (c : Nat) {o : Nat} (v : Word) {l : List Nat} (ho : o ∈ l) :
    OnlyCoreRegs s (setReg s o v) c l :=
  ⟨rfl, fun _ _ => rfl, fun _ hp => reg_setReg_other s v (ne_of_mem_of_not_mem ho hp).symm⟩

/-! ### What leaves everything but links alone -/

/-- Nothing but links of cores has changed. -/
structure OnlyLinks (s t : State) : Prop where
  rest : t = { s with cores := t.cores }
  core : ∀ k, core t k = { core s k with links := (core t k).links }

theorem OnlyLinks.refl (s : State) : OnlyLinks s s := ⟨rfl, fun _ => rfl⟩

theorem OnlyLinks.trans {s t u : State} (hst : OnlyLinks s t) (htu : OnlyLinks t u) : OnlyLinks s u :=
  ⟨by rw [htu.rest, hst.rest], fun k => by rw [htu.core, hst.core]⟩

theorem onlyLinks_modLink (s : State) (c d : Nat) (f : NbrLink → NbrLink) : OnlyLinks s (modLink s c d f) := by
  refine ⟨rfl, fun k => ?_⟩
  by_cases hk : k = c
  · rw [hk, modLink, core_modCore_same]
  · rw [modLink, core_modCore_other s _ hk]

theorem onlyLinks_modPeer (s : State) (c d : Nat) (f : NbrLink → NbrLink) : OnlyLinks s (modPeer s c d f) := by
  unfold modPeer
  split
  · exact onlyLinks_modLink s _ _ f
  · exact .refl s

theorem OnlyLinks.wbOf {s t : State} (ho : OnlyLinks s t) (k : Nat) : wbOf t k = wbOf s k := by
  rw [Machine.wbOf, ho.core, Machine.wbOf]

theorem OnlyLinks.mem {s t : State} (ho : OnlyLinks s t) : t.mem = s.mem := by rw [ho.rest]

theorem OnlyLinks.pkg {s t : State} (ho : OnlyLinks s t) : t.pkg = s.pkg := by rw [ho.rest]

theorem OnlyLinks.reg {s t : State} (ho : OnlyLinks s t) (o : Nat) : reg t o = reg s o := by
  rw [ho.rest]
  rfl

theorem OnlyLinks.neighbour {s t : State} (ho : OnlyLinks s t) (c d : Nat) : neighbour t c d = neighbour s c d :=
  neighbour_of_pkg ho.pkg c d

/-! ### Both sides of a link changed (R164) -/

/-- Both sides of the link of a core in one direction changed: its own, and its neighbour's. -/
def modSides (s : State) (c d : Nat) (f g : NbrLink → NbrLink) : State := modPeer (modLink s c d f) c d g

theorem onlyLinks_modSides (s : State) (c d : Nat) (f g : NbrLink → NbrLink) : OnlyLinks s (modSides s c d f g) :=
  (onlyLinks_modLink s c d f).trans (onlyLinks_modPeer _ c d g)

theorem link_modSides_own (s : State) (c d : Nat) (f g : NbrLink → NbrLink) :
    link (modSides s c d f g) c d = f (link s c d) := by
  rw [modSides, link_modPeer_own, link_modLink_same]

theorem link_modSides_peer {s : State} {c d n : Nat} (hn : neighbour s c d = some n) (f g : NbrLink → NbrLink) :
    link (modSides s c d f g) n (opposite d) = g (link s n (opposite d)) := by
  rw [modSides, link_modPeer_peer (((onlyLinks_modLink s c d f).neighbour c d).trans hn),
    link_modLink_core s d f (neighbour_ne hn)]

/-- Both sides of the link of a core in one direction are as before. -/
def SameLink (s t : State) (c d : Nat) : Prop :=
  link t c d = link s c d ∧ ∀ n, neighbour s c d = some n → link t n (opposite d) = link s n (opposite d)

theorem SameLink.trans {s t u : State} {c d : Nat} (hsu : SameLink s u c d) (hut : SameLink u t c d)
    (hn : neighbour u c d = neighbour s c d) : SameLink s t c d := by
  obtain ⟨hown, hpeer⟩ := hsu
  obtain ⟨hown', hpeer'⟩ := hut
  exact ⟨hown'.trans hown, fun n h => (hpeer' n (hn.trans h)).trans (hpeer n h)⟩

/-- A link changed leaves the links of the core in the other directions. -/
theorem sameLink_modSides (s : State) (c : Nat) {d e : Nat} (hd : d < 4) (he : e < 4) (hne : e ≠ d) (f g : NbrLink → NbrLink) :
    SameLink s (modSides s c d f g) c e := by
  refine ⟨?_, fun n hn => ?_⟩
  · rw [modSides, link_modPeer_own, link_modLink_dir s c f hne]
  · rw [modSides, link_modPeer_dir _ c g (opposite_ne he hd hne), link_modLink_core s d f (neighbour_ne hn)]

/-! ### The end of a wait for quiet links (R24) -/

/-- Nothing but cores has changed, and of those neither links nor engines. -/
structure KeepsPlane (s t : State) : Prop where
  rest : t = { s with cores := t.cores }
  wb : ∀ k, wbOf t k = wbOf s k
  link : ∀ k d, link t k d = link s k d

theorem KeepsPlane.refl (s : State) : KeepsPlane s s := ⟨rfl, fun _ => rfl, fun _ _ => rfl⟩

theorem KeepsPlane.trans {s t u : State} (hst : KeepsPlane s t) (htu : KeepsPlane t u) : KeepsPlane s u :=
  ⟨by rw [htu.rest, hst.rest], fun k => (htu.wb k).trans (hst.wb k), fun k d => (htu.link k d).trans (hst.link k d)⟩

theorem KeepsPlane.mem {s t : State} (hk : KeepsPlane s t) : t.mem = s.mem := by rw [hk.rest]

theorem KeepsPlane.reg {s t : State} (hk : KeepsPlane s t) (o : Nat) : reg t o = reg s o := by
  rw [hk.rest]
  rfl

theorem keepsPlane_modCore (s : State) (c : Nat) {f : Core → Core} (hwb : ∀ k, (f k).wb = k.wb)
    (hlinks : ∀ k, (f k).links = k.links) :
    KeepsPlane s (modCore s c f) := by
  refine ⟨rfl, fun k => ?_, fun k d => ?_⟩ <;> by_cases hk : k = c
  · rw [hk, wbOf, core_modCore_same, hwb, wbOf]
  · rw [wbOf, core_modCore_other s f hk, wbOf]
  · rw [hk, Machine.link, core_modCore_same, hlinks, Machine.link]
  · rw [Machine.link, core_modCore_other s f hk, Machine.link]

theorem keepsPlane_setCoreCsr (s : State) (c n : Nat) (v : Word) : KeepsPlane s (setCoreCsr s c n v) :=
  keepsPlane_modCore s c (fun _ => rfl) fun _ => rfl

theorem keepsPlane_setIslandStep (s : State) (c : Nat) (st : BitVec 6) : KeepsPlane s (setIslandStep s c st) := by
  unfold setIslandStep
  exact keepsPlane_modCore s c (fun _ => rfl) fun _ => rfl

theorem keepsPlane_beginRelock (s : State) (c : Nat) : KeepsPlane s (beginRelock s c) := by
  have hended : KeepsPlane s (modCore s c fun k => { k with clkWait := false }) :=
    keepsPlane_modCore s c (fun _ => rfl) fun _ => rfl
  unfold beginRelock
  dsimp only
  split
  · exact hended
  · exact (hended.trans (keepsPlane_setCoreCsr _ c _ _)).trans (keepsPlane_setIslandStep _ c _)

theorem keepsPlane_relockIfQuiet (s : State) (c : Nat) : KeepsPlane s (relockIfQuiet s c) := by
  unfold relockIfQuiet
  split
  · exact keepsPlane_beginRelock s c
  · exact .refl s

theorem keepsPlane_linkSettled (s : State) (c d : Nat) : KeepsPlane s (linkSettled s c d) := by
  unfold linkSettled
  dsimp only
  split
  · exact (keepsPlane_relockIfQuiet s c).trans (keepsPlane_relockIfQuiet _ _)
  · exact keepsPlane_relockIfQuiet s c

/-- Where no core waits for quiet links, nothing happens as something leaves one. -/
theorem linkSettled_of_none {s : State} (hclk : ∀ k, (core s k).clkWait = false) (c d : Nat) : linkSettled s c d = s := by
  have hquiet : ∀ k, relockIfQuiet s k = s := fun k => by simp [relockIfQuiet, hclk k]
  unfold linkSettled
  simp only [hquiet]
  split <;> rfl

end Sys2Proof.Machine
end

section
/-! PROOFS. The commands of a waybill engine: GO, CLEAR, LOAD and the end of a load (R177, R180). -/

namespace Sys2Proof.Machine

/-! ### What touches one engine and its registers -/

/-- Nothing but the engine of one core, and of the registers of the part only those listed, has changed. -/
def EngineOnly (s t : State) (c : Nat) (l : List Nat) : Prop :=
  OnlyCoreRegs s t c l ∧ core t c = { core s c with wb := (core t c).wb } ∧ SameMemory s t

theorem EngineOnly.trans {s t u : State} {c : Nat} {l : List Nat} (hst : EngineOnly s t c l) (htu : EngineOnly t u c l) :
    EngineOnly s u c l := by
  obtain ⟨ost, kst, mst⟩ := hst
  obtain ⟨otu, ktu, mtu⟩ := htu
  exact ⟨ost.trans otu, by rw [ktu, kst], fun a => (mtu a).trans (mst a)⟩

theorem engineOnly_modWb (s : State) (c : Nat) (f : Waybill → Waybill) (l : List Nat) : EngineOnly s (modWb s c f) c l :=
  ⟨onlyCoreRegs_modCore s c _ l, by rw [modWb, core_modCore_same], fun _ => rfl⟩

theorem engineOnly_setReg (s : State) (c : Nat) {o : Nat} (v : Word) {l : List Nat} (ho : o ∈ l) :
    EngineOnly s (setReg s o v) c l := ⟨onlyCoreRegs_setReg s c v ho, rfl, fun _ => rfl⟩

theorem link_modWb (s : State) (c : Nat) (f : Waybill → Waybill) (k d : Nat) : link (modWb s c f) k d = link s k d := by
  by_cases hk : k = c
  · rw [hk, link, modWb, core_modCore_same, link]
  · rw [link, modWb, core_modCore_other s _ hk, link]

theorem wbOf_setReg (s : State) (o : Nat) (v : Word) (c : Nat) : wbOf (setReg s o v) c = wbOf s c := rfl

theorem wbOf_setFld (s : State) (o hi lo v c : Nat) : wbOf (setFld s o hi lo v) c = wbOf s c := rfl

theorem wbState_setWbState (s : State) (c : Nat) {st : Nat} (hst : st < 4) : wbState (setWbState s c st) c = st := by
  rw [wbState, setWbState, fld_setFld_same s _ (by decide)]
  exact Nat.mod_eq_of_lt hst

/-! ### A write of CMP_WB_CTL (R12, R180) -/

/-- The word with which a command is written: the fields kept and one command bit. -/
def commandWord (s : State) (c : Nat) (b : Word) : Word := (reg s (Reg.cmpWbCtl c) &&& 0x3FF18) ||| b

/-- The fields that a command keeps: IRQ_END, GUARDED and START. -/
def KeptBit (i : Nat) : Prop := i = 3 ∨ i = 4 ∨ (8 ≤ i ∧ i ≤ 17)

theorem bit_keptMask {i : Nat} (hi : KeptBit i) :
    bit (0x3FF18 : Word) i = true ∧ bit (0x3FF1F : Word) i = true ∧ bit (7 : Word) i = false := by
  have hall : ∀ i < 18, i = 3 ∨ i = 4 ∨ 8 ≤ i →
      bit (0x3FF18 : Word) i = true ∧ bit (0x3FF1F : Word) i = true ∧ bit (7 : Word) i = false := by decide
  unfold KeptBit at hi
  exact hall i (by omega) (by omega)

/-- A command word has its command bits as given and its fields as they were. -/
theorem bit_commandWord_command (s : State) (c : Nat) (b : Word) {i : Nat} (hi : i < 3) : bit (commandWord s c b) i = bit b i := by
  have hmask : ∀ i < 3, bit (0x3FF18 : Word) i = false := by decide
  rw [commandWord, bit_or, bit_and, hmask i hi, Bool.and_false, Bool.false_or]

theorem bit_commandWord_kept (s : State) (c : Nat) {b : Word} (hb : b &&& 7 = b) {i : Nat} (hi : KeptBit i) :
    bit (commandWord s c b) i = bit (reg s (Reg.cmpWbCtl c)) i := by
  obtain ⟨hkept, -, hcommand⟩ := bit_keptMask hi
  have hzero : bit b i = false := by rw [← hb, bit_and, hcommand, Bool.and_false]
  rw [commandWord, bit_or, bit_and, hkept, hzero, Bool.and_true, Bool.or_false]

/-- The state in which a write of CMP_WB_CTL has reached the register and no command has acted. -/
def ctlWritten (s : State) (o : Origin) (c : Nat) (v : Word) : State :=
  let old := reg s (Reg.cmpWbCtl c)
  setReg s (Reg.cmpWbCtl c) (((if guardedOrigin o then v else putBit v 4 (bit old 4)) &&& 0x3FF1F) ||| (old &&& 7))

theorem engineOnly_ctlWritten (s : State) (o : Origin) (c : Nat) (v : Word) {l : List Nat} (hl : Reg.cmpWbCtl c ∈ l) :
    EngineOnly s (ctlWritten s o c v) c l := engineOnly_setReg s c _ hl

/-- A command keeps IRQ_END, GUARDED and START. -/
theorem flag_ctlWritten (s : State) (o : Origin) (c : Nat) {b : Word} (hb : b &&& 7 = b) {i : Nat} (hi : KeptBit i) :
    flag (ctlWritten s o c (commandWord s c b)) (Reg.cmpWbCtl c) i = flag s (Reg.cmpWbCtl c) i := by
  obtain ⟨-, hmask, hcommand⟩ := bit_keptMask hi
  have hi32 : i < 32 := by unfold KeptBit at hi; omega
  rw [flag, ctlWritten, reg_setReg_same, bit_or, bit_and, bit_and, hmask, hcommand, Bool.and_true, Bool.and_false, Bool.or_false,
    flag]
  split
  · exact bit_commandWord_kept s c hb hi
  · rw [bit_putBit _ _ (by decide) hi32]
    split
    next h => rw [h]
    next => exact bit_commandWord_kept s c hb hi

theorem start_ctlWritten (s : State) (o : Origin) (c : Nat) {b : Word} (hb : b &&& 7 = b) :
    fld (ctlWritten s o c (commandWord s c b)) (Reg.cmpWbCtl c) 17 8 = fld s (Reg.cmpWbCtl c) 17 8 :=
  bits_congr fun _ h1 h2 => flag_ctlWritten s o c hb (.inr (.inr ⟨h1, h2⟩))

theorem wbGuarded_ctlWritten (s : State) (o : Origin) (c : Nat) {b : Word} (hb : b &&& 7 = b) :
    wbGuarded (ctlWritten s o c (commandWord s c b)) c = wbGuarded s c := flag_ctlWritten s o c hb (.inr (.inl rfl))

theorem wbCommand_allowed {s : State} {o : Origin} {c : Nat} {b : Word} (ha : AllowedWrite s o (Reg.cmpWbCtl c) (commandWord s c b)) :
    wbCommand o c b s = .next (wbCtlWrite s o c (commandWord s c b)).1 := by
  show Host.Outcome.next (writeAt s o (Reg.cmpWbCtl c) (commandWord s c b) _).1 = _
  rw [writeAt_allowed ha, commandWord]

theorem wbCtlWrite_go {s : State} {c : Nat} (hidle : wbState s c = 0) (o : Origin) :
    (wbCtlWrite s o c (commandWord s c 1)).1 = wbGo (ctlWritten s o c (commandWord s c 1)) c := by
  have hclear : bit (commandWord s c 1) 1 = false := bit_commandWord_command s c 1 (by decide)
  have hgo : bit (commandWord s c 1) 0 = true := bit_commandWord_command s c 1 (by decide)
  simp only [wbCtlWrite, hidle, hclear, hgo, decide_true, Bool.and_self, if_true, Bool.false_eq_true, if_false]
  rfl

theorem wbCtlWrite_clear (s : State) (o : Origin) (c : Nat) :
    (wbCtlWrite s o c (commandWord s c 2)).1 = wbClear (ctlWritten s o c (commandWord s c 2)) c := by
  have hclear : bit (commandWord s c 2) 1 = true := bit_commandWord_command s c 2 (by decide)
  have hgo : bit (commandWord s c 2) 0 = false := bit_commandWord_command s c 2 (by decide)
  have hload : bit (commandWord s c 2) 2 = false := bit_commandWord_command s c 2 (by decide)
  simp only [wbCtlWrite, hclear, hgo, hload, Bool.and_false, if_true, Bool.false_eq_true, if_false]
  rfl

theorem wbCtlWrite_load {s : State} {c : Nat} (hidle : wbState s c = 0) (o : Origin) :
    (wbCtlWrite s o c (commandWord s c 4)).1 = wbLoad (ctlWritten s o c (commandWord s c 4)) c := by
  have hclear : bit (commandWord s c 4) 1 = false := bit_commandWord_command s c 4 (by decide)
  have hgo : bit (commandWord s c 4) 0 = false := bit_commandWord_command s c 4 (by decide)
  have hload : bit (commandWord s c 4) 2 = true := bit_commandWord_command s c 4 (by decide)
  simp only [wbCtlWrite, hidle, hclear, hgo, hload, decide_true, Bool.and_self, Bool.and_false, if_true, Bool.false_eq_true,
    if_false]
  rfl

/-! ### GO (R180) -/

theorem goWord_fields {st : Nat} (hst : st < 1024) :
    let w : Word := BitVec.ofNat 32 (2 + 65536 * st)
    bits w 1 0 = 2 ∧ bits w 25 16 = st ∧ bit w 2 = false := by
  have hw : (BitVec.ofNat 32 (2 + 65536 * st)).toNat = 2 + 65536 * st := toNat_ofNat_of_lt (by omega)
  simp only [bits, bit, hw, Nat.shiftRight_eq_div_pow, Nat.testBit_eq_decide_div_mod_eq, decide_eq_false_iff_not]
  omega

theorem wbGo_fields (s : State) (c : Nat) :
    EngineOnly s (wbGo s c) c [Reg.cmpWbCtl c, Reg.cmpWbStat c] ∧ wbState (wbGo s c) c = 2 ∧
      wbPc (wbGo s c) c = fld s (Reg.cmpWbCtl c) 17 8 ∧ flag (wbGo s c) (Reg.cmpWbStat c) 2 = false ∧
      (wbOf (wbGo s c) c).store = (wbOf s c).store ∧ (wbOf (wbGo s c) c).started = none := by
  have hword := goWord_fields (bits_lt (reg s (Reg.cmpWbCtl c)) 17 8)
  obtain ⟨hstate, hpc, hdone⟩ := hword
  refine ⟨(engineOnly_modWb s c _ _).trans (engineOnly_setReg _ c _ (by simp)), ?_, ?_, ?_, ?_, ?_⟩
  · rw [wbState, wbGo, fld_setReg_same]
    exact hstate
  · rw [wbPc, wbGo, fld_setReg_same]
    exact hpc
  · rw [flag, wbGo, reg_setReg_same]
    exact hdone
  · rw [wbGo, wbOf_setReg, wbOf_modWb_same]
    rfl
  · rw [wbGo, wbOf_setReg, wbOf_modWb_same]
    rfl

theorem waybillGo_runs {s : State} {o : Origin} {c : Nat} (ha : AllowedWrite s o (Reg.cmpWbCtl c) (commandWord s c 1))
    (hidle : wbState s c = 0) :
    ∃ t, exec (.waybillGo o c) s = .next t ∧ EngineOnly s t c [Reg.cmpWbCtl c, Reg.cmpWbStat c] ∧ wbState t c = 2 ∧
      wbPc t c = fld s (Reg.cmpWbCtl c) 17 8 ∧ flag t (Reg.cmpWbStat c) 2 = false ∧ (wbOf t c).store = (wbOf s c).store ∧
      (wbOf t c).started = none := by
  have hexec := (wbCommand_allowed ha).trans (congrArg _ (wbCtlWrite_go hidle o))
  obtain ⟨honly, hstate, hpc, hdone, hstore, hnew⟩ := wbGo_fields (ctlWritten s o c (commandWord s c 1)) c
  rw [start_ctlWritten s o c (by decide)] at hpc
  exact ⟨_, hexec, (engineOnly_ctlWritten s o c _ (by simp)).trans honly, hstate, hpc, hdone, hstore, hnew⟩

/-! ### LOAD (R177) -/

/-- The state in which a load has started. -/
def loadStarted (s : State) (c line len : Nat) : State := setWbState (modWb s c fun x => { x with load := (line, len) }) c 1

theorem loadStarted_fields (s : State) (c line len : Nat) :
    EngineOnly s (loadStarted s c line len) c [Reg.cmpWbCtl c, Reg.cmpWbStat c] ∧ wbState (loadStarted s c line len) c = 1 ∧
      (wbOf (loadStarted s c line len) c).load = (line, len) ∧
      (wbOf (loadStarted s c line len) c).store = (wbOf s c).store := by
  refine ⟨(engineOnly_modWb s c _ _).trans (engineOnly_setReg _ c _ (by simp)), wbState_setWbState _ c (by decide), ?_, ?_⟩ <;>
    rw [loadStarted, setWbState, wbOf_setFld, wbOf_modWb_same]

/-- A load whose lines all lie in local memory and, unless it is Guarded, in no guarded region starts. -/
theorem wbLoad_starts {s : State} {c line len : Nat} (hline : bits (reg s (Reg.cmpWbBase c)) 18 6 = line)
    (hlen : bits (reg s (Reg.cmpWbBase c)) 29 19 = len) (hfits : line + (len + 7) / 8 ≤ 6144)
    (hopen : ∀ l, line ≤ l → l < line + (len + 7) / 8 → wbGuarded s c = true ∨ inGlmem s c (64 * l) = false) :
    wbLoad s c = loadStarted s c line len := by
  have hlocal : ((upFrom line ((len + 7) / 8)).any fun l => decide (6143 < l)) = false := by
    simp only [List.any_eq_false, mem_upFrom, decide_eq_true_eq]
    omega
  have hworld : (!wbGuarded s c && (upFrom line ((len + 7) / 8)).any fun l => inGlmem s c (64 * l)) = false := by
    cases hg : wbGuarded s c with
    | true => rfl
    | false =>
      simp only [Bool.not_false, Bool.true_and, List.any_eq_false, mem_upFrom]
      intro l hl
      simpa [hg] using hopen l hl.1 hl.2
  simp only [wbLoad, hline, hlen, hlocal, hworld, Bool.false_eq_true, if_false]
  rfl

theorem waybillLoad_starts {s : State} {o : Origin} {c line len : Nat} (ha : AllowedWrite s o (Reg.cmpWbCtl c) (commandWord s c 4))
    (hidle : wbState s c = 0) (hline : bits (reg s (Reg.cmpWbBase c)) 18 6 = line)
    (hlen : bits (reg s (Reg.cmpWbBase c)) 29 19 = len) (hfits : line + (len + 7) / 8 ≤ 6144)
    (hopen : ∀ l, line ≤ l → l < line + (len + 7) / 8 → wbGuarded s c = true ∨ inGlmem s c (64 * l) = false) :
    ∃ t, exec (.waybillLoad o c) s = .next t ∧ EngineOnly s t c [Reg.cmpWbCtl c, Reg.cmpWbStat c] ∧ wbState t c = 1 ∧
      (wbOf t c).load = (line, len) ∧ (wbOf t c).store = (wbOf s c).store := by
  have hbase : reg (ctlWritten s o c (commandWord s c 4)) (Reg.cmpWbBase c) = reg s (Reg.cmpWbBase c) :=
    reg_setReg_other s _ (by simp)
  have hload : wbLoad (ctlWritten s o c (commandWord s c 4)) c = loadStarted (ctlWritten s o c (commandWord s c 4)) c line len := by
    refine wbLoad_starts (by rw [hbase, hline]) (by rw [hbase, hlen]) hfits fun l h1 h2 => ?_
    rw [wbGuarded_ctlWritten s o c (by decide)]
    exact hopen l h1 h2
  have hexec := (wbCommand_allowed ha).trans (congrArg _ ((wbCtlWrite_load hidle o).trans hload))
  obtain ⟨honly, hstate, hloading, hstore⟩ := loadStarted_fields (ctlWritten s o c (commandWord s c 4)) c line len
  exact ⟨_, hexec, (engineOnly_ctlWritten s o c _ (by simp)).trans honly, hstate, hloading, hstore⟩

/-! ### CLEAR (R180) -/

/-- The landing buffer of one direction emptied, its credits on their way back. -/
def landingCleared (c : Nat) (s : State) (d : Nat) : State :=
  returnCredits (modLink s c d fun l => { l with landing := [], dropped := 0 }) c d
    ((link s c d).landing.length + (link s c d).dropped)

theorem wbClear_eq (s : State) (c : Nat) :
    wbClear s c = setWbState (modWb (setReg (setReg ((List.range 4).foldl (landingCleared c) s) (Reg.cmpWbFault c) 0x3FF00000)
      (Reg.cmpWbDrop c) 0) c wbFresh) c 0 := rfl

theorem landingCleared_eq (c : Nat) (s : State) (d : Nat) :
    landingCleared c s d = modSides s c d (fun l => { l with landing := [], dropped := 0 }) fun l =>
      { l with creditBack := l.creditBack + ((link s c d).landing.length + (link s c d).dropped) } := rfl

/-- The landing buffer of a core in one direction is empty, and the credits of what it held and dropped are on their way back. -/
def LandingEmptied (s t : State) (c d : Nat) : Prop :=
  (link t c d).landing = [] ∧ (link t c d).dropped = 0 ∧ ∀ n, neighbour s c d = some n →
    (link t n (opposite d)).creditBack = (link s n (opposite d)).creditBack + (link s c d).landing.length + (link s c d).dropped

theorem LandingEmptied.of_same_after {s u t : State} {c d : Nat} (hsu : LandingEmptied s u c d) (hut : SameLink u t c d)
    (hn : neighbour u c d = neighbour s c d) : LandingEmptied s t c d := by
  obtain ⟨hland, hdrop, hback⟩ := hsu
  obtain ⟨hown, hpeer⟩ := hut
  exact ⟨by rw [hown, hland], by rw [hown, hdrop], fun n h => by rw [hpeer n (hn.trans h), hback n h]⟩

theorem LandingEmptied.of_same_before {s u t : State} {c d : Nat} (hsu : SameLink s u c d) (hut : LandingEmptied u t c d)
    (hn : neighbour u c d = neighbour s c d) : LandingEmptied s t c d := by
  obtain ⟨hown, hpeer⟩ := hsu
  obtain ⟨hland, hdrop, hback⟩ := hut
  exact ⟨hland, hdrop, fun n h => by rw [hback n (hn.trans h), hpeer n h, hown]⟩

theorem landingCleared_own (c : Nat) (s : State) (d : Nat) : LandingEmptied s (landingCleared c s d) c d := by
  rw [landingCleared_eq]
  refine ⟨by rw [link_modSides_own], by rw [link_modSides_own], fun n hn => ?_⟩
  rw [link_modSides_peer hn]
  exact (Nat.add_assoc _ _ _).symm

/-- Clearing some directions empties those and leaves the others. -/
theorem foldl_landingCleared (c : Nat) {ds : List Nat} (hnodup : ds.Nodup) (hlt : ∀ d ∈ ds, d < 4) (s : State) :
    let t := ds.foldl (landingCleared c) s
    OnlyLinks s t ∧ (∀ d ∈ ds, LandingEmptied s t c d) ∧ ∀ d, d < 4 → d ∉ ds → SameLink s t c d := by
  induction ds generalizing s with
  | nil => exact ⟨.refl s, by simp, fun _ _ _ => ⟨rfl, fun _ _ => rfl⟩⟩
  | cons x r ih =>
    obtain ⟨hx, hr⟩ := List.nodup_cons.mp hnodup
    have hx4 := hlt x (by simp)
    have hfirst : OnlyLinks s (landingCleared c s x) := onlyLinks_modSides s c x _ _
    have hother {d : Nat} (hd : d < 4) (hdx : d ≠ x) : SameLink s (landingCleared c s x) c d :=
      sameLink_modSides s c hx4 hd hdx _ _
    obtain ⟨honly, hempty, hsame⟩ := ih hr (fun d hd => hlt d (by simp [hd])) (landingCleared c s x)
    refine ⟨hfirst.trans honly, fun d hd => ?_, fun d hd hnot => ?_⟩
    · by_cases hdx : d = x
      · subst hdx
        exact (landingCleared_own c s d).of_same_after (hsame d hx4 hx) (hfirst.neighbour c d)
      · exact .of_same_before (hother (hlt d hd) hdx) (hempty d (by simpa [hdx] using hd)) (hfirst.neighbour c d)
    · obtain ⟨hdx, hdr⟩ : d ≠ x ∧ d ∉ r := by simpa using hnot
      exact (hother hd hdx).trans (hsame d hd hdr) (hfirst.neighbour c d)

theorem wbClear_fields (s : State) (c : Nat) :
    SameMemory s (wbClear s c) ∧ SameRegsBut s (wbClear s c) [Reg.cmpWbCtl c, Reg.cmpWbStat c, Reg.cmpWbFault c, Reg.cmpWbDrop c] ∧
      wbState (wbClear s c) c = 0 ∧ reg (wbClear s c) (Reg.cmpWbFault c) = 0x3FF00000 ∧ reg (wbClear s c) (Reg.cmpWbDrop c) = 0 ∧
      ∀ d, d < 4 → LandingEmptied s (wbClear s c) c d := by
  obtain ⟨honly, hempty, -⟩ := foldl_landingCleared c List.nodup_range (fun d hd => List.mem_range.mp hd) s
  rw [wbClear_eq]
  generalize (List.range 4).foldl (landingCleared c) s = u at honly hempty
  obtain ⟨⟨-, -, hregs⟩, -, hmem⟩ :
      EngineOnly u (setWbState (modWb (setReg (setReg u (Reg.cmpWbFault c) 0x3FF00000) (Reg.cmpWbDrop c) 0) c wbFresh) c 0) c
        [Reg.cmpWbCtl c, Reg.cmpWbStat c, Reg.cmpWbFault c, Reg.cmpWbDrop c] :=
    (((engineOnly_setReg u c _ (by simp)).trans (engineOnly_setReg _ c _ (by simp))).trans (engineOnly_modWb _ c _ _)).trans
      (engineOnly_setReg _ c _ (by simp))
  refine ⟨fun a => (hmem a).trans (sameMemory_of_mem honly.mem a), fun o ho => (hregs o ho).trans (honly.reg o),
    wbState_setWbState _ c (by decide), ?_, ?_, fun d hd => ?_⟩
  · rw [setWbState, reg_setFld_other _ _ _ _ (by simp), reg_modWb, reg_setReg_other _ _ (by simp), reg_setReg_same]
  · rw [setWbState, reg_setFld_other _ _ _ _ (by simp), reg_modWb, reg_setReg_same]
  · exact (hempty d (List.mem_range.mpr hd)).of_same_after ⟨link_modWb _ c _ c d, fun n _ => link_modWb _ c _ n _⟩
      (honly.neighbour c d)

theorem waybillClear_clears {s : State} {o : Origin} {c : Nat} (ha : AllowedWrite s o (Reg.cmpWbCtl c) (commandWord s c 2)) :
    ∃ t, exec (.waybillClear o c) s = .next t ∧ SameMemory s t ∧
      SameRegsBut s t [Reg.cmpWbCtl c, Reg.cmpWbStat c, Reg.cmpWbFault c, Reg.cmpWbDrop c] ∧ wbState t c = 0 ∧
      reg t (Reg.cmpWbFault c) = 0x3FF00000 ∧ reg t (Reg.cmpWbDrop c) = 0 ∧ ∀ d, d < 4 → LandingEmptied s t c d := by
  have hexec := (wbCommand_allowed ha).trans (congrArg _ (wbCtlWrite_clear s o c))
  obtain ⟨hmem, hregs, hstate, hfault, hdrop, hempty⟩ := wbClear_fields (ctlWritten s o c (commandWord s c 2)) c
  exact ⟨_, hexec, hmem, fun p hp => (hregs p hp).trans (reg_setReg_other s _ (ne_of_mem_of_not_mem (by simp) hp).symm), hstate,
    hfault, hdrop, hempty⟩

/-! ### The end of a load (R177) -/

/-- Numbers listed under consecutive keys of a map read back, every other key as before. -/
theorem sget_foldl_sput {α : Type} (m : Sparse α) (first : Nat) (f : Nat → α) (n j : Nat) (d : α) :
    sget ((List.range n).foldl (fun m i => sput m (first + i) (f i)) m) j d =
      if first ≤ j ∧ j < first + n then f (j - first) else sget m j d := by
  induction n with
  | zero => simp
  | succ n ih =>
    rw [List.range_succ, List.foldl_concat, sget_sput, ih]
    by_cases hj : j = first + n
    · simp [hj]
    · have hiff : (first ≤ j ∧ j < first + (n + 1)) ↔ (first ≤ j ∧ j < first + n) := by omega
      rw [if_neg hj]
      simp only [hiff]

/-- The little-endian doubleword `i` of a load's source (R11, R177). -/
def sourceEntry (s : State) (c line i : Nat) : DWord := BitVec.ofNat 64 (leNat (readMem s (localBase c + 64 * line + 8 * i) 8))

/-- Line `k` of a load taken into the store. -/
def lineLoaded (c line len : Nat) (s : State) (k : Nat) : State := loadEntries s c (line + k) (8 * k) (Nat.min 8 (len - 8 * k))

/-- Without latent errors, a load whose lines hold no poison takes them all. -/
theorem loadLines_clean {c line len : Nat} (ks : List Nat) {s : State} (hlatent : s.latent = [])
    (hclean : ∀ k ∈ ks, isPoisoned s (localBase c + 64 * (line + k)) 64 = false) :
    loadLines c line len ks s = (ks.foldl (lineLoaded c line len) s, none) := by
  induction ks generalizing s with
  | nil => rfl
  | cons k r ih =>
    have hrest := ih (s := lineLoaded c line len s k) hlatent fun j hj => hclean j (by simp [hj])
    simp only [loadLines, demandRead_clean hlatent, hclean k (by simp), Bool.false_eq_true, if_false, List.foldl_cons]
    exact hrest

theorem engineOnly_lineLoaded (s : State) (c line len k : Nat) (l : List Nat) : EngineOnly s (lineLoaded c line len s k) c l := by
  unfold lineLoaded loadEntries
  exact engineOnly_modWb s c _ l

theorem sget_lineLoaded (s : State) (c line len k j : Nat) :
    sget (wbOf (lineLoaded c line len s k) c).store j 0 =
      if 8 * k ≤ j ∧ j < 8 * k + 8 ∧ j < len then sourceEntry s c line j else sget (wbOf s c).store j 0 := by
  have hcount : (8 * k ≤ j ∧ j < 8 * k + min 8 (len - 8 * k)) ↔ (8 * k ≤ j ∧ j < 8 * k + 8 ∧ j < len) := by omega
  rw [lineLoaded, loadEntries, wbOf_modWb_same, sget_foldl_sput]
  simp only [Nat.min, hcount]
  split
  next h =>
    have haddr : localBase c + 64 * (line + k) + 8 * (j - 8 * k) = localBase c + 64 * line + 8 * j := by omega
    rw [haddr, sourceEntry]
  next => rfl

/-- The first lines of a load put its first entries in the store. -/
theorem foldl_lineLoaded (s : State) (c line len n : Nat) (l : List Nat) :
    let t := (List.range n).foldl (lineLoaded c line len) s
    EngineOnly s t c l ∧ ∀ j, sget (wbOf t c).store j 0 =
      if j < 8 * n ∧ j < len then sourceEntry s c line j else sget (wbOf s c).store j 0 := by
  induction n with
  | zero => exact ⟨⟨⟨rfl, fun _ _ => rfl, fun _ _ => rfl⟩, rfl, fun _ => rfl⟩, fun j => by simp⟩
  | succ n ih =>
    obtain ⟨honly, hstore⟩ := ih
    rw [List.range_succ, List.foldl_concat]
    generalize (List.range n).foldl (lineLoaded c line len) s = u at honly hstore
    have hsource (j : Nat) : sourceEntry u c line j = sourceEntry s c line j := by
      obtain ⟨-, -, hmem⟩ := honly
      exact congrArg (fun bs => BitVec.ofNat 64 (leNat bs)) (List.map_congr_left fun _ _ => hmem _)
    refine ⟨honly.trans (engineOnly_lineLoaded u c line len n l), fun j => ?_⟩
    rw [sget_lineLoaded, hsource, hstore]
    by_cases hlen : j < len
    · by_cases hline : 8 * n ≤ j ∧ j < 8 * n + 8
      · rw [if_pos ⟨hline.1, hline.2, hlen⟩, if_pos ⟨by omega, hlen⟩]
      · have hiff : j < 8 * (n + 1) ↔ j < 8 * n ∨ 8 * n ≤ j ∧ j < 8 * n + 8 := by omega
        rw [if_neg fun h => hline ⟨h.1, h.2.1⟩]
        simp only [hiff, hline, or_false]
    · simp only [hlen, and_false, if_false]

/-- A load without latent errors or poison ends with its entries in the store and the engine IDLE. -/
theorem exec_waybillLoadComplete {s : State} {c line len : Nat} (hruns : islandRuns s c = true) (hstate : wbState s c = 1)
    (hload : (wbOf s c).load = (line, len)) (hlatent : s.latent = [])
    (hclean : ∀ k, k < (len + 7) / 8 → isPoisoned s (localBase c + 64 * line + 64 * k) 64 = false) :
    exec (.waybillLoadComplete c) s =
      .next (setWbState ((List.range ((len + 7) / 8)).foldl (lineLoaded c line len) s) c 0) := by
  have hlines := loadLines_clean (c := c) (line := line) (len := len) (List.range ((len + 7) / 8)) hlatent fun k hk => by
    rw [Nat.mul_add, ← Nat.add_assoc]
    exact hclean k (List.mem_range.mp hk)
  show execWaybillLoadComplete c s = _
  simp [execWaybillLoadComplete, hruns, hstate, hload, hlines]

theorem waybillLoad_completes {s : State} {c : Nat} (hruns : islandRuns s c = true) (hstate : wbState s c = 1)
    (hlatent : s.latent = []) (hclean : ∀ k, k < ((wbOf s c).load.2 + 7) / 8 →
      isPoisoned s (localBase c + 64 * (wbOf s c).load.1 + 64 * k) 64 = false) :
    ∃ t, exec (.waybillLoadComplete c) s = .next t ∧ EngineOnly s t c [Reg.cmpWbStat c] ∧ wbState t c = 0 ∧
      (∀ i, i < (wbOf s c).load.2 → sget (wbOf t c).store i 0 = sourceEntry s c (wbOf s c).load.1 i) ∧
      ∀ i, (wbOf s c).load.2 ≤ i → sget (wbOf t c).store i 0 = sget (wbOf s c).store i 0 := by
  have hexec := exec_waybillLoadComplete hruns hstate rfl hlatent hclean
  obtain ⟨honly, hstore⟩ := foldl_lineLoaded s c (wbOf s c).load.1 (wbOf s c).load.2 (((wbOf s c).load.2 + 7) / 8) [Reg.cmpWbStat c]
  refine ⟨_, hexec, honly.trans (engineOnly_setReg _ c _ (by simp)), wbState_setWbState _ c (by decide), fun i hi => ?_,
    fun i hi => ?_⟩
  · rw [setWbState, wbOf_setFld, hstore, if_pos (by omega)]
  · rw [setWbState, wbOf_setFld, hstore, if_neg (by omega)]

/-- Settles O30: each command by what its write of CMP_WB_CTL comes to, and the end of a load line by line. -/
theorem waybillCommandsDriveTheEngine : Obligations.WaybillCommandsDriveTheEngine := by
  unfold Obligations.WaybillCommandsDriveTheEngine
  intro o c s ctl stat kept line len engine
  refine ⟨fun ha hidle => ?go, fun ha => ?clear, fun ha hidle hfits hopen => ?load, fun hruns hstate hlatent => ?complete⟩
  case go => exact waybillGo_runs ha hidle
  case clear =>
    obtain ⟨t, hexec, hmem, hregs, hstate, hfault, hdrop, hempty⟩ := waybillClear_clears ha
    exact ⟨t, hexec, hmem, hregs, hstate, hfault, hdrop, hempty⟩
  case load => exact waybillLoad_starts ha hidle rfl rfl hfits hopen
  case complete => exact waybillLoad_completes hruns hstate hlatent

end Sys2Proof.Machine
end

section
/-! PROOFS. The transfers of a waybill engine: SEND, RECV and FWD, and the beats, credits and handshakes that reach an engine
(R164, R167, R168, R171, R179). -/

namespace Sys2Proof.Machine

/-! ### What reads of memory leave of the package (R261) -/

@[simp] theorem sendFrom_pkg (s : State) (m : Msg) : (sendFrom s m).pkg = s.pkg := by
  unfold sendFrom ledgerCore
  repeat' split
  all_goals rfl

@[simp] theorem sendAlert_pkg (s : State) (n st t i : Nat) : (sendAlert s n st t i).pkg = s.pkg := by
  unfold sendAlert
  simp only
  split <;> simp

@[simp] theorem reportPoison_pkg (s : State) (a : Nat) (d : Bool) : (reportPoison s a d).pkg = s.pkg := by
  unfold reportPoison
  simp only
  repeat' split
  all_goals simp [countSat]

@[simp] theorem countCorr_pkg (s : State) (a n : Nat) : (countCorr s a n).pkg = s.pkg := by
  induction n with
  | zero => rfl
  | succ n ih =>
    simp only [countCorr]
    split <;> simpa [countSat] using ih

@[simp] theorem findLine_pkg (s : State) (l : Nat) (d : Bool) : (findLine s l d).pkg = s.pkg := by
  unfold findLine
  simp only
  repeat' split
  all_goals simp [poisonSectors]

@[simp] theorem demandRead_pkg (s : State) (a n : Nat) : (demandRead s a n).pkg = s.pkg := by
  unfold demandRead
  split
  · induction eccLines a n generalizing s with
    | nil => rfl
    | cons l r ih => rw [List.foldl_cons, ih, findLine_pkg]
  · rfl

/-! ### Transfers under way (R169 to R171) -/

/-- A transfer entry that has started and is not blocked moves beats. -/
theorem wbTransfer_goes {s : State} {c op : Nat} (hop : op ≤ 6) (hat : wbAt s c op = true) (hstarted : (wbOf s c).started ≠ none)
    (hfree : (wbOf s c).blocked = false) (pump : State → State) : wbTransfer s c op pump = .next (pump s) := by
  have hsome : (wbOf s c).started.isSome = true := Option.isSome_iff_ne_none.mpr hstarted
  simp [wbTransfer, not_reserved_of_wbAt hop hat, hat, hsome, hfree]

/-- The next entry becomes current (R457). -/
theorem wbAdvance_next {s : State} {c : Nat} (hpc : wbPc s c < 1023) :
    let t := wbAdvance s c
    wbPc t c = wbPc s c + 1 ∧ wbState t c = wbState s c ∧ (wbOf t c).started = none ∧ t.mem = s.mem ∧
      ∀ k d, link t k d = link s k d := by
  have hadvance : wbAdvance s c = setFld (modWb s c wbFresh) (Reg.cmpWbStat c) 25 16 (wbPc s c + 1) := if_neg (by omega)
  rw [hadvance]
  refine ⟨?_, ?_, ?_, rfl, link_modWb s c wbFresh⟩
  · rw [wbPc, fld_setFld_same _ _ (by decide)]
    exact Nat.mod_eq_of_lt (by omega)
  · rw [wbState, fld_setFld_apart _ _ (by decide) (by decide)]
    rfl
  · rw [wbOf_setFld, wbOf_modWb_same]
    rfl

/-! ### SEND (R164, R167) -/

theorem link_of_cores {s t : State} (h : t.cores = s.cores) (k d : Nat) : link t k d = link s k d := by
  rw [link, core, h, ← core, ← link]

theorem wbOf_of_cores {s t : State} (h : t.cores = s.cores) (k : Nat) : wbOf t k = wbOf s k := by
  rw [wbOf, core, h, ← core, ← wbOf]

/-- A beat for a SEND is read without a change of memory, cores or package. -/
theorem wbBeat_frame (s : State) (c : Nat) (e : DWord) (k : Nat) :
    (wbBeat s c e k).1.mem = s.mem ∧ (wbBeat s c e k).1.cores = s.cores ∧ (wbBeat s c e k).1.pkg = s.pkg := by
  unfold wbBeat
  dsimp only
  split
  · exact ⟨rfl, rfl, rfl⟩
  · exact ⟨demandRead_mem s _ _, demandRead_cores s _ _, demandRead_pkg s _ _⟩

/-- The next beat of a SEND put on its link. -/
def beatSent (c : Nat) (e : DWord) (s : State) : State :=
  let r := wbBeat s c e (wbOf s c).done
  modWb (sendBeat r.1 c (wbDir e) r.2) c fun w => { w with done := w.done + 1 }

theorem sendBeat_eq (s : State) (c d : Nat) (b : Beat) :
    sendBeat s c d b = modSides s c d (fun l => { l with credits := l.credits - 1 }) fun l => { l with inWire := l.inWire ++ [b] } :=
  rfl

theorem sendBeats_succ (c : Nat) (e : DWord) (n : Nat) (s : State) :
    sendBeats c e (n + 1) s = sendBeats c e n (beatSent c e s) := rfl

/-- What the beats of a SEND change: its count, its credits and the neighbour's wire; memory and package they leave. -/
structure BeatsSent (s t : State) (c d p n : Nat) : Prop where
  mem : t.mem = s.mem
  pkg : t.pkg = s.pkg
  done : (wbOf t c).done = (wbOf s c).done + n
  credits : (link t c d).credits = (link s c d).credits - n
  wire : (link t p (opposite d)).inWire.length = (link s p (opposite d)).inWire.length + n

theorem beatSent_fields {s : State} {c p : Nat} {e : DWord} (hn : neighbour s c (wbDir e) = some p) :
    BeatsSent s (beatSent c e s) c (wbDir e) p 1 := by
  obtain ⟨hmem, hcores, hpkg⟩ := wbBeat_frame s c e (wbOf s c).done
  rw [beatSent, sendBeat_eq]
  generalize (wbBeat s c e (wbOf s c).done).1 = u at hmem hcores hpkg
  rw [← neighbour_of_pkg hpkg] at hn
  have honly (f g : NbrLink → NbrLink) : OnlyLinks u (modSides u c (wbDir e) f g) := onlyLinks_modSides u c _ f g
  refine ⟨?_, ?_, ?_, ?_, ?_⟩
  · rw [modWb_mem, (honly _ _).mem, hmem]
  · exact (honly _ _).pkg.trans hpkg
  · rw [wbOf_modWb_same, (honly _ _).wbOf, wbOf_of_cores hcores]
  · rw [link_modWb, link_modSides_own, link_of_cores hcores]
  · rw [link_modWb, link_modSides_peer hn, link_of_cores hcores, List.length_append, List.length_singleton]

theorem sendBeats_fields {s : State} {c p : Nat} {e : DWord} (hn : neighbour s c (wbDir e) = some p) (n : Nat) :
    BeatsSent s (sendBeats c e n s) c (wbDir e) p n := by
  induction n generalizing s with
  | zero => exact ⟨rfl, rfl, rfl, rfl, rfl⟩
  | succ n ih =>
    have hone := beatSent_fields hn
    have hrest := ih ((neighbour_of_pkg hone.pkg c _).trans hn)
    rw [sendBeats_succ]
    refine ⟨hrest.mem.trans hone.mem, hrest.pkg.trans hone.pkg, ?_, ?_, ?_⟩
    · rw [hrest.done, hone.done, Nat.add_assoc, Nat.add_comm 1]
    · rw [hrest.credits, hone.credits, Nat.sub_sub, Nat.add_comm 1]
    · rw [hrest.wire, hone.wire, Nat.add_assoc, Nat.add_comm 1]

theorem wbSend_moves {s : State} {c p : Nat} (hat : wbAt s c 1 = true) (hstarted : (wbOf s c).started ≠ none)
    (hfree : (wbOf s c).blocked = false) (hn : neighbour s c (wbDir (wbEntry s c)) = some p) :
    let e := wbEntry s c
    let n := min (wbBeats e - (wbOf s c).done) (link s c (wbDir e)).credits
    ∃ t, exec (.wbSend c) s = .next t ∧ BeatsSent s t c (wbDir e) p n ∧
      ((wbOf t c).awaitHs = true ↔ wbBeats e ≤ (wbOf s c).done + n) := by
  intro e n
  have hsent := sendBeats_fields hn n
  have hexec : exec (.wbSend c) s =
      .next (modWb (sendBeats c e n s) c fun w => { w with awaitHs := decide (wbBeats e ≤ w.done) }) :=
    wbTransfer_goes (by decide) hat hstarted hfree (wbPumpSend c)
  refine ⟨_, hexec, ⟨hsent.mem, hsent.pkg, ?_, ?_, ?_⟩, ?_⟩
  · rw [wbOf_modWb_same, hsent.done]
  · rw [link_modWb, hsent.credits]
  · rw [link_modWb, hsent.wire]
  · rw [wbOf_modWb_same, hsent.done, decide_eq_true_eq]

/-! ### RECV (R167, R179) -/

/-- Beats taken from the head of a landing buffer, their credits on their way back (R164). -/
def landingTaken (s : State) (c d n : Nat) : State :=
  returnCredits (modLink s c d fun l => { l with landing := l.landing.drop n }) c d n

theorem landingTaken_eq (s : State) (c d n : Nat) :
    landingTaken s c d n = modSides s c d (fun l => { l with landing := l.landing.drop n }) fun l =>
      { l with creditBack := l.creditBack + n } := rfl

/-- A write of a whole line of local memory changes memory, poison and latent errors alone (R261). -/
theorem writeMem_line (s : State) {a : Nat} {bs : List Byte} (hlocal : isLocalAddr a = true) (ha : a % 64 = 0) (hbs : bs.length = 64) :
    ∃ m z l, writeMem s a bs = { s with mem := m, poison := z, latent := l } := by
  have hwhole : partGranules a 64 = [] := by
    have hend : (a + 64) % 64 = 0 := by omega
    simp [partGranules, eccGranule, hlocal, ha, hend]
  have hnonempty : bs.isEmpty = false := by
    cases bs with
    | nil => simp at hbs
    | cons b r => rfl
  have hecc : hasEcc a = true := by rw [hasEcc, hlocal, Bool.or_true]
  simp only [writeMem, hnonempty, Bool.false_eq_true, if_false, renewChecks, hbs, hwhole, hecc, if_true, List.foldl_nil]
  exact ⟨_, _, _, rfl⟩

/-- The first beat of a RECV, without poison, written to its line. -/
def beatStored (s : State) (c : Nat) (e : DWord) (b : Beat) : State :=
  modWb (writeMem s (localBase c + 64 * (wbLineAt s c e 0).toNat) (lineBytes b.payload)) c fun w => { w with received := 1 }

theorem wbStoreBeat_line {s : State} {c : Nat} {e : DWord} {b : Beat} (hline : bit e 55 = false) (hnone : (wbOf s c).received = 0)
    (hclean : b.poison = false) : wbStoreBeat s c e b = beatStored s c e b := by
  simp only [wbStoreBeat, hline, hnone, hclean, writeData, Bool.false_eq_true, if_false]
  rfl

theorem beatStored_frame (s : State) (c : Nat) (e : DWord) (b : Beat) :
    (∀ o, reg (beatStored s c e b) o = reg s o) ∧ (beatStored s c e b).pkg = s.pkg ∧
      (∀ k d, link (beatStored s c e b) k d = link s k d) ∧ (wbOf (beatStored s c e b) c).received = 1 := by
  have haligned : (localBase c + 64 * (wbLineAt s c e 0).toNat) % 64 = 0 := by
    have := localBase_line c
    omega
  obtain ⟨m, z, l, hwrite⟩ := writeMem_line s (isLocalAddr_localBase c _) haligned (lineBytes_length b.payload)
  rw [beatStored, hwrite]
  exact ⟨fun _ => rfl, rfl, fun k d => link_modWb _ c _ k d, by rw [wbOf_modWb_same]⟩

/-- A RECV of one line with its beat at the head of the landing buffer takes it, returns the handshake and completes. -/
theorem wbPumpRecv_single {s : State} {c : Nat} {b : Beat} (hline : bit (wbEntry s c) 55 = false)
    (hone : wbBeats (wbEntry s c) = 1) (hnone : (wbOf s c).received = 0)
    (hland : (link s c (wbDir (wbEntry s c))).landing = [b]) (hheader : b.header = some (wbHeader (wbEntry s c)))
    (hclean : b.poison = false) :
    wbPumpRecv c s = wbAdvance (sendHandshake (landingTaken (beatStored s c (wbEntry s c) b) c (wbDir (wbEntry s c)) 1) c
      (wbDir (wbEntry s c))) c := by
  have hown : beatForeign (wbEntry s c) b = false := by simp [beatForeign, hheader]
  have hmatch : wbMismatch s c (wbEntry s c) = false := by simp [wbMismatch, hland, hown, hheader]
  have hbeats : beatsFor s c (wbEntry s c) (wbBeats (wbEntry s c) - (wbOf s c).received) = [b] := by
    simp [beatsFor, hland, hone, hnone, hown]
  obtain ⟨-, -, -, hreceived⟩ := beatStored_frame s c (wbEntry s c) b
  have hall : wbBeats (wbEntry s c) ≤ (wbOf (landingTaken (beatStored s c (wbEntry s c) b) c (wbDir (wbEntry s c)) 1) c).received := by
    rw [landingTaken_eq, (onlyLinks_modSides _ c _ _ _).wbOf, hreceived, hone]
  simp only [wbPumpRecv, hmatch, hbeats, Bool.false_eq_true, if_false, List.foldl_cons, List.foldl_nil, List.length_singleton,
    wbStoreBeat_line hline hnone hclean]
  exact if_pos hall

/-- A transfer ends at its receiver: its beats taken, its handshake on its way back, and the next entry current. -/
theorem transferEnded_fields {s : State} {c d p : Nat} (hn : neighbour s c d = some p) (hpc : wbPc s c < 1023) (n : Nat) :
    let t := wbAdvance (sendHandshake (landingTaken s c d n) c d) c
    (wbPc t c = wbPc s c + 1 ∧ wbState t c = wbState s c ∧ (wbOf t c).started = none) ∧ t.mem = s.mem ∧
      link t c d = { link s c d with landing := (link s c d).landing.drop n } ∧
      link t p (opposite d) = { link s p (opposite d) with
        creditBack := (link s p (opposite d)).creditBack + n, hsBack := (link s p (opposite d)).hsBack + 1 } := by
  have htaken : OnlyLinks s (landingTaken s c d n) := onlyLinks_modSides s c d _ _
  have honly : OnlyLinks s (sendHandshake (landingTaken s c d n) c d) := htaken.trans (onlyLinks_modPeer _ c d _)
  have hpcSame : wbPc (sendHandshake (landingTaken s c d n) c d) c = wbPc s c := by rw [wbPc, fld, honly.reg, ← fld, ← wbPc]
  have hstateSame : wbState (sendHandshake (landingTaken s c d n) c d) c = wbState s c := by
    rw [wbState, fld, honly.reg, ← fld, ← wbState]
  obtain ⟨hnextPc, hnextState, hnew, hmem, hlinks⟩ := wbAdvance_next (hpcSame.trans_lt hpc)
  refine ⟨⟨by rw [hnextPc, hpcSame], hnextState.trans hstateSame, hnew⟩, hmem.trans honly.mem, ?_, ?_⟩
  · rw [hlinks, sendHandshake, link_modPeer_own, landingTaken_eq, link_modSides_own]
  · rw [hlinks, sendHandshake, link_modPeer_peer ((htaken.neighbour c d).trans hn), landingTaken_eq, link_modSides_peer hn]

/-- The line of a RECV holds its beat, and every other byte is as before. -/
theorem beatStored_memory {s : State} (hm : MemoryCanonical s) (c : Nat) (e : DWord) (b : Beat) :
    SameMemoryBut s (beatStored s c e b) (localBase c + 64 * (wbLineAt s c e 0).toNat) 64 ∧
      ∀ k, k < 64 → byteAt (beatStored s c e b) (localBase c + 64 * (wbLineAt s c e 0).toNat + k) =
        b.payload.extractLsb' (8 * k) 8 := by
  obtain ⟨hrest, hbytes⟩ := writeLocal_bytes hm c (64 * (wbLineAt s c e 0).toNat) (lineBytes b.payload)
  rw [lineBytes_length] at hrest
  have hbyte (x : Nat) : byteAt (beatStored s c e b) x =
      byteAt (writeLocal s c (64 * (wbLineAt s c e 0).toNat) (lineBytes b.payload)) x := by
    rw [byteAt, beatStored, modWb_mem, byteAt, writeLocal]
  refine ⟨fun x hx => (hbyte x).trans (hrest x hx), fun k hk => ?_⟩
  have hlt : k < (lineBytes b.payload).length := by rwa [lineBytes_length]
  rw [hbyte, hbytes k hlt, lineBytes_getElem]

theorem wbRecv_ends {s : State} {c p : Nat} {b : Beat} (hat : wbAt s c 2 = true) (hstarted : (wbOf s c).started ≠ none)
    (hfree : (wbOf s c).blocked = false) (hline : bit (wbEntry s c) 55 = false) (hone : wbBeats (wbEntry s c) = 1)
    (hnone : (wbOf s c).received = 0) (hn : neighbour s c (wbDir (wbEntry s c)) = some p) (hm : MemoryCanonical s)
    (hland : (link s c (wbDir (wbEntry s c))).landing = [b]) (hheader : b.header = some (wbHeader (wbEntry s c)))
    (hclean : b.poison = false) (hpc : wbPc s c < 1023) :
    ∃ t, exec (.wbRecv c) s = .next t ∧ (wbPc t c = wbPc s c + 1 ∧ wbState t c = wbState s c ∧ (wbOf t c).started = none) ∧
      SameMemoryBut s t (localBase c + 64 * (wbLineAt s c (wbEntry s c) 0).toNat) 64 ∧
      (∀ k, k < 64 → byteAt t (localBase c + 64 * (wbLineAt s c (wbEntry s c) 0).toNat + k) = b.payload.extractLsb' (8 * k) 8) ∧
      (link t c (wbDir (wbEntry s c))).landing = [] ∧
      link t p (opposite (wbDir (wbEntry s c))) = { link s p (opposite (wbDir (wbEntry s c))) with
        creditBack := (link s p (opposite (wbDir (wbEntry s c)))).creditBack + 1
        hsBack := (link s p (opposite (wbDir (wbEntry s c)))).hsBack + 1 } := by
  have hexec : exec (.wbRecv c) s = .next (wbPumpRecv c s) := wbTransfer_goes (by decide) hat hstarted hfree (wbPumpRecv c)
  rw [wbPumpRecv_single hline hone hnone hland hheader hclean] at hexec
  obtain ⟨hreg, hpkg, hlinks, -⟩ := beatStored_frame s c (wbEntry s c) b
  obtain ⟨hrest, hbytes⟩ := beatStored_memory hm c (wbEntry s c) b
  generalize beatStored s c (wbEntry s c) b = u at hexec hreg hpkg hlinks hrest hbytes
  have hpcSame : wbPc u c = wbPc s c := by rw [wbPc, fld, hreg, ← fld, ← wbPc]
  have hstateSame : wbState u c = wbState s c := by rw [wbState, fld, hreg, ← fld, ← wbState]
  obtain ⟨hnext, hmem, hown, hpeer⟩ :=
    transferEnded_fields ((neighbour_of_pkg hpkg c _).trans hn) (hpcSame.trans_lt hpc) 1
  have hsame := sameMemory_of_mem hmem
  rw [hpcSame, hstateSame] at hnext
  refine ⟨_, hexec, hnext, fun x hx => (hsame x).trans (hrest x hx), fun k hk => (hsame _).trans (hbytes k hk), ?_, ?_⟩
  · rw [hown, hlinks, hland]
    rfl
  · rw [hpeer, hlinks]

/-! ### FWD (R167, R176) -/

/-- Beats put on a link, one for one credit each. -/
theorem foldl_sendBeat {s : State} {c d p : Nat} (hd : d < 4) (hn : neighbour s c d = some p) (bs : List Beat) :
    let t := bs.foldl (fun s b => sendBeat s c d b) s
    OnlyLinks s t ∧ link t c d = { link s c d with credits := (link s c d).credits - bs.length } ∧
      link t p (opposite d) = { link s p (opposite d) with inWire := (link s p (opposite d)).inWire ++ bs } ∧
      ∀ e, e < 4 → e ≠ d → SameLink s t c e := by
  induction bs generalizing s with
  | nil =>
    refine ⟨.refl s, rfl, ?_, fun e _ _ => ⟨rfl, fun _ _ => rfl⟩⟩
    rw [List.append_nil]
    rfl
  | cons b r ih =>
    have honly : OnlyLinks s (sendBeat s c d b) := onlyLinks_modSides s c d _ _
    obtain ⟨hrest, hown, hpeer, hother⟩ := ih ((honly.neighbour c d).trans hn)
    refine ⟨honly.trans hrest, ?_, ?_, fun e he hne => ?_⟩
    · rw [List.foldl_cons, hown, sendBeat_eq, link_modSides_own, List.length_cons, Nat.sub_sub, Nat.add_comm 1]
    · rw [List.foldl_cons, hpeer, sendBeat_eq, link_modSides_peer hn, List.append_assoc, List.singleton_append]
    · exact (sameLink_modSides s c hd he hne _ _).trans (hother e he hne) (honly.neighbour c e)

/-- Where no landed beat is foreign, an entry takes as many as it may. -/
theorem beatsFor_of_none_foreign {s : State} {c : Nat} {e : DWord}
    (hall : (link s c (wbDir e)).landing.all (fun b => !beatForeign e b) = true) (n : Nat) :
    beatsFor s c e n = (link s c (wbDir e)).landing.take n := by
  rw [beatsFor, List.takeWhile_eq_self_iff]
  exact fun b hb => List.all_eq_true.mp hall b (List.mem_of_mem_take hb)

/-- An entry that has taken a beat meets a mismatch only at a foreign beat. -/
theorem wbMismatch_of_taken {s : State} {c : Nat} {e : DWord} (htaken : (wbOf s c).received ≠ 0)
    (hall : ∀ b ∈ (link s c (wbDir e)).landing, beatForeign e b = false) : wbMismatch s c e = false := by
  unfold wbMismatch
  split
  next => rfl
  next b r hland =>
    have hhead := hall b (by rw [hland]; exact List.mem_cons_self)
    simp [hhead, htaken]

theorem wbMismatch_congr {s t : State} {c : Nat} {e : DWord} (hland : (link t c (wbDir e)).landing = (link s c (wbDir e)).landing)
    (hreceived : (wbOf t c).received = (wbOf s c).received) : wbMismatch t c e = wbMismatch s c e := by
  rw [wbMismatch, wbMismatch, hland, hreceived]

/-- The state in which a FWD has passed on the beats `bs`, the first of its landing buffer. -/
def beatsForwarded (s : State) (c : Nat) (e : DWord) (bs : List Beat) : State :=
  modWb (landingTaken (bs.foldl (fun s b => sendBeat s c (wbDir2 e) b) s) c (wbDir e) bs.length) c fun w => { w with
    received := w.received + bs.length
    awaitHs := decide (wbBeats e ≤ w.received + bs.length) }

/-- What a FWD changes by passing on beats. -/
theorem beatsForwarded_fields {s : State} {c p q : Nat} {e : DWord} (hne : wbDir e ≠ wbDir2 e)
    (hp : neighbour s c (wbDir e) = some p) (hq : neighbour s c (wbDir2 e) = some q) (bs : List Beat) :
    let t := beatsForwarded s c e bs
    t.mem = s.mem ∧ (wbOf t c).received = (wbOf s c).received + bs.length ∧
      link t c (wbDir e) = { link s c (wbDir e) with landing := (link s c (wbDir e)).landing.drop bs.length } ∧
      link t c (wbDir2 e) = { link s c (wbDir2 e) with credits := (link s c (wbDir2 e)).credits - bs.length } ∧
      link t q (opposite (wbDir2 e)) =
        { link s q (opposite (wbDir2 e)) with inWire := (link s q (opposite (wbDir2 e))).inWire ++ bs } ∧
      link t p (opposite (wbDir e)) =
        { link s p (opposite (wbDir e)) with creditBack := (link s p (opposite (wbDir e))).creditBack + bs.length } := by
  have hd : wbDir e < 4 := bits_lt e 59 58
  have hd2 : wbDir2 e < 4 := bits_lt e 57 56
  obtain ⟨hsent, hcredits, hwire, hother⟩ := foldl_sendBeat hd2 hq bs
  obtain ⟨hown, hpeer⟩ := hother (wbDir e) hd hne
  rw [beatsForwarded, landingTaken_eq]
  generalize bs.foldl (fun s b => sendBeat s c (wbDir2 e) b) s = u at hsent hcredits hwire hown hpeer
  have htaken (f g : NbrLink → NbrLink) := onlyLinks_modSides u c (wbDir e) f g
  obtain ⟨hown2, hpeer2⟩ := sameLink_modSides u c hd hd2 hne.symm (fun l => { l with landing := l.landing.drop bs.length })
    fun l => { l with creditBack := l.creditBack + bs.length }
  refine ⟨?_, ?_, ?_, ?_, ?_, ?_⟩
  · rw [modWb_mem, (htaken _ _).mem, hsent.mem]
  · rw [wbOf_modWb_same, (htaken _ _).wbOf, hsent.wbOf]
  · rw [link_modWb, link_modSides_own, hown]
  · rw [link_modWb, hown2, hcredits]
  · rw [link_modWb, hpeer2 q ((hsent.neighbour c _).trans hq), hwire]
  · rw [link_modWb, link_modSides_peer ((hsent.neighbour c _).trans hp), hpeer p hp]

/-- A FWD that has passed on its beats meets no mismatch at those that are left. -/
theorem wbMismatch_beatsForwarded {s : State} {c p q : Nat} {e : DWord} (hne : wbDir e ≠ wbDir2 e)
    (hp : neighbour s c (wbDir e) = some p) (hq : neighbour s c (wbDir2 e) = some q) (hmatch : wbMismatch s c e = false)
    (hall : (link s c (wbDir e)).landing.all (fun b => !beatForeign e b) = true) (bs : List Beat) :
    wbMismatch (beatsForwarded s c e bs) c e = false := by
  obtain ⟨-, hreceived, hland, -⟩ := beatsForwarded_fields hne hp hq bs
  by_cases hnone : (wbOf s c).received + bs.length = 0
  · obtain ⟨hzero, hempty⟩ := Nat.add_eq_zero_iff.mp hnone
    rw [wbMismatch_congr (s := s) (by rw [hland, hempty]; rfl) (by rw [hreceived, hempty]; rfl), hmatch]
  · refine wbMismatch_of_taken (by rwa [hreceived]) fun b hb => ?_
    rw [hland] at hb
    simpa using List.all_eq_true.mp hall b (List.mem_of_mem_drop hb)

theorem wbFwd_moves {s : State} {c p q : Nat} (hat : wbAt s c 3 = true) (hstarted : (wbOf s c).started ≠ none)
    (hfree : (wbOf s c).blocked = false) (hne : wbDir (wbEntry s c) ≠ wbDir2 (wbEntry s c))
    (hmatch : wbMismatch s c (wbEntry s c) = false)
    (hall : (link s c (wbDir (wbEntry s c))).landing.all (fun b => !beatForeign (wbEntry s c) b) = true)
    (hp : neighbour s c (wbDir (wbEntry s c)) = some p) (hq : neighbour s c (wbDir2 (wbEntry s c)) = some q) :
    exec (.wbFwd c) s = .next (beatsForwarded s c (wbEntry s c) ((link s c (wbDir (wbEntry s c))).landing.take
      (min (wbBeats (wbEntry s c) - (wbOf s c).received) (link s c (wbDir2 (wbEntry s c))).credits))) := by
  have hexec : exec (.wbFwd c) s = .next (wbPumpFwd c s) := wbTransfer_goes (by decide) hat hstarted hfree (wbPumpFwd c)
  rw [hexec]
  simp only [wbPumpFwd, hmatch, Bool.false_eq_true, if_false, beatsFor_of_none_foreign hall]
  have hleft := wbMismatch_beatsForwarded hne hp hq hmatch hall ((link s c (wbDir (wbEntry s c))).landing.take
    (min (wbBeats (wbEntry s c) - (wbOf s c).received) (link s c (wbDir2 (wbEntry s c))).credits))
  refine congrArg _ (if_neg ?_)
  rw [Bool.and_eq_true, not_and]
  exact fun _ => by
    rw [Bool.not_eq_true]
    exact hleft

/-! ### What reaches an engine (R164, R167, R168) -/

/-- Where no core waits for quiet links, a link that has lost something is as its side was changed. -/
theorem linkSettled_modLink {s : State} (hclk : ∀ k, (core s k).clkWait = false) (c d : Nat) (f : NbrLink → NbrLink) :
    linkSettled (modLink s c d f) c d = modLink s c d f :=
  linkSettled_of_none (fun k => by rw [(onlyLinks_modLink s c d f).core, hclk]) c d

theorem OnlyLinks.landingDiscards {s t : State} (ho : OnlyLinks s t) (c : Nat) : landingDiscards t c = landingDiscards s c := by
  rw [Machine.landingDiscards, ho.core, ho.rest]
  rfl

/-- The head of a wire moved to the landing buffer. -/
def beatLanded (s : State) (c d : Nat) (b : Beat) (r : List Beat) : State :=
  modLink (modLink s c d fun l => { l with inWire := r }) c d fun l => { l with landing := l.landing ++ [b] }

theorem onlyCoreRegs_modLink (s : State) (c d : Nat) (f : NbrLink → NbrLink) : OnlyCoreRegs s (modLink s c d f) c [] :=
  onlyCoreRegs_modCore s c _ []

theorem onlyCoreRegs_beatLanded (s : State) (c d : Nat) (b : Beat) (r : List Beat) : OnlyCoreRegs s (beatLanded s c d b r) c [] :=
  (onlyCoreRegs_modLink s c d _).trans (onlyCoreRegs_modLink _ c d _)

/-- A beat that reaches an engine at rest lands (R164). -/
theorem exec_beatArrival_idle {s : State} {c : Nat} {x : BitVec 2} {b : Beat} {r : List Beat}
    (hwire : (link s c x.toNat).inWire = b :: r) (hlands : landingDiscards s c = false) (hidle : wbState s c = 0)
    (hclk : ∀ k, (core s k).clkWait = false) : exec (.beatArrival c x) s = .next (beatLanded s c x.toNat b r) := by
  have htaken (f : NbrLink → NbrLink) := onlyLinks_modLink s c x.toNat f
  have hidleNow (t : State) (ht : OnlyLinks s t) : wbState t c = 0 := by rw [wbState, fld, ht.reg, ← fld, ← wbState, hidle]
  have hlanded := hidleNow (beatLanded s c x.toNat b r) ((htaken _).trans (onlyLinks_modLink _ c _ _))
  rw [beatLanded] at hlanded
  show execBeatArrival c x s = _
  simp only [execBeatArrival, hwire, linkSettled_modLink hclk, (htaken _).landingDiscards, hlands, hidleNow _ (htaken _), hlanded]
  rfl

theorem exec_creditReturn {s : State} {c : Nat} {x : BitVec 2} (hback : 0 < (link s c x.toNat).creditBack)
    (hclk : ∀ k, (core s k).clkWait = false) :
    exec (.creditReturn c x) s = .next (modLink s c x.toNat fun l => { l with
      creditBack := l.creditBack - 1, credits := l.credits + 1 }) := by
  show execCreditReturn c x s = _
  simp only [execCreditReturn, linkSettled_modLink hclk, when, hback, decide_true, if_true]

/-- A handshake that the current SEND awaits ends it; a core that waited for quiet links may relock (R24, R167). -/
theorem completionHandshake_ends {s : State} {c : Nat} {x : BitVec 2} (hc : c < s.pkg.nCores) (hback : 0 < (link s c x.toNat).hsBack)
    (hstate : wbState s c = 2) (hawait : (wbOf s c).awaitHs = true) (hop : wbOp (wbEntry s c) = 1)
    (hdir : wbDir (wbEntry s c) = x.toNat) (hpc : wbPc s c < 1023) :
    ∃ t, exec (.completionHandshake c x) s = .next t ∧
      (wbPc t c = wbPc s c + 1 ∧ wbState t c = 2 ∧ (wbOf t c).started = none) ∧ SameMemory s t ∧
      (link t c x.toNat).hsBack = (link s c x.toNat).hsBack - 1 := by
  have htaken := onlyLinks_modLink s c x.toNat fun l => { l with hsBack := l.hsBack - 1 }
  have hsettled := keepsPlane_linkSettled (modLink s c x.toNat fun l => { l with hsBack := l.hsBack - 1 }) c x.toNat
  have hown := link_modLink_same s c x.toNat fun l => { l with hsBack := l.hsBack - 1 }
  have hexec : exec (.completionHandshake c x) s = execCompletionHandshake c x s := rfl
  simp only [execCompletionHandshake, Nat.ne_of_gt hback, hc, decide_true, decide_false, Bool.not_true, Bool.or_self,
    Bool.false_eq_true, if_false] at hexec
  generalize modLink s c x.toNat (fun l => { l with hsBack := l.hsBack - 1 }) = u at hexec htaken hsettled hown
  generalize linkSettled u c x.toNat = v at hexec hsettled
  have hreg (o : Nat) : reg v o = reg s o := (hsettled.reg o).trans (htaken.reg o)
  have hwb : wbOf v c = wbOf s c := (hsettled.wb c).trans (htaken.wbOf c)
  have hstateSame : wbState v c = 2 := by rw [wbState, fld, hreg, ← fld, ← wbState, hstate]
  have hpcSame : wbPc v c = wbPc s c := by rw [wbPc, fld, hreg, ← fld, ← wbPc]
  have hentry : wbEntry v c = wbEntry s c := by
    show sget (wbOf v c).store (wbPc v c) 0 = sget (wbOf s c).store (wbPc s c) 0
    rw [hwb, hpcSame]
  simp only [hstateSame, hwb, hawait, hentry, hop, hdir] at hexec
  obtain ⟨hnextPc, hnextState, hnew, hmem, hlinks⟩ := wbAdvance_next (hpcSame.trans_lt hpc)
  refine ⟨_, hexec, ⟨hnextPc.trans (by rw [hpcSame]), hnextState.trans hstateSame, hnew⟩,
    sameMemory_of_mem (hmem.trans (hsettled.mem.trans htaken.mem)), ?_⟩
  rw [hlinks, hsettled.link, hown]

/-- Settles O32: each transfer by what its pump comes to, and each arrival by the link it changes. -/
theorem waybillTransfersMoveBeats : Obligations.WaybillTransfersMoveBeats := by
  unfold Obligations.WaybillTransfersMoveBeats
  intro c s e w d going next
  refine ⟨fun p hgoing hn => ?send, fun p b hgoing hline hone hnone hn hm hland hheader hclean hpc => ?recv,
    fun p q hgoing hne hmatch hall hp hq => ?fwd, fun x b r hwire hlands hidle hclk => ?arrival, fun x hback hclk => ?credit,
    fun x hc hback hstate hawait hop hdir hpc => completionHandshake_ends hc hback hstate hawait hop hdir hpc⟩
  case send =>
    obtain ⟨hat, hstarted, hfree⟩ := hgoing
    obtain ⟨t, hexec, hsent, hawait⟩ := wbSend_moves hat hstarted hfree hn
    exact ⟨t, hexec, sameMemory_of_mem hsent.mem, hsent.done, hsent.credits, hsent.wire, hawait⟩
  case recv =>
    obtain ⟨hat, hstarted, hfree⟩ := hgoing
    obtain ⟨t, hexec, ⟨hnextPc, hnextState, hnew⟩, hrest, hbytes, hempty, hpeer⟩ :=
      wbRecv_ends hat hstarted hfree hline hone hnone hn hm hland hheader hclean hpc
    exact ⟨t, hexec, ⟨hnextPc, hnextState.trans (wbState_of_wbAt hat), hnew⟩, hrest, hbytes, hempty, by rw [hpeer], by rw [hpeer]⟩
  case fwd =>
    obtain ⟨hat, hstarted, hfree⟩ := hgoing
    have hexec := wbFwd_moves hat hstarted hfree hne hmatch hall hp hq
    obtain ⟨hmem, hreceived, hland, hcredits, hwire, hback⟩ := beatsForwarded_fields hne hp hq
      ((link s c d).landing.take (min (wbBeats e - w.received) (link s c (wbDir2 e)).credits))
    rw [List.length_take] at hreceived hland hcredits hback
    exact ⟨_, hexec, sameMemory_of_mem hmem, hreceived, by rw [hland], by rw [hcredits],
      (congrArg NbrLink.inWire hwire).trans (congrArg _ List.take_eq_take_min), by rw [hback]⟩
  case arrival =>
    refine ⟨_, exec_beatArrival_idle hwire hlands hidle hclk, onlyCoreRegs_beatLanded s c _ b r, ?_, fun y hy => ?_⟩
    · rw [beatLanded, link_modLink_same, link_modLink_same]
    · rw [beatLanded, link_modLink_dir _ c _ hy, link_modLink_dir _ c _ hy]
  case credit =>
    refine ⟨_, exec_creditReturn hback hclk, onlyCoreRegs_modLink s c _ _, ?_, ?_, fun y hy => link_modLink_dir s c _ hy c⟩ <;>
      rw [link_modLink_same]

end Sys2Proof.Machine
end

section
/-! PROOFS. The life of a convoy: formation, locking, arming, launch, completion, time-out and dissolution (R181 to R188). -/

namespace Sys2Proof.Machine

/-! ### A convoy's record and its registers -/

theorem convoy_modConvoy_same (s : State) (n : Nat) (f : Convoy → Convoy) : convoy (modConvoy s n f) n = f (convoy s n) :=
  sget_sput_same s.convoys n _ _

theorem convoy_of_convoys {s t : State} (h : t.convoys = s.convoys) (n : Nat) : convoy t n = convoy s n := by
  rw [convoy, h, convoy]

@[simp] theorem convoy_setFlag (s : State) (o i : Nat) (b : Bool) (n : Nat) : convoy (setFlag s o i b) n = convoy s n := rfl

theorem cmpCvStat_ne_cmpCvCfg (m n : Nat) : Reg.cmpCvCfg m ≠ Reg.cmpCvStat n := by
  simp only [Reg.cmpCvCfg, Reg.cmpCvStat]
  omega

/-- The STATE field of a convoy reads as it was set (R181). -/
theorem convoyState_setFld (s : State) (n : Nat) {v : Nat} (hv : v < 4) :
    convoyState (setFld s (Reg.cmpCvStat n) 1 0 v) n = v := by
  rw [convoyState, fld_setFld_same _ _ (by decide)]
  exact Nat.mod_eq_of_lt hv

/-- ENABLE reads as it was set, whatever STATE is set to. -/
theorem enable_setFlag_setFld (s : State) (n : Nat) (b : Bool) (v : Nat) :
    flag (setFld (setFlag s (Reg.cmpCvCfg n) 31 b) (Reg.cmpCvStat n) 1 0 v) (Reg.cmpCvCfg n) 31 = b := by
  rw [flag, reg_setFld_other _ _ _ _ (cmpCvStat_ne_cmpCvCfg n n), ← flag, flag_setFlag_same _ _ (by decide)]

/-- A write of a convoy's configuration never meets the Drover's rule of the worlds. -/
theorem cmpCvCfg_allowed {s : State} {o : Origin} {n : Nat} {v : Word} (hn : n < 16) (hreach : reaches s o (Reg.cmpCvCfg n) = true)
    (hpres : presence s (Reg.cmpCvCfg n) = .present)
    (hworld : guardedOrigin o = true ∨ worldDenies s (Reg.cmpCvCfg n) v = false) : AllowedWrite s o (Reg.cmpCvCfg n) v := by
  have hmesh : ¬ 0x3000000 ≤ Reg.cmpCvCfg n := by
    simp only [Reg.cmpCvCfg]
    omega
  refine ⟨hreach, hpres, hworld, ?_⟩
  cases o <;> simp [drvDenies, hmesh]

/-! ### Writes of fields (R12, R13) -/

/-- No field of a register takes a write. -/
def readOnlyRow (r : RegRow) : Bool := r.rw == 0 && r.rwl == 0 && r.w1c == 0 && r.locks == 0 && r.lims.isEmpty

/-- The register at an offset takes no write. -/
def ReadOnly (p : Nat) : Prop := (regRow p).any readOnlyRow = true

theorem rowWrite_readOnly {r : RegRow} (hr : readOnlyRow r = true) (locked : Bool) (old v : Word) :
    rowWrite r locked old v = old := by
  have hones (w : Word) : w &&& 0xFFFFFFFF#32 = w := BitVec.and_allOnes
  simp only [readOnlyRow, Bool.and_eq_true, beq_iff_eq, List.isEmpty_iff] at hr
  obtain ⟨⟨⟨⟨hrw, hrwl⟩, hw1c⟩, hlocks⟩, hlims⟩ := hr
  simp [rowWrite, hrw, hrwl, hw1c, hlocks, hlims, hones]

theorem ReadOnly.storeFields {p : Nat} (hp : ReadOnly p) (s : State) (off : Nat) (v : Word) :
    reg (storeFields s off v) p = reg s p := by
  obtain ⟨r, hr, hfixed⟩ := (Option.any_eq_true _ _).mp hp
  by_cases hoff : p = off
  · subst hoff
    rw [Machine.storeFields, hr]
    exact (reg_setReg_same s p _).trans (rowWrite_readOnly hfixed _ _ _)
  · unfold Machine.storeFields
    split
    · rfl
    · exact reg_setReg_other s _ hoff

theorem ReadOnly.plainWrite {p : Nat} (hp : ReadOnly p) (s : State) (off : Nat) (v : Word) :
    reg (plainWrite s off v) p = reg s p := by
  unfold Machine.plainWrite
  split
  · rfl
  · split
    · rfl
    · split
      · rw [hp.storeFields, hp.storeFields]
        rfl
      · exact hp.storeFields s off v

theorem cmpCvStat_readOnly {n : Nat} (hn : n < 16) : ReadOnly (Reg.cmpCvStat n) := by
  have hrows : ∀ n < 16, (regRow (Reg.cmpCvStat n)).any readOnlyRow = true := by decide +kernel
  exact hrows n hn

/-- Nothing but registers of the part, and halves that wait to be written to them, has changed. -/
def OnlyWrites (s t : State) : Prop := t = { s with regs := t.regs, staged := t.staged }

theorem OnlyWrites.trans {s t u : State} (hst : OnlyWrites s t) (htu : OnlyWrites t u) : OnlyWrites s u := by
  unfold OnlyWrites at hst htu ⊢
  rw [htu, hst]

theorem OnlyWrites.sameMemory {s t : State} (h : OnlyWrites s t) : SameMemory s t := fun _ => by
  rw [h]
  rfl

theorem onlyWrites_storeFields (s : State) (off : Nat) (v : Word) : OnlyWrites s (storeFields s off v) := by
  unfold storeFields
  split <;> rfl

theorem onlyWrites_plainWrite (s : State) (off : Nat) (v : Word) : OnlyWrites s (plainWrite s off v) := by
  unfold plainWrite
  split
  · rfl
  · split
    · rfl
    · split
      · have hstaged : OnlyWrites s { s with staged := sdrop s.staged (· == off + 4) } := rfl
        exact (hstaged.trans (onlyWrites_storeFields _ _ _)).trans (onlyWrites_storeFields _ _ _)
      · exact onlyWrites_storeFields s off v

theorem onlyWrites_wakeBlock (s : State) (b : Nat) : OnlyWrites s (wakeBlock s b) := by
  unfold wakeBlock
  split <;> rfl

/-! ### Formation (R182) -/

theorem foldl_wakeBlock (cs : List Nat) (s : State) : OnlyWrites s (cs.foldl (fun s c => wakeBlock s (blockOf c)) s) := by
  induction cs generalizing s with
  | nil => rfl
  | cons c r ih => exact (onlyWrites_wakeBlock s _).trans (ih _)

theorem putBit_putBit (w : Word) {i : Nat} (a b : Bool) (hi : i < 32) : putBit (putBit w i a) i b = putBit w i b := by
  refine BitVec.eq_of_getLsbD_eq fun j hj => ?_
  show bit (putBit (putBit w i a) i b) j = bit (putBit w i b) j
  rw [bit_putBit _ b hi hj, bit_putBit _ b hi hj]
  split
  · rfl
  · rw [bit_putBit _ a hi hj, if_neg ‹_›]

/-- The state in which convoy `n` has been formed from a written word (R182). -/
def convoyFormed (s : State) (n : Nat) (v : Word) : State :=
  let p := plainWrite s (Reg.cmpCvCfg n) v
  setFld (setFlag ((members p n).foldl (fun s c => wakeBlock s (blockOf c)) p) (Reg.cmpCvCfg n) 31 true) (Reg.cmpCvStat n) 1 0 1

theorem convoyCfgWrite_forms {s : State} {n : Nat} {v : Word} (hn : n < 16) (hoff : flag s (Reg.cmpCvCfg n) 31 = false)
    (hidle : (convoy s n).launched = false) (hstate : convoyState s n ≠ 3)
    (hform : formationStatus (plainWrite s (Reg.cmpCvCfg n) (putBit v 31 false)) n
      (reg (plainWrite s (Reg.cmpCvCfg n) (putBit v 31 false)) (Reg.cmpCvCfg n)) = none) :
    convoyCfgWrite s n (putBit v 31 true) = (convoyFormed s n (putBit v 31 false), 0) := by
  have henable : bit (putBit v 31 true) 31 = true := by rw [bit_putBit _ _ (by decide) (by decide), if_pos rfl]
  have hconvoys : (plainWrite s (Reg.cmpCvCfg n) (putBit v 31 false)).convoys = s.convoys := by rw [onlyWrites_plainWrite]
  have hstateNow : convoyState (plainWrite s (Reg.cmpCvCfg n) (putBit v 31 false)) n ≠ 3 := by
    rwa [convoyState, fld, (cmpCvStat_readOnly hn).plainWrite, ← fld, ← convoyState]
  simp only [convoyCfgWrite, hoff, henable, putBit_putBit _ _ _ (show 31 < 32 by decide), convoy_of_convoys hconvoys,
    hidle, hstateNow, hform, Bool.false_eq_true, if_false, Bool.not_true]
  rfl

theorem convoyEnable_forms {o : Origin} {n : Nat} {v : Word} {s : State} (hn : n < 16)
    (ha : AllowedWrite s o (Reg.cmpCvCfg n) (putBit v 31 true)) (hoff : flag s (Reg.cmpCvCfg n) 31 = false)
    (hidle : (convoy s n).launched = false) (hstate : convoyState s n ≠ 3)
    (hform : formationStatus (plainWrite s (Reg.cmpCvCfg n) (putBit v 31 false)) n
      (reg (plainWrite s (Reg.cmpCvCfg n) (putBit v 31 false)) (Reg.cmpCvCfg n)) = none) :
    ∃ t, exec (.convoyEnable o n v) s = .next t ∧ flag t (Reg.cmpCvCfg n) 31 = true ∧ convoyState t n = 1 ∧ SameMemory s t := by
  have hexec : exec (.convoyEnable o n v) s =
      .next (writeAt s o (Reg.cmpCvCfg n) (putBit v 31 true) (convoyCfgWrite s n (putBit v 31 true))).1 := rfl
  rw [writeAt_allowed ha, convoyCfgWrite_forms hn hoff hidle hstate hform] at hexec
  have honly : OnlyWrites s (convoyFormed s n (putBit v 31 false)) :=
    .trans ((onlyWrites_plainWrite s _ _).trans (foldl_wakeBlock _ _)) rfl
  exact ⟨_, hexec, enable_setFlag_setFld _ n true 1, convoyState_setFld _ n (by decide), honly.sameMemory⟩

/-! ### Locking and unlocking (R27, R182) -/

theorem keepsThreads_foldl {α : Type} {f : State → α → State} (hf : ∀ s a, KeepsThreads s (f s a)) (l : List α) (s : State) :
    KeepsThreads s (l.foldl f s) := by
  induction l generalizing s with
  | nil => exact .refl s
  | cons a r ih => exact (hf s a).trans (ih _)

theorem keepsThreads_joinClock (st : BitVec 6) (s : State) (c : Nat) : KeepsThreads s (joinClock st s c) :=
  ((keepsThreads_setCoreCsr s c _ _).trans (keepsThreads_setIslandStep _ c st)).trans (keepsThreads_modCore _ c fun _ => rfl)

theorem keepsThreads_leaveClock (s : State) (c : Nat) : KeepsThreads s (leaveClock s c) :=
  (keepsThreads_setCoreCsr s c _ _).trans (startRelock_keeps _ c).1

theorem convoyLocked_locks {n : Nat} {s : State} (hstate : convoyState s n = 1) (hidle : matrixIdle s n = true)
    (hfree : (members s n).all (fun c => !bit (coreCsr s c 0x404) 9) = true) :
    ∃ t, exec (.convoyLocked n) s = .next t ∧ convoyState t n = 2 ∧ SameMemory s t := by
  have hjoined := keepsThreads_foldl (keepsThreads_joinClock (BitVec.ofNat 6 (bits (coreCsr s (memberAt s n 0 0) 0x404) 5 0)))
    (members s n) s
  refine ⟨_, (if_pos (by simp [hstate, hidle, hfree]) : execConvoyLocked n s = _), ?_, hjoined.sameMemory⟩
  rw [convoyState, fld_setFld_apart _ _ (by decide) (by decide), ← convoyState, convoyState_setFld _ n (by decide)]

theorem convoyUnlocked_unlocks {n : Nat} {s : State} (hstate : convoyState s n = 3) :
    ∃ t, exec (.convoyUnlocked n) s = .next t ∧ convoyState t n = 0 ∧ SameMemory s t := by
  have hleft (s : State) (c : Nat) : KeepsThreads s (if bit (coreCsr s c 0x404) 8 then leaveClock s c else s) := by
    split
    · exact keepsThreads_leaveClock s c
    · exact .refl s
  exact ⟨_, (if_pos (decide_eq_true hstate) : execConvoyUnlocked n s = _), convoyState_setFld _ n (by decide),
    (keepsThreads_foldl hleft (members s n) s).sameMemory⟩

/-! ### Arming (R184, R185) -/

theorem cvquery_reads {h : Hart} {s : State} (hi : canIssue s h = true) (hdrv : isDrvCore h.core = false) (rd : GReg) :
    ∃ t, exec (.cvquery h rd) s = .next t ∧ CommitsReg s t h rd (cvqueryValue s h.core) ((thr s h).pc + 4) := by
  have hexec : exec (.cvquery h rd) s = execCvquery h rd s := rfl
  rw [execCvquery, hdrv, firstTrap_cons_false, firstTrap_nil, issue_ok hi, retire_setGreg] at hexec
  exact ⟨_, hexec, setGreg_commits (window_of_canIssue hi) rd _ _⟩

theorem arm_arms {s : State} {h : Hart} {n : Nat} {i : Instr} (hi : canIssue s h = true) (hdrv : isDrvCore h.core = false)
    (hlocked : lockedConvoy s h.core = some n) (hnone : armedHart s h.core = none) (hfree : tileFree s h i = true) :
    ∃ t, arm s h i = .next t ∧ thr t h = { thr s h with wait := .convoy, cur := some i } ∧
      (convoy t n).firstArm = some ((convoy s n).firstArm.getD (now s)) ∧ SameMemory s t ∧ SameRegs s t := by
  have harm : arm s h i = .next (modConvoy (modThr s h fun t => { t with wait := .convoy, cur := some i }) n fun x =>
      { x with firstArm := some (x.firstArm.getD (now s)) }) := by
    simp only [arm, hfree, hnone, hlocked, hdrv, Bool.not_true, Option.isSome_none, Option.isNone_some, Bool.or_self,
      Bool.false_eq_true, if_false, firstTrap_cons_false, firstTrap_nil, issue_ok hi]
    rfl
  refine ⟨_, harm, thr_setThr_same s h _, ?_, fun _ => rfl, fun _ => rfl⟩
  rw [convoy_modConvoy_same]
  rfl

/-- The convoy instructions arm. -/
theorem exec_eq_arm (h : Hart) (a : AReg) (ta tb : TReg) (s : State) :
    ∀ i ∈ [Instr.cvmma h a ta tb, .cvmms h a ta tb, .cvsync h], exec i s = arm s h i := by
  intro i hi
  simp only [List.mem_cons, List.not_mem_nil, or_false] at hi
  rcases hi with rfl | rfl | rfl <;> rfl

/-! ### Launch (R185, R187) -/

theorem allSame_of_const {α β : Type} [DecidableEq β] {l : List α} {f : α → β} {b : β} (h : ∀ x ∈ l, f x = b) :
    allSame l f = true := by
  cases l with
  | nil => rfl
  | cons x r =>
    refine List.all_eq_true.mpr fun y hy => decide_eq_true ?_
    rw [h y (List.mem_cons_of_mem x hy), h x List.mem_cons_self]

theorem all_isSync {ms : List Member} (h : ∀ m ∈ ms, m.fn = 10) : (ms.all fun m => m.fn == 10) = true :=
  List.all_eq_true.mpr fun m hm => beq_iff_eq.mpr (h m hm)

/-- CVSYNC in every member meets no launch check. -/
theorem launchCheck_sync (s : State) {ms : List Member} (h : ∀ m ∈ ms, m.fn = 10) : launchCheck s ms = none := by
  simp [launchCheck, allSame_of_const h, all_isSync h]

/-- CVSYNC reads no tile (R187). -/
theorem any_westPoison_sync (s : State) {ms : List Member} (h : ∀ m ∈ ms, m.fn = 10) :
    (ms.any fun m => (westPoison s m).isSome) = false :=
  List.any_eq_false.mpr fun m hm => by simp [westPoison, h m hm]

theorem convoyLaunch_launches {n : Nat} {s : State} (hstate : convoyState s n = 2) (hidle : (convoy s n).launched = false)
    (hmatrix : matrixIdle s n = true) (hall : (armedMembers s n).length = (members s n).length)
    (hsync : ∀ m ∈ armedMembers s n, m.fn = 10) :
    ∃ t, exec (.convoyLaunch n) s = .next t ∧ (convoy t n).launched = true ∧ flag t (Reg.cmpCvStat n) 16 = true ∧
      SameCores s t ∧ SameMemory s t := by
  have hexec : exec (.convoyLaunch n) s =
      .next (setFlag (modConvoy s n fun x => { x with launched := true }) (Reg.cmpCvStat n) 16 true) := by
    show execConvoyLaunch n s = _
    simp [execConvoyLaunch, hstate, hidle, hmatrix, hall, launchCheck_sync s hsync, any_westPoison_sync s hsync]
  refine ⟨_, hexec, ?_, flag_setFlag_same _ _ (by decide) true, fun _ => rfl, fun _ => rfl⟩
  rw [convoy_setFlag, convoy_modConvoy_same]

/-! ### Steps of several threads, each of a core of its own -/

/-- Nothing but cores has changed. -/
def OnlyCores (s t : State) : Prop := t = { s with cores := t.cores }

theorem OnlyCores.trans {s t u : State} (hst : OnlyCores s t) (htu : OnlyCores t u) : OnlyCores s u := by
  unfold OnlyCores at hst htu ⊢
  rw [htu, hst]

theorem OnlyCores.convoy {s t : State} (h : OnlyCores s t) (n : Nat) : convoy t n = convoy s n :=
  convoy_of_convoys (by rw [h]) n

theorem OnlyCores.sameMemory {s t : State} (h : OnlyCores s t) : SameMemory s t := fun _ => by
  rw [h]
  rfl

theorem thr_of_core {s t : State} {h : Hart} (hc : core t h.core = core s h.core) : thr t h = thr s h := by
  rw [thr, hc, ← thr]

/-- A trap taken is a matter of its core alone. -/
theorem TrapTakenAt.of_core {s s' t t' : State} {h : Hart} {tr : Trap} {epc : Word} (ht : TrapTakenAt s t h tr epc)
    (hs : core s' h.core = core s h.core) (htt : core t' h.core = core t h.core) : TrapTakenAt s' t' h tr epc := by
  have hcsr (k : Nat) : coreCsr s' h.core k = coreCsr s h.core k := by rw [coreCsr, hs, ← coreCsr]
  unfold TrapTakenAt at ht ⊢
  dsimp only at ht ⊢
  rwa [thr_of_core hs, thr_of_core htt, hcsr]

/-- A step of each of several threads, on a core of its own: only cores change, and each of the threads' cores becomes what the
step makes of it in a state where the core is as before. -/
theorem foldl_ownCores {f : State → Hart → State} {good : State → Hart → Prop}
    (hgood : ∀ s u h, core u h.core = core s h.core → good s h → good u h)
    (honly : ∀ s h, good s h → OnlyThread s (f s h) h)
    {hs : List Hart} (hown : (hs.map Hart.core).Nodup) {s : State} (hall : ∀ h ∈ hs, good s h) :
    let t := hs.foldl f s
    OnlyCores s t ∧ (∀ c, c ∉ hs.map Hart.core → core t c = core s c) ∧
      ∀ h ∈ hs, ∃ u, core u h.core = core s h.core ∧ core t h.core = core (f u h) h.core := by
  induction hs generalizing s with
  | nil => exact ⟨rfl, fun _ _ => rfl, by simp⟩
  | cons h r ih =>
    rw [List.map_cons, List.nodup_cons] at hown
    obtain ⟨hrest, hothers, -, -⟩ := honly s h (hall h List.mem_cons_self)
    have hsame (j : Hart) (hj : j ∈ r) : core (f s h) j.core = core s j.core :=
      hothers _ fun he => hown.1 (he ▸ List.mem_map_of_mem hj)
    obtain ⟨hrests, hkept, hstepped⟩ :=
      ih hown.2 (s := f s h) fun j hj => hgood s _ j (hsame j hj) (hall j (List.mem_cons_of_mem h hj))
    refine ⟨?_, fun c hc => ?_, fun j hj => ?_⟩
    · exact OnlyCores.trans hrest hrests
    · rw [List.map_cons, List.mem_cons, not_or] at hc
      exact (hkept c hc.2).trans (hothers c hc.1)
    · rcases List.mem_cons.mp hj with rfl | hj
      · exact ⟨s, rfl, hkept _ hown.1⟩
      · obtain ⟨u, hu, ht⟩ := hstepped j hj
        exact ⟨u, hu.trans (hsame j hj), ht⟩

theorem armedHart_core {s : State} {c : Nat} {h : Hart} (ha : armedHart s c = some h) : h.core = c := by
  unfold armedHart at ha
  split at ha
  · cases ha
  · have hmem := List.mem_of_find?_eq_some ha
    obtain ⟨k, -, rfl⟩ := List.mem_map.mp hmem
    rfl

/-- A core holds one armed thread. -/
theorem nodup_cores_of_armed {s : State} {hs : List Hart} (harmed : ∀ h ∈ hs, armedHart s h.core = some h) (hn : hs.Nodup) :
    (hs.map Hart.core).Nodup :=
  List.Nodup.map_on (fun x hx y hy he => Option.some.inj (by rw [← harmed x hx, he, harmed y hy])) hn

theorem armedHart_of_mem {s : State} {n : Nat} {h : Hart} (hh : h ∈ armedHarts s n) : armedHart s h.core = some h := by
  obtain ⟨c, -, ha⟩ := List.mem_filterMap.mp hh
  rw [armedHart_core ha, ha]

theorem memberOf_armed {s : State} {n c : Nat} {m : Member} (hm : memberOf s n c = some m) : armedHart s c = some m.hart := by
  unfold memberOf at hm
  split at hm
  · cases hm
  · rename_i h ha
    dsimp only at hm
    rw [ha]
    split at hm <;> cases hm <;> rfl

theorem armedHart_of_member {s : State} {n : Nat} {h : Hart} (hh : h ∈ (armedMembers s n).map Member.hart) :
    armedHart s h.core = some h := by
  obtain ⟨m, hm, rfl⟩ := List.mem_map.mp hh
  obtain ⟨c, -, hc⟩ := List.mem_filterMap.mp hm
  have ha := memberOf_armed hc
  rw [armedHart_core ha, ha]

/-! ### The end of an operation (R186) -/

/-- CVSYNC in every member has nothing to write. -/
theorem foldl_completeMember_sync {ms : List Member} (h : ∀ m ∈ ms, m.fn = 10) (busy active : Nat) (s : State) :
    ms.foldl (completeMember busy active) s = (ms.map Member.hart).foldl endWait s := by
  rw [List.foldl_map]
  exact List.foldl_ext _ _ s fun u m hm => if_pos (h m hm)

/-- The waits of threads of different cores end. -/
theorem foldl_endWait {hs : List Hart} (hown : (hs.map Hart.core).Nodup) (s : State) :
    let t := hs.foldl endWait s
    OnlyCores s t ∧ ∀ h ∈ hs, (thr t h).wait = .none ∧ (thr t h).pc = (thr s h).pc + 4 := by
  obtain ⟨hrest, -, hstepped⟩ := foldl_ownCores (f := endWait) (good := fun _ _ => True) (fun _ _ _ _ _ => trivial)
    (fun s h _ => (endWait_fields s h).1) hown (s := s) fun _ _ => trivial
  refine ⟨hrest, fun h hh => ?_⟩
  obtain ⟨u, hu, ht⟩ := hstepped h hh
  rw [thr_of_core ht, (endWait_fields u h).2, thr_of_core hu]
  exact ⟨rfl, rfl⟩

theorem convoyOperation_completes {n : Nat} {s : State} (hrun : (convoy s n).launched = true)
    (hkept : (convoy s n).disabling = false) (hsync : ∀ m ∈ armedMembers s n, m.fn = 10)
    (hnodup : ((armedMembers s n).map Member.hart).Nodup) :
    ∃ t, exec (.convoyOperationComplete n) s = .next t ∧ (convoy t n).launched = false ∧
      flag t (Reg.cmpCvStat n) 16 = false ∧ SameMemory s t ∧
      ∀ m ∈ armedMembers s n, (thr t m.hart).wait = .none ∧ (thr t m.hart).pc = (thr s m.hart).pc + 4 := by
  obtain ⟨hrest, hended⟩ := foldl_endWait (nodup_cores_of_armed (fun _ => armedHart_of_member) hnodup) s
  have hexec : exec (.convoyOperationComplete n) s = .next (setFlag
      (modConvoy (((armedMembers s n).map Member.hart).foldl endWait s) n fun x => { x with launched := false, firstArm := none })
      (Reg.cmpCvStat n) 16 false) := by
    show execConvoyOperationComplete n s = _
    simp only [execConvoyOperationComplete, hrun, hkept, all_isSync hsync, foldl_completeMember_sync hsync, Bool.not_true,
      Bool.false_eq_true, if_false, if_true]
  generalize ((armedMembers s n).map Member.hart).foldl endWait s = u at hrest hended hexec
  refine ⟨_, hexec, ?_, flag_setFlag_same _ _ (by decide) false, hrest.sameMemory,
    fun m hm => hended m.hart (List.mem_map_of_mem hm)⟩
  rw [convoy_setFlag, convoy_modConvoy_same]

/-! ### A launch that does not come (R185) -/

/-- Threads of different cores, each below level 3, trap where they stand. -/
theorem foldl_takeTrap {hs : List Hart} (tr : Trap) (hown : (hs.map Hart.core).Nodup) {s : State}
    (hlevel : ∀ h ∈ hs, (thr s h).level ≠ 3) :
    let t := hs.foldl (fun s h => takeTrap s h tr (thr s h).pc) s
    OnlyCores s t ∧ ∀ h ∈ hs, TrapTaken s t h tr := by
  obtain ⟨hrest, -, hstepped⟩ := foldl_ownCores (f := fun s h => takeTrap s h tr (thr s h).pc)
    (good := fun s h => (thr s h).level ≠ 3)
    (fun s u h hc hl => by rwa [thr_of_core hc]) (fun s h hl => (takeTrap_taken s h tr _ hl).2) hown hlevel
  refine ⟨hrest, fun h hh => ?_⟩
  obtain ⟨u, hu, ht⟩ := hstepped h hh
  have hthr := thr_of_core hu
  have htaken := (takeTrap_taken u h tr (thr u h).pc (by rw [hthr]; exact hlevel h hh)).1
  rw [TrapTaken, ← hthr]
  exact htaken.of_core hu.symm ht

theorem convoyLaunch_timesOut {n c d : Nat} {s : State} (hidle : (convoy s n).launched = false)
    (harm : (convoy s n).firstArm = some d) (hsender : (members s n).find? (fun c => (armedHart s c).isNone) = some c)
    (hlate : d + (reg s (Reg.cmpCvDl n)).toNat ≤ now s) (hlevel : ∀ h ∈ armedHarts s n, (thr s h).level ≠ 3)
    (hnodup : (armedHarts s n).Nodup) :
    ∃ t, exec (.convoyLaunchTimeout n) s = .next t ∧ (convoy t n).firstArm = none ∧ SameMemory s t ∧
      ∀ h ∈ armedHarts s n, TrapTaken s t h (trapWait 0 c) := by
  have hnamed : launchSender s n = c := by rw [launchSender, hsender, Option.getD_some]
  have hexec : exec (.convoyLaunchTimeout n) s = .next ((armedHarts s n).foldl (fun s h => takeTrap s h (trapWait 0 c) (thr s h).pc)
      (modConvoy s n fun x => { x with firstArm := none })) := by
    show execConvoyLaunchTimeout n s = _
    simp [execConvoyLaunchTimeout, hidle, harm, hnamed, hlate]
  obtain ⟨hrest, htaken⟩ := foldl_takeTrap (trapWait 0 c) (nodup_cores_of_armed (fun _ => armedHart_of_mem) hnodup)
    (s := modConvoy s n fun x => { x with firstArm := none }) hlevel
  refine ⟨_, hexec, ?_, hrest.sameMemory, htaken⟩
  rw [hrest.convoy, convoy_modConvoy_same]

/-! ### Dissolution (R183) -/

/-- The state in which ENABLE of a convoy is 0 and its record names the members it was formed of. -/
def convoyDisabled (s : State) (n : Nat) : State :=
  setFlag (modConvoy s n fun x => { x with form := reg s (Reg.cmpCvCfg n) }) (Reg.cmpCvCfg n) 31 false

theorem convoy_convoyDisabled (s : State) (n : Nat) :
    convoy (convoyDisabled s n) n = { convoy s n with form := reg s (Reg.cmpCvCfg n) } := by
  rw [convoyDisabled, convoy_setFlag, convoy_modConvoy_same]

/-- A convoy whose ENABLE is cleared keeps the members it was formed of. -/
theorem armedHarts_convoyDisabled {s : State} {n : Nat} (hon : flag s (Reg.cmpCvCfg n) 31 = true) :
    armedHarts (convoyDisabled s n) n = armedHarts s n := by
  have hoff : flag (convoyDisabled s n) (Reg.cmpCvCfg n) 31 = false := flag_setFlag_same _ _ (by decide) false
  have hword : convoyWord (convoyDisabled s n) n = convoyWord s n := by
    rw [convoyWord, hoff, ← convoy, convoy_convoyDisabled, convoyWord, if_pos hon]
    rfl
  rw [armedHarts, members, hword]
  rfl

/-- ENABLE = 0 in a convoy at rest dissolves it at once. -/
theorem convoyCfgWrite_dissolves {s : State} {n : Nat} (hon : flag s (Reg.cmpCvCfg n) 31 = true)
    (hidle : (convoy s n).launched = false) {v : Word} (hv : bit v 31 = false) :
    convoyCfgWrite s n v = (beginUnlock (convoyDisabled s n) n, 0) := by
  have hrests : (convoy (convoyDisabled s n) n).launched = false := by rw [convoy_convoyDisabled, hidle]
  rw [convoyCfgWrite, if_pos hon, if_neg (by rw [hv]; decide)]
  exact if_neg (by rw [← convoyDisabled, hrests]; decide)

/-- Where no thread has armed, the unlocking begins with no trap. -/
theorem beginUnlock_unarmed {s : State} {n : Nat} (hnone : armedHarts s n = []) :
    beginUnlock s n = setFld (modConvoy s n fun x => { Convoy.reset with form := x.form }) (Reg.cmpCvStat n) 1 0 3 := by
  rw [beginUnlock, hnone, List.foldl_nil]

theorem convoyDisable_dissolves {o : Origin} {n : Nat} {s : State}
    (ha : AllowedWrite s o (Reg.cmpCvCfg n) (putBit (reg s (Reg.cmpCvCfg n)) 31 false))
    (hon : flag s (Reg.cmpCvCfg n) 31 = true) (hidle : (convoy s n).launched = false) (hnone : armedHarts s n = []) :
    ∃ t, exec (.convoyDisable o n) s = .next t ∧ flag t (Reg.cmpCvCfg n) 31 = false ∧ convoyState t n = 3 ∧ SameMemory s t := by
  have hclear : bit (putBit (reg s (Reg.cmpCvCfg n)) 31 false) 31 = false := by
    rw [bit_putBit _ _ (by decide) (by decide), if_pos rfl]
  have hexec : exec (.convoyDisable o n) s = .next (writeAt s o (Reg.cmpCvCfg n) (putBit (reg s (Reg.cmpCvCfg n)) 31 false)
      (convoyCfgWrite s n (putBit (reg s (Reg.cmpCvCfg n)) 31 false))).1 := rfl
  rw [writeAt_allowed ha, convoyCfgWrite_dissolves hon hidle hclear,
    beginUnlock_unarmed ((armedHarts_convoyDisabled hon).trans hnone)] at hexec
  refine ⟨_, hexec, ?_, convoyState_setFld _ n (by decide), fun _ => rfl⟩
  exact enable_setFlag_setFld (modConvoy s n fun x => { x with form := reg s (Reg.cmpCvCfg n) }) n false 3

/-- Settles O29: each command of a convoy by what it makes of the convoy's record, its registers and its members. -/
theorem convoyLifeCycle : Obligations.ConvoyLifeCycle := by
  unfold Obligations.ConvoyLifeCycle
  refine ⟨fun o n v s hn hreach hpres hworld hoff hidle hstate hform => ?forms,
    fun n s hstate hmatrix hfree => convoyLocked_locks hstate hmatrix hfree,
    fun h a ta tb rd n s hi hdrv => ⟨cvquery_reads hi hdrv rd, fun hlocked hnone i hmem hfree => ?arms⟩,
    fun n s hstate hidle hmatrix _ hall hsync => convoyLaunch_launches hstate hidle hmatrix hall hsync,
    fun n s hrun hkept hsync hnodup => convoyOperation_completes hrun hkept hsync hnodup,
    fun n c d s hidle harm hsender hlate hlevel hnodup => convoyLaunch_timesOut hidle harm hsender hlate hlevel hnodup,
    fun o n s hn hreach hpres hworld hon hidle hnone => ?dissolves,
    fun n s hstate => convoyUnlocked_unlocks hstate⟩
  case forms => exact convoyEnable_forms hn (cmpCvCfg_allowed hn hreach hpres hworld) hoff hidle hstate hform
  case arms =>
    rw [exec_eq_arm h a ta tb s i hmem]
    exact arm_arms hi hdrv hlocked hnone hfree
  case dissolves => exact convoyDisable_dissolves (cmpCvCfg_allowed hn hreach hpres hworld) hon hidle hnone

end Sys2Proof.Machine
end

section
/-! PROOFS. Slot tables and their commits, frame boundaries, and tenancy rectangles (R192 to R199, R212, R213, R215, R246). -/

namespace Sys2Proof.Machine

/-! ### A write of a slot-table word (R193, R197) -/

theorem byteOf_lt (w : Word) (j : Nat) : byteOf w j < 256 :=
  (bits_lt w _ _).trans_eq (by rw [show 8 * j + 7 + 1 - 8 * j = 8 by omega]; rfl)

/-- The bytes of a word spelled by four bytes. -/
theorem byteOf_leNat {bs : List Byte} (hlen : bs.length = 4) {j : Nat} (hj : j < bs.length) :
    byteOf (BitVec.ofNat 32 (leNat bs)) j = bs[j].toNat := by
  have hlt : leNat bs < 2 ^ 32 := (leNat_lt bs).trans_eq (by rw [hlen]; rfl)
  rw [byteOf, bits, BitVec.toNat_ofNat, Nat.mod_eq_of_lt hlt, Nat.shiftRight_eq_div_pow, ← leNat_digit bs hj, BitVec.toNat_ofNat,
    show 8 * j + 7 + 1 - 8 * j = 8 by omega]

/-- An entry of a written slot-table word: kept where a Plain writer meets a guarded rectangle, and its TARGET kept where the new
one is reserved. -/
theorem slotByte_getD (s : State) (o : Origin) (lane w : Nat) (old v : Word) (j : Nat) :
    (slotByte s o lane w old v j).getD (byteOf old j) =
      if guardedOrigin o = false ∧ (entryGuards s (byteOf old j) ∨ entryGuards s (byteOf v j) ∨
          entryGuards s (slotEntry s lane (4 * w + j))) then byteOf old j
      else if targetReserved lane (byteOf v j) then byteOf old j / 32 * 32 + byteOf v j % 32 else byteOf v j := by
  have hcond : (guardedOrigin o = false ∧ (entryGuards s (byteOf old j) ∨ entryGuards s (byteOf v j) ∨
      entryGuards s (slotEntry s lane (4 * w + j)))) ↔ (!guardedOrigin o && (entryGuards s (byteOf old j) ||
        entryGuards s (byteOf v j) || entryGuards s (slotEntry s lane (4 * w + j)))) = true := by
    simp [or_assoc]
  rw [if_congr hcond rfl rfl, slotByte]
  split <;> rfl

theorem slotByte_getD_lt (s : State) (o : Origin) (lane w : Nat) (old v : Word) (j : Nat) :
    (slotByte s o lane w old v j).getD (byteOf old j) < 256 := by
  have hold := byteOf_lt old j
  have hnew := byteOf_lt v j
  rw [slotByte_getD]
  split
  · exact hold
  · split <;> omega

/-- A written slot-table word, entry by entry. -/
theorem laneSlotWrite_eq (s : State) (o : Origin) (lane w : Nat) (v : Word) :
    ∃ x, (laneSlotWrite s o lane w v).1 = setReg s (Reg.cmpLaneSlot lane w) x ∧ ∀ j, j < 4 →
      byteOf x j = (slotByte s o lane w (reg s (Reg.cmpLaneSlot lane w)) v j).getD (byteOf (reg s (Reg.cmpLaneSlot lane w)) j) := by
  refine ⟨_, rfl, fun j hj => ?_⟩
  rw [byteOf_leNat (by simp) (by simpa using hj)]
  simp only [nth, List.getElem_map, List.getElem_range, BitVec.toNat_ofNat, List.getD_eq_getElem?_getD, List.getElem?_map,
    List.getElem?_range hj, Option.map_some, Option.getD_some]
  exact Nat.mod_eq_of_lt (slotByte_getD_lt s o lane w _ v j)

theorem exec_laneSlotWrite {s : State} {o : Origin} {lane w : Nat} {v : Word} (hlane : lane < 122) (hw : w < 16)
    (ha : AllowedWrite s o (Reg.cmpLaneSlot lane w) v) :
    exec (.laneSlotWrite o lane w v) s = .next (laneSlotWrite s o lane w v).1 := by
  show execLaneSlotWrite o lane w v s = _
  rw [execLaneSlotWrite, writeAt_allowed ha, decide_eq_true hlane, decide_eq_true hw]
  rfl

/-! ### COMMIT of CMP_LANE_COMMIT (R196) -/

theorem OnlyRegs.setReg {s t : State} {off : Nat} (h : OnlyRegs s t [off]) (v : Word) :
    OnlyRegs s (Machine.setReg t off v) [off] := by
  obtain ⟨heq, hregs⟩ := h
  refine ⟨by rw [heq]; rfl, fun o ho => ?_⟩
  rw [reg_setReg_other t v (by simpa using ho), hregs o ho]

theorem setW1s_onlyRegs (s : State) (off : Nat) (v : Word) : OnlyRegs s (setW1s s off v) [off] := by
  unfold setW1s
  split
  · split
    · exact ⟨rfl, fun _ _ => rfl⟩
    · exact setReg_onlyRegs s off _
  · exact ⟨rfl, fun _ _ => rfl⟩

/-- A W1S bit that is written 1 reads 1 (R12). -/
theorem flag_setW1s {s : State} {off i : Nat} {v : Word} (hrow : (regRow off).any (fun r => bit (v &&& r.locks) i) = true) :
    flag (setW1s s off v) off i = true := by
  obtain ⟨r, hr, hbit⟩ := (Option.any_eq_true _ _).mp hrow
  have hne : v &&& r.locks ≠ 0 := fun h0 => by
    rw [h0] at hbit
    simp [bit] at hbit
  rw [setW1s, hr]
  simp only [if_neg hne, flag, reg_setReg_same, bit_or, hbit, Bool.or_true]

/-- One bit of a register leaves every other bit of it. -/
theorem flag_setFlag_apart (s : State) (o : Nat) {i j : Nat} (hi : i < 32) (hj : j < 32) (hne : j ≠ i) (b : Bool) :
    flag (setFlag s o i b) o j = flag s o j := by
  rw [flag, reg_setFlag_same, bit_putBit _ b hi hj, if_neg hne, flag]

theorem laneCommit_pends {s : State} {o : Origin} (ha : AllowedWrite s o Reg.cmpLaneCommit 1) :
    ∃ t, exec (.laneCommit o) s = .next t ∧ OnlyRegs s t [Reg.cmpLaneCommit] ∧ flag t Reg.cmpLaneCommit 1 = true ∧
      flag t Reg.cmpLaneCommit 0 = true ∧ t.slotNow = s.slotNow := by
  have hrow : (regRow Reg.cmpLaneCommit).any (fun r => bit ((1 : Word) &&& r.locks) 0) = true := by decide +kernel
  have hwrite : (laneCommitWrite s 1).1 = setFlag (setW1s s Reg.cmpLaneCommit 1) Reg.cmpLaneCommit 1 true := rfl
  have hexec : exec (.laneCommit o) s = .next (writeAt s o Reg.cmpLaneCommit 1 (laneCommitWrite s 1)).1 := rfl
  rw [writeAt_allowed ha, hwrite] at hexec
  have honly : OnlyRegs s (setFlag (setW1s s Reg.cmpLaneCommit 1) Reg.cmpLaneCommit 1 true) [Reg.cmpLaneCommit] :=
    (setW1s_onlyRegs s _ _).setReg _
  refine ⟨_, hexec, honly, flag_setFlag_same _ _ (by decide) true, ?_, by rw [honly.1]⟩
  rw [flag_setFlag_apart _ _ (by decide) (by decide) (by decide), flag_setW1s hrow]

/-! ### A pending commit at a frame boundary (R192, R196) -/

/-- A table lists its values other than 0 under rising keys, and reads 0 elsewhere. -/
theorem sget_nonzero (f : Nat → Word) (a n i : Nat) :
    sget ((List.range' a n).filterMap fun i => if f i = 0 then none else some (i, f i)) i 0 =
      if a ≤ i ∧ i < a + n then f i else 0 := by
  induction n generalizing a with
  | zero => simp [show ¬ (a ≤ i ∧ i < a) by omega]
  | succ n ih =>
    have hrest := ih (a + 1)
    rw [List.range'_succ]
    by_cases hf : f a = 0
    · rw [List.filterMap_cons_none (f := fun i => if f i = 0 then none else some (i, f i)) (if_pos hf), hrest]
      by_cases hia : i = a
      · simp [hia, hf]
      · exact if_congr (by omega) rfl rfl
    · rw [List.filterMap_cons_some (f := fun i => if f i = 0 then none else some (i, f i)) (if_neg hf), sget]
      by_cases hia : i = a
      · simp [hia]
      · rw [if_neg hia, hrest]
        by_cases hlt : i < a
        · rw [if_pos hlt, if_neg (by omega)]
        · rw [if_neg hlt]
          exact if_congr (by omega) rfl rfl

/-- The slot tables as a commit puts them in force: every shadow word (R196). -/
def shadowTables (s : State) : Sparse Word :=
  (List.range 1952).filterMap fun i =>
    if reg s (Reg.cmpLaneSlot (i / 16) (i % 16)) = 0 then none else some (i, reg s (Reg.cmpLaneSlot (i / 16) (i % 16)))

/-- With the shadows in force every entry is its shadow. -/
theorem slotEntry_shadowTables {s t : State} (ht : t.slotNow = shadowTables s) {l k : Nat} (hl : l < 122) (hk : k < 64) :
    slotEntry t l k = byteOf (reg s (Reg.cmpLaneSlot l (k / 4))) (k % 4) := by
  have hword : sget t.slotNow (16 * l + k / 4) 0 = reg s (Reg.cmpLaneSlot l (k / 4)) := by
    rw [ht, shadowTables, List.range_eq_range',
      sget_nonzero (fun i => reg s (Reg.cmpLaneSlot (i / 16) (i % 16))), if_pos (by omega)]
    rw [show (16 * l + k / 4) / 16 = l by omega, show (16 * l + k / 4) % 16 = k / 4 by omega]
  rw [slotEntry, hword, byteOf]

theorem laneBoundary_idle {s : State} (h : flag s Reg.cmpLaneCommit 1 = false) : laneBoundary s = s := by
  rw [laneBoundary, h]
  rfl

/-- The tables in force are no register. -/
theorem reg_withSlots (s : State) (m : Sparse Word) (o : Nat) : reg { s with slotNow := m } o = reg s o := rfl

theorem laneBoundary_commits {s : State} (hpend : flag s Reg.cmpLaneCommit 1 = true) (hfits : firstOver s = none) :
    (laneBoundary s).slotNow = shadowTables s ∧ reg (laneBoundary s) Reg.cmpLaneCommit = reg s Reg.cmpLaneCommit &&& 1 := by
  simp only [laneBoundary, hpend, hfits, Bool.not_true, Bool.false_eq_true, if_false]
  exact ⟨by rw [shadowTables], by rw [reg_withSlots, reg_setReg_same]⟩

theorem laneBoundary_refuses {s : State} {r k : Nat} (hpend : flag s Reg.cmpLaneCommit 1 = true)
    (hover : firstOver s = some (r, k)) : laneBoundary s = laneRefuse s r k := by
  rw [laneBoundary, hpend, hover]
  rfl

/-- A commit concerns registers and the tables in force, and neither memory, cores, messages nor units. -/
theorem laneBoundary_frame (s : State) :
    (laneBoundary s).mem = s.mem ∧ (laneBoundary s).cores = s.cores ∧ (laneBoundary s).courier = s.courier ∧
      (laneBoundary s).units = s.units := by
  unfold laneBoundary
  split
  · exact ⟨rfl, rfl, rfl, rfl⟩
  · split <;> exact ⟨rfl, rfl, rfl, rfl⟩

/-- The first router over its limit is one of the ten routers, at one of the 64 indices. -/
theorem firstOver_bounds {s : State} {r k : Nat} (h : firstOver s = some (r, k)) : r < 10 ∧ k < 64 := by
  have hunits : s.pkg.nUnits ≤ 8 := by
    unfold Package.nUnits
    split <;> decide
  have hserai : s.pkg.nSerai ≤ 2 := by
    unfold Package.nSerai
    split <;> decide
  have hmem := List.mem_of_find?_eq_some h
  simp only [routers, List.mem_flatMap, List.mem_append, List.mem_range, List.mem_map, Prod.mk.injEq] at hmem
  obtain ⟨r', hr, k', hk, rfl, rfl⟩ := hmem
  refine ⟨?_, hk⟩
  rcases hr with hr | ⟨i, hi, rfl⟩ <;> omega

/-- The word of a refused commit names VALIDATION, the router and the index. -/
theorem laneRefuse_fields (s : State) {r k : Nat} (hr : r < 10) (hk : k < 64) :
    let t := laneRefuse s r k
    fld t Reg.cmpLaneCommit 15 8 = 0x0B ∧ fld t Reg.cmpLaneCommit 19 16 = r ∧ fld t Reg.cmpLaneCommit 29 24 = k := by
  have hword : (BitVec.ofNat 32 (0x0B * 256 + 65536 * r + 2 ^ 24 * k)).toNat = 0x0B * 256 + 65536 * r + 2 ^ 24 * k :=
    (BitVec.toNat_ofNat _ _).trans (Nat.mod_eq_of_lt (by omega))
  have hfield : ∀ hi lo, bits (1 : Word) hi lo = 0 → fld (laneRefuse s r k) Reg.cmpLaneCommit hi lo =
      (0x0B * 256 + 65536 * r + 2 ^ 24 * k) / 2 ^ lo % 2 ^ (hi + 1 - lo) := by
    intro hi lo h0
    rw [laneRefuse, fld_setReg_same, bits_or, bits_and, h0, Nat.and_zero, Nat.or_zero, bits, hword,
      Nat.shiftRight_eq_div_pow]
  refine ⟨(hfield 15 8 (by decide)).trans ?_, (hfield 19 16 (by decide)).trans ?_, (hfield 29 24 (by decide)).trans ?_⟩ <;> omega

/-! ### The units at a frame boundary (R242, R246) -/

/-- Memory, cores, messages, the tables in force, the registers below the units' own, and the step and gear selected for each unit
are as before. -/
structure KeepsSelection (s t : State) : Prop where
  mem : t.mem = s.mem
  cores : t.cores = s.cores
  courier : t.courier = s.courier
  slotNow : t.slotNow = s.slotNow
  regs : ∀ o, o < 0x2000000 → reg t o = reg s o
  step : ∀ u, (memUnit t u).stepNext = (memUnit s u).stepNext
  gear : ∀ u, (memUnit t u).gearNext = (memUnit s u).gearNext

theorem KeepsSelection.refl (s : State) : KeepsSelection s s := ⟨rfl, rfl, rfl, rfl, fun _ _ => rfl, fun _ => rfl, fun _ => rfl⟩

theorem KeepsSelection.trans {s t u : State} (hst : KeepsSelection s t) (htu : KeepsSelection t u) : KeepsSelection s u :=
  ⟨htu.mem.trans hst.mem, htu.cores.trans hst.cores, htu.courier.trans hst.courier, htu.slotNow.trans hst.slotNow,
    fun o ho => (htu.regs o ho).trans (hst.regs o ho), fun x => (htu.step x).trans (hst.step x),
    fun x => (htu.gear x).trans (hst.gear x)⟩

theorem keepsSelection_setReg (s : State) {off : Nat} (v : Word) (hoff : 0x2000000 ≤ off) : KeepsSelection s (setReg s off v) :=
  ⟨rfl, rfl, rfl, rfl, fun _ ho => reg_setReg_other s v (by omega), fun _ => rfl, fun _ => rfl⟩

theorem keepsSelection_modUnit (s : State) (u : Nat) {f : Unit → Unit} (hstep : ∀ x, (f x).stepNext = x.stepNext)
    (hgear : ∀ x, (f x).gearNext = x.gearNext) : KeepsSelection s (modUnit s u f) := by
  have hunit (x : Nat) : memUnit (modUnit s u f) x = if x = u then f (memUnit s u) else memUnit s x := sget_sput ..
  refine ⟨rfl, rfl, rfl, rfl, fun _ _ => rfl, fun x => ?_, fun x => ?_⟩ <;> rw [hunit]
  · split
    · next hx => rw [hstep, hx]
    · rfl
  · split
    · next hx => rw [hgear, hx]
    · rfl

theorem keepsSelection_maskDone (s : State) (u st : Nat) : KeepsSelection s (maskDone s u st) :=
  (keepsSelection_setReg s _ (by simp only [Reg.hbmMaskcommit]; omega)).trans
    (keepsSelection_setReg _ _ (by simp only [Reg.hbmMaskcommit]; omega))

theorem keepsSelection_maskBoundary (s : State) (u : Nat) : KeepsSelection s (maskBoundary s u) := by
  unfold maskBoundary
  split
  · exact .refl s
  · split
    · exact keepsSelection_maskDone s u _
    · exact (keepsSelection_maskDone s u 0).trans (keepsSelection_modUnit _ u (fun _ => rfl) fun _ => rfl)

/-- The step and the gear that a unit's HBM_STAT shows are those selected. -/
def ShowsSelected (s : State) (u : Nat) : Prop :=
  fld s (Reg.hbmStat u) 4 3 = (memUnit s u).stepNext.toNat ∧ fld s (Reg.hbmStat u) 6 5 = (memUnit s u).gearNext.toNat

theorem unitBoundary_keeps (s : State) (u : Nat) : KeepsSelection s (unitBoundary s u) :=
  (keepsSelection_maskBoundary s u).trans
    ((keepsSelection_setReg _ _ (by simp only [Reg.hbmStat]; omega)).trans
      (keepsSelection_setReg _ _ (by simp only [Reg.hbmStat]; omega)))

theorem unitBoundary_shows (s : State) (u : Nat) : ShowsSelected (unitBoundary s u) u := by
  have hlt (x : BitVec 2) : x.toNat % 2 ^ (4 + 1 - 3) = x.toNat := Nat.mod_eq_of_lt x.isLt
  constructor
  · exact (fld_setFld_apart _ _ (by decide) (by decide) _).trans ((fld_setFld_same _ _ (by decide) _).trans (hlt _))
  · exact (fld_setFld_same _ _ (by decide) _).trans (hlt _)

/-- A unit at its boundary leaves HBM_STAT of every other unit. -/
theorem unitBoundary_hbmStat (s : State) {u x : Nat} (hx : x ≠ u) :
    reg (unitBoundary s u) (Reg.hbmStat x) = reg s (Reg.hbmStat x) := by
  have hstat : Reg.hbmStat x ≠ Reg.hbmStat u := by simp only [Reg.hbmStat]; omega
  have hmask : Reg.hbmStat x ≠ Reg.hbmMaskcommit u := by simp only [Reg.hbmStat, Reg.hbmMaskcommit]; omega
  have hdone (st : Nat) : reg (maskDone s u st) (Reg.hbmStat x) = reg s (Reg.hbmStat x) :=
    (reg_setFld_other _ _ _ _ hmask).trans (reg_setFlag_other _ _ _ hmask)
  have hboundary : reg (maskBoundary s u) (Reg.hbmStat x) = reg s (Reg.hbmStat x) := by
    unfold maskBoundary
    split
    · rfl
    · split
      · exact hdone _
      · exact hdone 0
  exact (reg_setFld_other _ _ _ _ hstat).trans ((reg_setFld_other _ _ _ _ hstat).trans hboundary)

/-- After the boundaries of the first `n` units each of them shows the step and gear selected for it. -/
theorem unitBoundaries (s : State) (n : Nat) :
    KeepsSelection s ((List.range n).foldl unitBoundary s) ∧
      ∀ u, u < n → ShowsSelected ((List.range n).foldl unitBoundary s) u := by
  induction n with
  | zero => exact ⟨.refl s, fun u hu => absurd hu (Nat.not_lt_zero u)⟩
  | succ n ih =>
    obtain ⟨hkeeps, hshows⟩ := ih
    rw [List.range_succ, List.foldl_append, List.foldl_cons, List.foldl_nil]
    generalize (List.range n).foldl unitBoundary s = t at hkeeps hshows
    have hlast := unitBoundary_keeps t n
    refine ⟨hkeeps.trans hlast, fun u hu => ?_⟩
    by_cases hun : u = n
    · rw [hun]
      exact unitBoundary_shows t n
    · have hu' := hshows u (by omega)
      rwa [ShowsSelected, fld, fld, unitBoundary_hbmStat t hun, ← fld, ← fld, hlast.step, hlast.gear]

theorem frameBoundary_acts {s : State} (hup : partUp s = true) :
    ∃ t, exec .frameBoundary s = .next t ∧ SameMemory s t ∧ SameCores s t ∧ t.courier = s.courier ∧
      t.slotNow = (laneBoundary s).slotNow ∧ reg t Reg.cmpLaneCommit = reg (laneBoundary s) Reg.cmpLaneCommit ∧
      ∀ u, u < s.pkg.nUnits → fld t (Reg.hbmStat u) 4 3 = (memUnit s u).stepNext.toNat ∧
        fld t (Reg.hbmStat u) 6 5 = (memUnit s u).gearNext.toNat := by
  have hexec : exec .frameBoundary s =
      .next { (List.range s.pkg.nUnits).foldl unitBoundary (laneBoundary s) with rowBeats := [] } := by
    show execFrameBoundary s = _
    rw [execFrameBoundary, hup]
    rfl
  obtain ⟨hkeeps, hshows⟩ := unitBoundaries (laneBoundary s) s.pkg.nUnits
  generalize (List.range s.pkg.nUnits).foldl unitBoundary (laneBoundary s) = t at hexec hkeeps hshows
  obtain ⟨hmem, hcores, hcourier, hunits⟩ := laneBoundary_frame s
  have hunit (u : Nat) : memUnit (laneBoundary s) u = memUnit s u := by rw [memUnit, hunits, ← memUnit]
  have hcore (c : Nat) : core t c = core s c := by rw [core, hkeeps.cores, hcores, ← core]
  refine ⟨_, hexec, sameMemory_of_mem (hkeeps.mem.trans hmem), hcore, hkeeps.courier.trans hcourier, hkeeps.slotNow,
    hkeeps.regs _ (by decide), fun u hu => ?_⟩
  · obtain ⟨hstep, hgear⟩ := hshows u hu
    rw [hkeeps.step, hunit] at hstep
    rw [hkeeps.gear, hunit] at hgear
    exact ⟨hstep, hgear⟩

/-! ### Tenancy rectangles (R212, R213, R215) -/

theorem exec_tenRectEnable {s : State} {o : Origin} {n : Nat} {v : Word} (hn : n < 16)
    (ha : AllowedWrite s o (Reg.cmpTenRect n) (putBit v 31 true)) :
    exec (.tenRectEnable o n v) s = .next (tenRectWrite s n (putBit v 31 true)).1 := by
  show execTenRectEnable o n v s = _
  rw [execTenRectEnable, writeAt_allowed ha, decide_eq_true hn]
  rfl

theorem exec_tenRectDisable {s : State} {o : Origin} {n : Nat} (hn : n < 16)
    (ha : AllowedWrite s o (Reg.cmpTenRect n) (putBit (reg s (Reg.cmpTenRect n)) 31 false)) :
    exec (.tenRectDisable o n) s = .next (tenRectWrite s n (putBit (reg s (Reg.cmpTenRect n)) 31 false)).1 := by
  show execTenRectDisable o n s = _
  rw [execTenRectDisable, writeAt_allowed ha, decide_eq_true hn]
  rfl

/-- The fields of a rectangle's word below ENABLE. -/
theorem putBit_enable_fields (v : Word) (b : Bool) : putBit v 31 b &&& 0x1FFF = v &&& 0x1FFF := by
  refine BitVec.eq_of_getLsbD_eq fun i hi => ?_
  show bit (putBit v 31 b &&& 0x1FFF) i = bit (v &&& 0x1FFF) i
  rw [bit_and, bit_and, bit_putBit v b (by decide) hi]
  split
  · next h31 => rw [h31, show bit (0x1FFF : Word) 31 = false by decide, Bool.and_false, Bool.and_false]
  · rfl

/-- What a rectangle's own word holds does not matter to its checks. -/
theorem rectValid_setReg (s : State) (n : Nat) (x w : Word) :
    rectValid (setReg s (Reg.cmpTenRect n) x) n w = rectValid s n w := by
  have hother (m : Nat) (hm : m ≠ n) : reg (setReg s (Reg.cmpTenRect n) x) (Reg.cmpTenRect m) = reg s (Reg.cmpTenRect m) :=
    reg_setReg_other s x (by simp only [Reg.cmpTenRect]; omega)
  have hcheck (m : Nat) :
      (decide (m = n) || !rectOn (setReg s (Reg.cmpTenRect n) x) m ||
        !rectsOverlap w (reg (setReg s (Reg.cmpTenRect n) x) (Reg.cmpTenRect m))) =
      (decide (m = n) || !rectOn s m || !rectsOverlap w (reg s (Reg.cmpTenRect m))) := by
    by_cases hm : m = n
    · rw [decide_eq_true hm, Bool.true_or, Bool.true_or, Bool.true_or, Bool.true_or]
    · rw [rectOn, flag, hother m hm, ← flag, ← rectOn]
  exact congrArg (fun f : Nat → Bool => decide (bits w 2 0 + bits w 5 3 + 1 ≤ s.pkg.rows / 4) &&
    decide (bits w 8 6 + bits w 11 9 + 1 ≤ 8) && (List.range 16).all f) (funext hcheck)

/-- Where guarded rectangles are locked, neither a guarded rectangle nor a word that would guard one is taken (R215). -/
theorem tenRectWrite_locked {s : State} {n : Nat} {v : Word} (hlock : tenLocked s = true)
    (hguard : rectGuarded s n = true ∨ bit v 12 = true) : tenRectWrite s n v = (s, 0) :=
  if_pos (by rw [hlock, Bool.true_and, Bool.or_eq_true]; exact hguard)

theorem tenRectWrite_enables {s : State} {n : Nat} {v : Word}
    (hlock : ¬(tenLocked s = true ∧ (rectGuarded s n = true ∨ bit v 12 = true)))
    (hoff : rectOn s n = false) (hen : bit v 31 = true) (hvalid : rectValid s n (v &&& 0x1FFF) = true) :
    tenRectWrite s n v = (setFlag (setReg s (Reg.cmpTenRect n) (v &&& 0x1FFF)) (Reg.cmpTenRect n) 31 true, 0) := by
  have hfree : ¬((tenLocked s && (rectGuarded s n || bit v 12)) = true) := by
    rwa [Bool.and_eq_true, Bool.or_eq_true]
  simp only [tenRectWrite, if_neg hfree, hoff, hen, rectValid_setReg, hvalid, Bool.false_eq_true, if_false, if_true, Bool.not_true]

theorem tenRectEnable_enables {s : State} {o : Origin} {n : Nat} {v : Word} (hn : n < 16)
    (ha : AllowedWrite s o (Reg.cmpTenRect n) (putBit v 31 true)) (hoff : rectOn s n = false)
    (hlock : ¬(tenLocked s = true ∧ (rectGuarded s n = true ∨ bit v 12 = true))) (hvalid : rectValid s n (v &&& 0x1FFF) = true) :
    ∃ t, exec (.tenRectEnable o n v) s = .next t ∧ OnlyRegs s t [Reg.cmpTenRect n] ∧
      reg t (Reg.cmpTenRect n) = (v &&& 0x1FFF) ||| 0x80000000 := by
  have hguard : bit (putBit v 31 true) 12 = bit v 12 := bit_putBit v true (by decide) (by decide)
  have hen : bit (putBit v 31 true) 31 = true := bit_putBit v true (by decide) (by decide)
  have hexec := exec_tenRectEnable hn ha
  rw [tenRectWrite_enables (by rwa [hguard]) hoff hen (by rwa [putBit_enable_fields]), putBit_enable_fields] at hexec
  refine ⟨_, hexec, (setReg_onlyRegs s _ _).setReg _, ?_⟩
  rw [reg_setFlag_same, reg_setReg_same]
  exact and_not_or_mask _ 0x80000000

/-- A write with ENABLE = 0 of an enabled rectangle disables it, unless an enabled convoy lies in it. -/
theorem tenRectWrite_disables {s : State} {n : Nat} {v : Word}
    (hlock : ¬(tenLocked s = true ∧ (rectGuarded s n = true ∨ bit v 12 = true)))
    (hon : rectOn s n = true) (hen : bit v 31 = false) :
    tenRectWrite s n v = (if rectHasConvoy s n then tenRefuse s n else setFlag s (Reg.cmpTenRect n) 31 false, 0) := by
  have hfree : ¬((tenLocked s && (rectGuarded s n || bit v 12)) = true) := by
    rwa [Bool.and_eq_true, Bool.or_eq_true]
  simp only [tenRectWrite, if_neg hfree, hon, hen, Bool.false_eq_true, if_false, if_true]
  split <;> rfl

/-- A refusal of a rectangle names VALIDATION and the rectangle, unless a record is held (R216, R451). -/
theorem tenRefuse_records (s : State) {n : Nat} (hn : n < 16) :
    OnlyRegs s (tenRefuse s n) [Reg.cmpTenStat] ∧
      (flag s Reg.cmpTenStat 31 = false → fld (tenRefuse s n) Reg.cmpTenStat 7 0 = 0x0B ∧
        fld (tenRefuse s n) Reg.cmpTenStat 11 8 = n ∧ flag (tenRefuse s n) Reg.cmpTenStat 31 = true) ∧
      (flag s Reg.cmpTenStat 31 = true → reg (tenRefuse s n) Reg.cmpTenStat = reg s Reg.cmpTenStat) := by
  by_cases hheld : flag s Reg.cmpTenStat 31 = true
  · rw [tenRefuse, if_pos hheld]
    exact ⟨⟨rfl, fun _ _ => rfl⟩, fun h => absurd hheld (by rw [h]; decide), fun _ => rfl⟩
  · have hword : (BitVec.ofNat 32 (0x0B + 256 * n + 2 ^ 31)).toNat = 0x0B + 256 * n + 2 ^ 31 :=
      (BitVec.toNat_ofNat _ _).trans (Nat.mod_eq_of_lt (by omega))
    rw [tenRefuse, if_neg hheld]
    refine ⟨setReg_onlyRegs s _ _, fun _ => ⟨?_, ?_, ?_⟩, fun h => absurd h hheld⟩
    · rw [fld_setReg_same, bits, hword, Nat.shiftRight_eq_div_pow]
      omega
    · rw [fld_setReg_same, bits, hword, Nat.shiftRight_eq_div_pow]
      omega
    · rw [flag, reg_setReg_same, bit, hword, Nat.testBit_eq_decide_div_mod_eq]
      exact decide_eq_true (by omega)

theorem tenRectDisable_acts {s : State} {o : Origin} {n : Nat} (hn : n < 16)
    (ha : AllowedWrite s o (Reg.cmpTenRect n) (putBit (reg s (Reg.cmpTenRect n)) 31 false)) (hon : rectOn s n = true)
    (hlock : tenLocked s = false ∨ rectGuarded s n = false) :
    exec (.tenRectDisable o n) s =
      .next (if rectHasConvoy s n then tenRefuse s n else setFlag s (Reg.cmpTenRect n) 31 false) := by
  have hguard : bit (putBit (reg s (Reg.cmpTenRect n)) 31 false) 12 = rectGuarded s n :=
    bit_putBit _ false (by decide) (by decide)
  have hen : bit (putBit (reg s (Reg.cmpTenRect n)) 31 false) 31 = false := bit_putBit _ false (by decide) (by decide)
  have hfree : ¬(tenLocked s = true ∧ (rectGuarded s n = true ∨ bit (putBit (reg s (Reg.cmpTenRect n)) 31 false) 12 = true)) := by
    rw [hguard, or_self]
    rintro ⟨hl, hg⟩
    rcases hlock with h | h
    · exact absurd hl (by rw [h]; decide)
    · exact absurd hg (by rw [h]; decide)
  rw [exec_tenRectDisable hn ha, tenRectWrite_disables hfree hon hen]

/-- Settles O34: each write by what its register makes of it, and a frame boundary by the commit and the units in turn. -/
theorem slotTablesAndRectangles : Obligations.SlotTablesAndRectangles := by
  unfold Obligations.SlotTablesAndRectangles
  intro o lane w n v s
  refine ⟨fun hlane hw ha => ?slots, fun ha => laneCommit_pends ha, fun hup => ?boundary, ?enable, ?disable⟩
  case slots =>
    obtain ⟨x, hx, hbytes⟩ := laneSlotWrite_eq s o lane w v
    refine ⟨_, (exec_laneSlotWrite hlane hw ha).trans (congrArg _ hx), setReg_onlyRegs s _ x, fun j hj => ?_⟩
    rw [reg_setReg_same, hbytes j hj, slotByte_getD]
  case boundary =>
    obtain ⟨t, hexec, hmem, hcores, hcourier, hslots, hcommit, hunits⟩ := frameBoundary_acts hup
    refine ⟨t, hexec, hmem, hcores, hcourier, fun hidle => ?_, fun hpend hfits => ⟨?_, fun l k hl hk => ?_⟩,
      fun r k hpend hover => ?_, hunits⟩
    · rw [hslots, laneBoundary_idle hidle]
    · rw [flag, hcommit, (laneBoundary_commits hpend hfits).2, bit_and, show bit (1 : Word) 1 = false by decide, Bool.and_false]
    · exact slotEntry_shadowTables (hslots.trans (laneBoundary_commits hpend hfits).1) hl hk
    · obtain ⟨hr, hk⟩ := firstOver_bounds hover
      rw [laneBoundary_refuses hpend hover] at hslots hcommit
      simp only [fld, hcommit]
      exact ⟨hslots, laneRefuse_fields s hr hk⟩
  case enable =>
    intro x hn ha hoff
    refine ⟨fun hlock hvalid => tenRectEnable_enables hn ha hoff hlock hvalid, fun hlock hguard => ?_⟩
    have hbit : bit x 12 = bit v 12 := bit_putBit v true (by decide) (by decide)
    rw [exec_tenRectEnable hn ha, tenRectWrite_locked hlock (by rwa [hbit])]
  case disable =>
    intro x hn ha hon hlock
    have hexec := tenRectDisable_acts hn ha hon hlock
    refine ⟨fun hnone => ?_, fun hconvoy => ?_⟩
    · rw [hnone, if_neg Bool.false_ne_true] at hexec
      exact ⟨_, hexec, setReg_onlyRegs s _ _, reg_setFlag_same s _ _ _⟩
    · rw [hconvoy, if_pos rfl] at hexec
      exact ⟨_, hexec, tenRefuse_records s hn⟩

end Sys2Proof.Machine
end

section
/-! PROOFS. The courier: words written to a core's own local memory, outbox results, and messages as they reach their nodes (R205,
R206, R208, R211, R339). -/

namespace Sys2Proof.Machine

/-! ### Words written to local memory (R11, R208) -/

theorem leNat_leBytes (n v : Nat) : leNat (leBytes n v) = v % 256 ^ n := by
  induction n generalizing v with
  | zero => simp [leBytes, leNat, Nat.mod_one]
  | succ n ih =>
    rw [leBytes, leNat, ih, BitVec.toNat_ofNat, pow_succ' 256 n]
    exact Nat.mod_mul.symm

/-- Bytes written to local memory read back. -/
theorem readLocal_writeLocal {s : State} (hm : MemoryCanonical s) (c off : Nat) (bs : List Byte) :
    readLocal (writeLocal s c off bs) c off bs.length = bs := by
  refine List.ext_getElem (readMem_length _ _ _) fun i _ hi => ?_
  exact (readMem_getElem _ _ _ _).trans ((writeLocal_bytes hm c off bs).2 i hi)

theorem localWord_writeLocal_same {s : State} (hm : MemoryCanonical s) (c off v : Nat) :
    localWord (writeLocal s c off (leBytes 4 v)) c off = BitVec.ofNat 32 v := by
  have hread := readLocal_writeLocal hm c off (leBytes 4 v)
  rw [leBytes_length] at hread
  rw [localWord, hread, leNat_leBytes]
  exact BitVec.eq_of_toNat_eq (by rw [BitVec.toNat_ofNat, BitVec.toNat_ofNat]; exact Nat.mod_mod _ _)

/-- A word that shares no byte with the bytes written reads as before. -/
theorem localWord_writeLocal_apart {s : State} (hm : MemoryCanonical s) (c : Nat) {off x : Nat} (bs : List Byte)
    (hx : x + 4 ≤ off ∨ off + bs.length ≤ x) : localWord (writeLocal s c off bs) c x = localWord s c x := by
  have hbytes := (writeLocal_bytes hm c off bs).1
  rw [localWord_eq, localWord_eq, hbytes _ (by omega), hbytes _ (by omega), hbytes _ (by omega), hbytes _ (by omega)]

/-- A word depends on memory alone. -/
theorem localWord_of_mem {s t : State} (hm : t.mem = s.mem) (c off : Nat) : localWord t c off = localWord s c off := by
  rw [localWord, readLocal, readMem, hm, ← readMem, ← readLocal, ← localWord]

/-- A write of local memory that finds no error leaves all but bytes and poison. -/
theorem writeLocal_written {s : State} (hlatent : s.latent = []) (c off : Nat) (bs : List Byte) :
    ∃ z, writeLocal s c off bs = written s (memPutAll s.mem (localBase c + off) bs) z :=
  writeMem_written hlatent s.mem s.poison _ bs

/-! ### What a result leaves (R208) -/

/-- A result without data: word 5 is written, the busy bit cleared, and no other byte, register or message changes. -/
theorem outboxResult_fields {s : State} (hm : MemoryCanonical s) (hlatent : s.latent = []) (h : Hart) (status tag : Nat) :
    let t := outboxResult s h status tag none
    localWord t h.core (outboxOff s h + 20) = BitVec.ofNat 32 (status + 256 * tag + 2 ^ 31) ∧ (thr t h).outbox = none ∧
      t.courier = s.courier ∧ SameMemoryBut s t (localBase h.core + outboxOff s h + 20) 4 ∧ SameRegs s t := by
  obtain ⟨hother, -⟩ := writeLocal_bytes hm h.core (outboxOff s h + 20) (leBytes 4 (status + 256 * tag + 2 ^ 31))
  have hword := localWord_writeLocal_same hm h.core (outboxOff s h + 20) (status + 256 * tag + 2 ^ 31)
  obtain ⟨z, hz⟩ := writeLocal_written hlatent h.core (outboxOff s h + 20) (leBytes 4 (status + 256 * tag + 2 ^ 31))
  rw [leBytes_length, ← Nat.add_assoc] at hother
  simp only [outboxResult]
  generalize writeLocal s h.core (outboxOff s h + 20) (leBytes 4 (status + 256 * tag + 2 ^ 31)) = u at hother hword hz
  refine ⟨hword, ?_, ?_, hother, ?_⟩
  · rw [modThr, thr_setThr_same]
  · rw [hz]
    rfl
  · rw [hz]
    exact fun _ => rfl

/-- A result with data is the same after word 4 has been written. -/
theorem outboxResult_data {s : State} (hlatent : s.latent = []) (h : Hart) (status tag : Nat) (d : Word) :
    outboxResult s h status tag (some d) =
      outboxResult (writeLocal s h.core (outboxOff s h + 16) (leBytes 4 d.toNat)) h status tag none := by
  obtain ⟨z, hz⟩ := writeLocal_written hlatent h.core (outboxOff s h + 16) (leBytes 4 d.toNat)
  have hoff : outboxOff (writeLocal s h.core (outboxOff s h + 16) (leBytes 4 d.toNat)) h = outboxOff s h := by
    rw [hz]
    rfl
  simp only [outboxResult, hoff]

/-- A result with data writes words 4 and 5. -/
theorem outboxResult_data_fields {s : State} (hm : MemoryCanonical s) (hlatent : s.latent = []) (h : Hart) (status tag : Nat)
    (d : Word) :
    let t := outboxResult s h status tag (some d)
    localWord t h.core (outboxOff s h + 16) = d ∧
      localWord t h.core (outboxOff s h + 20) = BitVec.ofNat 32 (status + 256 * tag + 2 ^ 31) ∧ (thr t h).outbox = none ∧
      t.courier = s.courier ∧ SameMemoryBut s t (localBase h.core + outboxOff s h + 16) 8 := by
  obtain ⟨hother, -⟩ := writeLocal_bytes hm h.core (outboxOff s h + 16) (leBytes 4 d.toNat)
  have hword := localWord_writeLocal_same hm h.core (outboxOff s h + 16) d.toNat
  have hcanonical : MemoryCanonical (writeLocal s h.core (outboxOff s h + 16) (leBytes 4 d.toNat)) := writeLocal_wf s _ _ _ hm
  obtain ⟨z, hz⟩ := writeLocal_written hlatent h.core (outboxOff s h + 16) (leBytes 4 d.toNat)
  rw [leBytes_length] at hother
  rw [outboxResult_data hlatent]
  generalize writeLocal s h.core (outboxOff s h + 16) (leBytes 4 d.toNat) = u at hother hword hcanonical hz
  have hoff : outboxOff u h = outboxOff s h := by
    rw [hz]
    rfl
  have hcourier : u.courier = s.courier := by rw [hz, written]
  obtain ⟨hfive, hbox, hsent, hrest, -⟩ :=
    outboxResult_fields hcanonical (show u.latent = [] by rw [hz]; exact hlatent) h status tag
  rw [hoff] at hfive hrest
  refine ⟨?_, hfive, hbox, hsent.trans hcourier, fun x hx => ?_⟩
  · rw [localWord_eq, hrest _ (by omega), hrest _ (by omega), hrest _ (by omega), hrest _ (by omega), ← localWord_eq, hword,
      BitVec.ofNat_toNat, BitVec.setWidth_eq]
  · rw [hrest x (by omega), hother x (by omega)]

/-! ### Sending (R205, R340) -/

/-- A message sent joins those in flight, and may be counted in the ledger. -/
theorem sendFrom_eq (s : State) (m : Msg) : ∃ l, sendFrom s m = { s with courier := s.courier ++ [m], ledger := l } := by
  unfold sendFrom ledgerCore
  split
  · split <;> exact ⟨_, rfl⟩
  · exact ⟨_, rfl⟩

theorem sendFrom_courier (s : State) (m : Msg) : (sendFrom s m).courier = s.courier ++ [m] := by
  obtain ⟨l, hl⟩ := sendFrom_eq s m
  rw [hl]

theorem sendFrom_sameRegs (s : State) (m : Msg) : SameRegs s (sendFrom s m) := by
  obtain ⟨l, hl⟩ := sendFrom_eq s m
  rw [hl]
  exact fun _ => rfl

/-- A thread's write leaves the tags of every core. -/
theorem outTag_setThr (s : State) (h : Hart) (u : Thread) (c : Nat) : (core (setThr s h u) c).outTag = (core s c).outTag := by
  by_cases hc : c = h.core
  · rw [hc, core_setThr_same]
  · rw [core_setThr_other s u hc]

/-! ### OUTBOX_GO and OUTBOX_DEADLINE (R208) -/

/-- The message that an outbox spells (R205). -/
def outboxMsg (h : Hart) (b : Outbox) : Msg :=
  ⟨bits (nth b.words 0 0) 11 0, BitVec.ofNat 4 (bits (nth b.words 0 0) 15 12), b.mode.guarded, nodeOf h.core, nth b.words 1 0,
    nth b.words 2 0⟩

/-- The state in which a configuration access has taken its tag and its outbox waits. -/
def outboxTagged (s : State) (h : Hart) (b : Outbox) : State :=
  modThr (modCore s (tagCore h.core) fun k => { k with outTag := k.outTag + 1 }) h fun t =>
    { t with outbox := some { b with phase := .waiting (core s (tagCore h.core)).outTag (now s) } }

section Go

variable {s : State} {h : Hart} {b : Outbox} (hbox : (thr s h).outbox = some b) (hgo : b.phase = .go)
include hbox hgo

theorem exec_outboxGo_refused {st : Nat} (hcheck : outboxCheck s h b = some st) :
    exec (.outboxGo h) s = .next (outboxResult s h st 0 none) := by
  show execOutboxGo h s = _
  simp only [execOutboxGo, hbox, hgo, hcheck, ne_eq, not_true_eq_false, if_false]

theorem exec_outboxGo_sent (hcheck : outboxCheck s h b = none) (hkind : bits (nth b.words 0 0) 15 12 ≤ 1) :
    exec (.outboxGo h) s = .next (outboxResult (sendFrom s (outboxMsg h b)) h 0 0 none) := by
  show execOutboxGo h s = _
  simp only [execOutboxGo, hbox, hgo, hcheck, hkind, ne_eq, not_true_eq_false, if_false, if_true]
  rfl

theorem exec_outboxGo_tagged (hcheck : outboxCheck s h b = none) (hkind : 1 < bits (nth b.words 0 0) 15 12) :
    exec (.outboxGo h) s = .next (sendFrom (outboxTagged s h b)
      { outboxMsg h b with p1 := putBits (outboxMsg h b).p1 31 24 (core s (tagCore h.core)).outTag.toNat }) := by
  show execOutboxGo h s = _
  simp only [execOutboxGo, hbox, hgo, hcheck, Nat.not_le.mpr hkind, ne_eq, not_true_eq_false, if_false]
  rfl

end Go

theorem exec_outboxDeadline {s : State} {h : Hart} {b : Outbox} {tag : Byte} {t0 : Nat} (hbox : (thr s h).outbox = some b)
    (hwait : b.phase = .waiting tag t0) (hlate : t0 + crDeadline s h.core ≤ now s) :
    exec (.outboxDeadline h) s = .next (outboxResult s h 5 tag.toNat none) := by
  show execOutboxDeadline h s = _
  simp only [execOutboxDeadline, hbox, hwait, hlate, decide_true, Machine.when, if_true]

theorem outboxTagged_fields (s : State) (h : Hart) (b : Outbox) :
    (thr (outboxTagged s h b) h).outbox = some { b with phase := .waiting (core s (tagCore h.core)).outTag (now s) } ∧
      (core (outboxTagged s h b) (tagCore h.core)).outTag = (core s (tagCore h.core)).outTag + 1 ∧
      (outboxTagged s h b).mem = s.mem ∧ (outboxTagged s h b).courier = s.courier ∧ SameRegs s (outboxTagged s h b) := by
  refine ⟨?_, ?_, rfl, rfl, fun _ => rfl⟩
  · rw [outboxTagged, modThr, thr_setThr_same]
  · rw [outboxTagged, modThr, outTag_setThr, core_modCore_same]

/-! ### Taking a message off the net -/

/-- The state without the message in flight of a number. -/
def withoutMsg (s : State) (k : Nat) : State := { s with courier := s.courier.eraseIdx k }

theorem takeMsg_eq {s : State} {k kind : Nat} {m : Msg} (ht : s.courier[k]? = some m ∧ m.kind.toNat = kind) :
    takeMsg s k kind = some (m, withoutMsg s k) := by
  obtain ⟨hk, hkind⟩ := ht
  simp only [takeMsg, hk, hkind, if_true]
  rfl

/-! ### EVENT and IRQ (R140, R151, R206) -/

section Arrivals

variable {s : State} {k : Nat} {m : Msg} (hup : coreDown s m.dest = false)
include hup

theorem exec_event_accepted (ht : s.courier[k]? = some m ∧ m.kind.toNat = 0) (hok : coreRefuses s m = false) :
    exec (.event k) s =
      .next (setEvf (withoutMsg s k) (hartOf m.dest (BitVec.ofNat 2 (bits m.p1 1 0))) (bits m.p1 4 2)) := by
  have hup' : coreDown (withoutMsg s k) m.dest = false := hup
  have hok' : coreRefuses (withoutMsg s k) m = false := hok
  show execEvent k s = _
  simp only [execEvent, takeMsg_eq ht, hup', hok', Bool.false_eq_true, if_false]

theorem exec_event_refused (ht : s.courier[k]? = some m ∧ m.kind.toNat = 0) (hno : coreRefuses s m = true) :
    exec (.event k) s = .next (countSat (withoutMsg s k) (Reg.cmpCrDrop m.dest)) := by
  have hup' : coreDown (withoutMsg s k) m.dest = false := hup
  have hno' : coreRefuses (withoutMsg s k) m = true := hno
  show execEvent k s = _
  simp only [execEvent, takeMsg_eq ht, hup', hno', Bool.false_eq_true, if_false, if_true]

theorem exec_irq_accepted (ht : s.courier[k]? = some m ∧ m.kind.toNat = 1) (hok : coreRefuses s m = false)
    (hline : bits m.p1 4 0 < 27) :
    exec (.irq k) s = .next (raiseLine (withoutMsg s k) m.dest (bits m.p1 4 0) m.p2) := by
  have hup' : coreDown (withoutMsg s k) m.dest = false := hup
  have hok' : (coreRefuses (withoutMsg s k) m || decide (27 ≤ bits m.p1 4 0)) = false := by
    rw [show coreRefuses (withoutMsg s k) m = false from hok, decide_eq_false (Nat.not_le.mpr hline), Bool.or_false]
  show execIrq k s = _
  simp only [execIrq, takeMsg_eq ht, hup', hok', Bool.false_eq_true, if_false]

end Arrivals

/-- A flag set in a thread that waits for no instruction is a flag set, and nothing more. -/
theorem setEvf_idle {s : State} {h : Hart} (hw : (thr s h).wait = .none) {f : Nat} (hf : f < 8) :
    setEvf s h f = setThr s h { thr s h with evf := (thr s h).evf ||| BitVec.ofNat 8 (2 ^ f) } := by
  simp only [setEvf, hw, Nat.mod_eq_of_lt hf]

theorem event_delivers {s : State} {k : Nat} {m : Msg} (hup : coreDown s m.dest = false)
    (ht : s.courier[k]? = some m ∧ m.kind.toNat = 0) (hok : coreRefuses s m = false)
    (hw : (thr s (hartOf m.dest (BitVec.ofNat 2 (bits m.p1 1 0)))).wait = .none) :
    let j := hartOf m.dest (BitVec.ofNat 2 (bits m.p1 1 0))
    ∃ t, exec (.event k) s = .next t ∧
      thr t j = { thr s j with evf := (thr s j).evf ||| BitVec.ofNat 8 (2 ^ bits m.p1 4 2) } ∧
      t.courier = s.courier.eraseIdx k ∧ SameMemory s t ∧ SameRegs s t := by
  intro j
  have hexec := exec_event_accepted hup ht hok
  rw [setEvf_idle (s := withoutMsg s k) hw (bits_lt _ _ _)] at hexec
  exact ⟨_, hexec, thr_setThr_same _ _ _, rfl, fun _ => rfl, fun _ => rfl⟩

theorem irq_pends {s : State} {k : Nat} {m : Msg} (hup : coreDown s m.dest = false)
    (ht : s.courier[k]? = some m ∧ m.kind.toNat = 1) (hok : coreRefuses s m = false) (hline : bits m.p1 4 0 < 27) :
    ∃ t, exec (.irq k) s = .next t ∧ bit (coreCsr t m.dest 0x804) (bits m.p1 4 0) = true ∧ SameMemory s t ∧ SameRegs s t ∧
      t.courier = s.courier.eraseIdx k := by
  have hgrows := pendingGrows_raiseLine (withoutMsg s k) m.dest m.p2 (show bits m.p1 4 0 < 32 by omega)
  obtain ⟨hkeeps, -⟩ := hgrows
  refine ⟨_, exec_irq_accepted hup ht hok hline, pending_raiseLine _ _ _ (by omega), hkeeps.sameMemory, hkeeps.sameRegs, ?_⟩
  rw [hkeeps.1, withoutMsg]

/-! ### A response reaches its outbox (R208) -/

/-- Setting a flag changes the flag's thread alone, a WFE there that takes it included, and not its outbox (R140). -/
theorem setEvf_keeps (s : State) (h : Hart) (f : Nat) :
    OnlyThread s (setEvf s h f) h ∧ (thr (setEvf s h f) h).outbox = (thr s h).outbox := by
  have hset (e : Byte) : OnlyThread s (setThr s h { thr s h with evf := e }) h ∧
      (thr (setThr s h { thr s h with evf := e }) h).outbox = (thr s h).outbox :=
    ⟨onlyThread_setThr s h _, by rw [thr_setThr_same]⟩
  unfold setEvf
  dsimp only
  split
  · next rd mask _ _ _ =>
    split
    · exact hset _
    · obtain ⟨honly, hbox⟩ := hset (((thr s h).evf ||| BitVec.ofNat 8 (2 ^ (f % 8))) &&& ~~~mask)
      generalize setThr s h { thr s h with evf := ((thr s h).evf ||| BitVec.ofNat 8 (2 ^ (f % 8))) &&& ~~~mask } = t at honly hbox
      refine ⟨(honly.trans (onlyThread_setThr t h _)).trans (endWait_fields _ h).1, ?_⟩
      rw [(endWait_fields _ h).2, thr_setGreg_same, thread_wr_eq, afterCommit, hbox]
  · exact hset _

/-- Where one member of a list alone passes a test, it is the first that does. -/
theorem find?_eq_of_only {l : List Hart} {p : Hart → Bool} {h : Hart} (hmem : h ∈ l) (hp : p h = true)
    (hother : ∀ j, j ≠ h → p j = false) : l.find? p = some h := by
  cases hfind : l.find? p with
  | none => exact absurd hp (List.find?_eq_none.mp hfind h hmem)
  | some j =>
    by_contra hne
    have hj := List.find?_some hfind
    rw [hother j fun e => hne (by rw [e])] at hj
    exact Bool.false_ne_true hj

theorem exec_cfgRsp {s : State} {k : Nat} {h : Hart} {m : Msg} (ht : s.courier[k]? = some m ∧ m.kind.toNat = 4)
    (hmeets : (nodeHarts m.dest).find? (waitsTag s (bits m.p2 15 8)) = some h) :
    exec (.cfgRsp k) s =
      .next (setEvf (outboxResult (withoutMsg s k) h (bits m.p2 7 0) (bits m.p2 15 8) (some m.p1)) h (rspFlag s h.core)) := by
  have hmeets' : (nodeHarts m.dest).find? (waitsTag (withoutMsg s k) (bits m.p2 15 8)) = some h := hmeets
  show execCfgRsp k s = _
  simp only [execCfgRsp, takeMsg_eq ht, hmeets']
  rfl

theorem cfgRsp_answers {s : State} {k : Nat} {h : Hart} {m : Msg} {b : Outbox} {tag : Byte} {t0 : Nat} (hm : MemoryCanonical s)
    (hlatent : s.latent = []) (ht : s.courier[k]? = some m ∧ m.kind.toNat = 4) (hmem : h ∈ nodeHarts m.dest)
    (hbox : (thr s h).outbox = some b) (hwait : b.phase = .waiting tag t0) (htag : bits m.p2 15 8 = tag.toNat)
    (hother : ∀ j, j ≠ h → waitsTag s tag.toNat j = false) :
    ∃ t, exec (.cfgRsp k) s = .next t ∧ (thr t h).outbox = none ∧ localWord t h.core (outboxOff s h + 16) = m.p1 ∧
      localWord t h.core (outboxOff s h + 20) = BitVec.ofNat 32 (bits m.p2 7 0 + 256 * tag.toNat + 2 ^ 31) ∧
      SameMemoryBut s t (localBase h.core + outboxOff s h + 16) 8 ∧ t.courier = s.courier.eraseIdx k := by
  have hself : waitsTag s tag.toNat h = true := by simp only [waitsTag, hbox, hwait, decide_true]
  have hexec := exec_cfgRsp ht (htag ▸ find?_eq_of_only hmem hself hother)
  rw [htag] at hexec
  obtain ⟨hfour, hfive, hnone, hcourier, hrest⟩ :=
    outboxResult_data_fields (s := withoutMsg s k) hm hlatent h (bits m.p2 7 0) tag.toNat m.p1
  generalize outboxResult (withoutMsg s k) h (bits m.p2 7 0) tag.toNat (some m.p1) = u at hexec hfour hfive hnone hcourier hrest
  obtain ⟨honly, hkept⟩ := setEvf_keeps u h (rspFlag s h.core)
  have hmemory := honly.mem_eq
  refine ⟨_, hexec, hkept.trans hnone, (localWord_of_mem hmemory _ _).trans hfour, (localWord_of_mem hmemory _ _).trans hfive,
    fun x hx => (sameMemory_of_mem hmemory x).trans (hrest x hx), ?_⟩
  rw [honly.1]
  exact hcourier

/-! ### Configuration accesses of a core's registers (R206) -/

/-- The response that a node gives to a configuration message (R205). -/
def cfgReply (s : State) (m : Msg) (data : Word) (status : Nat) : Msg :=
  ⟨m.src, 4, nodeGuarded s m.dest, m.dest, data, BitVec.ofNat 32 (status + 256 * bits m.p1 31 24)⟩

section Access

variable {s : State} {k : Nat} {m : Msg} (hup : nodeUp s m.dest = true)
include hup

theorem exec_cfgRd_refused (ht : s.courier[k]? = some m ∧ m.kind.toNat = 2) (hno : cfgRefused s m ≠ 0) :
    exec (.cfgRd k) s = .next (sendFrom (withoutMsg s k) (cfgReply s m 0 (cfgRefused s m))) := by
  have hsame : cfgRefused (withoutMsg s k) m = cfgRefused s m := rfl
  show execCfgRd k s = _
  simp only [execCfgRd, takeMsg_eq ht, hup, hsame, ne_eq, hno, not_false_eq_true, Bool.not_true, Bool.false_eq_true, if_false,
    if_true]
  rfl

theorem exec_cfgRd_accepted (ht : s.courier[k]? = some m ∧ m.kind.toNat = 2) (hok : cfgRefused s m = 0) :
    exec (.cfgRd k) s =
      .next (cfgRespond (regRead (withoutMsg s k) (cfgOffset m)).1 m (regRead (withoutMsg s k) (cfgOffset m)).2 0) := by
  have hok' : cfgRefused (withoutMsg s k) m = 0 := hok
  show execCfgRd k s = _
  simp only [execCfgRd, takeMsg_eq ht, hup, hok', ne_eq, not_true_eq_false, Bool.not_true, Bool.false_eq_true, if_false]

theorem exec_cfgWr_accepted (ht : s.courier[k]? = some m ∧ m.kind.toNat = 3) (hok : cfgRefused s m = 0) :
    exec (.cfgWr k) s =
      .next (cfgRespond (regWrite (withoutMsg s k) (.node m.src m.g) (cfgOffset m) m.p2).1 m 0
        (regWrite (withoutMsg s k) (.node m.src m.g) (cfgOffset m) m.p2).2) := by
  have hok' : cfgRefused (withoutMsg s k) m = 0 := hok
  show execCfgWr k s = _
  simp only [execCfgWr, takeMsg_eq ht, hup, hok', ne_eq, not_true_eq_false, Bool.not_true, Bool.false_eq_true, if_false]

end Access

theorem nCores_le (p : Package) : p.nCores ≤ 768 := by
  unfold Package.nCores Package.rows
  split <;> decide

/-- Every word of a core's block is a register. -/
theorem regRow_coreBlock_isSome {c z : Nat} (hc : c < 768) (hz : z < 16) :
    (regRow (0x1400000 + 0x40 * c + 4 * z)).isSome = true := by
  have hrows : ∀ z < 16, ∃ r ∈ regRows_core, r.base = 0x1400000 + 4 * z ∧ r.dims = [(0x40, 768)] := by decide +kernel
  obtain ⟨r, hr, hbase, hdims⟩ := hrows z hz
  rw [regRow_of_core (by omega) (by omega), List.find?_isSome]
  refine ⟨r, hr, ?_⟩
  rw [RegRow.holds, hbase, hdims, show 0x1400000 + 0x40 * c + 4 * z - (0x1400000 + 4 * z) = 0x40 * c by omega]
  simp only [dimHit, Bool.and_eq_true, decide_eq_true_eq, beq_iff_eq]
  omega

/-- A register of a core that the part has is present. -/
theorem presence_coreBlock {s : State} {c z : Nat} (hc : c < s.pkg.nCores) (hz : z < 16) :
    presence s (0x1400000 + 0x40 * c + 4 * z) = .present := by
  have hle := nCores_le s.pkg
  have hsome := regRow_coreBlock_isSome (show c < 768 by omega) hz
  have hcore : (0x1400000 + 0x40 * c + 4 * z - 0x1400000) / 0x40 = c := by omega
  obtain ⟨r, hr⟩ := Option.isSome_iff_exists.mp hsome
  have h1 : 0x1400000 ≤ 0x1400000 + 0x40 * c + 4 * z := by omega
  have h2 : 0x1400000 + 0x40 * c + 4 * z < 0x2000000 := by omega
  rw [presence, hr, hcore]
  generalize 0x1400000 + 0x40 * c + 4 * z = off at h1 h2
  have ha : ¬ off < 0x1000000 := by omega
  have hb : ¬ 0x2000000 ≤ off := by omega
  have hd : ¬ 0x3000000 ≤ off := by omega
  have he : ¬ off < 0x10004C0 := by omega
  have hf : ¬ off < 0x1102000 := by omega
  simp [ha, hb, hd, he, hf, Nat.not_le.mpr hc]

/-- A register of a core's block other than CMP_LP_STAT is read as it is stored, and the read changes nothing. -/
theorem regRead_coreBlock {s : State} {off : Nat} (hp : presence s off = .present) (h1 : 0x1400000 ≤ off) (h2 : off < 0x2000000)
    (hx : off % 0x40 ≠ 0x20) : regRead s off = (s, reg s off) := by
  rw [regRead, if_neg (by simp only [Reg.cmpTimeLo]; omega), if_neg (by simp [hp]), if_neg (by simp only [Reg.drvDinEvt0]; omega),
    if_neg (by omega), regValue, if_neg (by simp [hp]), if_neg (by omega), if_pos ⟨h1, h2⟩, coreBlockValue, if_neg hx]

/-- The offset of a configuration message that a core does not refuse is a word of its block. -/
theorem cfgOffset_owned {s : State} {m : Msg} (hok : cfgRefused s m = 0) (hdest : m.dest < s.pkg.nCores) :
    ∃ z, z < 16 ∧ cfgOffset m = 0x1400000 + 0x40 * m.dest + 4 * z := by
  have hle := nCores_le s.pkg
  have hmesh : m.dest < 0x300 := by omega
  have howns : nodeOwns s m.dest (cfgOffset m) = true := by
    rw [cfgRefused] at hok
    split at hok
    · cases hok
    · split at hok
      · cases hok
      · next hfree => simpa using (Bool.or_eq_false_iff.mp (Bool.eq_false_iff.mpr hfree)).1
  simp only [nodeOwns, hmesh, if_true, Bool.and_eq_true, decide_eq_true_eq] at howns
  refine ⟨(cfgOffset m - 0x1400000 - 0x40 * m.dest) / 4, by omega, ?_⟩
  have haligned : cfgOffset m % 4 = 0 := by rw [cfgOffset]; omega
  omega

theorem cfgRd_answers {s : State} {k : Nat} {m : Msg} (hup : nodeUp s m.dest = true)
    (ht : s.courier[k]? = some m ∧ m.kind.toNat = 2) (hok : cfgRefused s m = 0) (hdest : m.dest < s.pkg.nCores)
    (hplain : cfgOffset m % 0x40 ≠ 0x20) :
    exec (.cfgRd k) s = .next (sendFrom (withoutMsg s k) (cfgReply s m (reg s (cfgOffset m)) 0)) := by
  have hle := nCores_le s.pkg
  obtain ⟨z, hz, hoff⟩ := cfgOffset_owned hok hdest
  have hpres : presence (withoutMsg s k) (cfgOffset m) = .present := by
    rw [hoff]
    exact presence_coreBlock (s := withoutMsg s k) hdest hz
  rw [exec_cfgRd_accepted hup ht hok, regRead_coreBlock hpres (by omega) (by omega) hplain]
  rfl

/-- CMP_WB_DL takes every word but 0 whole. -/
theorem regRow_cmpWbDl {c : Nat} (hc : c < 768) {v : Word} (hv : v ≠ 0) :
    ∃ r, regRow (Reg.cmpWbDl c) = some r ∧ r.rw = 0xFFFFFFFF ∧ r.w1c = 0 ∧ r.locks = 0 ∧
      (r.lims.all fun l => limitOk l v) = true := by
  have hpos : 1 ≤ v.toNat := Nat.one_le_iff_ne_zero.mpr fun h0 => hv (BitVec.eq_of_toNat_eq h0)
  have hbits : bits v 31 0 = v.toNat := Nat.mod_eq_of_lt v.isLt
  have hle : v.toNat ≤ 4294967295 := Nat.le_of_lt_succ v.isLt
  have hrow : regRow (Reg.cmpWbDl c) = regRows_core[3]? := by
    simp only [Reg.cmpWbDl]
    rw [regRow_of_core (by omega) (by omega), regRows_core, regRows_core0, List.find?_cons_of_neg, List.find?_cons_of_neg,
      List.find?_cons_of_neg, List.find?_cons_of_pos]
    · rfl
    all_goals simp only [RegRow.holds, dimHit, Bool.and_eq_true, decide_eq_true_eq, beq_iff_eq]; omega
  refine ⟨_, hrow, rfl, rfl, rfl, ?_⟩
  simp [limitOk, hbits, hpos, hle, Nat.mod_one]

theorem rowWrite_whole {r : RegRow} {v : Word} (hrw : r.rw = 0xFFFFFFFF) (hw1c : r.w1c = 0) (hlocks : r.locks = 0)
    (hlims : (r.lims.all fun l => limitOk l v) = true) (locked : Bool) (old : Word) : rowWrite r locked old v = v := by
  refine BitVec.eq_of_getLsbD_eq fun i hi => ?_
  show bit (rowWrite r locked old v) i = bit v i
  have hone : bit (0xFFFFFFFF : Word) i = true := by
    have : ∀ i < 32, bit (0xFFFFFFFF : Word) i = true := by decide
    exact this i hi
  have hzero : bit (0 : Word) i = false := by simp [bit]
  rw [bit_rowWrite r locked old v hlims hi, hrw, hw1c, hlocks, hone, hzero]
  simp

theorem plainWrite_cmpWbDl {s : State} {c : Nat} {v : Word} (hc : c < 768) (hstaged : s.staged = []) (hv : v ≠ 0) :
    plainWrite s (Reg.cmpWbDl c) v = setReg s (Reg.cmpWbDl c) v := by
  obtain ⟨r, hr, hrw, hw1c, hlocks, hlims⟩ := regRow_cmpWbDl hc hv
  have hstores : StoresFields (Reg.cmpWbDl c) := coreRegister_storesFields (y := 0xC) (by omega) (by decide) (by decide) (by decide)
  rw [plainWrite_unstaged v hr (hstores.lower r hr) hstaged, rowWrite_whole hrw hw1c hlocks hlims]

/-- A write to a core's register is refused only where a Plain writer meets a guarded core (R144). -/
theorem worldDenies_coreBlock (s : State) {off : Nat} (h1 : 0x1400000 ≤ off) (h2 : off < 0x2000000) (v : Word) :
    worldDenies s off v = coreGuarded s ((off - 0x1400000) / 0x40) := by
  rw [worldDenies, if_neg (by omega), if_neg (by omega), if_pos h1]

theorem coreGuarded_withoutMsg (s : State) (k c : Nat) : coreGuarded (withoutMsg s k) c = coreGuarded s c := rfl

/-- What is in flight does not matter to a write of a core's register. -/
theorem allowedWrite_withoutMsg {s : State} {o : Origin} {off : Nat} {v : Word} (ha : AllowedWrite s o off v) (k : Nat)
    (h1 : 0x1400000 ≤ off) (h2 : off < 0x2000000) : AllowedWrite (withoutMsg s k) o off v := by
  obtain ⟨hreach, hpres, hworld, hdrv⟩ := ha
  refine ⟨hreach, hpres, hworld.imp_right fun hfree => ?_, hdrv⟩
  rwa [worldDenies_coreBlock _ h1 h2, coreGuarded_withoutMsg, ← worldDenies_coreBlock s h1 h2 v]

/-- Tenancy does not depend on the registers of cores. -/
theorem coreGuarded_setReg (s : State) {off : Nat} (hoff : 0x1400000 ≤ off) (v : Word) (c : Nat) :
    coreGuarded (setReg s off v) c = coreGuarded s c := by
  have hrect (n : Nat) (hn : n < 16) : reg (setReg s off v) (Reg.cmpTenRect n) = reg s (Reg.cmpTenRect n) :=
    reg_setReg_other s v (by simp only [Reg.cmpTenRect]; omega)
  have hof : rectOf (setReg s off v) c = rectOf s c := by
    unfold rectOf
    refine if_congr Iff.rfl rfl (List.find?_congr fun n hn => ?_)
    rw [rectOn, flag, hrect n (List.mem_range.mp hn), ← flag, ← rectOn]
  unfold coreGuarded
  rw [hof]
  split
  · next n hn =>
    have hn16 : n < 16 := by
      unfold rectOf at hn
      split at hn
      · cases hn
      · exact List.mem_range.mp (List.mem_of_find?_eq_some hn)
    rw [rectGuarded, flag, hrect n hn16, ← flag, ← rectGuarded]
  · rfl

theorem cfgReply_setReg (s : State) {off : Nat} (hoff : 0x1400000 ≤ off) (v : Word) (m : Msg) (data : Word) (status : Nat) :
    cfgReply (setReg s off v) m data status = cfgReply s m data status := by
  rw [cfgReply, nodeGuarded, coreGuarded_setReg s hoff, ← nodeGuarded, ← cfgReply]

theorem cfgWr_writes {s : State} {k : Nat} {m : Msg} (hup : nodeUp s m.dest = true)
    (ht : s.courier[k]? = some m ∧ m.kind.toNat = 3) (hok : cfgRefused s m = 0) (hdest : m.dest < s.pkg.nCores)
    (hoff : cfgOffset m = Reg.cmpWbDl m.dest) (hstaged : s.staged = []) (hv : m.p2 ≠ 0)
    (ha : AllowedWrite s (.node m.src m.g) (cfgOffset m) m.p2) :
    exec (.cfgWr k) s = .next (sendFrom (setReg (withoutMsg s k) (cfgOffset m) m.p2) (cfgReply s m 0 0)) := by
  have hle := nCores_le s.pkg
  have h1 : 0x1400000 ≤ Reg.cmpWbDl m.dest := by simp only [Reg.cmpWbDl]; omega
  have h2 : Reg.cmpWbDl m.dest < 0x2000000 := by simp only [Reg.cmpWbDl]; omega
  have hstores : StoresFields (Reg.cmpWbDl m.dest) :=
    coreRegister_storesFields (y := 0xC) (by omega) (by decide) (by decide) (by decide)
  rw [hoff] at ha
  have hwrite : regWrite (withoutMsg s k) (.node m.src m.g) (cfgOffset m) m.p2 =
      (setReg (withoutMsg s k) (Reg.cmpWbDl m.dest) m.p2, 0) := by
    rw [hoff, regWrite, writeAt_allowed (allowedWrite_withoutMsg ha k h1 h2), hstores.effect,
      plainWrite_cmpWbDl (s := withoutMsg s k) (by omega) hstaged hv]
  rw [exec_cfgWr_accepted hup ht hok, hwrite, hoff]
  exact congrArg (fun r => Host.Outcome.next (sendFrom _ r)) (cfgReply_setReg (withoutMsg s k) h1 m.p2 m 0 0)

/-! ### Alerts at Serai 0 (R206, R261, R338, R339) -/

/-- Records sent one after another. -/
theorem foldl_logError {α : Type} (f : α → ErrRec) (l : List α) (s : State) :
    l.foldl (fun s o => logError s (f o)) s = { s with errq := s.errq ++ l.map f } := by
  induction l generalizing s with
  | nil => simp
  | cons x r ih => rw [List.foldl_cons, ih, logError, List.map_cons, List.append_assoc, List.singleton_append]

/-- Records are on their way that were not, and but for registers nothing else has changed; SRA_ALERT_OVF has not. -/
structure Reported (s t : State) : Prop where
  mem : t.mem = s.mem
  cores : t.cores = s.cores
  courier : t.courier = s.courier
  alerts : t.alerts = s.alerts
  errq : s.errq.length < t.errq.length
  ovf : reg t Reg.sraAlertOvf = reg s Reg.sraAlertOvf

/-- The word of a scrub-log entry that holds its state is not SRA_ALERT_OVF. -/
theorem scrubEntry_ne_alertOvf (u : Option Nat) (i : Nat) : Reg.sraAlertOvf ≠ scrubLogW0 u i + 4 := by
  cases u <;> simp only [scrubLogW0, Reg.cmpScrubLogW0, Reg.hbmScrubLogW0, Reg.sraAlertOvf] <;> omega

/-- An entry of a scrub log that Serai 0 has yet to look up (R264). -/
def UnseenAt (s : State) (u i : Nat) : Prop :=
  bit (reg s (scrubLogW0 (if u = 8 then none else some u) i + 4)) 31 = true ∧
    bits (reg s (scrubLogW0 (if u = 8 then none else some u) i + 4)) 23 16 = 0xFE

theorem unseenAt_of_finding {s : State} {m : Msg} {u i : Nat} (h : alertFinding s m = some (u, i)) : UnseenAt s u i := by
  unfold alertFinding at h
  split at h
  · cases h
  · obtain ⟨u', -, hentry⟩ := Option.bind_eq_some_iff.mp h
    obtain ⟨i', hi, heq⟩ := Option.map_eq_some_iff.mp hentry
    cases heq
    simpa [UnseenAt] using List.find?_some hi

/-- An entry that is looked up makes at least one record. -/
theorem lookUpEntry_reports {s : State} {u i : Nat} (hunseen : UnseenAt s u i) (src : Nat) (held : Bool) :
    Reported s (lookUpEntry u src held s i) := by
  obtain ⟨hvalid, hstate⟩ := hunseen
  have hovf := scrubEntry_ne_alertOvf (if u = 8 then none else some u) i
  simp only [lookUpEntry, hvalid, hstate, foldl_logError, ne_eq, not_true_eq_false, decide_false, Bool.not_true, Bool.or_self,
    Bool.false_eq_true, if_false]
  split
  · refine ⟨rfl, rfl, rfl, rfl, ?_, reg_setFld_other s _ _ _ hovf⟩
    simp [logError, setFld]
  · refine ⟨rfl, rfl, rfl, rfl, ?_, (reg_setFlag_other _ _ _ hovf).trans (reg_setFld_other _ _ _ _ hovf)⟩
    simp only [logError, setFlag, setFld, setReg_errq, List.length_append, List.length_singleton]
    omega

theorem exec_alert {s : State} {k : Nat} {m : Msg} (ht : s.courier[k]? = some m ∧ m.kind.toNat = 5) (hdest : m.dest = 0x300)
    (hup : partUp s = true) (hawake : s.pkg.slumber = false) : exec (.alert k) s = .next (alertAtSerai (withoutMsg s k) m) := by
  have hruns : seraiRuns s = true := by rw [seraiRuns, hup, hawake]; rfl
  show execAlert k s = _
  simp only [execAlert, takeMsg_eq ht, hdest, hruns, if_true]

/-- An alert that reports a finding: looked up, after SRA_ALERT_OVF has counted it where the alert log is full. -/
theorem alertAtSerai_finding {s : State} {m : Msg} {u i : Nat} (h : alertFinding s m = some (u, i)) :
    alertAtSerai s m = lookUpEntry u m.src (decide (alertsHeld s < 16))
      (if alertsHeld s < 16 then s else countSat s Reg.sraAlertOvf) i := by
  simp only [alertAtSerai, h, decide_eq_true_eq]

theorem alertAtSerai_plain {s : State} {m : Msg} (h : alertFinding s m = none) :
    alertAtSerai s m =
      if alertsHeld s < 16 then { s with alerts := s.alerts ++ [(m, now s)] } else countSat s Reg.sraAlertOvf := by
  simp only [alertAtSerai, h, decide_eq_true_eq]

/-- The counter of a full alert log is no entry of a scrub log. -/
theorem UnseenAt.countSat {s : State} {u i : Nat} (h : UnseenAt s u i) : UnseenAt (Machine.countSat s Reg.sraAlertOvf) u i := by
  have hsame := reg_setReg_other s (satInc (reg s Reg.sraAlertOvf))
    (scrubEntry_ne_alertOvf (if u = 8 then none else some u) i).symm
  unfold UnseenAt
  rwa [Machine.countSat, hsame]

/-- What an alert leaves at Serai 0 in each of its cases. -/
theorem alertAtSerai_fields (s : State) (m : Msg) :
    let t := alertAtSerai s m
    t.courier = s.courier ∧ t.mem = s.mem ∧ t.cores = s.cores ∧
      (alertsHeld s < 16 → reg t Reg.sraAlertOvf = reg s Reg.sraAlertOvf) ∧
      (16 ≤ alertsHeld s → reg t Reg.sraAlertOvf = satInc (reg s Reg.sraAlertOvf)) ∧
      (alertFinding s m ≠ none → t.alerts = s.alerts ∧ s.errq.length < t.errq.length) ∧
      (alertFinding s m = none → alertsHeld s < 16 → t.alerts = s.alerts ++ [(m, now s)] ∧ SameRegs s t) ∧
      (alertFinding s m = none → 16 ≤ alertsHeld s → t.alerts = s.alerts ∧ SameRegsBut s t [Reg.sraAlertOvf]) := by
  cases hfinding : alertFinding s m with
  | some e =>
    obtain ⟨u, i⟩ := e
    have hunseen := unseenAt_of_finding hfinding
    simp only [alertAtSerai_finding hfinding]
    by_cases hroom : alertsHeld s < 16
    · rw [if_pos hroom]
      obtain ⟨hmem, hcores, hcourier, halerts, herrq, hovf⟩ := lookUpEntry_reports hunseen m.src (decide (alertsHeld s < 16))
      exact ⟨hcourier, hmem, hcores, fun _ => hovf, fun hfull => absurd hroom (Nat.not_lt.mpr hfull), fun _ => ⟨halerts, herrq⟩,
        nofun, nofun⟩
    · rw [if_neg hroom]
      obtain ⟨hmem, hcores, hcourier, halerts, herrq, hovf⟩ :=
        lookUpEntry_reports hunseen.countSat m.src (decide (alertsHeld s < 16))
      exact ⟨hcourier, hmem, hcores, fun h => absurd h hroom, fun _ => hovf.trans (reg_setReg_same s _ _),
        fun _ => ⟨halerts, herrq⟩, nofun, nofun⟩
  | none =>
    simp only [alertAtSerai_plain hfinding]
    by_cases hroom : alertsHeld s < 16
    · rw [if_pos hroom]
      have hfull : ¬ 16 ≤ alertsHeld s := Nat.not_le.mpr hroom
      exact ⟨rfl, rfl, rfl, fun _ => rfl, fun h => absurd h hfull, fun h => absurd rfl h, fun _ _ => ⟨rfl, fun _ => rfl⟩,
        fun _ h => absurd h hfull⟩
    · rw [if_neg hroom]
      exact ⟨rfl, rfl, rfl, fun h => absurd h hroom, fun _ => reg_setReg_same s _ _, fun h => absurd rfl h,
        fun _ h => absurd h hroom, fun _ _ => ⟨rfl, (setReg_onlyRegs s _ _).2⟩⟩

/-- Settles O35: each message by the lemma about its command. -/
theorem courierMessagesReachTheirNodes : Obligations.CourierMessagesReachTheirNodes := by
  unfold Obligations.CourierMessagesReachTheirNodes
  intro k h s hm hlatent word line took
  refine ⟨fun b hbox hgo => ?go, fun b tag t0 hbox hwait hlate => ?deadline, fun m hup => ?arrivals, fun m hup => ?access,
    fun m b tag t0 ht hmem hbox hwait htag hother => ?response, fun m ht hdest hup hawake => ?alert⟩
  case go =>
    refine ⟨fun st hcheck => ?_, fun hcheck hkind => ?_, fun hcheck hkind => ?_⟩
    · exact ⟨_, exec_outboxGo_refused hbox hgo hcheck, outboxResult_fields hm hlatent h st 0⟩
    · obtain ⟨l, hl⟩ := sendFrom_eq s (outboxMsg h b)
      have hexec := exec_outboxGo_sent hbox hgo hcheck hkind
      rw [hl] at hexec
      exact ⟨_, hexec, outboxResult_fields (s := { s with courier := s.courier ++ [outboxMsg h b], ledger := l }) hm hlatent h 0 0⟩
    · obtain ⟨hphase, htag, hmem, hcourier, hregs⟩ := outboxTagged_fields s h b
      refine ⟨_, exec_outboxGo_tagged hbox hgo hcheck hkind, sameMemory_of_mem ((sendFrom_mem _ _).trans hmem),
        fun o => (sendFrom_sameRegs _ _ o).trans (hregs o), ?_, ?_, ?_⟩
      · rw [thr_of_cores (sendFrom_cores _ _), hphase]
      · rw [core, sendFrom_cores, ← core, htag]
      · rw [sendFrom_courier, hcourier]
        rfl
  case deadline =>
    obtain ⟨hword, hfree, -, hmem, hregs⟩ := outboxResult_fields hm hlatent h 5 tag.toNat
    exact ⟨_, exec_outboxDeadline hbox hwait hlate, hword, hfree, hmem, hregs⟩
  case arrivals =>
    exact ⟨fun ht hok hw => event_delivers hup ht hok hw,
      fun ht hno => ⟨_, exec_event_refused hup ht hno, fun _ => rfl, reg_setReg_same _ _ _⟩,
      fun ht hok hline => irq_pends hup ht hok hline⟩
  case access =>
    refine ⟨fun ht hno => ?_, fun ht hok hdest hplain => ?_, fun ht hok hdest hoff hstaged hv ha => ?_⟩
    · exact ⟨_, exec_cfgRd_refused hup ht hno, sendFrom_sameRegs _ _, sameMemory_of_mem (sendFrom_mem _ _), sendFrom_courier _ _⟩
    · exact ⟨_, cfgRd_answers hup ht hok hdest hplain, sendFrom_sameRegs _ _, sameMemory_of_mem (sendFrom_mem _ _),
        sendFrom_courier _ _⟩
    · refine ⟨_, cfgWr_writes hup ht hok hdest hoff hstaged hv ha, fun o ho => ?_, ?_, sendFrom_courier _ _⟩
      · rw [sendFrom_sameRegs]
        exact (setReg_onlyRegs (withoutMsg s k) _ _).2 o ho
      · rw [sendFrom_sameRegs, reg_setReg_same]
  case response => exact cfgRsp_answers hm hlatent ht hmem hbox hwait htag hother
  case alert =>
    obtain ⟨hcourier, hmem, hcores, hfields⟩ := alertAtSerai_fields (withoutMsg s k) m
    exact ⟨_, exec_alert ht hdest hup hawake, hcourier, sameMemory_of_mem hmem, fun c => by rw [core, hcores]; rfl, hfields⟩

end Sys2Proof.Machine
end

section
/-! PROOFS. Every command keeps the canonical form of memory (R218, R261): what the lemmas below are said with. -/

namespace Sys2Proof.Machine

/-! ### The state an answer carries -/

/-- The state an instruction's issue leaves, trapping or not. -/
def Res.state : Res → State
  | .ok s => s
  | .trap s _ => s

@[simp] theorem Res.state_ok (s : State) : (Res.ok s).state = s := rfl

@[simp] theorem Res.state_trap (s : State) (t : Trap) : (Res.trap s t).state = s := rfl

/-- The state a long instruction leaves when it reads, whatever the read gives it. -/
def StepRead.state : StepRead → State
  | .bytes s _ => s
  | .waits s => s
  | .trap s _ => s

@[simp] theorem StepRead.state_bytes (s : State) (bs : List Byte) : (StepRead.bytes s bs).state = s := rfl

@[simp] theorem StepRead.state_waits (s : State) : (StepRead.waits s).state = s := rfl

@[simp] theorem StepRead.state_trap (s : State) (t : Trap) : (StepRead.trap s t).state = s := rfl

/-- The state a stretch of a long instruction leaves, however the stretch ends. -/
def StepEnd.state : StepEnd → State
  | .waits s => s
  | .trap s _ => s
  | .done s _ _ => s

@[simp] theorem StepEnd.state_waits (s : State) : (StepEnd.waits s).state = s := rfl

@[simp] theorem StepEnd.state_trap (s : State) (t : Trap) : (StepEnd.trap s t).state = s := rfl

@[simp] theorem StepEnd.state_done (s : State) (n : Nat) (rc : Word) : (StepEnd.done s n rc).state = s := rfl

/-- The state an access of an engine leaves, which is the one before it where it stalls. -/
def EngineRes.stateFrom (s : State) : EngineRes → State
  | .stall _ => s
  | .sent t => t
  | .done t _ _ => t

@[simp] theorem EngineRes.stateFrom_stall (s : State) (r : Bool) : (EngineRes.stall r).stateFrom s = s := rfl

@[simp] theorem EngineRes.stateFrom_sent (s t : State) : (EngineRes.sent t).stateFrom s = t := rfl

@[simp] theorem EngineRes.stateFrom_done (s t : State) (bs : List Byte) (n : Nat) : (EngineRes.done t bs n).stateFrom s = t :=
  rfl

/-- An outcome that answers a next state answers one with canonical memory. -/
def KeepsWf (o : Host.Outcome State Fault Refusal) : Prop := ∀ t, o = .next t → Memory.wf t.mem

@[simp] theorem keepsWf_next (t : State) : KeepsWf (.next t) ↔ Memory.wf t.mem := by
  simp [KeepsWf]

/-! ### Memory through folds and choices -/

@[simp] theorem foldl_mem {α : Type} (f : State → α → State) (l : List α) (s : State) (h : ∀ s x, (f s x).mem = s.mem) :
    (l.foldl f s).mem = s.mem := by
  induction l generalizing s with
  | nil => rfl
  | cons x r ih => exact (ih (f s x)).trans (h s x)

@[simp] theorem foldl_fst_mem {α β : Type} (f : State × β → α → State × β) (l : List α) (x : State × β)
    (h : ∀ x y, (f x y).1.mem = x.1.mem) : (l.foldl f x).1.mem = x.1.mem := by
  induction l generalizing x with
  | nil => rfl
  | cons y r ih => exact (ih (f x y)).trans (h x y)

@[simp] theorem foldl_wf {α : Type} (f : State → α → State) (l : List α) (s : State)
    (h : ∀ s x, Memory.wf s.mem → Memory.wf (f s x).mem) (hw : Memory.wf s.mem) :
    Memory.wf (l.foldl f s).mem := by
  induction l generalizing s with
  | nil => exact hw
  | cons x r ih => exact ih _ (h s x hw)

theorem foldl_fst_wf {α β : Type} (f : State × β → α → State × β) (l : List α) (x : State × β)
    (h : ∀ x y, Memory.wf x.1.mem → Memory.wf (f x y).1.mem) (hw : Memory.wf x.1.mem) :
    Memory.wf (l.foldl f x).1.mem := by
  induction l generalizing x with
  | nil => exact hw
  | cons y r ih => exact ih _ (h x y hw)

theorem mem_ite {c : Prop} [Decidable c] {s a b : State} (ha : a.mem = s.mem) (hb : b.mem = s.mem) :
    (if c then a else b).mem = s.mem := by split <;> assumption

theorem wf_ite {c : Prop} [Decidable c] {a b : State} (ha : Memory.wf a.mem) (hb : Memory.wf b.mem) :
    Memory.wf (if c then a else b).mem := by split <;> assumption

theorem wf_fst_ite {c : Prop} [Decidable c] {a b : State × Nat} (ha : Memory.wf a.1.mem)
    (hb : Memory.wf b.1.mem) : Memory.wf (if c then a else b).1.mem := by split <;> assumption

theorem mem_fst_ite {c : Prop} [Decidable c] {s : State} {a b : State × Nat} (ha : a.1.mem = s.mem)
    (hb : b.1.mem = s.mem) : (if c then a else b).1.mem = s.mem := by split <;> assumption

theorem foldl_wf_of_mem {α : Type} {f : State → α → State} (hf : ∀ s x, (f s x).mem = s.mem) (l : List α) {s : State}
    (hw : Memory.wf s.mem) : Memory.wf (l.foldl f s).mem := (foldl_mem f l s hf).symm ▸ hw

theorem wf_of_fst {α : Type} {x : State × α} {t : State} {a : α} (hx : Memory.wf x.1.mem) (he : x = (t, a)) :
    Memory.wf t.mem := by
  subst he
  exact hx

end Sys2Proof.Machine
end

section
/-! PROOFS. Commands keep the canonical form of memory: cores, their links, control registers and threads. -/

namespace Sys2Proof.Machine

/-! ### Register words (R12) -/

@[simp] theorem setReg64_mem (s : State) (off v : Nat) : (setReg64 s off v).mem = s.mem := rfl

@[simp] theorem countWrap_mem (s : State) (off : Nat) : (countWrap s off).mem = s.mem := rfl

@[simp] theorem countFld_mem (s : State) (off hi lo : Nat) : (countFld s off hi lo).mem = s.mem := rfl

/-! ### The named operations -/

@[simp] theorem wakeBlock_mem (s : State) (b : Nat) : (wakeBlock s b).mem = s.mem := by
  unfold wakeBlock
  split <;> rfl

@[simp] theorem setBlockReady_mem (s : State) (b : Nat) (v : Bool) : (setBlockReady s b v).mem = s.mem := by
  unfold setBlockReady
  split <;> rfl

@[simp] theorem logError_mem (s : State) (r : ErrRec) : (logError s r).mem = s.mem := rfl

@[simp] theorem ledgerAdd_mem (s : State) (ctx k n : Nat) : (ledgerAdd s ctx k n).mem = s.mem := rfl

@[simp] theorem writePoison_wf (s : State) (a : Nat) (bs : List Byte) (hw : Memory.wf s.mem) :
    Memory.wf (writePoison s a bs).mem := by
  unfold writePoison
  all_goals simp [*, writeMem_wf]

@[simp] theorem setIslandStep_mem (s : State) (c : Nat) (st : BitVec 6) : (setIslandStep s c st).mem = s.mem := rfl

@[simp] theorem modLink_mem (s : State) (c d : Nat) (f : NbrLink → NbrLink) : (modLink s c d f).mem = s.mem := rfl

@[simp] theorem beginRelock_mem (s : State) (c : Nat) : (beginRelock s c).mem = s.mem := by
  simp [beginRelock, apply_ite State.mem]

@[simp] theorem startRelock_mem (s : State) (c : Nat) : (startRelock s c).mem = s.mem := by
  unfold startRelock
  split <;> simp

@[simp] theorem relockIfQuiet_mem (s : State) (c : Nat) : (relockIfQuiet s c).mem = s.mem := by
  unfold relockIfQuiet
  split <;> simp

@[simp] theorem linkSettled_mem (s : State) (c d : Nat) : (linkSettled s c d).mem = s.mem := by
  unfold linkSettled
  dsimp only
  repeat' split
  all_goals simp

@[simp] theorem issue_wf (s : State) (h : Hart) (r : Res) (hs : Memory.wf s.mem) (hr : Memory.wf r.state.mem) :
    KeepsWf (issue s h r) := by
  unfold issue
  split
  · cases r <;> simpa using hr
  · simpa using hs

@[simp] theorem firstTrap_wf (s : State) (l : List (Bool × Trap)) (k : Res) (hs : Memory.wf s.mem)
    (hk : Memory.wf k.state.mem) :
    Memory.wf (firstTrap s l k).state.mem := by
  unfold firstTrap
  repeat' split
  all_goals simp [*]

@[simp] theorem holdIssued_mem (s : State) (h : Hart) (rd : GReg) (v : Held) (pc : Word) :
    (holdIssued s h rd v pc).mem = s.mem :=
  rfl

@[simp] theorem follow_wf (s : State) (h : Hart) (srcs : List GReg) (rd : GReg) (v pc : Word)
    (k : Host.Outcome State Fault Refusal) (hs : Memory.wf s.mem) (hk : KeepsWf k) :
    KeepsWf (follow s h srcs rd v pc k) := by
  unfold follow
  repeat' split
  all_goals simp [*]

@[simp] theorem keepsWf_when (s : State) (c : Bool) (t : State) (hw : Memory.wf s.mem) :
    KeepsWf (when s c t) ↔ (c = true → Memory.wf t.mem) := by
  unfold when
  split <;> simp [*]

/-! ### Register accesses -/

@[simp] theorem recordBadAccess_mem (s : State) (off kind : Nat) : (recordBadAccess s off kind).mem = s.mem := by
  unfold recordBadAccess
  split <;> rfl

@[simp] theorem storeFields_mem (s : State) (off : Nat) (v : Word) : (storeFields s off v).mem = s.mem := by
  unfold storeFields
  split <;> rfl

@[simp] theorem plainWrite_mem (s : State) (off : Nat) (v : Word) : (plainWrite s off v).mem = s.mem := by
  unfold plainWrite
  repeat' split
  all_goals simp

@[simp] theorem setW1s_mem (s : State) (off : Nat) (v : Word) : (setW1s s off v).mem = s.mem := by
  unfold setW1s
  repeat' split
  all_goals simp

@[simp] theorem writeAt_wf (s : State) (o : Origin) (off : Nat) (v : Word) (k : State × Nat) (hw : Memory.wf s.mem)
    (hk : Memory.wf k.1.mem) :
    Memory.wf (writeAt s o off v k).1.mem := by
  unfold writeAt
  repeat' split
  all_goals simp [*]

/-! ### Saturation and its flags (R77 to R81) -/

@[simp] theorem endNarrow_mem (s : State) (h : Hart) (n : Narrowing) (flag : Word) : (endNarrow s h n flag).mem = s.mem := by
  simp [endNarrow, apply_ite State.mem]

@[simp] theorem flagIf_mem (s : State) (h : Hart) (c : Bool) (flag : Word) : (flagIf s h c flag).mem = s.mem := by
  unfold flagIf
  split <;> rfl

/-! ### Access paths of a core (R140, R202 to R211, R220 to R229) -/

@[simp] theorem setEvf_mem (s : State) (h : Hart) (f : Nat) : (setEvf s h f).mem = s.mem := by
  unfold setEvf
  dsimp only
  repeat' split
  all_goals simp

@[simp] theorem takeGo_wf (s : State) (h : Hart) (hw : Memory.wf s.mem) : Memory.wf (takeGo s h).mem := by
  unfold takeGo
  dsimp only
  repeat' split
  all_goals simp [*, writeLocal_wf]

@[simp] theorem storeLocal_wf (s : State) (h : Hart) (off : Nat) (bs : List Byte) (hw : Memory.wf s.mem) :
    Memory.wf (storeLocal s h off bs).mem := by
  unfold storeLocal
  dsimp only
  repeat' split
  all_goals simp [*, writeLocal_wf]

@[simp] theorem laneMod_mem (s : State) (c id : Nat) (f : LaneAccess → LaneAccess) : (laneMod s c id f).mem = s.mem := rfl

@[simp] theorem bufferStore_mem (s : State) (c a : Nat) (bs : List Byte) : (bufferStore s c a bs).mem = s.mem := rfl

@[simp] theorem bufferEmpty_mem (s : State) (c : Nat) : (bufferEmpty s c).mem = s.mem := rfl

@[simp] theorem bufferFill_mem (s : State) (c a : Nat) (line : List Byte) : (bufferFill s c a line).mem = s.mem := by
  unfold bufferFill
  split <;> rfl

@[simp] theorem laneSend_mem (s : State) (h : Hart) (kind : AccessKind) (va : Word) (dev : Nat) (volat : Bool) :
    (laneSend s h kind va dev volat).mem = s.mem := by
  simp [laneSend, apply_ite State.mem]

@[simp] theorem recordLaneFault_mem (s : State) (c status addr : Nat) : (recordLaneFault s c status addr).mem = s.mem := by
  unfold recordLaneFault
  split <;> rfl

@[simp] theorem logStoreFailure_mem (s : State) (h : Hart) (status addr : Nat) :
    (logStoreFailure s h status addr).mem = s.mem := by
  unfold logStoreFailure
  split <;> rfl

@[simp] theorem storeFailed_mem (s : State) (h : Hart) (id status addr : Nat) :
    (storeFailed s h id status addr).mem = s.mem := by
  unfold storeFailed
  dsimp only
  repeat' split
  all_goals simp

@[simp] theorem storeAcked_mem (s : State) (h : Hart) (id : Nat) : (storeAcked s h id).mem = s.mem := rfl

@[simp] theorem laneDrop_mem (s : State) (c id : Nat) : (laneDrop s c id).mem = s.mem := rfl

@[simp] theorem commitFence_mem (s : State) (h : Hart) (rd : GReg) : (commitFence s h rd).mem = s.mem := by simp [commitFence]

@[simp] theorem wakeFence_mem (s : State) (h : Hart) : (wakeFence s h).mem = s.mem := by
  unfold wakeFence
  repeat' split
  all_goals simp

@[simp] theorem voidFill_mem (s : State) (h : Hart) (i : Option Instr) : (voidFill s h i).mem = s.mem := by
  unfold voidFill
  repeat' split
  all_goals simp

@[simp] theorem squashYounger_mem (s : State) (h : Hart) : (squashYounger s h).mem = s.mem := by
  unfold squashYounger
  dsimp only
  repeat' split
  all_goals simp

@[simp] theorem commitWindow_wf (h : Hart) (l : List Issued) (s : State) (hw : Memory.wf s.mem) :
    Memory.wf (commitWindow h l s).mem := by
  induction l generalizing s with
  | nil => simpa [commitWindow] using hw
  | cons e r ih =>
    unfold commitWindow
    split
    · simpa using hw
    · simpa using hw
    · exact ih _ (by simpa using hw)
    · exact ih _ (by simp [hw])

@[simp] theorem answerLoad_wf (s : State) (h : Hart) (id : Nat) (v : Held) (hw : Memory.wf s.mem) :
    Memory.wf (answerLoad s h id v).mem := by
  unfold answerLoad
  dsimp only
  repeat' split
  all_goals simp [hw]

/-! ### The sending side of the chip-to-chip links (R350 to R364) -/

@[simp] theorem modBundle_mem (s : State) (i b : Nat) (f : Bundle → Bundle) : (modBundle s i b f).mem = s.mem := rfl

@[simp] theorem setBundleState_mem (s : State) (i b st : Nat) : (setBundleState s i b st).mem = s.mem := rfl

@[simp] theorem modLinkSt_mem (s : State) (i l : Nat) (f : LinkSt → LinkSt) : (modLinkSt s i l f).mem = s.mem := rfl

@[simp] theorem giveFrame_mem (s : State) (i b l kind : Nat) (seq : BitVec 16) (units : List LinkUnit) :
    (giveFrame s i b l kind seq units).mem = s.mem :=
  rfl

@[simp] theorem pumpFrames_mem (i b n : Nat) (s : State) : (pumpFrames i b n s).mem = s.mem := by
  induction n generalizing s with
  | zero => rfl
  | succ n ih =>
    simp only [pumpFrames]
    repeat' split
    all_goals simp [ih]

@[simp] theorem sendReplay_mem (s : State) (i b : Nat) : (sendReplay s i b).mem = s.mem := by
  unfold sendReplay
  split <;> rfl

@[simp] theorem pumpBundle_mem (s : State) (i b : Nat) : (pumpBundle s i b).mem = s.mem := by
  unfold pumpBundle
  split <;> simp

@[simp] theorem sendUnit_mem (s : State) (i b : Nat) (u : LinkUnit) : (sendUnit s i b u).mem = s.mem := by simp [sendUnit]

theorem linkIssue_mem {s t : State} {k line : Nat} {rq : Requester} {mk : BitVec 12 → LinkUnit}
    (ht : linkIssue s k line rq mk = .sent t) :
    t.mem = s.mem := by
  unfold linkIssue at ht
  dsimp only at ht
  split at ht
  · cases ht
  · split at ht
    · cases ht
    · cases ht
      simp

@[simp] theorem linkForget_mem (s : State) (rq : Requester) : (linkForget s rq).mem = s.mem := rfl

@[simp] theorem laneToLink_mem (s : State) (c : Nat) (a : LaneAccess) : (laneToLink s c a).mem = s.mem := by
  unfold laneToLink
  split
  · split
    extract_lets older mk
    refine mem_ite rfl ?_
    split
    next ht => exact linkIssue_mem ht
    · rfl
    · rfl
  · rfl

/-! ### The lane port, instruction fetch and FENCE (R96, R203, R225 to R229, R258) -/

@[simp] theorem icMeet_mem (s : State) (c line : Nat) : (icMeet s c line).1.mem = s.mem := by
  unfold icMeet
  repeat' split
  all_goals simp

@[simp] theorem icFill_mem (s : State) (c line : Nat) (v : Line) : (icFill s c line v).mem = s.mem := by
  unfold icFill
  split <;> rfl

@[simp] theorem fetchWord_mem (s : State) (h : Hart) (w : Word) : (fetchWord s h w).mem = s.mem := by
  simp [fetchWord, apply_ite State.mem]

@[simp] theorem fetchTrap_mem (s : State) (h : Hart) (tr : Trap) : (fetchTrap s h tr).mem = s.mem := by
  unfold fetchTrap
  split <;> simp

@[simp] theorem icServe_mem (s : State) (c line : Nat) : (icServe s c line).1.mem = s.mem := by
  unfold icServe
  split <;> simp

@[simp] theorem execInstructionFetch_wf (h : Hart) (s : State) (hw : Memory.wf s.mem) : KeepsWf (execInstructionFetch h s) := by
  have hi {l t o} (ht : icServe s h.core l = (t, o)) : t.mem = s.mem := by rw [← icServe_mem s h.core l, ht]
  unfold execInstructionFetch
  dsimp only
  repeat' split
  all_goals simp [hw]
  all_goals rwa [hi ‹_›]

@[simp] theorem execIflush_wf (h : Hart) (s : State) (hw : Memory.wf s.mem) : KeepsWf (execIflush h s) := by
  simp [execIflush, hw]

@[simp] theorem execIflushDone_wf (core : Nat) (s : State) (hw : Memory.wf s.mem) : KeepsWf (execIflushDone core s) := by
  simp [execIflushDone, hw]

@[simp] theorem countBeats_mem (s : State) (tag dev n : Nat) : (countBeats s tag dev n).mem = s.mem := by
  unfold countBeats
  split <;> rfl

@[simp] theorem countLaneBeats_mem (s : State) (c dev : Nat) : (countLaneBeats s c dev).mem = s.mem := by
  unfold countLaneBeats
  repeat' split
  all_goals simp

@[simp] theorem countAgent_mem (s : State) (ag : Agent) (dev : Nat) : (countAgent s ag dev).mem = s.mem := by simp [countAgent]

@[simp] theorem stopLong_mem (s : State) (h : Hart) : (stopLong s h).mem = s.mem := rfl

@[simp] theorem answerTrap_wf (s : State) (h : Hart) (a : LaneAccess) (tr : Trap) (hw : Memory.wf s.mem) :
    Memory.wf (answerTrap s h a tr).mem := by
  unfold answerTrap
  dsimp only
  repeat' split
  all_goals simp [hw]

@[simp] theorem takeAnswer_wf (s : State) (h : Hart) (a : LaneAccess) (data line : List Byte) (hw : Memory.wf s.mem) :
    Memory.wf (takeAnswer s h a data line).mem := by
  unfold takeAnswer
  dsimp only
  repeat' split
  all_goals simp [hw]

@[simp] theorem execFarLoadAnswer_wf (core id : Nat) (s : State) (hw : Memory.wf s.mem) :
    KeepsWf (execFarLoadAnswer core id s) := by
  unfold execFarLoadAnswer
  dsimp only
  repeat' split
  all_goals simp [hw]

@[simp] theorem storeDone_mem (s : State) (h : Hart) (a : LaneAccess) (bs : List Byte) : (storeDone s h a bs).mem = s.mem := by
  simp [storeDone]

@[simp] theorem execFarStoreAck_wf (core id : Nat) (s : State) (hw : Memory.wf s.mem) :
    KeepsWf (execFarStoreAck core id s) := by
  unfold execFarStoreAck
  repeat' split
  all_goals simp [*, writeMem_wf]

@[simp] theorem execLaneAccessDeadline_wf (core id : Nat) (s : State) (hw : Memory.wf s.mem) :
    KeepsWf (execLaneAccessDeadline core id s) := by
  unfold execLaneAccessDeadline
  dsimp only
  repeat' split
  all_goals simp [hw]

@[simp] theorem execLaneBeatArrival_wf (core id lane index : Nat) (s : State) (hw : Memory.wf s.mem) :
    KeepsWf (execLaneBeatArrival core id lane index s) := by
  unfold execLaneBeatArrival
  dsimp only
  repeat' split
  all_goals simp [hw]

@[simp] theorem execFinishWriteRelease_wf (h : Hart) (s : State) (hw : Memory.wf s.mem) :
    KeepsWf (execFinishWriteRelease h s) := by
  unfold execFinishWriteRelease
  dsimp only
  repeat' split
  all_goals simp [hw]

@[simp] theorem execFence_wf (h : Hart) (rd : GReg) (ll fv fin : Bool) (s : State) (hw : Memory.wf s.mem) :
    KeepsWf (execFence h rd ll fv fin s) := by
  unfold execFence
  dsimp only
  repeat' split
  all_goals simp [hw]

/-! ### Control registers, traps, waits and thread release (R60 to R63, R95, R130 to R162) -/

@[simp] theorem csrLatch_mem (s : State) (h : Hart) (n : Nat) : (csrLatch s h n).mem = s.mem := by
  unfold csrLatch
  split <;> rfl

@[simp] theorem writeClksel_mem (s : State) (c : Nat) (m v : Word) : (writeClksel s c m v).mem = s.mem := by
  simp [writeClksel, apply_ite State.mem]

@[simp] theorem writeIset_mem (s : State) (c : Nat) (v : Word) : (writeIset s c v).mem = s.mem := by
  simp [writeIset, apply_ite State.mem]

@[simp] theorem writeGuardedCsr_mem (s : State) (h : Hart) (n : Nat) (m v : Word) :
    (writeGuardedCsr s h n m v).mem = s.mem := by
  simp [writeGuardedCsr, apply_ite State.mem]

@[simp] theorem csrWrite_mem (s : State) (h : Hart) (n : Nat) (m v : Word) : (csrWrite s h n m v).mem = s.mem := by
  unfold csrWrite
  extract_lets t c
  refine mem_ite rfl (mem_ite rfl (mem_ite rfl (mem_ite rfl (mem_ite rfl (mem_ite (mem_ite rfl rfl) (mem_ite rfl
    (mem_ite rfl (mem_ite rfl (mem_ite rfl (mem_ite rfl (mem_ite (writeClksel_mem _ _ _ _) (mem_ite ?_
      (mem_ite (writeGuardedCsr_mem _ _ _ _ _) rfl)))))))))))))
  split <;> rfl

@[simp] theorem csrAccess_wf (s : State) (h : Hart) (rd : GReg) (n : Nat) (m v w : Word) (hw : Memory.wf s.mem) :
    KeepsWf (csrAccess s h rd n m v w) := by
  simp [csrAccess, hw]

@[simp] theorem execCsrr_wf (h : Hart) (rd : GReg) (n : BitVec 12) (s : State) (hw : Memory.wf s.mem) :
    KeepsWf (execCsrr h rd n s) := by
  simp [execCsrr, hw]

@[simp] theorem execClkselWrite_wf (h : Hart) (v : Word) (s : State) (hw : Memory.wf s.mem) :
    KeepsWf (execClkselWrite h v s) := by
  simp [execClkselWrite, hw, apply_ite KeepsWf]

@[simp] theorem execRelockComplete_wf (core : Nat) (s : State) (hw : Memory.wf s.mem) :
    KeepsWf (execRelockComplete core s) := by
  unfold execRelockComplete
  dsimp only
  repeat' split
  all_goals simp [hw]

@[simp] theorem execWeaveTableUpdate_wf (core : Nat) (s : State) (hw : Memory.wf s.mem) :
    KeepsWf (execWeaveTableUpdate core s) := by
  simp [execWeaveTableUpdate, hw]

@[simp] theorem execStormWindowEnd_wf (core : Nat) (s : State) (hw : Memory.wf s.mem) :
    KeepsWf (execStormWindowEnd core s) := by
  simp [execStormWindowEnd, hw]

@[simp] theorem execTrap_wf (h : Hart) (imm : BitVec 12) (s : State) (hw : Memory.wf s.mem) : KeepsWf (execTrap h imm s) := by
  simp [execTrap, hw, apply_ite KeepsWf]

@[simp] theorem execEret_wf (h : Hart) (s : State) (hw : Memory.wf s.mem) : KeepsWf (execEret h s) := by simp [execEret, hw]

@[simp] theorem execWgate_wf (h : Hart) (n : BitVec 4) (s : State) (hw : Memory.wf s.mem) : KeepsWf (execWgate h n s) := by
  simp [execWgate, hw]

@[simp] theorem execHold_wf (h : Hart) (n : BitVec 12) (s : State) (hw : Memory.wf s.mem) : KeepsWf (execHold h n s) := by
  simp [execHold, hw]

@[simp] theorem execHoldWindowEnd_wf (h : Hart) (s : State) (hw : Memory.wf s.mem) : KeepsWf (execHoldWindowEnd h s) := by
  unfold execHoldWindowEnd
  dsimp only
  repeat' split
  all_goals simp [hw]

@[simp] theorem wfeExpired_mem (s : State) (h : Hart) (rd : GReg) (mask : BitVec 8) (idle : Bool) :
    (wfeExpired s h rd mask idle).state.mem = s.mem := by
  unfold wfeExpired
  repeat' split
  all_goals simp [*]

@[simp] theorem execWfe_wf (h : Hart) (rd rs1 : GReg) (mask : BitVec 8) (idle : Bool) (s : State) (hw : Memory.wf s.mem) :
    KeepsWf (execWfe h rd rs1 mask idle s) := by
  unfold execWfe
  dsimp only
  repeat' split
  all_goals simp [hw]

@[simp] theorem execWfeTimeout_wf (h : Hart) (s : State) (hw : Memory.wf s.mem) : KeepsWf (execWfeTimeout h s) := by
  have he (rd mask idle) : Memory.wf (wfeExpired s h rd mask idle).state.mem := by simpa using hw
  unfold execWfeTimeout
  split
  next rd mask idle dl _ =>
    split
    · simpa using hw
    · split
      next ht => simpa [ht] using he rd mask idle
      next ht => simpa [ht] using he rd mask idle
  · simpa using hw

@[simp] theorem execTwait_wf (h : Hart) (rs1 : GReg) (s : State) (hw : Memory.wf s.mem) : KeepsWf (execTwait h rs1 s) := by
  unfold execTwait
  dsimp only
  repeat' split
  all_goals simp [hw]

@[simp] theorem execTwaitDone_wf (h : Hart) (s : State) (hw : Memory.wf s.mem) : KeepsWf (execTwaitDone h s) := by
  unfold execTwaitDone
  split <;> simp [hw]

@[simp] theorem execTrel_wf (h : Hart) (rs1 : GReg) (s : State) (hw : Memory.wf s.mem) : KeepsWf (execTrel h rs1 s) := by
  unfold execTrel
  dsimp only
  refine issue_wf _ _ _ hw (firstTrap_wf _ _ _ hw (firstTrap_wf _ _ _ ?_ ?_))
  · split <;> simp [hw]
  · split <;> simp [hw]

@[simp] theorem execThreadStart_wf (h : Hart) (s : State) (hw : Memory.wf s.mem) : KeepsWf (execThreadStart h s) := by
  simp [execThreadStart, hw]

end Sys2Proof.Machine
end

section
/-! PROOFS. Commands keep the canonical form of memory: tiles, convoys, waybills, the courier and the stacked memory. -/

namespace Sys2Proof.Machine

/-! ### Tile and matrix instructions (R103 to R125) -/

@[simp] theorem waitTile_mem (s : State) (h : Hart) (i : Instr) : (waitTile s h i).mem = s.mem := rfl

@[simp] theorem startTile_mem (s : State) (h : Hart) (i : Instr) : (startTile s h i).mem = s.mem := by simp [startTile]

@[simp] theorem tileIssue_wf (s : State) (h : Hart) (i : Instr) (srcs : List GReg) (checks : List (Bool × Trap))
    (hw : Memory.wf s.mem) :
    KeepsWf (tileIssue s h i srcs checks) := by
  unfold tileIssue
  dsimp only
  repeat' split
  all_goals simp [hw]

@[simp] theorem execTrv_wf (h : Hart) (t : TReg) (rs1 : GReg) (vd : VReg) (s : State) (hw : Memory.wf s.mem) :
    KeepsWf (execTrv h t rs1 vd s) := by
  simp [execTrv, hw]

@[simp] theorem execMnarrow_wf (h : Hart) (td : TReg) (a : AReg) (k : Option (BitVec 4)) (s : State) (hw : Memory.wf s.mem) :
    KeepsWf (execMnarrow h td a k s) := by
  simp [execMnarrow, hw]

@[simp] theorem doMma_mem (s : State) (h : Hart) (sub : Bool) (a : AReg) (ta tb : TReg) :
    (doMma s h sub a ta tb).mem = s.mem := by
  simp [doMma, apply_ite State.mem]

@[simp] theorem doMnarrow_mem (s : State) (h : Hart) (td : TReg) (a : AReg) (k : Option (BitVec 4)) :
    (doMnarrow s h td a k).mem = s.mem := by
  simp [doMnarrow]

@[simp] theorem loadRow_mem (h : Hart) (t : TReg) (base stride : Word) (s : State) (i : Nat) :
    (loadRow h t base stride s i).mem = s.mem := by
  simp [loadRow]

@[simp] theorem storeTileBytes_wf (s : State) (h : Hart) (off : Nat) (bs : List Byte) (pz : Bool) (hw : Memory.wf s.mem) :
    Memory.wf (storeTileBytes s h off bs pz).mem := by
  unfold storeTileBytes
  split
  · exact writePoison_wf _ _ _ hw
  · exact writeLocal_wf _ _ _ _ hw

@[simp] theorem storeRow_wf (h : Hart) (t : TReg) (base stride : Word) (s : State) (i : Nat) (hw : Memory.wf s.mem) :
    Memory.wf (storeRow h t base stride s i).mem := by
  simp [storeRow, hw]

@[simp] theorem storeRowIn_wf (h : Hart) (t : TReg) (base stride : Word) (lines : List Nat) (s : State) (i : Nat)
    (hw : Memory.wf s.mem) :
    Memory.wf (storeRowIn h t base stride lines s i).mem := by
  unfold storeRowIn
  dsimp only
  repeat' split
  all_goals simp [hw]

@[simp] theorem loadExps_mem (s : State) (h : Hart) (t : TReg) (a : Nat) : (loadExps s h t a).mem = s.mem := by simp [loadExps]

@[simp] theorem storeAccLine_wf (h : Hart) (a : AReg) (base : Nat) (s : State) (k : Nat) (hw : Memory.wf s.mem) :
    Memory.wf (storeAccLine h a base s k).mem := by
  unfold storeAccLine
  all_goals simp [*, writeLocal_wf]

@[simp] theorem aldLines_mem (s : State) (a : Nat) (l : List Nat) : (aldLines s a l).1.mem = s.mem := by
  induction l generalizing s with
  | nil => rfl
  | cons i r ih =>
    simp only [aldLines]
    split <;> simp [ih]

@[simp] theorem tileRows_wf (s : State) (h : Hart) (i : Instr) (lo hi : Nat) (hw : Memory.wf s.mem) :
    Memory.wf (tileRows s h i lo hi).mem := by
  unfold tileRows
  split
  · rwa [foldl_mem _ _ _ fun t k => loadRow_mem h _ _ _ t k]
  · exact foldl_wf _ _ _ (fun t k ht => storeRow_wf _ _ _ _ t k ht) hw
  · exact foldl_wf _ _ _ (fun t k ht => storeAccLine_wf _ _ _ t k ht) hw
  · exact hw

@[simp] theorem tileEffect_wf (s : State) (h : Hart) (i : Instr) (hw : Memory.wf s.mem) :
    Memory.wf (tileEffect s h i).state.mem := by
  unfold tileEffect
  dsimp only
  repeat' split
  all_goals simp [*, writeLocal_wf]

@[simp] theorem countTile_mem (s : State) (h : Hart) (i : Instr) (cycles : Nat) (whole : Bool) :
    (countTile s h i cycles whole).mem = s.mem := by
  unfold countTile
  dsimp only
  repeat' split
  all_goals simp

@[simp] theorem completeTile_wf (s : State) (h : Hart) (cycles : Nat) (hw : Memory.wf s.mem) :
    Memory.wf (completeTile s h cycles).mem := by
  unfold completeTile
  dsimp only
  split
  · exact hw
  next i _ =>
    have he := tileEffect_wf (countTile s h i cycles true) h i (by simpa using hw)
    split
    · exact hw
    · split
      next ht => simpa [ht] using he
      next ht => simpa [ht] using he

@[simp] theorem tileProgress_wf (s : State) (h : Hart) (k : Nat) (hw : Memory.wf s.mem) :
    Memory.wf (tileProgress s h k).mem := by
  unfold tileProgress
  dsimp only
  repeat' split
  all_goals simp [hw]

@[simp] theorem execTileInstructionComplete_wf (h : Hart) (cycles : Nat) (rows : Option Nat) (s : State)
    (hw : Memory.wf s.mem) :
    KeepsWf (execTileInstructionComplete h cycles rows s) := by
  unfold execTileInstructionComplete
  split <;> simp [hw]

@[simp] theorem abandonEffect_wf (s : State) (h : Hart) (i : Instr) (kept : Nat) (hw : Memory.wf s.mem) :
    Memory.wf (abandonEffect s h i kept).mem := by
  unfold abandonEffect
  extract_lets c done
  have he := tileEffect_wf s h i hw
  split
  · rwa [foldl_mem _ _ _ fun t k => loadRow_mem h _ _ _ t k]
  · exact foldl_wf _ _ _ (fun t k ht => storeRowIn_wf _ _ _ _ _ t k ht) hw
  · exact foldl_wf _ _ _ (fun t k ht => storeAccLine_wf _ _ _ t k ht) hw
  case h_12 => exact hw
  all_goals
    refine wf_ite hw ?_
    split
    next ht => simpa [ht] using he
    next ht => simpa [ht] using he

@[simp] theorem abandonTile_wf (s : State) (h : Hart) (kept ran : Nat) (hw : Memory.wf s.mem) :
    Memory.wf (abandonTile s h kept ran).mem := by
  unfold abandonTile
  split <;> simp [hw]

/-! ### Convoys (R181 to R188) -/

@[simp] theorem modConvoy_mem (s : State) (n : Nat) (f : Convoy → Convoy) : (modConvoy s n f).mem = s.mem := rfl

@[simp] theorem disarmTrap_mem (s : State) (h : Hart) : (disarmTrap s h).mem = s.mem := by
  unfold disarmTrap
  split <;> simp

@[simp] theorem beginUnlock_mem (s : State) (n : Nat) : (beginUnlock s n).mem = s.mem := by simp [beginUnlock]

@[simp] theorem joinClock_mem (st : BitVec 6) (s : State) (c : Nat) : (joinClock st s c).mem = s.mem := rfl

@[simp] theorem leaveClock_mem (s : State) (c : Nat) : (leaveClock s c).mem = s.mem := by simp [leaveClock]

@[simp] theorem endUnlock_mem (s : State) (n : Nat) : (endUnlock s n).mem = s.mem := by simp [endUnlock, apply_ite State.mem]

@[simp] theorem convoyCfgWrite_mem (s : State) (n : Nat) (v : Word) : (convoyCfgWrite s n v).1.mem = s.mem := by
  unfold convoyCfgWrite
  dsimp only
  repeat' split
  all_goals simp

@[simp] theorem execConvoyEnable_wf (o : Origin) (n : Nat) (v : Word) (s : State) (hw : Memory.wf s.mem) :
    KeepsWf (execConvoyEnable o n v s) := by
  simp [execConvoyEnable, hw]

@[simp] theorem execConvoyDisable_wf (o : Origin) (n : Nat) (s : State) (hw : Memory.wf s.mem) :
    KeepsWf (execConvoyDisable o n s) := by
  simp [execConvoyDisable, hw]

@[simp] theorem execConvoyLocked_wf (n : Nat) (s : State) (hw : Memory.wf s.mem) : KeepsWf (execConvoyLocked n s) := by
  unfold execConvoyLocked
  have hf := foldl_mem (joinClock (BitVec.ofNat 6 (bits (coreCsr s (memberAt s n 0 0) 0x404) 5 0))) (members s n) s
    (fun t c => joinClock_mem _ t c)
  simp [hw, hf]

@[simp] theorem execConvoyUnlocked_wf (n : Nat) (s : State) (hw : Memory.wf s.mem) : KeepsWf (execConvoyUnlocked n s) := by
  simp [execConvoyUnlocked, hw]

@[simp] theorem arm_wf (s : State) (h : Hart) (i : Instr) (hw : Memory.wf s.mem) : KeepsWf (arm s h i) := by
  unfold arm
  dsimp only
  repeat' split
  all_goals simp [hw]

@[simp] theorem execCvquery_wf (h : Hart) (rd : GReg) (s : State) (hw : Memory.wf s.mem) : KeepsWf (execCvquery h rd s) := by
  simp [execCvquery, hw]

@[simp] theorem rearm_mem (s : State) (n : Nat) : (rearm s n).mem = s.mem := rfl

@[simp] theorem execConvoyLaunch_wf (n : Nat) (s : State) (hw : Memory.wf s.mem) : KeepsWf (execConvoyLaunch n s) := by
  unfold execConvoyLaunch
  dsimp only
  split
  · simpa using hw
  · split
    · rw [keepsWf_next, foldl_mem _ _ _ fun t m => takeTrap_mem t _ _ _]
      exact hw
    · split
      · rw [keepsWf_next, rearm_mem, foldl_mem]
        · exact hw
        · intro t m
          split <;> simp
      · simpa using hw

@[simp] theorem execConvoyLaunchTimeout_wf (n : Nat) (s : State) (hw : Memory.wf s.mem) :
    KeepsWf (execConvoyLaunchTimeout n s) := by
  unfold execConvoyLaunchTimeout
  dsimp only
  repeat' split
  all_goals simp [hw]

@[simp] theorem completeColumn_mem (before : State) (n : Nat) (s : State) (c : Nat) :
    (completeColumn before n s c).mem = s.mem := by
  unfold completeColumn
  dsimp only
  split
  · rfl
  · simp [foldl_mem _ _ _ fun t h => setSatf_mem t h satfMacc]

@[simp] theorem completeMember_mem (busy active : Nat) (s : State) (m : Member) :
    (completeMember busy active s m).mem = s.mem := by
  simp [completeMember, apply_ite State.mem]

@[simp] theorem execConvoyOperationComplete_wf (n : Nat) (s : State) (hw : Memory.wf s.mem) :
    KeepsWf (execConvoyOperationComplete n s) := by
  unfold execConvoyOperationComplete
  dsimp only
  repeat' split
  all_goals simp [hw]

@[simp] theorem abandonMember_mem (ran : Nat) (s : State) (m : Member) : (abandonMember ran s m).mem = s.mem := by
  unfold abandonMember
  split <;> rfl

@[simp] theorem abandonConvoy_mem (s : State) (h : Hart) (ran : Nat) : (abandonConvoy s h ran).mem = s.mem := by
  unfold abandonConvoy
  dsimp only
  repeat' split
  all_goals simp

@[simp] theorem convoyMemberReset_mem (s : State) (c : Nat) : (convoyMemberReset s c).mem = s.mem := by
  have hl (t : State) (d : Nat) : (if d != c && bit (coreCsr t d 0x404) 8 then leaveClock t d else t).mem = t.mem :=
    mem_ite (leaveClock_mem t d) rfl
  have ht (t : State) (h : Hart) : (takeTrap t h (trapWait 0 c) (thr t h).pc).mem = t.mem := takeTrap_mem t h _ _
  unfold convoyMemberReset
  dsimp only
  split
  · rfl
  · refine mem_ite ?_ ?_
    · simp only [setReg_mem, modConvoy_mem, setFlag_mem, foldl_mem _ _ _ hl, foldl_mem _ _ _ ht]
    · simp only [setFld_mem, setReg_mem, modConvoy_mem, setFlag_mem, foldl_mem _ _ _ hl, foldl_mem _ _ _ ht]

/-! ### Waybills and interrupt entry (R149, R163 to R180) -/

@[simp] theorem modPeer_mem (s : State) (c d : Nat) (f : NbrLink → NbrLink) : (modPeer s c d f).mem = s.mem := by
  unfold modPeer
  split <;> rfl

@[simp] theorem returnCredits_mem (s : State) (c d n : Nat) : (returnCredits s c d n).mem = s.mem := by simp [returnCredits]

@[simp] theorem sendBeat_mem (s : State) (c d : Nat) (b : Beat) : (sendBeat s c d b).mem = s.mem := by simp [sendBeat]

@[simp] theorem sendHandshake_mem (s : State) (c d : Nat) : (sendHandshake s c d).mem = s.mem := by simp [sendHandshake]

@[simp] theorem setWbState_mem (s : State) (c st : Nat) : (setWbState s c st).mem = s.mem := rfl

@[simp] theorem wbFault_mem (s : State) (c status entry dir peer : Nat) : (wbFault s c status entry dir peer).mem = s.mem := by
  simp [wbFault]

@[simp] theorem wbAdvance_mem (s : State) (c : Nat) : (wbAdvance s c).mem = s.mem := by
  unfold wbAdvance
  split <;> simp

@[simp] theorem wbReservedFault_mem (s : State) (c : Nat) : (wbReservedFault s c).mem = s.mem := by simp [wbReservedFault]

@[simp] theorem wbTransfer_wf (s : State) (c op : Nat) (pump : State → State) (hw : Memory.wf s.mem)
    (hp : ∀ t : State, Memory.wf t.mem → Memory.wf (pump t).mem) :
    KeepsWf (wbTransfer s c op pump) := by
  unfold wbTransfer
  dsimp only
  repeat' split
  all_goals simp [*]

@[simp] theorem wbBeat_mem (s : State) (c : Nat) (e : DWord) (k : Nat) : (wbBeat s c e k).1.mem = s.mem := by
  unfold wbBeat
  dsimp only
  repeat' split
  all_goals simp

@[simp] theorem sendBeats_mem (c : Nat) (e : DWord) (n : Nat) (s : State) : (sendBeats c e n s).mem = s.mem := by
  induction n generalizing s with
  | zero => rfl
  | succ n ih => simp [sendBeats, ih]

@[simp] theorem wbPumpSend_mem (c : Nat) (s : State) : (wbPumpSend c s).mem = s.mem := by simp [wbPumpSend]

@[simp] theorem wbHeaderFault_mem (s : State) (c : Nat) (e : DWord) : (wbHeaderFault s c e).mem = s.mem := by
  simp [wbHeaderFault]

@[simp] theorem wbStoreBeat_wf (s : State) (c : Nat) (e : DWord) (b : Beat) (hw : Memory.wf s.mem) :
    Memory.wf (wbStoreBeat s c e b).mem := by
  unfold wbStoreBeat
  repeat' split
  all_goals simp [*, writeData_wf]

@[simp] theorem wbPumpRecv_wf (c : Nat) (s : State) (hw : Memory.wf s.mem) : Memory.wf (wbPumpRecv c s).mem := by
  have hf := foldl_wf _ (beatsFor s c (wbEntry s c) (wbBeats (wbEntry s c) - (wbOf s c).received)) s
    (fun t b ht => wbStoreBeat_wf t c (wbEntry s c) b ht) hw
  unfold wbPumpRecv
  dsimp only
  refine wf_ite ?_ (wf_ite ?_ (wf_ite ?_ ?_)) <;> simp [hw, hf]

@[simp] theorem wbPumpFwd_mem (c : Nat) (s : State) : (wbPumpFwd c s).mem = s.mem := by simp [wbPumpFwd, apply_ite State.mem]

@[simp] theorem execWbSend_wf (core : Nat) (s : State) (hw : Memory.wf s.mem) : KeepsWf (execWbSend core s) := by
  simp [execWbSend, hw]

@[simp] theorem execWbRecv_wf (core : Nat) (s : State) (hw : Memory.wf s.mem) : KeepsWf (execWbRecv core s) :=
  wbTransfer_wf s core 2 _ hw (wbPumpRecv_wf core)

@[simp] theorem execWbFwd_wf (core : Nat) (s : State) (hw : Memory.wf s.mem) : KeepsWf (execWbFwd core s) := by
  simp [execWbFwd, hw]

@[simp] theorem execCompletionHandshake_wf (core : Nat) (dir : BitVec 2) (s : State) (hw : Memory.wf s.mem) :
    KeepsWf (execCompletionHandshake core dir s) := by
  simp [execCompletionHandshake, hw, apply_ite KeepsWf]

@[simp] theorem execBeatArrival_wf (core : Nat) (dir : BitVec 2) (s : State) (hw : Memory.wf s.mem) :
    KeepsWf (execBeatArrival core dir s) := by
  unfold execBeatArrival
  dsimp only
  repeat' split
  all_goals simp [hw]

@[simp] theorem execCreditReturn_wf (core : Nat) (dir : BitVec 2) (s : State) (hw : Memory.wf s.mem) :
    KeepsWf (execCreditReturn core dir s) := by
  simp [execCreditReturn, hw]

@[simp] theorem wbSimple_wf (s : State) (c op : Nat) (k : State → State) (hw : Memory.wf s.mem) (hk : Memory.wf (k s).mem) :
    KeepsWf (wbSimple s c op k) := by
  unfold wbSimple
  repeat' split
  all_goals simp [*]

@[simp] theorem execWbEnd_wf (core : Nat) (s : State) (hw : Memory.wf s.mem) : KeepsWf (execWbEnd core s) := by
  refine wbSimple_wf s core 0 _ hw ?_
  extract_lets t
  exact wf_ite (by simpa [t] using hw) hw

@[simp] theorem waitwRead_wf (s : State) (c : Nat) (k : State → Word → State) (hw : Memory.wf s.mem)
    (hk : ∀ t v, Memory.wf t.mem → Memory.wf (k t v).mem) :
    Memory.wf (waitwRead s c k).mem := by
  unfold waitwRead
  dsimp only
  refine wf_ite ?_ (hk _ _ ?_) <;> simpa using hw

@[simp] theorem execWbWaitw_wf (core : Nat) (s : State) (hw : Memory.wf s.mem) : KeepsWf (execWbWaitw core s) := by
  simp [execWbWaitw, hw]

@[simp] theorem execWbWaitwMatch_wf (core : Nat) (s : State) (hw : Memory.wf s.mem) : KeepsWf (execWbWaitwMatch core s) := by
  unfold execWbWaitwMatch
  rw [keepsWf_when _ _ _ hw]
  exact fun _ => waitwRead_wf s core _ hw fun t v ht => wf_ite (by simpa using ht) ht

@[simp] theorem execWbSignal_wf (core : Nat) (s : State) (hw : Memory.wf s.mem) : KeepsWf (execWbSignal core s) := by
  simp [execWbSignal, hw]

@[simp] theorem execWbLoop_wf (core : Nat) (s : State) (hw : Memory.wf s.mem) : KeepsWf (execWbLoop core s) := by
  unfold execWbLoop
  extract_lets e
  refine wbSimple_wf s core 6 _ hw ?_
  exact wf_ite (by simpa using hw) (by simpa using hw)

@[simp] theorem execWaybillDeadline_wf (core : Nat) (s : State) (hw : Memory.wf s.mem) :
    KeepsWf (execWaybillDeadline core s) := by
  unfold execWaybillDeadline
  dsimp only
  repeat' split
  all_goals simp [hw]

@[simp] theorem wbClear_mem (s : State) (c : Nat) : (wbClear s c).mem = s.mem := by simp [wbClear]

@[simp] theorem wbGo_mem (s : State) (c : Nat) : (wbGo s c).mem = s.mem := rfl

@[simp] theorem wbLoad_mem (s : State) (c : Nat) : (wbLoad s c).mem = s.mem := by simp [wbLoad, apply_ite State.mem]

@[simp] theorem wbCtlWrite_mem (s : State) (o : Origin) (c : Nat) (v : Word) : (wbCtlWrite s o c v).1.mem = s.mem := by
  unfold wbCtlWrite
  dsimp only
  repeat' split
  all_goals simp

@[simp] theorem wbCommand_wf (o : Origin) (c : Nat) (b : Word) (s : State) (hw : Memory.wf s.mem) :
    KeepsWf (wbCommand o c b s) := by
  simp [wbCommand, hw]

@[simp] theorem loadEntries_mem (s : State) (c line first n : Nat) : (loadEntries s c line first n).mem = s.mem := rfl

@[simp] theorem loadLines_mem (c line len : Nat) (l : List Nat) (s : State) : (loadLines c line len l s).1.mem = s.mem := by
  induction l generalizing s with
  | nil => rfl
  | cons k r ih =>
    simp only [loadLines]
    split <;> simp [ih]

@[simp] theorem execWaybillLoadComplete_wf (core : Nat) (s : State) (hw : Memory.wf s.mem) :
    KeepsWf (execWaybillLoadComplete core s) := by
  unfold execWaybillLoadComplete
  dsimp only
  repeat' split
  all_goals simp [hw]

theorem interruptWork_wf {s : State} {h : Hart} {kept ran : Nat} {x : State × Word} (hw : Memory.wf s.mem)
    (hx : interruptWork s h kept ran = some x) :
    Memory.wf x.1.mem := by
  unfold interruptWork at hx
  dsimp only at hx
  repeat' split at hx
  all_goals cases hx
  all_goals simp [hw]

@[simp] theorem execInterruptEntry_wf (h : Hart) (kept ran cycles : Nat) (s : State) (hw : Memory.wf s.mem) :
    KeepsWf (execInterruptEntry h kept ran cycles s) := by
  unfold execInterruptEntry
  repeat' split
  · simpa using hw
  · simpa using hw
  · simpa using hw
  next s' _ hx => simpa using interruptWork_wf hw hx

/-! ### Slot tables, the courier net and tenancy rectangles (R189 to R217) -/

@[simp] theorem laneSlotWrite_mem (s : State) (o : Origin) (lane w : Nat) (v : Word) :
    (laneSlotWrite s o lane w v).1.mem = s.mem :=
  rfl

@[simp] theorem execLaneSlotWrite_wf (o : Origin) (lane w : Nat) (v : Word) (s : State) (hw : Memory.wf s.mem) :
    KeepsWf (execLaneSlotWrite o lane w v s) := by
  simp [execLaneSlotWrite, hw]

@[simp] theorem laneRefuse_mem (s : State) (r k : Nat) : (laneRefuse s r k).mem = s.mem := rfl

@[simp] theorem laneCommitWrite_mem (s : State) (v : Word) : (laneCommitWrite s v).1.mem = s.mem := by
  unfold laneCommitWrite
  split <;> simp

@[simp] theorem execLaneCommit_wf (o : Origin) (s : State) (hw : Memory.wf s.mem) : KeepsWf (execLaneCommit o s) := by
  simp [execLaneCommit, hw]

@[simp] theorem laneBoundary_mem (s : State) : (laneBoundary s).mem = s.mem := by
  unfold laneBoundary
  dsimp only
  repeat' split
  all_goals simp

@[simp] theorem outboxResult_wf (s : State) (h : Hart) (status tag : Nat) (data : Option Word) (hw : Memory.wf s.mem) :
    Memory.wf (outboxResult s h status tag data).mem := by
  unfold outboxResult
  dsimp only
  repeat' split
  all_goals simp [*, writeLocal_wf]

@[simp] theorem execOutboxGo_wf (h : Hart) (s : State) (hw : Memory.wf s.mem) : KeepsWf (execOutboxGo h s) := by
  unfold execOutboxGo
  dsimp only
  repeat' split
  all_goals simp [hw]

@[simp] theorem execOutboxDeadline_wf (h : Hart) (s : State) (hw : Memory.wf s.mem) : KeepsWf (execOutboxDeadline h s) := by
  unfold execOutboxDeadline
  repeat' split
  all_goals simp [*]

theorem takeMsg_mem {s : State} {k kind : Nat} {x : Msg × State} (hx : takeMsg s k kind = some x) : x.2.mem = s.mem := by
  unfold takeMsg at hx
  repeat' split at hx
  all_goals cases hx
  rfl

@[simp] theorem execEvent_wf (k : Nat) (s : State) (hw : Memory.wf s.mem) : KeepsWf (execEvent k s) := by
  unfold execEvent
  split
  · simpa using hw
  next m t ht =>
    have hm := takeMsg_mem ht
    repeat' split
    all_goals simp_all

@[simp] theorem execIrq_wf (k : Nat) (s : State) (hw : Memory.wf s.mem) : KeepsWf (execIrq k s) := by
  unfold execIrq
  split
  · simpa using hw
  next m t ht =>
    have hm := takeMsg_mem ht
    repeat' split
    all_goals simp_all

@[simp] theorem execCfgRsp_wf (k : Nat) (s : State) (hw : Memory.wf s.mem) : KeepsWf (execCfgRsp k s) := by
  unfold execCfgRsp
  split
  · simpa using hw
  next m t ht =>
    have hm := takeMsg_mem ht
    dsimp only
    split
    all_goals simp_all

@[simp] theorem tenRefuse_mem (s : State) (n : Nat) : (tenRefuse s n).mem = s.mem := by
  unfold tenRefuse
  split <;> rfl

@[simp] theorem tenRectWrite_mem (s : State) (n : Nat) (v : Word) : (tenRectWrite s n v).1.mem = s.mem := by
  unfold tenRectWrite
  dsimp only
  repeat' split
  all_goals simp

@[simp] theorem execTenRectEnable_wf (o : Origin) (n : Nat) (v : Word) (s : State) (hw : Memory.wf s.mem) :
    KeepsWf (execTenRectEnable o n v s) := by
  simp [execTenRectEnable, hw]

@[simp] theorem execTenRectDisable_wf (o : Origin) (n : Nat) (s : State) (hw : Memory.wf s.mem) :
    KeepsWf (execTenRectDisable o n s) := by
  simp [execTenRectDisable, hw]

/-! ### The near tier (R236 to R266) -/

@[simp] theorem modUnit_mem (s : State) (u : Nat) (f : Unit → Unit) : (modUnit s u f).mem = s.mem := rfl

@[simp] theorem maskCommitWrite_mem (s : State) (u : Nat) (v : Word) : (maskCommitWrite s u v).1.mem = s.mem := by
  unfold maskCommitWrite
  split <;> simp

@[simp] theorem execMaskCommit_wf (o : Origin) (unit : Nat) (s : State) (hw : Memory.wf s.mem) :
    KeepsWf (execMaskCommit o unit s) := by
  simp [execMaskCommit, hw]

@[simp] theorem maskDone_mem (s : State) (u st : Nat) : (maskDone s u st).mem = s.mem := rfl

@[simp] theorem maskBoundary_mem (s : State) (u : Nat) : (maskBoundary s u).mem = s.mem := by
  simp [maskBoundary, apply_ite State.mem]

@[simp] theorem unitBoundary_mem (s : State) (u : Nat) : (unitBoundary s u).mem = s.mem := by simp [unitBoundary]

@[simp] theorem execFrameBoundary_wf (s : State) (hw : Memory.wf s.mem) : KeepsWf (execFrameBoundary s) := by
  simp [execFrameBoundary, hw]

@[simp] theorem execThermalSample_wf (unit : Nat) (temp : Option (BitVec 8)) (s : State) (hw : Memory.wf s.mem) :
    KeepsWf (execThermalSample unit temp s) := by
  unfold execThermalSample
  dsimp only
  repeat' split
  all_goals simp [hw]

@[simp] theorem execCattrip_wf (unit : Nat) (s : State) (hw : Memory.wf s.mem) : KeepsWf (execCattrip unit s) := by
  simp [execCattrip, hw]

@[simp] theorem setWay_mem (s : State) (u w : Nat) (x : CacheWay) : (setWay s u w x).mem = s.mem := rfl

@[simp] theorem dropWay_mem (s : State) (u set w : Nat) : (dropWay s u set w).mem = s.mem := rfl

@[simp] theorem writeBack_mem (s : State) (u l : Nat) : (writeBack s u l).mem = s.mem := rfl

@[simp] theorem readArray_mem (s : State) (u w : Nat) (x : CacheWay) : (readArray s u w x).mem = s.mem := by
  simp [readArray, apply_ite State.mem]

@[simp] theorem writeBackWay_mem (s : State) (u w : Nat) (x : CacheWay) : (writeBackWay s u w x).mem = s.mem := by
  simp [writeBackWay]

@[simp] theorem evictWay_mem (s : State) (u set w : Nat) : (evictWay s u set w).mem = s.mem := by
  unfold evictWay
  repeat' split
  all_goals simp

@[simp] theorem readWay_mem (s : State) (u set w : Nat) : (readWay s u set w).mem = s.mem := by
  unfold readWay
  split <;> simp

@[simp] theorem touchWay_mem (s : State) (u set w : Nat) : (touchWay s u set w).mem = s.mem := rfl

@[simp] theorem allocate_mem (s : State) (u l : Nat) (dirty : Bool) : (allocate s u l dirty).mem = s.mem := by
  unfold allocate
  split <;> simp

@[simp] theorem queueFetch_mem (s : State) (u l : Nat) : (queueFetch s u l).mem = s.mem := by
  unfold queueFetch
  split <;> rfl

@[simp] theorem hint_mem (s : State) (a kind : Nat) : (hint s a kind).mem = s.mem := by
  unfold hint
  dsimp only
  repeat' split
  all_goals simp

@[simp] theorem missNext_mem (s : State) (u a l : Nat) : (missNext s u a l).mem = s.mem := by
  unfold missNext
  split <;> simp

@[simp] theorem execPrefetchFetch_wf (unit : Nat) (s : State) (hw : Memory.wf s.mem) : KeepsWf (execPrefetchFetch unit s) := by
  unfold execPrefetchFetch
  dsimp only
  repeat' split
  all_goals simp [hw]

@[simp] theorem nearReadLine_mem (s : State) (a : Nat) : (nearReadLine s a).mem = s.mem := by
  unfold nearReadLine
  dsimp only
  repeat' split
  all_goals simp

@[simp] theorem writeCached_wf (s : State) (a : Nat) (bs : List Byte) (pz : Bool) (hw : Memory.wf s.mem) :
    Memory.wf (writeCached s a bs pz).mem := by
  unfold writeCached
  repeat' split
  all_goals simp [*, memPutAll_wf]

@[simp] theorem nearWriteLine_wf (s : State) (a : Nat) (bs : List Byte) (pz : Bool) (hw : Memory.wf s.mem) :
    Memory.wf (nearWriteLine s a bs pz).mem := by
  unfold nearWriteLine
  dsimp only
  repeat' split
  all_goals simp [*, writeData_wf]

@[simp] theorem pocRead_mem (s : State) (a n : Nat) : (pocRead s a n).mem = s.mem := by
  unfold pocRead
  split <;> simp

@[simp] theorem clearSide_mem (s : State) (a n : Nat) : (clearSide s a n).mem = s.mem := rfl

@[simp] theorem pocWrite_wf (s : State) (a : Nat) (bs : List Byte) (pz : Bool) (hw : Memory.wf s.mem) :
    Memory.wf (pocWrite s a bs pz).mem := by
  unfold pocWrite
  split
  · rw [clearSide_mem]
    exact foldl_wf _ _ _ (fun t p ht => nearWriteLine_wf t _ _ _ ht) hw
  · exact writeData_wf _ _ _ _ hw

@[simp] theorem lanePerform_wf (s : State) (c : Nat) (a : LaneAccess) (hw : Memory.wf s.mem) :
    Memory.wf (lanePerform s c a).mem := by
  unfold lanePerform
  dsimp only
  repeat' split
  all_goals simp [hw]

@[simp] theorem execNearTierAccess_wf (unit core id : Nat) (s : State) (hw : Memory.wf s.mem) :
    KeepsWf (execNearTierAccess unit core id s) := by
  unfold execNearTierAccess
  repeat' split
  all_goals simp [*]

@[simp] theorem cleanWays_mem (s : State) (u : Nat) (p : Nat → Bool) : (cleanWays s u p).mem = s.mem := by simp [cleanWays]

@[simp] theorem bcLockWrite_mem (s : State) (u : Nat) (v : Word) : (bcLockWrite s u v).1.mem = s.mem := by
  unfold bcLockWrite
  dsimp only
  repeat' split
  all_goals simp

@[simp] theorem execBcLockWrite_wf (o : Origin) (unit : Nat) (v : Word) (s : State) (hw : Memory.wf s.mem) :
    KeepsWf (execBcLockWrite o unit v s) := by
  simp [execBcLockWrite, hw]

@[simp] theorem preGo_mem (s : State) (u : Nat) : (preGo s u).mem = s.mem := by simp [preGo, apply_ite State.mem]

@[simp] theorem preStop_mem (s : State) (u : Nat) : (preStop s u).mem = s.mem := by simp [preStop, apply_ite State.mem]

@[simp] theorem preCmdWrite_mem (s : State) (u : Nat) (v : Word) : (preCmdWrite s u v).1.mem = s.mem := by
  simp [preCmdWrite, apply_ite State.mem]

@[simp] theorem execPreloadGo_wf (o : Origin) (unit : Nat) (s : State) (hw : Memory.wf s.mem) :
    KeepsWf (execPreloadGo o unit s) := by
  simp [execPreloadGo, hw]

@[simp] theorem execPreloadStop_wf (o : Origin) (unit : Nat) (s : State) (hw : Memory.wf s.mem) :
    KeepsWf (execPreloadStop o unit s) := by
  simp [execPreloadStop, hw]

@[simp] theorem preSkip_mem (s : State) (u : Nat) : (preSkip s u).mem = s.mem := rfl

@[simp] theorem preloadPlace_mem (s : State) (u i : Nat) : (preloadPlace s u i).mem = s.mem := by
  unfold preloadPlace
  dsimp only
  repeat' split
  all_goals simp

@[simp] theorem execPreloadLine_wf (unit : Nat) (s : State) (hw : Memory.wf s.mem) : KeepsWf (execPreloadLine unit s) := by
  simp [execPreloadLine, hw]

@[simp] theorem execPreloadComplete_wf (unit : Nat) (s : State) (hw : Memory.wf s.mem) :
    KeepsWf (execPreloadComplete unit s) := by
  simp [execPreloadComplete, hw]

@[simp] theorem bcCtlWrite_mem (s : State) (u : Nat) (v : Word) : (bcCtlWrite s u v).1.mem = s.mem := by
  unfold bcCtlWrite
  dsimp only
  repeat' split
  all_goals simp

@[simp] theorem execCacheDrainStart_wf (o : Origin) (unit : Nat) (s : State) (hw : Memory.wf s.mem) :
    KeepsWf (execCacheDrainStart o unit s) := by
  simp [execCacheDrainStart, hw]

@[simp] theorem emptyCache_mem (s : State) (u : Nat) : (emptyCache s u).mem = s.mem := by simp [emptyCache]

@[simp] theorem execCacheDrainComplete_wf (unit : Nat) (s : State) (hw : Memory.wf s.mem) :
    KeepsWf (execCacheDrainComplete unit s) := by
  simp [execCacheDrainComplete, hw]

@[simp] theorem icCtlWrite_mem (s : State) (c : Nat) (v : Word) : (icCtlWrite s c v).1.mem = s.mem := by
  unfold icCtlWrite
  split <;> rfl

@[simp] theorem execIcCtlWrite_wf (o : Origin) (core : Nat) (v : Word) (s : State) (hw : Memory.wf s.mem) :
    KeepsWf (execIcCtlWrite o core v s) := by
  simp [execIcCtlWrite, hw]

@[simp] theorem scrubRead_mem (s : State) (u : Option Nat) (a : Nat) : (scrubRead s u a).mem = s.mem := by
  simp [scrubRead, apply_ite State.mem]

@[simp] theorem execScrubLine_wf (unit : Nat) (s : State) (hw : Memory.wf s.mem) : KeepsWf (execScrubLine unit s) := by
  unfold execScrubLine
  dsimp only
  repeat' split
  all_goals simp [hw]

@[simp] theorem execLocalScrubLine_wf (core : Nat) (s : State) (hw : Memory.wf s.mem) :
    KeepsWf (execLocalScrubLine core s) := by
  simp [execLocalScrubLine, hw, apply_ite KeepsWf]

end Sys2Proof.Machine
end

section
/-! PROOFS. Commands keep the canonical form of memory: queues and DMA. -/

namespace Sys2Proof.Machine

/-! ### What the host-side commands share (R310 to R349) -/

@[simp] theorem reportWrite_wf (s : State) (a : Nat) (bs : List Byte) (hw : Memory.wf s.mem) :
    Memory.wf (reportWrite s a bs).mem := by
  unfold reportWrite
  split
  · exact hw
  · exact wf_ite (pocWrite_wf _ _ _ _ hw) hw
  · split
    next ht => rwa [linkIssue_mem ht]
    · exact hw
  · exact writeMem_wf _ _ _ hw
  · exact writeMem_wf _ _ _ hw

@[simp] theorem reportWord_wf (s : State) (a n v : Nat) (hw : Memory.wf s.mem) : Memory.wf (reportWord s a n v).mem := by
  simp [reportWord, hw]

@[simp] theorem sendMsix_mem (s : State) (v : Nat) : (sendMsix s v).mem = s.mem := by
  unfold sendMsix
  split <;> rfl

@[simp] theorem writeMirror_wf (s : State) (e : Nat) (hw : Memory.wf s.mem) : Memory.wf (writeMirror s e).mem := by
  unfold writeMirror
  split <;> simp [hw]

@[simp] theorem sendEventFlag_mem (s : State) (e : Nat) : (sendEventFlag s e).mem = s.mem := by
  simp [sendEventFlag, apply_ite State.mem]

@[simp] theorem wakeQueues_mem (s : State) (e : Nat) : (wakeQueues s e).mem = s.mem := rfl

@[simp] theorem applyEvent_wf (s : State) (ch : EvChange) (hw : Memory.wf s.mem) : Memory.wf (applyEvent s ch).mem := by
  unfold applyEvent
  dsimp only
  repeat' split
  all_goals simp [hw]

@[simp] theorem flushEvents_wf (s : State) (hw : Memory.wf s.mem) : Memory.wf (flushEvents s).mem :=
  foldl_wf _ _ _ (fun t e ht => applyEvent_wf t e ht) hw

@[simp] theorem changeEvent_wf (s : State) (ch : EvChange) (hw : Memory.wf s.mem) : Memory.wf (changeEvent s ch).mem := by
  simp [changeEvent, hw]

@[simp] theorem queueEvent_mem (s : State) (ch : EvChange) : (queueEvent s ch).mem = s.mem := rfl

@[simp] theorem writeCtxRecord_wf (s : State) (c : Nat) (r : ErrRec) (hw : Memory.wf s.mem) :
    Memory.wf (writeCtxRecord s c r).mem := by
  unfold writeCtxRecord
  dsimp only
  repeat' split
  all_goals simp [hw]

@[simp] theorem writeDevRecord_wf (s : State) (r : ErrRec) (hw : Memory.wf s.mem) : Memory.wf (writeDevRecord s r).mem := by
  unfold writeDevRecord
  dsimp only
  repeat' split
  all_goals simp [hw]

@[simp] theorem clearScrub_mem (s : State) (x : Option (Nat × Nat)) : (clearScrub s x).mem = s.mem := by
  unfold clearScrub
  split <;> rfl

@[simp] theorem writeRecord_wf (s : State) (r : ErrRec) (hw : Memory.wf s.mem) : Memory.wf (writeRecord s r).mem := by
  unfold writeRecord
  split <;> simp [hw]

@[simp] theorem flushRecords_wf (s : State) (c : Nat) (hw : Memory.wf s.mem) : Memory.wf (flushRecords s c).mem :=
  foldl_wf _ _ _ (fun t r ht => writeRecord_wf t r ht) hw

@[simp] theorem modQueue_mem (s : State) (q : Nat) (f : Queue → Queue) : (modQueue s q f).mem = s.mem := rfl

@[simp] theorem pumpFetch_mem (s : State) (q : Nat) : (pumpFetch s q).mem = s.mem := by simp [pumpFetch, apply_ite State.mem]

@[simp] theorem queueError_mem (s : State) (q status who addr : Nat) : (queueError s q status who addr).mem = s.mem := rfl

@[simp] theorem stopQueue_mem (s : State) (q status : Nat) : (stopQueue s q status).mem = s.mem := rfl

@[simp] theorem settleState_mem (s : State) (q : Nat) : (settleState s q).mem = s.mem := by
  unfold settleState
  split <;> rfl

@[simp] theorem advanceCons_wf (s : State) (q status : Nat) (old : Bool) (hw : Memory.wf s.mem) :
    Memory.wf (advanceCons s q status old).mem := by
  unfold advanceCons
  split <;> simp [hw]

@[simp] theorem popEntry_wf (s : State) (q status : Nat) (irq : Bool) (hw : Memory.wf s.mem) :
    Memory.wf (popEntry s q status irq).mem := by
  unfold popEntry
  dsimp only
  repeat' split
  all_goals simp [hw]

@[simp] theorem settleFront_wf (n : Nat) (s : State) (q : Nat) (hw : Memory.wf s.mem) : Memory.wf (settleFront n s q).mem := by
  induction n generalizing s with
  | zero => exact hw
  | succ n ih =>
    unfold settleFront
    split
    · exact hw
    · exact ih _ (popEntry_wf _ _ _ _ hw)
    · refine ih _ (wf_ite ?_ ?_) <;> simp [hw]

@[simp] theorem completeEntry_wf (s : State) (q status : Nat) (irq : Bool) (hw : Memory.wf s.mem) :
    Memory.wf (completeEntry s q status irq).mem := by
  simp [completeEntry, hw]

@[simp] theorem completeControl_wf (s : State) (q status who addr : Nat) (hw : Memory.wf s.mem) :
    Memory.wf (completeControl s q status who addr).mem := by
  unfold completeControl
  split
  · exact hw
  · extract_lets ev s1 s2
    have h1 : Memory.wf s1.mem := wf_ite (changeEvent_wf _ _ hw) hw
    have h2 : Memory.wf s2.mem := popEntry_wf _ _ _ _ (by rwa [queueError_mem])
    exact wf_ite (completeEntry_wf _ _ _ _ h1) (settleFront_wf _ _ _ (wf_ite (by rwa [stopQueue_mem]) h2))

@[simp] theorem ledgerSettle_wf (s : State) (q : Nat) (hw : Memory.wf s.mem) : Memory.wf (ledgerSettle s q).mem := by
  unfold ledgerSettle
  repeat' split
  all_goals simp [*]

@[simp] theorem ledgerAnswer_wf (s : State) (q line st : Nat) (hw : Memory.wf s.mem) :
    Memory.wf (ledgerAnswer s q line st).mem := by
  unfold ledgerAnswer
  split <;> simp [hw]

/-! ### Checks of a descriptor (R267 to R281) -/

@[simp] theorem setChan_mem (s : State) (ch : Chan) (x : DmaChan) : (setChan s ch x).mem = s.mem := by
  unfold setChan
  split <;> rfl

@[simp] theorem modChan_mem (s : State) (ch : Chan) (f : DmaChan → DmaChan) : (modChan s ch f).mem = s.mem := by simp [modChan]

/-! ### Pieces of a descriptor (R270 to R276, R285, R299 to R304) -/

@[simp] theorem modDesc_mem (s : State) (ch : Chan) (serial : Nat) (f : Desc → Desc) : (modDesc s ch serial f).mem = s.mem := by
  simp [modDesc]

@[simp] theorem noteLatency_mem (s : State) (p ns : Nat) : (noteLatency s p ns).mem = s.mem := by
  simp [noteLatency, apply_ite State.mem]

@[simp] theorem engineLatency_mem (s : State) (p a : Nat) : (engineLatency s p a).mem = s.mem := by simp [engineLatency]

@[simp] theorem countTrip_mem (s : State) (ag : Agent) (a : Nat) : (countTrip s ag a).mem = s.mem := by simp [countTrip]

@[simp] theorem engineRead_mem (s : State) (ag : Agent) (rq : Requester) (a n : Nat) (hinted : Bool) :
    ((engineRead s ag rq a n hinted).stateFrom s).mem = s.mem := by
  unfold engineRead
  split
  · rfl
  · split
    · rfl
    · split
      case h_6 =>
        split
        next ht => simpa using linkIssue_mem ht
        · rfl
        · rfl
      all_goals repeat' split
      all_goals simp

@[simp] theorem engineWrite_wf (s : State) (ag : Agent) (rq : Requester) (a : Nat) (bs : List Byte) (pz : Bool)
    (hw : Memory.wf s.mem) :
    Memory.wf ((engineWrite s ag rq a bs pz).stateFrom s).mem := by
  unfold engineWrite
  repeat' split
  all_goals simp [hw, writeData_wf]
  · exact wf_ite (by simpa using hw) (writeData_wf _ _ _ _ (by simpa using hw))
  next ht => rwa [linkIssue_mem ht]

@[simp] theorem pieceFailed_mem (s : State) (ch : Chan) (serial key status wher who : Nat) (wrote : Bool) :
    (pieceFailed s ch serial key status wher who wrote).mem = s.mem := by
  simp [pieceFailed]

@[simp] theorem blameNode_mem (s : State) (ch : Chan) (serial key who : Nat) : (blameNode s ch serial key who).mem = s.mem := by
  simp [blameNode]

@[simp] theorem countDma_mem (s : State) (ch : Chan) (d : Desc) (n : Nat) : (countDma s ch d n).mem = s.mem := by
  unfold countDma
  split <;> rfl

@[simp] theorem addWait_mem (s : State) (ch : Chan) (serial : Nat) (w : EngineWait) : (addWait s ch serial w).mem = s.mem := by
  simp [addWait]

@[simp] theorem dropWaits_mem (s : State) (ch : Chan) (serial : Nat) (p : EngineWait → Bool) :
    (dropWaits s ch serial p).mem = s.mem := by
  simp [dropWaits]

@[simp] theorem readCoded_mem (s : State) (ag : Agent) (a rate : Nat) (hinted : Bool) :
    ((readCoded s ag a rate hinted).stateFrom s).mem = s.mem := by
  unfold readCoded
  dsimp only
  repeat' split
  all_goals simp [*]

@[simp] theorem storeCoded_wf (s : State) (a : Nat) (b : CodedBlock) (pz : Bool) (hw : Memory.wf s.mem) :
    Memory.wf (storeCoded s a b pz).mem := by
  simp [storeCoded, hw]

@[simp] theorem writeCoded_wf (s : State) (ag : Agent) (rq : Requester) (a rate : Nat) (l : List CodedBlock) (pz : Bool)
    (hw : Memory.wf s.mem) :
    Memory.wf ((writeCoded s ag rq a rate l pz).stateFrom s).mem := by
  unfold writeCoded
  dsimp only
  split
  · repeat' split
    · simpa using hw
    · simpa using hw
    · exact foldl_wf _ _ _ (fun t b ht => storeCoded_wf t _ _ _ ht) (by simpa using hw)
  · split
    · exact hw
    · split
      next ht => simpa [linkIssue_mem ht] using hw
      · exact hw
      · exact hw
  · exact hw

@[simp] theorem startCread_mem (s : State) (ag : Agent) (rq : Requester) (a rate : Nat) :
    ((startCread s ag rq a rate).stateFrom s).mem = s.mem := by
  unfold startCread
  dsimp only
  repeat' split
  all_goals simp
  next ht => exact linkIssue_mem ht

@[simp] theorem accessNow_wf (s : State) (ch : Chan) (d : Desc) (w : EngineWait) (op : EngineOp) (hw : Memory.wf s.mem) :
    Memory.wf ((accessNow s ch d w op).stateFrom s).mem := by
  unfold accessNow
  cases op <;> simp [hw]

@[simp] theorem tryAccess_wf (s : State) (ch : Chan) (d : Desc) (w : EngineWait) (hw : Memory.wf s.mem) :
    Memory.wf (tryAccess s ch d w).1.mem := by
  unfold tryAccess
  dsimp only
  split
  · exact hw
  next op _ =>
    have ha := accessNow_wf s ch d w op hw
    split
    · exact hw
    · split
      · exact hw
      next ht => simpa [ht] using ha
      next ht => simpa [ht] using ha

@[simp] theorem startReads_wf (ch : Chan) (d : Desc) (s : State) (l : List EngineWait) (hw : Memory.wf s.mem) :
    Memory.wf (startReads ch d s l).1.mem := by
  induction l generalizing s with
  | nil => exact hw
  | cons w r ih => simpa [startReads] using ih _ (tryAccess_wf s ch d w hw)

@[simp] theorem failWaits_mem (s : State) (ch : Chan) (serial key st : Nat) : (failWaits s ch serial key st).mem = s.mem := by
  simp [failWaits]

@[simp] theorem startWrites_wf (ch : Chan) (d : Desc) (key found rd wr : Nat) (ws : List EngineWait) (s : State)
    (hw : Memory.wf s.mem) :
    Memory.wf (startWrites ch d key found rd wr ws s).mem := by
  unfold startWrites
  extract_lets step r st
  have hr : Memory.wf r.1.mem := by
    refine foldl_fst_wf _ _ _ (fun x w hx => ?_) hw
    dsimp only [step]
    split
    next ht => simpa using wf_of_fst (tryAccess_wf x.1 ch d w hx) ht
    next ht =>
      have h1 := wf_of_fst (tryAccess_wf x.1 ch d w hx) ht
      exact wf_ite (by rwa [countDma_mem]) h1
  exact wf_ite hr (by simpa using hr)

@[simp] theorem startCodec_wf (s : State) (ch : Chan) (d : Desc) (g : Nat) (hw : Memory.wf s.mem) :
    Memory.wf (startCodec s ch d g).1.mem := by
  unfold startCodec
  dsimp only
  repeat' split
  all_goals simp [hw]

@[simp] theorem countBlocks_mem (s : State) (ch : Chan) (serial n : Nat) : (countBlocks s ch serial n).mem = s.mem := by
  simp [countBlocks]

@[simp] theorem encodeBeats_wf (ch : Chan) (d : Desc) (rs : List EngineWait) (s : State) (hw : Memory.wf s.mem) :
    Memory.wf (encodeBeats ch d rs s).mem := by
  unfold encodeBeats
  dsimp only
  split
  · exact hw
  next r0 l =>
    refine wf_ite (startWrites_wf _ _ _ _ _ _ _ _ hw) (foldl_wf _ _ _ (fun t r ht => ?_) (by simpa using hw))
    exact wf_ite (by simpa using ht) (startWrites_wf _ _ _ _ _ _ _ _ ht)

@[simp] theorem decodeBeats_wf (ch : Chan) (d : Desc) (rs : List EngineWait) (s : State) (hw : Memory.wf s.mem) :
    Memory.wf (decodeBeats ch d rs s).mem := by
  unfold decodeBeats
  dsimp only
  split
  · exact hw
  next r0 l =>
    refine wf_ite (wf_ite ?_ ?_) (foldl_wf _ _ _ (fun t r ht => wf_ite ?_ ?_) (by simpa using hw))
    all_goals simp [*]

@[simp] theorem copyPiece_wf (ch : Chan) (d : Desc) (p : Piece) (rs : List EngineWait) (s : State) (hw : Memory.wf s.mem) :
    Memory.wf (copyPiece ch d p rs s).mem := by
  unfold copyPiece
  dsimp only
  repeat' split
  all_goals simp [hw]

@[simp] theorem comparePiece_mem (ch : Chan) (d : Desc) (p : Piece) (rs : List EngineWait) (s : State) :
    (comparePiece ch d p rs s).mem = s.mem := by
  unfold comparePiece
  dsimp only
  repeat' split
  all_goals simp

@[simp] theorem finishPiece_wf (s : State) (ch : Chan) (d : Desc) (key : Nat) (hw : Memory.wf s.mem) :
    Memory.wf (finishPiece s ch d key).mem := by
  unfold finishPiece
  dsimp only
  repeat' split
  all_goals simp [hw]

@[simp] theorem pumpPieces_wf (s : State) (ch : Chan) (serial : Nat) (hw : Memory.wf s.mem) :
    Memory.wf (pumpPieces s ch serial).mem := by
  unfold pumpPieces
  split
  · exact hw
  · refine foldl_wf _ _ _ (fun t k ht => ?_) hw
    split
    · exact ht
    · exact wf_ite ht (finishPiece_wf _ _ _ _ ht)

/-! ### The life of a descriptor (R268 to R275, R280 to R286) -/

@[simp] theorem syncStat_wf (s0 s : State) (ch : Chan) (hw : Memory.wf s.mem) : Memory.wf (syncStat s0 s ch).mem := by
  unfold syncStat
  repeat' split
  all_goals simp [*, writeLocal_wf]

@[simp] theorem settleAbort_mem (s : State) (ch : Chan) : (settleAbort s ch).mem = s.mem := by
  unfold settleAbort
  dsimp only
  repeat' split
  all_goals simp

@[simp] theorem finishDesc_wf (s : State) (ch : Chan) (d : Desc) (hw : Memory.wf s.mem) :
    Memory.wf (finishDesc s ch d).mem := by
  unfold finishDesc
  dsimp only
  repeat' split
  all_goals simp [*, writeLocal_wf]

@[simp] theorem completeHead_wf (s : State) (ch : Chan) (hw : Memory.wf s.mem) : Memory.wf (completeHead s ch).mem := by
  unfold completeHead
  split
  · exact hw
  next d _ _ =>
    refine wf_ite hw (wf_ite (finishDesc_wf _ _ _ hw) (wf_ite hw ?_))
    split
    · exact finishDesc_wf _ _ _ hw
    · extract_lets w
      split
      next ht =>
        rw [modDesc_mem]
        exact wf_of_fst (tryAccess_wf s ch _ w hw) ht
      next ht =>
        have h1 := wf_of_fst (tryAccess_wf s ch _ w hw) ht
        exact wf_ite (finishDesc_wf _ _ _ (by rwa [countDma_mem])) (finishDesc_wf _ _ _ h1)

@[simp] theorem takeDesc_wf (s : State) (ch : Chan) (q : Option Nat) (w : List DWord) (pz : Bool) (hw : Memory.wf s.mem) :
    Memory.wf (takeDesc s ch q w pz).mem := by
  unfold takeDesc
  dsimp only
  repeat' split
  all_goals simp [hw]

@[simp] theorem tileFault_mem (s : State) (c k : Nat) : (tileFault s c k).mem = s.mem := by simp [tileFault]

@[simp] theorem execDescriptorFetch_wf (ch : Chan) (s : State) (hw : Memory.wf s.mem) : KeepsWf (execDescriptorFetch ch s) := by
  unfold execDescriptorFetch
  dsimp only
  repeat' split
  case h_2.isFalse.isFalse =>
    exact (keepsWf_next _).mpr (syncStat_wf _ _ _ (takeDesc_wf _ _ _ _ _ (writeLocal_wf _ _ _ _ (by simpa using hw))))
  all_goals simp [hw]

@[simp] theorem beginDesc_mem (s : State) (ch : Chan) : (beginDesc s ch).mem = s.mem := by
  unfold beginDesc
  dsimp only
  repeat' split
  all_goals simp

@[simp] theorem execTriggerFire_wf (ch : Chan) (s : State) (hw : Memory.wf s.mem) : KeepsWf (execTriggerFire ch s) := by
  unfold execTriggerFire
  split <;> simp [hw]

@[simp] theorem execPacePeriod_wf (ch : Chan) (s : State) (hw : Memory.wf s.mem) : KeepsWf (execPacePeriod ch s) := by
  unfold execPacePeriod
  split <;> simp [hw]

@[simp] theorem noteIssue_mem (s : State) (ch : Chan) (serial n beats : Nat) (ws : List EngineWait) :
    (noteIssue s ch serial n beats ws).mem = s.mem := by
  simp [noteIssue]

@[simp] theorem startPiece_wf (s : State) (ch : Chan) (d : Desc) (n : Nat) (ws : List EngineWait) (hw : Memory.wf s.mem) :
    Memory.wf (startPiece s ch d n ws).mem := by
  unfold startPiece
  dsimp only
  repeat' split
  all_goals simp [hw]

theorem issuePiece_wf {s t : State} {ch : Chan} {d : Desc} (hw : Memory.wf s.mem) (ht : issuePiece s ch d = some t) :
    Memory.wf t.mem := by
  have hr := startReads_wf ch d s (pieceReads s d (pieceAt d.words d.next)) hw
  have hc := startCodec_wf s ch d (codecPlan s d) hw
  unfold issuePiece at ht
  dsimp only at ht
  repeat' split at ht
  all_goals cases ht
  all_goals simp [*]

@[simp] theorem issueLoop_wf (ch : Chan) (serial n : Nat) (s : State) (hw : Memory.wf s.mem) :
    Memory.wf (issueLoop ch serial n s).mem := by
  induction n generalizing s with
  | zero => exact hw
  | succ n ih =>
    unfold issueLoop
    split
    next t ht =>
      obtain ⟨d, -, hd⟩ := Option.bind_eq_some_iff.mp ht
      exact ih t (issuePiece_wf hw hd)
    · exact hw

@[simp] theorem endIssue_mem (s : State) (ch : Chan) (serial : Nat) : (endIssue s ch serial).mem = s.mem := by simp [endIssue]

@[simp] theorem engineAnswer_wf (s : State) (ch : Chan) (serial piece slot : Nat) (bytes : List Byte) (status : Nat)
    (hw : Memory.wf s.mem) :
    Memory.wf (engineAnswer s ch serial piece slot bytes status).mem := by
  unfold engineAnswer
  dsimp only
  repeat' split
  all_goals simp [hw]

@[simp] theorem serveWait_wf (s : State) (ch : Chan) (serial piece slot : Nat) (hw : Memory.wf s.mem) :
    Memory.wf (serveWait s ch serial piece slot).mem := by
  unfold serveWait
  split
  · exact hw
  next d _ =>
    split
    · exact hw
    next w _ =>
      have ha := tryAccess_wf s ch d w hw
      split
      next ht => simpa using wf_of_fst ha ht
      next ht =>
        have h1 := wf_of_fst ha ht
        split
        · exact foldl_wf _ _ _ (fun u x hu => engineAnswer_wf u _ _ _ _ _ _ hu) h1
        · exact engineAnswer_wf _ _ _ _ _ _ _ h1

@[simp] theorem serveWaits_wf (s : State) (ch : Chan) (hw : Memory.wf s.mem) : Memory.wf (serveWaits s ch).mem :=
  foldl_wf _ _ _ (fun t _ ht => serveWait_wf t ch _ _ _ ht) hw

@[simp] theorem execDescriptorComplete_wf (ch : Chan) (s : State) (hw : Memory.wf s.mem) :
    KeepsWf (execDescriptorComplete ch s) :=
  (keepsWf_when _ _ _ hw).mpr fun _ => syncStat_wf _ _ _ (completeHead_wf _ _ (serveWaits_wf _ _ hw))

@[simp] theorem runPieces_wf (s : State) (ch : Chan) (op : Nat) (hw : Memory.wf s.mem) : Memory.wf (runPieces s ch op).mem := by
  unfold runPieces
  dsimp only
  repeat' split
  all_goals simp [hw]

@[simp] theorem execCopy_wf (ch : Chan) (s : State) (hw : Memory.wf s.mem) : KeepsWf (execCopy ch s) :=
  (keepsWf_when _ _ _ hw).mpr fun _ => syncStat_wf _ _ _ (runPieces_wf _ _ _ hw)

@[simp] theorem execFill_wf (ch : Chan) (s : State) (hw : Memory.wf s.mem) : KeepsWf (execFill ch s) :=
  (keepsWf_when _ _ _ hw).mpr fun _ => syncStat_wf _ _ _ (runPieces_wf _ _ _ hw)

@[simp] theorem execCompare_wf (ch : Chan) (s : State) (hw : Memory.wf s.mem) : KeepsWf (execCompare ch s) :=
  (keepsWf_when _ _ _ hw).mpr fun _ => syncStat_wf _ _ _ (runPieces_wf _ _ _ hw)

@[simp] theorem execNop_wf (ch : Chan) (s : State) (hw : Memory.wf s.mem) : KeepsWf (execNop ch s) :=
  (keepsWf_when _ _ _ hw).mpr fun _ => syncStat_wf _ _ _ (runPieces_wf _ _ _ hw)

@[simp] theorem abortChan_mem (s : State) (ch : Chan) : (abortChan s ch).mem = s.mem := by
  unfold abortChan
  split <;> simp

@[simp] theorem dmaCtlWrite_mem (s : State) (i n : Nat) (v : Word) : (dmaCtlWrite s i n v).1.mem = s.mem := by
  simp [dmaCtlWrite, apply_ite State.mem]

@[simp] theorem execDmaChannelEnable_wf (o : Origin) (serai n : Nat) (s : State) (hw : Memory.wf s.mem) :
    KeepsWf (execDmaChannelEnable o serai n s) := by
  simp [execDmaChannelEnable, hw]

@[simp] theorem execDmaAbort_wf (o : Origin) (serai n : Nat) (s : State) (hw : Memory.wf s.mem) :
    KeepsWf (execDmaAbort o serai n s) := by
  simp [execDmaAbort, hw]

@[simp] theorem tdmaStart_wf (s : State) (c k : Nat) (hw : Memory.wf s.mem) : Memory.wf (tdmaStart s c k).mem := by
  unfold tdmaStart
  extract_lets off s1 ring dl bad s2 s3 s4
  have h3 : Memory.wf s3.mem :=
    writeLocal_wf _ _ _ _ (writeLocal_wf _ _ _ _ (by rwa [modChan_mem, demandRead_mem]))
  exact writeLocal_wf _ _ _ _ (wf_ite (by rwa [tileFault_mem]) h3)

@[simp] theorem tdmaEn_wf (old : Word) (s : State) (c k : Nat) (hw : Memory.wf s.mem) : Memory.wf (tdmaEn old s c k).mem := by
  unfold tdmaEn
  dsimp only
  repeat' split
  all_goals simp [hw]

@[simp] theorem tdmaCfgWrite_wf (s : State) (o : Origin) (c : Nat) (v : Word) (hw : Memory.wf s.mem) :
    Memory.wf (tdmaCfgWrite s o c v).1.mem := by
  simp [tdmaCfgWrite, hw]

@[simp] theorem execTdmaEnable_wf (o : Origin) (core c : Nat) (s : State) (hw : Memory.wf s.mem) :
    KeepsWf (execTdmaEnable o core c s) := by
  simp [execTdmaEnable, hw]

@[simp] theorem execTdmaDoorbell_wf (core c : Nat) (s : State) (hw : Memory.wf s.mem) :
    KeepsWf (execTdmaDoorbell core c s) := by
  simp [execTdmaDoorbell, hw]

/-! ### GATHER and the deadlines of channels (R276 to R279, R286, R293) -/

@[simp] theorem gtrRsvWrite_mem (s : State) (e : GatherEngine) (k : Nat) (v : Word) : (gtrRsvWrite s e k v).1.mem = s.mem := by
  unfold gtrRsvWrite
  dsimp only
  repeat' split
  all_goals simp

@[simp] theorem rowFailed_mem (s : State) (ch : Chan) (d : Desc) (i st who : Nat) :
    (rowFailed s ch d i st who).mem = s.mem := by
  simp [rowFailed]

@[simp] theorem writeRow_wf (s : State) (ch : Chan) (d : Desc) (i : Nat) (bs : List Byte) (pz : Bool) (hw : Memory.wf s.mem) :
    Memory.wf (writeRow s ch d i bs pz).mem := by
  simp [writeRow, hw]

@[simp] theorem rowIndex_wf (s : State) (ch : Chan) (d : Desc) (hw : Memory.wf s.mem) : Memory.wf (rowIndex s ch d).1.mem := by
  unfold rowIndex
  extract_lets i
  split
  · exact hw
  · split
    next ht => simpa using wf_of_fst (tryAccess_wf s ch d _ hw) ht
    next ht => simpa using wf_of_fst (tryAccess_wf s ch d _ hw) ht

@[simp] theorem rowTurned_mem (s : State) (ch : Chan) (d : Desc) : (rowTurned s ch d).mem = s.mem := by simp [rowTurned]

@[simp] theorem rowWaits_mem (s : State) (ch : Chan) (d : Desc) (i p : Nat) : (rowWaits s ch d i p).mem = s.mem := by
  simp [rowWaits]

theorem gatherRow_wf {s t : State} {ch : Chan} {d : Desc} (hw : Memory.wf s.mem) (ht : gatherRow s ch d = some t) :
    Memory.wf t.mem := by
  unfold gatherRow at ht
  dsimp only at ht
  split at ht
  · cases ht
  · split at ht
    · cases ht
    · split at ht
      next hx =>
        cases ht
        exact wf_of_fst (rowIndex_wf s ch d hw) hx
      next hx =>
        have h1 := wf_of_fst (rowIndex_wf s ch d hw) hx
        repeat' split at ht
        all_goals cases ht
        all_goals simp [h1]

@[simp] theorem gatherLoop_wf (ch : Chan) (serial n : Nat) (s : State) (hw : Memory.wf s.mem) :
    Memory.wf (gatherLoop ch serial n s).mem := by
  induction n generalizing s with
  | zero => exact hw
  | succ n ih =>
    unfold gatherLoop
    split
    next t ht =>
      obtain ⟨d, -, hd⟩ := Option.bind_eq_some_iff.mp ht
      exact ih t (gatherRow_wf hw hd)
    · exact hw

@[simp] theorem endGather_mem (s : State) (ch : Chan) (serial : Nat) : (endGather s ch serial).mem = s.mem := by
  unfold endGather
  repeat' split
  all_goals simp

@[simp] theorem execGather_wf (ch : Chan) (s : State) (hw : Memory.wf s.mem) : KeepsWf (execGather ch s) := by
  unfold execGather
  split
  · simpa using hw
  · refine (keepsWf_when _ _ _ hw).mpr fun _ => syncStat_wf _ _ _ ?_
    rw [endGather_mem]
    exact gatherLoop_wf _ _ _ _ (by rw [beginDesc_mem]; exact serveWaits_wf _ _ hw)

@[simp] theorem modRow_mem (s : State) (ch : Chan) (serial i : Nat) (f : GatherRow → GatherRow) :
    (modRow s ch serial i f).mem = s.mem := by
  simp [modRow]

@[simp] theorem dropRow_mem (s : State) (ch : Chan) (serial i : Nat) : (dropRow s ch serial i).mem = s.mem := by simp [dropRow]

@[simp] theorem dispatchRow_mem (s : State) (ch : Chan) (serial : Nat) (r : GatherRow) (pooled : Bool) :
    (dispatchRow s ch serial r pooled).mem = s.mem := by
  simp [dispatchRow]

@[simp] theorem execRowFetchDispatch_wf (ch : Chan) (s : State) (hw : Memory.wf s.mem) :
    KeepsWf (execRowFetchDispatch ch s) := by
  unfold execRowFetchDispatch
  repeat' split
  all_goals simp [*]

@[simp] theorem countBeat_mem (s : State) (r : GatherRow) : (countBeat s r).mem = s.mem := by
  unfold countBeat
  split <;> rfl

@[simp] theorem readLine_mem (s : State) (ch : Chan) (serial : Nat) (d : Desc) (r : GatherRow) (c : Nat × Nat) :
    (readLine s ch serial d r c).1.mem = s.mem := by
  have hr := engineRead_mem s (gatherAgent r) (.dma ch serial r.row 0) c.1 c.2 (dHint d.words)
  unfold readLine
  dsimp only
  split
  · rfl
  · split
    next ht =>
      simp only [ht, EngineRes.stateFrom_done] at hr
      split <;> simp [hr]
    · split <;> simp
    next ht => rfl

@[simp] theorem readLines_mem (ch : Chan) (serial i n : Nat) (s : State) : (readLines ch serial i n s).mem = s.mem := by
  induction n generalizing s with
  | zero => rfl
  | succ n ih =>
    unfold readLines
    split
    · rfl
    next d r _ =>
      split
      · rfl
      next c _ =>
        have hr := readLine_mem s ch serial d r c
        split
        next ht => simpa [ih, ht] using hr
        next ht => simpa [ht] using hr

@[simp] theorem settleRow_mem (s : State) (ch : Chan) (serial i : Nat) : (settleRow s ch serial i).mem = s.mem := by
  unfold settleRow
  repeat' split
  all_goals simp

@[simp] theorem finishRow_wf (s : State) (ch : Chan) (d : Desc) (r : GatherRow) (hw : Memory.wf s.mem) :
    Memory.wf (finishRow s ch d r).mem := by
  unfold finishRow
  dsimp only
  repeat' split
  all_goals simp [hw]

@[simp] theorem execRowFetchComplete_wf (e : GatherEngine) (k : Nat) (s : State) (hw : Memory.wf s.mem) :
    KeepsWf (execRowFetchComplete e k s) := by
  unfold execRowFetchComplete
  dsimp only
  repeat' split
  all_goals simp [hw]

@[simp] theorem cxlMaybeStore_wf (s : State) (a : LaneAccess) (hw : Memory.wf s.mem) : Memory.wf (cxlMaybeStore s a).mem := by
  unfold cxlMaybeStore
  repeat' split
  all_goals simp [*, writeMem_wf]

@[simp] theorem execCxlResponse_wf (core id : Nat) (a : CxlAnswer) (latency : Nat) (s : State) (hw : Memory.wf s.mem) :
    KeepsWf (execCxlResponse core id a latency s) := by
  unfold execCxlResponse
  repeat' split
  all_goals simp [*, writeMem_wf]

@[simp] theorem execCxlTimeout_wf (core id : Nat) (s : State) (hw : Memory.wf s.mem) : KeepsWf (execCxlTimeout core id s) := by
  unfold execCxlTimeout
  repeat' split
  all_goals simp [*]

@[simp] theorem triggerDeadline_mem (s : State) (ch : Chan) : (triggerDeadline s ch).mem = s.mem := by
  unfold triggerDeadline
  dsimp only
  repeat' split
  all_goals simp

@[simp] theorem cxlMaybeWrite_wf (s : State) (d : Desc) (w : EngineWait) (hw : Memory.wf s.mem) :
    Memory.wf (cxlMaybeWrite s d w).mem := by
  unfold cxlMaybeWrite
  repeat' split
  all_goals simp [*, writeData_wf]

@[simp] theorem waitDeadlines_wf (s : State) (ch : Chan) (d : Desc) (hw : Memory.wf s.mem) :
    Memory.wf (waitDeadlines s ch d).mem :=
  foldl_wf _ _ _ (fun t w ht => engineAnswer_wf _ _ _ _ _ _ _ (by simp [ht])) hw

@[simp] theorem rowDeadlines_mem (s : State) (ch : Chan) (d : Desc) : (rowDeadlines s ch d).mem = s.mem := by
  simp [rowDeadlines]

@[simp] theorem execDmaDeadline_wf (ch : Chan) (s : State) (hw : Memory.wf s.mem) : KeepsWf (execDmaDeadline ch s) := by
  have h1 : Memory.wf (triggerDeadline s ch).mem := by simpa using hw
  have h2 := foldl_wf _ (chan (triggerDeadline s ch) ch).descs _ (fun t d ht => waitDeadlines_wf t ch d ht) h1
  unfold execDmaDeadline
  dsimp only
  rw [keepsWf_when _ _ _ hw]
  refine fun _ => syncStat_wf _ _ _ (foldl_wf _ _ _ (fun t d ht => wf_ite (by simpa using ht) ht) ?_)
  rwa [foldl_mem _ _ _ fun t d => rowDeadlines_mem t ch d]

end Sys2Proof.Machine
end

section
/-! PROOFS. Commands keep the canonical form of memory: the Drover. -/

namespace Sys2Proof.Machine

/-! ### The Drover die (R371 to R378, R399) -/

@[simp] theorem modDrv_mem (s : State) (f : Drover → Drover) : (modDrv s f).mem = s.mem := rfl

@[simp] theorem drvRaise_mem (s : State) (src : Nat) (g : Bool) : (drvRaise s src g).mem = s.mem := by
  simp [drvRaise, apply_ite State.mem]

@[simp] theorem drvLog_mem (s : State) (status detail unit index : Nat) : (drvLog s status detail unit index).mem = s.mem := by
  unfold drvLog
  dsimp only
  repeat' split
  all_goals simp

@[simp] theorem forceOutputs_mem (s : State) : (forceOutputs s).mem = s.mem := by simp [forceOutputs, apply_ite State.mem]

@[simp] theorem enterSafe_mem (s : State) : (enterSafe s).mem = s.mem := by simp [enterSafe, apply_ite State.mem]

@[simp] theorem safeCause_mem (s : State) (c : Nat) : (safeCause s c).mem = s.mem := by simp [safeCause]

@[simp] theorem execRouteAccept_wf (n : Nat) (s : State) (hw : Memory.wf s.mem) : KeepsWf (execRouteAccept n s) := by
  unfold execRouteAccept
  dsimp only
  repeat' split
  all_goals simp [hw]

@[simp] theorem execLockstepMismatch_wf (s : State) (hw : Memory.wf s.mem) : KeepsWf (execLockstepMismatch s) := by
  simp [execLockstepMismatch, hw]

@[simp] theorem drvStart_wf (s : State) (x : DrvAccess) (hw : Memory.wf s.mem) : Memory.wf (drvStart s x).1.mem := by
  have hwr (bs pz) := engineWrite_wf s (drvAgent s) (.drover x.id) x.addr bs pz hw
  have hrd : Memory.wf ((engineRead s (drvAgent s) (.drover x.id) x.addr x.len false).stateFrom s).mem := by simpa using hw
  unfold drvStart
  dsimp only
  split
  · exact hw
  · split
    · exact hw
    · split
      · split <;> simp [hw]
      next ht =>
        split at ht
        next bs pz _ => simpa [ht] using hwr bs pz
        · simpa [ht] using hrd
      next ht =>
        split at ht
        next bs pz _ => simpa [ht] using hwr bs pz
        · simpa [ht] using hrd

@[simp] theorem modCsi_mem (s : State) (r : Nat) (f : Csi → Csi) : (modCsi s r f).mem = s.mem := rfl

@[simp] theorem modEth_mem (s : State) (p : Nat) (f : Eth → Eth) : (modEth s p f).mem = s.mem := rfl

@[simp] theorem drvWriteFailed_mem (s : State) (job : DrvJob) (index slot : Nat) (st : Byte) :
    (drvWriteFailed s job index slot st).mem = s.mem := by
  unfold drvWriteFailed
  split <;> simp

@[simp] theorem ethBackEnded_mem (s : State) (p ring : Nat) : (ethBackEnded s p ring).mem = s.mem := by
  simp [ethBackEnded, apply_ite State.mem]

@[simp] theorem csiRecorded_mem (s : State) (r : Nat) : (csiRecorded s r).mem = s.mem := by simp [csiRecorded]

@[simp] theorem drvWriteEnded_mem (s : State) (job : DrvJob) (index slot : Nat) (st : Byte) :
    (drvWriteEnded s job index slot st).mem = s.mem := by
  unfold drvWriteEnded
  repeat' split
  all_goals simp

@[simp] theorem drvAdd_wf (s : State) (job : DrvJob) (index slot a n : Nat) (w : Option (List Byte × Bool))
    (hw : Memory.wf s.mem) :
    Memory.wf (drvAdd s job index slot a n w).mem := by
  unfold drvAdd
  dsimp only
  repeat' split
  all_goals simp [hw]

@[simp] theorem drvWrite_wf (s : State) (job : DrvJob) (index slot a : Nat) (bs : List Byte) (pz : Bool)
    (hw : Memory.wf s.mem) :
    Memory.wf (drvWrite s job index slot a bs pz).mem :=
  foldl_wf _ _ _ (fun t _ ht => drvAdd_wf t job index slot _ _ _ ht) hw

@[simp] theorem drvTake_mem (s : State) (job : DrvJob) (index slot : Nat) : (drvTake s job index slot).1.mem = s.mem := by
  unfold drvTake
  dsimp only
  repeat' split
  all_goals simp

@[simp] theorem drvRead_wf (s : State) (job : DrvJob) (index slot g a n : Nat) (hw : Memory.wf s.mem) :
    Memory.wf (drvRead s job index slot g a n).1.mem := by
  unfold drvRead
  split
  · simpa using hw
  · rw [drvTake_mem]
    exact foldl_wf _ _ _ (fun t _ ht => drvAdd_wf t job index slot _ _ _ ht) hw

@[simp] theorem drvRetry_wf (s : State) (hw : Memory.wf s.mem) : Memory.wf (drvRetry s).mem := by
  refine foldl_wf _ _ _ (fun t x ht => ?_) hw
  split
  · exact ht
  · split
    next hy =>
      have h1 := wf_of_fst (drvStart_wf t x ht) hy
      split <;> simpa using h1

@[simp] theorem drvEnd_mem (s : State) (id : Nat) (bytes : List Byte) (st : Byte) : (drvEnd s id bytes st).mem = s.mem := by
  unfold drvEnd
  repeat' split
  all_goals simp

@[simp] theorem setTimeReady_mem (s : State) (v : Bool) : (setTimeReady s v).mem = s.mem := by
  unfold setTimeReady
  split <;> simp

@[simp] theorem execPtpSync_wf (offset : DWord) (adj : BitVec 16) (s : State) (hw : Memory.wf s.mem) :
    KeepsWf (execPtpSync offset adj s) := by
  unfold execPtpSync
  dsimp only
  repeat' split
  all_goals simp [hw]

@[simp] theorem execPtpSyncMiss_wf (s : State) (hw : Memory.wf s.mem) : KeepsWf (execPtpSyncMiss s) := by
  simp [execPtpSyncMiss, hw]

/-! ### CSI-2 ingest (R379 to R384, R409 to R414) -/

@[simp] theorem modFrame_mem (s : State) (r : Nat) (f : CsiRec → CsiRec) : (modFrame s r f).mem = s.mem := rfl

@[simp] theorem csiWriteLine_wf (s : State) (r n j : Nat) (payload : List Byte) (pz : Bool) (hw : Memory.wf s.mem) :
    Memory.wf (csiWriteLine s r n j payload pz).mem := by
  simp [csiWriteLine, hw]

@[simp] theorem csiClose_wf (s : State) (r : Nat) (stamp : DWord) (short : Bool) (hw : Memory.wf s.mem) :
    Memory.wf (csiClose s r stamp short).mem := by
  unfold csiClose
  split
  · simpa using hw
  · simpa using foldl_wf _ _ _ (fun t j ht => csiWriteLine_wf t r _ _ _ _ ht) hw

@[simp] theorem execCsiFrameStart_wf (r : Nat) (stamp : DWord) (s : State) (hw : Memory.wf s.mem) :
    KeepsWf (execCsiFrameStart r stamp s) := by
  unfold execCsiFrameStart
  dsimp only
  repeat' split
  all_goals simp [hw]

@[simp] theorem execCsiLongPacket_wf (r : Nat) (p : CsiPacket) (s : State) (hw : Memory.wf s.mem) :
    KeepsWf (execCsiLongPacket r p s) := by
  unfold execCsiLongPacket
  dsimp only
  repeat' split
  all_goals simp [hw]

@[simp] theorem execCsiFrameRecord_wf (r : Nat) (s : State) (hw : Memory.wf s.mem) : KeepsWf (execCsiFrameRecord r s) := by
  unfold execCsiFrameRecord
  dsimp only
  repeat' split
  all_goals simp [hw]

@[simp] theorem execCsiFsTimeout_wf (r : Nat) (s : State) (hw : Memory.wf s.mem) : KeepsWf (execCsiFsTimeout r s) := by
  simp [execCsiFsTimeout, hw]

@[simp] theorem csiCfgWrite_mem (s : State) (r : Nat) (v : Word) : (csiCfgWrite s r v).1.mem = s.mem := by
  unfold csiCfgWrite
  dsimp only
  repeat' split
  all_goals simp

@[simp] theorem execCsiLanesStopState_wf (r : Nat) (s : State) (hw : Memory.wf s.mem) :
    KeepsWf (execCsiLanesStopState r s) := by
  simp [execCsiLanesStopState, hw]

@[simp] theorem primerInject_wf (s : State) (r n : Nat) (ecc : HeaderEcc) (crcOk : Bool) (hw : Memory.wf s.mem) :
    Memory.wf (primerInject s r n ecc crcOk).mem := by
  simp [primerInject, hw]

@[simp] theorem execCsiFrameEnd_wf (r : Nat) (stamp : DWord) (ecc : HeaderEcc) (crcOk : Bool) (s : State)
    (hw : Memory.wf s.mem) :
    KeepsWf (execCsiFrameEnd r stamp ecc crcOk s) := by
  unfold execCsiFrameEnd
  dsimp only
  repeat' split
  all_goals simp [*, csiClose_wf, primerInject_wf]

@[simp] theorem execPrimerReadback_wf (r : Nat) (s : State) (hw : Memory.wf s.mem) : KeepsWf (execPrimerReadback r s) := by
  unfold execPrimerReadback
  repeat' split
  · simpa using hw
  · simpa using hw
  next ht => simpa using wf_of_fst (drvRead_wf s _ _ _ _ _ _ hw) ht
  next ht => simpa using wf_of_fst (drvRead_wf s _ _ _ _ _ _ hw) ht

@[simp] theorem execPrimerCheckComplete_wf (r : Nat) (s : State) (hw : Memory.wf s.mem) :
    KeepsWf (execPrimerCheckComplete r s) := by
  unfold execPrimerCheckComplete
  dsimp only
  repeat' split
  all_goals simp [hw]

@[simp] theorem prmCfgWrite_mem (s : State) (r : Nat) (v : Word) : (prmCfgWrite s r v).1.mem = s.mem := by
  unfold prmCfgWrite
  split <;> simp

/-! ### The Ethernet ports (R385 to R387, R407) -/

@[simp] theorem ethWriteBack_wf (s : State) (p : Nat) (b : EthBack) (hw : Memory.wf s.mem) :
    Memory.wf (ethWriteBack s p b).mem := by
  simp [ethWriteBack, hw]

@[simp] theorem rxDrop_mem (s : State) (p : Nat) : (rxDrop s p).mem = s.mem := rfl

@[simp] theorem rxFinish_wf (s : State) (p : Nat) (hw : Memory.wf s.mem) : Memory.wf (rxFinish s p).mem := by
  unfold rxFinish
  repeat' split
  all_goals simp [*]

@[simp] theorem rxStep_wf (n : Nat) (s : State) (p : Nat) (hw : Memory.wf s.mem) : Memory.wf (rxStep n s p).mem := by
  induction n generalizing s with
  | zero => exact hw
  | succ n ih =>
    have hf := rxFinish_wf s p hw
    unfold rxStep
    extract_lets t
    split
    · exact hf
    · extract_lets ring
      refine wf_ite hf (wf_ite (ih _ (by rwa [rxDrop_mem])) ?_)
      split
      next ht => exact wf_of_fst (drvRead_wf _ _ _ _ _ _ _ hf) ht
      next ht =>
        have h1 := wf_of_fst (drvRead_wf _ _ _ _ _ _ _ hf) ht
        extract_lets d w u
        refine wf_ite (ih _ ?_) (wf_ite (ih _ ?_) (wf_ite (ih _ ?_) (ih _ ?_)))
        · rwa [rxDrop_mem]
        · exact ethWriteBack_wf _ _ _ h1
        · rwa [rxDrop_mem]
        · exact drvWrite_wf _ _ _ _ _ _ _ h1

@[simp] theorem rxPump_wf (s : State) (p : Nat) (hw : Memory.wf s.mem) : Memory.wf (rxPump s p).mem := by
  unfold rxPump
  split <;> simp [hw]

@[simp] theorem execEthRxFrame_wf (p : Nat) (f : EthFrame) (s : State) (hw : Memory.wf s.mem) :
    KeepsWf (execEthRxFrame p f s) := by
  unfold execEthRxFrame
  repeat' split
  all_goals simp [*]

@[simp] theorem ethCtlWrite_mem (s : State) (p : Nat) (v : Word) : (ethCtlWrite s p v).1.mem = s.mem := by simp [ethCtlWrite]

@[simp] theorem ringCfgWrite_mem (s : State) (p ring : Nat) (v : Word) : (ringCfgWrite s p ring v).1.mem = s.mem := by
  simp [ringCfgWrite, apply_ite State.mem]

@[simp] theorem execEthRingEnable_wf (o : Origin) (p ring : Nat) (v : Word) (s : State) (hw : Memory.wf s.mem) :
    KeepsWf (execEthRingEnable o p ring v s) := by
  simp [execEthRingEnable, hw]

@[simp] theorem execEthTxDoorbell_wf (o : Origin) (p ring : Nat) (v : Word) (s : State) (hw : Memory.wf s.mem) :
    KeepsWf (execEthTxDoorbell o p ring v s) := by
  simp [execEthTxDoorbell, hw]

@[simp] theorem enterEntry_mem (s : State) (p e t : Nat) : (enterEntry s p e t).mem = s.mem := rfl

@[simp] theorem execGateEdge_wf (p : Nat) (s : State) (hw : Memory.wf s.mem) : KeepsWf (execGateEdge p s) := by
  simp [execGateEdge, hw]

@[simp] theorem execGclSwap_wf (p : Nat) (s : State) (hw : Memory.wf s.mem) : KeepsWf (execGclSwap p s) := by
  unfold execGclSwap
  dsimp only
  repeat' split
  all_goals simp [hw]

@[simp] theorem gclCtlWrite_mem (s : State) (p : Nat) (v : Word) : (gclCtlWrite s p v).1.mem = s.mem := by
  unfold gclCtlWrite
  dsimp only
  repeat' split
  all_goals simp

@[simp] theorem execGclEnable_wf (o : Origin) (p : Nat) (s : State) (hw : Memory.wf s.mem) : KeepsWf (execGclEnable o p s) := by
  simp [execGclEnable, hw]

@[simp] theorem execGclSwapArm_wf (o : Origin) (p : Nat) (s : State) (hw : Memory.wf s.mem) :
    KeepsWf (execGclSwapArm o p s) := by
  simp [execGclSwapArm, hw]

theorem txClass_wf {s t : State} {p c : Nat} {stamp : DWord} (hw : Memory.wf s.mem) (ht : txClass s p c stamp = some t) :
    Memory.wf t.mem := by
  unfold txClass at ht
  split at ht
  · cases ht
  · split at ht
    next hx =>
      cases ht
      exact wf_of_fst (drvRead_wf s _ _ _ _ _ _ hw) hx
    next hx =>
      have h1 := wf_of_fst (drvRead_wf s _ _ _ _ _ _ hw) hx
      extract_lets d w len at ht
      split at ht
      · cases ht
        simp [h1]
      · split at ht
        · cases ht
          simp [h1]
        · split at ht
          · cases ht
          · split at ht
            next hy =>
              cases ht
              exact wf_of_fst (drvRead_wf _ _ _ _ _ _ _ h1) hy
            next hy =>
              cases ht
              exact ethWriteBack_wf _ _ _ (wf_of_fst (drvRead_wf _ _ _ _ _ _ _ h1) hy)

@[simp] theorem txPick_wf (s : State) (p : Nat) (stamp : DWord) (n : Nat) (hw : Memory.wf s.mem) :
    Memory.wf (txPick s p stamp n).mem := by
  induction n with
  | zero => exact hw
  | succ n ih =>
    unfold txPick
    split
    next t ht => exact txClass_wf hw ht
    · exact ih

@[simp] theorem execEthTxFrame_wf (p : Nat) (stamp : DWord) (s : State) (hw : Memory.wf s.mem) :
    KeepsWf (execEthTxFrame p stamp s) := by
  simp [execEthTxFrame, hw]

@[simp] theorem execEthBlockLock_wf (p : Nat) (up : Bool) (s : State) (hw : Memory.wf s.mem) :
    KeepsWf (execEthBlockLock p up s) := by
  simp [execEthBlockLock, hw]

/-! ### The CAN FD ports (R374, R388, R408) -/

@[simp] theorem modCan_mem (s : State) (c : Nat) (f : Can → Can) : (modCan s c f).mem = s.mem := rfl

@[simp] theorem modMb_mem (s : State) (c m : Nat) (f : CanMb → CanMb) : (modMb s c m f).mem = s.mem := rfl

@[simp] theorem canArbitrate_mem (s : State) (c : Nat) : (canArbitrate s c).mem = s.mem := by
  unfold canArbitrate
  repeat' split
  all_goals simp

@[simp] theorem canLeave_mem (s : State) (c : Nat) : (canLeave s c).mem = s.mem := rfl

@[simp] theorem canCount_mem (s : State) (c tec rec : Nat) : (canCount s c tec rec).mem = s.mem := rfl

@[simp] theorem canComplete_mem (s : State) (c m : Nat) (st : Byte) : (canComplete s c m st).mem = s.mem := by
  simp [canComplete]

@[simp] theorem canPayload_wf (s : State) (c m : Nat) (hw : Memory.wf s.mem) : Memory.wf (canPayload s c m).mem := by
  unfold canPayload
  split
  · exact hw
  · refine wf_ite hw ?_
    split
    next ht => exact wf_of_fst (drvRead_wf s _ _ _ _ _ _ hw) ht
    next ht =>
      have h1 := wf_of_fst (drvRead_wf s _ _ _ _ _ _ hw) ht
      exact wf_ite (by rwa [canComplete_mem]) (by rwa [canArbitrate_mem, modMb_mem])

@[simp] theorem canCtlWrite_wf (s : State) (c m : Nat) (v : Word) (hw : Memory.wf s.mem) :
    Memory.wf (canCtlWrite s c m v).1.mem := by
  unfold canCtlWrite
  dsimp only
  repeat' split
  all_goals simp [hw]

@[simp] theorem execCanMbReq_wf (o : Origin) (c m : Nat) (s : State) (hw : Memory.wf s.mem) :
    KeepsWf (execCanMbReq o c m s) := by
  simp [execCanMbReq, hw]

@[simp] theorem execCanMbLaunch_wf (c m : Nat) (s : State) (hw : Memory.wf s.mem) : KeepsWf (execCanMbLaunch c m s) := by
  unfold execCanMbLaunch
  split <;> simp [hw]

@[simp] theorem execCanTxDone_wf (c m errs : Nat) (s : State) (hw : Memory.wf s.mem) : KeepsWf (execCanTxDone c m errs s) := by
  unfold execCanTxDone
  split <;> simp [hw]

@[simp] theorem execCanMbTimeout_wf (c m : Nat) (s : State) (hw : Memory.wf s.mem) : KeepsWf (execCanMbTimeout c m s) := by
  unfold execCanMbTimeout
  split <;> simp [hw]

@[simp] theorem canShow_mem (s : State) (c : Nat) : (canShow s c).mem = s.mem := by
  have hf (t : State) (w : Nat → Word) : (List.foldl (fun t i => setReg t (Reg.drvCanRxfData c i) (w i)) t (List.range 16)).mem = t.mem :=
    foldl_mem _ _ _ fun t i => setReg_mem t _ _
  unfold canShow
  dsimp only
  split <;> simp [hf _ fun i => _]

@[simp] theorem execCanRxFrame_wf (c : Nat) (f : CanFrame) (errs : Nat) (s : State) (hw : Memory.wf s.mem) :
    KeepsWf (execCanRxFrame c f errs s) := by
  unfold execCanRxFrame
  dsimp only
  repeat' split
  all_goals simp [hw]

@[simp] theorem canPopWrite_mem (s : State) (c : Nat) (v : Word) : (canPopWrite s c v).1.mem = s.mem := by
  unfold canPopWrite
  split <;> simp

@[simp] theorem execCanRxPop_wf (o : Origin) (c : Nat) (s : State) (hw : Memory.wf s.mem) : KeepsWf (execCanRxPop o c s) := by
  simp [execCanRxPop, hw]

@[simp] theorem canEnWrite_mem (s : State) (c : Nat) (v : Word) : (canEnWrite s c v).1.mem = s.mem := by
  simp [canEnWrite, apply_ite State.mem]

@[simp] theorem execCanBusIntegration_wf (c : Nat) (s : State) (hw : Memory.wf s.mem) :
    KeepsWf (execCanBusIntegration c s) := by
  simp [execCanBusIntegration, hw]

@[simp] theorem execCanBusOff_wf (c : Nat) (s : State) (hw : Memory.wf s.mem) : KeepsWf (execCanBusOff c s) := by
  simp [execCanBusOff, hw]

@[simp] theorem execCanBusOffRecovery_wf (c : Nat) (s : State) (hw : Memory.wf s.mem) :
    KeepsWf (execCanBusOffRecovery c s) := by
  simp [execCanBusOffRecovery, hw]

@[simp] theorem drvPump_wf (s : State) (hw : Memory.wf s.mem) : Memory.wf (drvPump s).mem := by
  have h : Memory.wf (drvRetry s).mem := drvRetry_wf s hw
  unfold drvPump
  exact foldl_wf _ _ _ (fun t c ht => foldl_wf _ _ _ (fun u e hu => canPayload_wf u c _ hu) ht) (rxPump_wf _ _ (rxPump_wf _ _ h))

@[simp] theorem idle_wf (s : State) (hw : Memory.wf s.mem) : Memory.wf (idle s).mem := by simp [idle, hw]

@[simp] theorem droverAnswer_wf (s : State) (id : Nat) (bytes : List Byte) (st : Nat) (hw : Memory.wf s.mem) :
    Memory.wf (droverAnswer s id bytes st).mem := by
  simp [droverAnswer, hw]

@[simp] theorem drvMaybeWrite_wf (s : State) (x : DrvAccess) (hw : Memory.wf s.mem) : Memory.wf (drvMaybeWrite s x).mem := by
  unfold drvMaybeWrite
  repeat' split
  all_goals simp [*, writeData_wf]

@[simp] theorem execDrvMemDeadline_wf (k : Nat) (s : State) (hw : Memory.wf s.mem) : KeepsWf (execDrvMemDeadline k s) := by
  unfold execDrvMemDeadline
  split
  · simpa using hw
  · refine (keepsWf_when _ _ _ hw).mpr fun _ => droverAnswer_wf _ _ _ _ ?_
    rw [linkForget_mem]
    exact drvMaybeWrite_wf _ _ hw

end Sys2Proof.Machine
end

section
/-! PROOFS. Commands keep the canonical form of memory: scalar instructions and field equipment. -/

namespace Sys2Proof.Machine

/-! ### Scalar arithmetic (R91 to R93) -/

@[simp] theorem writeRd_wf (s : State) (h : Hart) (srcs : List GReg) (rd : GReg) (v : Word) (hw : Memory.wf s.mem) :
    KeepsWf (writeRd s h srcs rd v) := by
  simp [writeRd, hw]

/-! ### Control transfers and register windows (R50 to R57, R90, R95) -/

@[simp] theorem branchIf_wf (s : State) (h : Hart) (rs1 rs2 : GReg) (c : Bool) (disp : BitVec 13) (hw : Memory.wf s.mem) :
    KeepsWf (branchIf s h rs1 rs2 c disp) := by
  unfold branchIf
  split <;> simp [hw]

@[simp] theorem execJmp_wf (h : Hart) (disp : BitVec 25) (s : State) (hw : Memory.wf s.mem) : KeepsWf (execJmp h disp s) := by
  simp [execJmp, hw]

@[simp] theorem execCall_wf (h : Hart) (disp : BitVec 25) (s : State) (hw : Memory.wf s.mem) : KeepsWf (execCall h disp s) := by
  simp [execCall, hw]

@[simp] theorem windowCall_mem (s : State) (h : Hart) (target : Word) : (windowCall s h target).state.mem = s.mem := by
  unfold windowCall
  dsimp only
  repeat' split
  all_goals simp [*]

@[simp] theorem execCallw_wf (h : Hart) (disp : BitVec 25) (s : State) (hw : Memory.wf s.mem) :
    KeepsWf (execCallw h disp s) := by
  simp [execCallw, hw]

@[simp] theorem execDbnz_wf (h : Hart) (rc : GReg) (disp : BitVec 22) (s : State) (hw : Memory.wf s.mem) :
    KeepsWf (execDbnz h rc disp s) := by
  unfold execDbnz
  dsimp only
  have hi := issue_wf s h (firstTrap s [(rc == 0, trapIllegal (insnWord (.dbnz h rc disp)))]
    (.ok (if greg s h rc - 1 = 0 then retire (setGreg s h rc (greg s h rc - 1)) h
      else retireTo (setGreg s h rc (greg s h rc - 1)) h (branchTarget (thr s h).pc disp)))) hw
    (firstTrap_wf _ _ _ hw (wf_ite (by simpa using hw) (by simpa using hw)))
  split
  · exact hi
  · exact follow_wf _ _ _ _ _ _ _ hw hi

@[simp] theorem execJr_wf (h : Hart) (rs1 : GReg) (s : State) (hw : Memory.wf s.mem) : KeepsWf (execJr h rs1 s) := by
  have hi := issue_wf s h (firstTrap s [(greg s h rs1 &&& 3 != 0, trapMisaligned (greg s h rs1))]
    (.ok (retireTo s h (greg s h rs1)))) hw (firstTrap_wf _ _ _ hw (by simpa using hw))
  unfold execJr
  dsimp only
  split
  · exact follow_wf _ _ _ _ _ _ _ hw hi
  · exact hi

@[simp] theorem execCallr_wf (h : Hart) (rs1 : GReg) (s : State) (hw : Memory.wf s.mem) : KeepsWf (execCallr h rs1 s) := by
  have hi := issue_wf s h (firstTrap s [(greg s h rs1 &&& 3 != 0, trapMisaligned (greg s h rs1))]
    (.ok (retireTo (setGreg s h 15 ((thr s h).pc + 4)) h (greg s h rs1)))) hw (firstTrap_wf _ _ _ hw (by simpa using hw))
  unfold execCallr
  dsimp only
  split
  · exact follow_wf _ _ _ _ _ _ _ hw hi
  · exact hi

@[simp] theorem execCallwr_wf (h : Hart) (rs1 : GReg) (s : State) (hw : Memory.wf s.mem) : KeepsWf (execCallwr h rs1 s) := by
  simp [execCallwr, hw]

@[simp] theorem execRetw_wf (h : Hart) (s : State) (hw : Memory.wf s.mem) : KeepsWf (execRetw h s) := by simp [execRetw, hw]

/-! ### Field supply, inputs, encoders, ADCs and outputs (R389 to R400, R404 to R406) -/

@[simp] theorem showInvalid_mem (s : State) : (showInvalid s).mem = s.mem := by
  unfold showInvalid
  dsimp only
  rw [foldl_mem _ _ _ fun t a => setFlag_mem t _ _ _, foldl_mem _ _ _ fun t a => setFlag_mem t _ _ _]

@[simp] theorem setVfield_mem (s : State) (st : Nat) : (setVfield s st).mem = s.mem := by simp [setVfield, apply_ite State.mem]

@[simp] theorem dinSettle_mem (s : State) : (dinSettle s).mem = s.mem := rfl

@[simp] theorem execVfieldSample_wf (mv : BitVec 16) (s : State) (hw : Memory.wf s.mem) : KeepsWf (execVfieldSample mv s) := by
  unfold execVfieldSample
  extract_lets v inBand since held st st' s1
  refine (keepsWf_when _ _ _ hw).mpr fun _ => ?_
  rwa [dinSettle_mem, showInvalid_mem, forceOutputs_mem, setVfield_mem, modDrv_mem, setFld_mem]

@[simp] theorem dinStick_mem (s : State) (i : Nat) : (dinStick s i).mem = s.mem := by simp [dinStick]

@[simp] theorem dinRecord_mem (s : State) (ev : DinEvent) : (dinRecord s ev).mem = s.mem := by
  simp [dinRecord, apply_ite State.mem]

@[simp] theorem dinOn_mem (s : State) (i : Nat) : (dinOn s i).mem = s.mem := by simp [dinOn, apply_ite State.mem]

@[simp] theorem execDinChange_wf (i : Nat) (raw : Bool) (stamp : DWord) (s : State) (hw : Memory.wf s.mem) :
    KeepsWf (execDinChange i raw stamp s) := by
  unfold execDinChange
  dsimp only
  repeat' split
  all_goals simp [hw]

@[simp] theorem execDinStormWindowEnd_wf (s : State) (hw : Memory.wf s.mem) : KeepsWf (execDinStormWindowEnd s) := by
  simp [execDinStormWindowEnd, hw]

@[simp] theorem execDinHighmax_wf (i : Nat) (s : State) (hw : Memory.wf s.mem) : KeepsWf (execDinHighmax i s) := by
  simp [execDinHighmax, hw]

@[simp] theorem execDinOpen_wf (i : Nat) (s : State) (hw : Memory.wf s.mem) : KeepsWf (execDinOpen i s) := by
  simp [execDinOpen, hw]

@[simp] theorem execDinOpenClear_wf (i : Nat) (s : State) (hw : Memory.wf s.mem) : KeepsWf (execDinOpenClear i s) := by
  simp [execDinOpenClear, hw]

@[simp] theorem dinWrite_mem (s : State) (off : Nat) (v : Word) : (dinWrite s off v).1.mem = s.mem := by simp [dinWrite]

@[simp] theorem dinEvtRead_mem (s : State) : (dinEvtRead s).1.mem = s.mem := by
  unfold dinEvtRead
  split <;> rfl

@[simp] theorem execDinEvtRead_wf (s : State) (hw : Memory.wf s.mem) : KeepsWf (execDinEvtRead s) := by
  simp [execDinEvtRead, hw]

@[simp] theorem setEncLevels_mem (s : State) (e : Nat) (a b : Bool) : (setEncLevels s e a b).mem = s.mem := rfl

@[simp] theorem execEncoderEdge_wf (e : Nat) (a b : Bool) (since : DWord) (s : State) (hw : Memory.wf s.mem) :
    KeepsWf (execEncoderEdge e a b since s) := by
  unfold execEncoderEdge
  dsimp only
  repeat' split
  all_goals simp [hw]

@[simp] theorem execEncoderZEdge_wf (e : Nat) (stamp : DWord) (s : State) (hw : Memory.wf s.mem) :
    KeepsWf (execEncoderZEdge e stamp s) := by
  simp [execEncoderZEdge, hw]

@[simp] theorem execEncoderOpen_wf (e : Nat) (s : State) (hw : Memory.wf s.mem) : KeepsWf (execEncoderOpen e s) := by
  simp [execEncoderOpen, hw]

@[simp] theorem execEncPosWrite_wf (o : Origin) (e : Nat) (v : Word) (s : State) (hw : Memory.wf s.mem) :
    KeepsWf (execEncPosWrite o e v s) := by
  simp [execEncPosWrite, hw]

@[simp] theorem encZtimeRead_mem (s : State) (e : Nat) : (encZtimeRead s e).1.mem = s.mem := rfl

@[simp] theorem execEncZtimeRead_wf (e : Nat) (s : State) (hw : Memory.wf s.mem) : KeepsWf (execEncZtimeRead e s) := by
  simp [execEncZtimeRead, hw]

@[simp] theorem snaptWrite_mem (s : State) (v : Word) : (snaptWrite s v).1.mem = s.mem := by simp [snaptWrite]

@[simp] theorem execSnaptArm_wf (o : Origin) (v : Word) (s : State) (hw : Memory.wf s.mem) : KeepsWf (execSnaptArm o v s) := by
  simp [execSnaptArm, hw]

@[simp] theorem execEncoderSnapshot_wf (s : State) (hw : Memory.wf s.mem) : KeepsWf (execEncoderSnapshot s) := by
  unfold execEncoderSnapshot
  dsimp only
  rw [keepsWf_when _ _ _ hw, drvRaise_mem, setFlag_mem, setFlag_mem, foldl_mem _ _ _ fun t a => setReg_mem t _ _]
  exact fun _ => hw

@[simp] theorem modAdc_mem (s : State) (a : Nat) (f : Adc → Adc) : (modAdc s a f).mem = s.mem := rfl

@[simp] theorem adcStore_wf (s : State) (a : Nat) (t : DWord) (v : BitVec 16) (hw : Memory.wf s.mem) :
    Memory.wf (adcStore s a t v).mem := by
  unfold adcStore
  dsimp only
  repeat' split
  all_goals simp [hw]

@[simp] theorem adcWindow_mem (s : State) (a : Nat) (v : BitVec 16) : (adcWindow s a v).mem = s.mem := by
  simp [adcWindow, apply_ite State.mem]

@[simp] theorem execAdcSample_wf (microunits : List ℤ) (s : State) (hw : Memory.wf s.mem) :
    KeepsWf (execAdcSample microunits s) := by
  unfold execAdcSample
  dsimp only
  rw [keepsWf_when _ _ _ hw]
  refine fun _ => foldl_wf _ _ _ (fun t a ht => adcStore_wf _ _ _ _ ?_) (by simpa using hw)
  simpa using ht

@[simp] theorem adcStart_mem (s : State) : (adcStart s).mem = s.mem := rfl

@[simp] theorem adcCtlWrite_mem (s : State) (v : Word) : (adcCtlWrite s v).1.mem = s.mem := by
  simp [adcCtlWrite, apply_ite State.mem]

@[simp] theorem adcTimeWrite_mem (s : State) (off : Nat) (v : Word) : (adcTimeWrite s off v).1.mem = s.mem := by
  simp [adcTimeWrite, apply_ite State.mem]

@[simp] theorem execAdcRun_wf (o : Origin) (s : State) (hw : Memory.wf s.mem) : KeepsWf (execAdcRun o s) := by
  simp [execAdcRun, hw]

@[simp] theorem adcCfgWrite_mem (s : State) (a : Nat) (v : Word) : (adcCfgWrite s a v).1.mem = s.mem := by
  simp [adcCfgWrite, apply_ite State.mem]

@[simp] theorem execAdcEnable_wf (o : Origin) (a : Nat) (s : State) (hw : Memory.wf s.mem) : KeepsWf (execAdcEnable o a s) := by
  simp [execAdcEnable, hw]

@[simp] theorem execAdcOverrange_wf (a : Nat) (s : State) (hw : Memory.wf s.mem) : KeepsWf (execAdcOverrange a s) := by
  simp [execAdcOverrange, hw]

@[simp] theorem execAdcShuntReconnect_wf (a : Nat) (s : State) (hw : Memory.wf s.mem) :
    KeepsWf (execAdcShuntReconnect a s) := by
  unfold execAdcShuntReconnect
  split <;> simp [hw]

@[simp] theorem execAdcOpen_wf (a : Nat) (s : State) (hw : Memory.wf s.mem) : KeepsWf (execAdcOpen a s) := by
  simp [execAdcOpen, hw]

@[simp] theorem modDout_mem (s : State) (o : Nat) (f : Dout → Dout) : (modDout s o f).mem = s.mem := rfl

@[simp] theorem doutFault_mem (s : State) (o b detail : Nat) : (doutFault s o b detail).mem = s.mem := by simp [doutFault]

@[simp] theorem doutTrip_mem (s : State) (o b detail : Nat) : (doutTrip s o b detail).mem = s.mem := by simp [doutTrip]

@[simp] theorem execDoutShortTrip_wf (n : Nat) (s : State) (hw : Memory.wf s.mem) : KeepsWf (execDoutShortTrip n s) := by
  simp [execDoutShortTrip, hw]

@[simp] theorem execDoutOvertemp_wf (n : Nat) (s : State) (hw : Memory.wf s.mem) : KeepsWf (execDoutOvertemp n s) := by
  simp [execDoutOvertemp, hw]

@[simp] theorem execDoutReadback_wf (n : Nat) (pinMv vfMv : ℤ) (openFor10ms : Bool) (s : State) (hw : Memory.wf s.mem) :
    KeepsWf (execDoutReadback n pinMv vfMv openFor10ms s) := by
  unfold execDoutReadback
  dsimp only
  repeat' split
  all_goals simp [hw]

@[simp] theorem execDoutRetry_wf (n : Nat) (s : State) (hw : Memory.wf s.mem) : KeepsWf (execDoutRetry n s) := by
  simp [execDoutRetry, hw]

@[simp] theorem execDoutTestPulse_wf (n : Nat) (pinMv : ℤ) (s : State) (hw : Memory.wf s.mem) :
    KeepsWf (execDoutTestPulse n pinMv s) := by
  unfold execDoutTestPulse
  split <;> simp [hw]

@[simp] theorem doutStatWrite_mem (s : State) (n : Nat) (v : Word) : (doutStatWrite s n v).1.mem = s.mem := by
  simp [doutStatWrite, apply_ite State.mem]

@[simp] theorem doutCfgWrite_mem (s : State) (n : Nat) (v : Word) : (doutCfgWrite s n v).1.mem = s.mem := by
  unfold doutCfgWrite
  dsimp only
  repeat' split
  all_goals simp

@[simp] theorem rearmWrite_mem (s : State) (v : Word) : (rearmWrite s v).1.mem = s.mem := by
  unfold rearmWrite
  dsimp only
  refine mem_fst_ite ((foldl_mem _ _ _ fun t o => ?_).trans (setW1s_mem _ _ _)) (setW1s_mem _ _ _)
  split <;> rfl

@[simp] theorem execRearm_wf (o : Origin) (s : State) (hw : Memory.wf s.mem) : KeepsWf (execRearm o s) := by
  simp [execRearm, hw]

/-! ### Twin execution, watchdogs and the e-stop path (R415 to R422) -/

@[simp] theorem setTwin_mem (s : State) (k : Nat) (t : Twin) : (setTwin s k t).mem = s.mem := rfl

@[simp] theorem twinFault_mem (s : State) (k status detail : Nat) : (twinFault s k status detail).mem = s.mem := by
  simp [twinFault]

@[simp] theorem twinCompare_mem (s : State) (k : Nat) : (twinCompare s k).mem = s.mem := by
  unfold twinCompare
  dsimp only
  repeat' split
  all_goals simp

@[simp] theorem twinWrite_mem (s : State) (o : Origin) (k : Nat) (sideB : Bool) (digest : Word) :
    (twinWrite s o k sideB digest).1.mem = s.mem := by
  unfold twinWrite
  dsimp only
  repeat' split
  all_goals simp

@[simp] theorem execTwinSubmit_wf (o : Origin) (k : Nat) (sideB : Bool) (digest : Word) (s : State) (hw : Memory.wf s.mem) :
    KeepsWf (execTwinSubmit o k sideB digest s) := by
  simp [execTwinSubmit, hw]

@[simp] theorem execTwinSkewTimeout_wf (k : Nat) (s : State) (hw : Memory.wf s.mem) : KeepsWf (execTwinSkewTimeout k s) := by
  simp [execTwinSkewTimeout, hw]

@[simp] theorem twinCfgWrite_mem (s : State) (k : Nat) (v : Word) : (twinCfgWrite s k v).1.mem = s.mem := by
  simp [twinCfgWrite, apply_ite State.mem]

@[simp] theorem execTwinDisable_wf (o : Origin) (k : Nat) (s : State) (hw : Memory.wf s.mem) :
    KeepsWf (execTwinDisable o k s) := by
  simp [execTwinDisable, hw]

@[simp] theorem setWdog_mem (s : State) (n : Nat) (w : Wdog) : (setWdog s n w).mem = s.mem := rfl

@[simp] theorem wdogMiss_mem (s : State) (n detail : Nat) : (wdogMiss s n detail).mem = s.mem := by simp [wdogMiss]

@[simp] theorem wdCfgWrite_mem (s : State) (n : Nat) (v : Word) : (wdCfgWrite s n v).1.mem = s.mem := by
  unfold wdCfgWrite
  dsimp only
  repeat' split
  all_goals simp

@[simp] theorem execWatchdogArm_wf (o : Origin) (n : Nat) (s : State) (hw : Memory.wf s.mem) :
    KeepsWf (execWatchdogArm o n s) := by
  simp [execWatchdogArm, hw]

@[simp] theorem wdKickWrite_mem (s : State) (o : Origin) (n : Nat) (v : Word) : (wdKickWrite s o n v).1.mem = s.mem := by
  unfold wdKickWrite
  dsimp only
  repeat' split
  all_goals simp

@[simp] theorem execWatchdogKick_wf (o : Origin) (n : Nat) (v : Word) (s : State) (hw : Memory.wf s.mem) :
    KeepsWf (execWatchdogKick o n v s) := by
  simp [execWatchdogKick, hw]

@[simp] theorem execWatchdogExpire_wf (n : Nat) (s : State) (hw : Memory.wf s.mem) : KeepsWf (execWatchdogExpire n s) := by
  simp [execWatchdogExpire, hw]

@[simp] theorem wdOpenWrite_mem (s : State) (n : Nat) (v : Word) : (wdOpenWrite s n v).1.mem = s.mem := by
  unfold wdOpenWrite
  split <;> simp

@[simp] theorem stopSample_mem (s : State) (a b : Bool) : (stopSample s a b).mem = s.mem := rfl

@[simp] theorem execEstopDemand_wf (a b : Bool) (s : State) (hw : Memory.wf s.mem) : KeepsWf (execEstopDemand a b s) := by
  unfold execEstopDemand
  dsimp only
  repeat' split
  all_goals simp [hw]

@[simp] theorem execEstopDiscrepancy_wf (s : State) (hw : Memory.wf s.mem) : KeepsWf (execEstopDiscrepancy s) := by
  unfold execEstopDiscrepancy
  split <;> simp [hw]

@[simp] theorem estopCfgWrite_mem (s : State) (v : Word) : (estopCfgWrite s v).1.mem = s.mem := by
  simp [estopCfgWrite, apply_ite State.mem]

@[simp] theorem safeMapWrite_mem (s : State) (off : Nat) (v : Word) : (safeMapWrite s off v).1.mem = s.mem := by
  simp [safeMapWrite]

@[simp] theorem estopStatWrite_mem (s : State) (v : Word) : (estopStatWrite s v).1.mem = s.mem := rfl

/-! ### Scalar fixed point (R77 to R82) -/

@[simp] theorem satAddRd_wf (s : State) (h : Hart) (rd : GReg) (w : Nat) (v : ℤ) (hw : Memory.wf s.mem) :
    KeepsWf (satAddRd s h rd w v) := by
  simp [satAddRd, hw]

@[simp] theorem narrowRd_wf (s : State) (h : Hart) (rd : GReg) (v : ℤ) (d w : Nat) (hw : Memory.wf s.mem) :
    KeepsWf (narrowRd s h rd v d w) := by
  simp [narrowRd, hw]

@[simp] theorem setAcc_mem (s : State) (h : Hart) (v : BitVec 40) : (setAcc s h v).mem = s.mem := rfl

@[simp] theorem accAdd_wf (s : State) (h : Hart) (p : ℤ) (hw : Memory.wf s.mem) : KeepsWf (accAdd s h p) := by simp [accAdd, hw]

@[simp] theorem execAclr_wf (h : Hart) (s : State) (hw : Memory.wf s.mem) : KeepsWf (execAclr h s) := by simp [execAclr, hw]

@[simp] theorem execAmovw_wf (h : Hart) (rs1 rs2 : GReg) (s : State) (hw : Memory.wf s.mem) :
    KeepsWf (execAmovw h rs1 rs2 s) := by
  simp [execAmovw, hw]

end Sys2Proof.Machine
end

section
/-! PROOFS. Commands keep the canonical form of memory: kernels, the host, links, resets and registers. -/

namespace Sys2Proof.Machine

/-! ### Core resets and kernels (R86, R130 to R132, R332 to R334, R433) -/

@[simp] theorem parkThread_wf (s : State) (h : Hart) (hw : Memory.wf s.mem) : Memory.wf (parkThread s h).mem := by
  unfold parkThread
  dsimp only
  repeat' split
  all_goals simp [hw]

@[simp] theorem parkCore_wf (s : State) (c : Nat) (hw : Memory.wf s.mem) : Memory.wf (parkCore s c).mem := by
  unfold parkCore
  dsimp only
  rw [modCore_mem, ledgerCore_mem]
  exact foldl_wf _ _ _ (fun t i ht => parkThread_wf t _ ht) hw

@[simp] theorem parkCores_wf (s : State) (cs : List Nat) (hw : Memory.wf s.mem) : Memory.wf (parkCores s cs).mem :=
  foldl_wf _ _ _ (fun t c ht => parkCore_wf t c ht) hw

@[simp] theorem tdmaOff_wf (s : State) (c : Nat) (hw : Memory.wf s.mem) : Memory.wf (tdmaOff s c).mem := by simp [tdmaOff, hw]

@[simp] theorem flushFailures_mem (s : State) (c : Nat) : (flushFailures s c).mem = s.mem := by
  refine foldl_mem _ _ _ fun t i => ?_
  dsimp only
  split <;> simp

@[simp] theorem takeSlots_mem (s : State) (c : Nat) : (takeSlots s c).mem = s.mem := by simp [takeSlots, apply_ite State.mem]

@[simp] theorem startThread_mem (s : State) (c t : Nat) : (startThread s c t).mem = s.mem := by
  unfold startThread
  split <;> rfl

@[simp] theorem releaseCore_mem (s : State) (c : Nat) : (releaseCore s c).mem = s.mem := by
  simp [releaseCore, apply_ite State.mem]

@[simp] theorem landingReset_mem (s : State) (c : Nat) : (landingReset s c).mem = s.mem := by simp [landingReset]

@[simp] theorem wipeCore_mem (s : State) (c : Nat) (halts : Bool) : (wipeCore s c halts).mem = s.mem := rfl

@[simp] theorem beginCoreReset_wf (s : State) (c : Nat) (j : CoreResetJob) (hw : Memory.wf s.mem) :
    Memory.wf (beginCoreReset s c j).mem := by
  unfold beginCoreReset
  split <;> simp [hw]

@[simp] theorem coreRstDone_mem (s : State) (status : Nat) : (coreRstDone s status).mem = s.mem := rfl

@[simp] theorem releaseResident_mem (s : State) (c : Nat) : (releaseResident s c).mem = s.mem := by
  unfold releaseResident
  split <;> simp

@[simp] theorem execCoreResetComplete_wf (core : Nat) (s : State) (hw : Memory.wf s.mem) :
    KeepsWf (execCoreResetComplete core s) := by
  unfold execCoreResetComplete
  dsimp only
  repeat' split
  all_goals simp [*, zeroMem_wf]

@[simp] theorem coreRstGo_wf (s : State) (c op : Nat) (hw : Memory.wf s.mem) : Memory.wf (coreRstGo s c op).mem := by
  unfold coreRstGo
  repeat' split
  all_goals simp [*]

@[simp] theorem coreRstWrite_wf (s : State) (o : Origin) (v : Word) (hw : Memory.wf s.mem) :
    Memory.wf (coreRstWrite s o v).1.mem := by
  unfold coreRstWrite
  dsimp only
  repeat' split
  all_goals simp [hw]

@[simp] theorem coreRstCommand_wf (o : Origin) (c op : Nat) (s : State) (hw : Memory.wf s.mem) :
    KeepsWf (coreRstCommand o c op s) := by
  simp [coreRstCommand, hw]

@[simp] theorem execCoreReset_wf (o : Origin) (core : Nat) (s : State) (hw : Memory.wf s.mem) :
    KeepsWf (execCoreReset o core s) := by
  simp [execCoreReset, hw]

@[simp] theorem execCoreRelease_wf (o : Origin) (core : Nat) (s : State) (hw : Memory.wf s.mem) :
    KeepsWf (execCoreRelease o core s) := by
  simp [execCoreRelease, hw]

@[simp] theorem execCoreResetRelease_wf (o : Origin) (core : Nat) (s : State) (hw : Memory.wf s.mem) :
    KeepsWf (execCoreResetRelease o core s) := by
  simp [execCoreResetRelease, hw]

@[simp] theorem regionWrite_wf (s : State) (o : Origin) (v : Word) (hw : Memory.wf s.mem) :
    Memory.wf (regionWrite s o v).1.mem :=
  foldl_wf _ _ _ (fun t c ht => beginCoreReset_wf t c _ ht) hw

@[simp] theorem execRegionReset_wf (o : Origin) (v : Word) (s : State) (hw : Memory.wf s.mem) :
    KeepsWf (execRegionReset o v s) := by
  simp [execRegionReset, hw]

@[simp] theorem setKernel_mem (s : State) (n : Nat) (k : Kernel) : (setKernel s n k).mem = s.mem := rfl

@[simp] theorem execDispatch_wf (q : Nat) (s : State) (hw : Memory.wf s.mem) : KeepsWf (execDispatch q s) := by
  unfold execDispatch
  dsimp only
  repeat' split
  all_goals simp [hw]

@[simp] theorem kernelCore_mem (s : State) (c : Nat) : (kernelCore s c).mem = s.mem := by simp [kernelCore]

@[simp] theorem execKernelStart_wf (rect : Nat) (s : State) (hw : Memory.wf s.mem) : KeepsWf (execKernelStart rect s) := by
  unfold execKernelStart
  split <;> simp [hw]

@[simp] theorem kernelDone_wf (s : State) (c : Nat) (hw : Memory.wf s.mem) : Memory.wf (kernelDone s c).mem := by
  unfold kernelDone
  dsimp only
  repeat' split
  all_goals simp [hw]

@[simp] theorem execKernelDoneReport_wf (core : Nat) (s : State) (hw : Memory.wf s.mem) :
    KeepsWf (execKernelDoneReport core s) := by
  simp [execKernelDoneReport, hw]

@[simp] theorem endKernel_wf (s : State) (rect : Nat) (k : Kernel) (hw : Memory.wf s.mem) :
    Memory.wf (endKernel s rect k).mem := by
  have hf : Memory.wf (flushRecords ((rectCores s rect).foldl flushFailures s) k.ctx).mem :=
    flushRecords_wf _ _ (by rwa [foldl_mem _ _ _ flushFailures_mem])
  unfold endKernel
  dsimp only
  refine wf_ite hw ?_
  split <;> exact completeControl_wf _ _ _ _ _ hf

@[simp] theorem execDispatchComplete_wf (rect : Nat) (s : State) (hw : Memory.wf s.mem) :
    KeepsWf (execDispatchComplete rect s) := by
  unfold execDispatchComplete
  split <;> simp [hw]

@[simp] theorem execDispatchTimeout_wf (rect : Nat) (s : State) (hw : Memory.wf s.mem) :
    KeepsWf (execDispatchTimeout rect s) := by
  unfold execDispatchTimeout
  dsimp only
  repeat' split
  all_goals simp [*, endKernel_wf, parkCores_wf]

/-! ### Contexts, queues, doorbells and error rings (R312 to R349) -/

@[simp] theorem execErrorRecordWrite_wf (s : State) (hw : Memory.wf s.mem) : KeepsWf (execErrorRecordWrite s) := by
  unfold execErrorRecordWrite
  repeat' split
  all_goals simp [*]

@[simp] theorem lookUpEntry_mem (u src : Nat) (held : Bool) (s : State) (i : Nat) :
    (lookUpEntry u src held s i).mem = s.mem := by
  unfold lookUpEntry
  extract_lets off w1 a rec3
  refine mem_ite rfl ?_
  split
  · simp
  · rw [setFlag_mem, setFld_mem, foldl_mem _ _ _ fun t o => logError_mem t _, logError_mem]

@[simp] theorem alertAtSerai_mem (s : State) (m : Msg) : (alertAtSerai s m).mem = s.mem := by
  unfold alertAtSerai
  dsimp only
  repeat' split
  all_goals simp

@[simp] theorem ctxLast_mem (s : State) (c st : Nat) : (ctxLast s c st).mem = s.mem := rfl

@[simp] theorem setCtxState_mem (s : State) (c st : Nat) : (setCtxState s c st).mem = s.mem := rfl

@[simp] theorem clearLedger_mem (s : State) (c : Nat) : (clearLedger s c).mem = s.mem := rfl

@[simp] theorem ctxCreate_mem (s : State) (c : Nat) : (ctxCreate s c).mem = s.mem := by simp [ctxCreate, apply_ite State.mem]

@[simp] theorem killQueue_mem (s : State) (q : Nat) : (killQueue s q).mem = s.mem := by simp [killQueue, apply_ite State.mem]

@[simp] theorem killCore_wf (s : State) (c : Nat) (hw : Memory.wf s.mem) : Memory.wf (killCore s c).mem := by
  simp [killCore, hw]

@[simp] theorem ctxKill_wf (s : State) (c : Nat) (hw : Memory.wf s.mem) : Memory.wf (ctxKill s c).mem := by
  unfold ctxKill
  extract_lets s1 s2 s3
  refine wf_ite (by simpa using hw) ?_
  refine foldl_wf _ _ _ (fun t c ht => killCore_wf t c ht) ?_
  rw [foldl_mem _ _ _ killQueue_mem, ctxLast_mem, setCtxState_mem]
  exact hw

@[simp] theorem execContextQuiesced_wf (c : Nat) (s : State) (hw : Memory.wf s.mem) : KeepsWf (execContextQuiesced c s) := by
  have hf : Memory.wf (flushRecords ((ctxCores s c).foldl flushFailures s) c).mem :=
    flushRecords_wf _ _ (by rwa [foldl_mem _ _ _ flushFailures_mem])
  unfold execContextQuiesced
  dsimp only
  rw [keepsWf_when _ _ _ hw, setCtxState_mem]
  exact fun _ => wf_ite (changeEvent_wf _ _ hf) (flushEvents_wf _ hf)

@[simp] theorem ctxFree_wf (s : State) (c : Nat) (hw : Memory.wf s.mem) : Memory.wf (ctxFree s c).mem := by
  unfold ctxFree
  extract_lets cores qs evs s1
  refine wf_ite (by simpa using hw) ?_
  rw [clearLedger_mem]
  exact foldl_wf _ _ _ (fun t c ht => beginCoreReset_wf t c _ ht) hw

@[simp] theorem ctxCfgWrite_wf (s : State) (o : Origin) (c : Nat) (v : Word) (hw : Memory.wf s.mem) :
    Memory.wf (ctxCfgWrite s o c v).1.mem := by
  unfold ctxCfgWrite
  dsimp only
  repeat' split
  all_goals simp [hw]

@[simp] theorem ctxRectsWrite_mem (s : State) (c : Nat) (v : Word) : (ctxRectsWrite s c v).1.mem = s.mem := by
  unfold ctxRectsWrite
  split <;> simp

@[simp] theorem ctxCommand_wf (o : Origin) (c b : Nat) (s : State) (hw : Memory.wf s.mem) : KeepsWf (ctxCommand o c b s) := by
  simp [ctxCommand, hw]

@[simp] theorem moCfgWrite_mem (s : State) (m : Nat) (v : Word) : (moCfgWrite s m v).1.mem = s.mem := by
  unfold moCfgWrite
  dsimp only
  repeat' split
  all_goals simp

@[simp] theorem moWordWrite_mem (s : State) (m off : Nat) (v : Word) : (moWordWrite s m off v).1.mem = s.mem := by
  unfold moWordWrite
  split <;> simp

@[simp] theorem execMoValidate_wf (o : Origin) (m : Nat) (v : Word) (s : State) (hw : Memory.wf s.mem) :
    KeepsWf (execMoValidate o m v s) := by
  simp [execMoValidate, hw]

@[simp] theorem execMoRemove_wf (o : Origin) (m : Nat) (s : State) (hw : Memory.wf s.mem) : KeepsWf (execMoRemove o m s) := by
  simp [execMoRemove, hw]

@[simp] theorem isoWrite_mem (s : State) (v : Word) : (isoWrite s v).1.mem = s.mem := by
  unfold isoWrite
  split <;> simp

@[simp] theorem execIsoWrite_wf (o : Origin) (v : Word) (s : State) (hw : Memory.wf s.mem) : KeepsWf (execIsoWrite o v s) := by
  simp [execIsoWrite, hw]

@[simp] theorem queueStart_mem (s : State) (q : Nat) : (queueStart s q).mem = s.mem := by
  unfold queueStart
  split <;> rfl

@[simp] theorem queueStop_mem (s : State) (q : Nat) : (queueStop s q).mem = s.mem := by simp [queueStop, apply_ite State.mem]

@[simp] theorem qCfgWrite_mem (s : State) (q : Nat) (v : Word) : (qCfgWrite s q v).1.mem = s.mem := by
  unfold qCfgWrite
  dsimp only
  repeat' split
  all_goals simp

@[simp] theorem execQueueEnable_wf (o : Origin) (q : Nat) (v : Word) (s : State) (hw : Memory.wf s.mem) :
    KeepsWf (execQueueEnable o q v s) := by
  simp [execQueueEnable, hw]

@[simp] theorem execQueueDisable_wf (o : Origin) (q : Nat) (s : State) (hw : Memory.wf s.mem) :
    KeepsWf (execQueueDisable o q s) := by
  simp [execQueueDisable, hw]

@[simp] theorem execSweep_wf (s : State) (hw : Memory.wf s.mem) : KeepsWf (execSweep s) := by simp [execSweep, hw]

@[simp] theorem haltQueue_mem (s : State) (q status who : Nat) : (haltQueue s q status who).mem = s.mem := rfl

@[simp] theorem takeDoorbell_mem (l : Nat) (s : State) (x : Nat × Word) : (takeDoorbell l s x).mem = s.mem := by
  simp [takeDoorbell, apply_ite State.mem]

@[simp] theorem execSweepReadReturn_wf (line : Nat) (words : List Word) (s : State) (hw : Memory.wf s.mem) :
    KeepsWf (execSweepReadReturn line words s) := by
  unfold execSweepReadReturn
  split <;> simp [hw]

@[simp] theorem execSweepReadTimeout_wf (line : Nat) (s : State) (hw : Memory.wf s.mem) :
    KeepsWf (execSweepReadTimeout line s) := by
  unfold execSweepReadTimeout
  split <;> simp [hw]

@[simp] theorem execRingFetchReturn_wf (q : Nat) (slots : List (List DWord)) (s : State) (hw : Memory.wf s.mem) :
    KeepsWf (execRingFetchReturn q slots s) := by
  simp [execRingFetchReturn, hw]

@[simp] theorem execRingReadTimeout_wf (q : Nat) (s : State) (hw : Memory.wf s.mem) : KeepsWf (execRingReadTimeout q s) := by
  simp [execRingReadTimeout, hw]

@[simp] theorem ctlStart_wf (s : State) (q op : Nat) (k : List DWord → Host.Outcome State Fault Refusal)
    (hw : Memory.wf s.mem) (hk : ∀ l, KeepsWf (k l)) :
    KeepsWf (ctlStart s q op k) := by
  unfold ctlStart
  repeat' split
  all_goals simp [hw, hk]

@[simp] theorem execEvsignal_wf (q : Nat) (s : State) (hw : Memory.wf s.mem) : KeepsWf (execEvsignal q s) :=
  ctlStart_wf _ _ _ _ hw fun _ => (keepsWf_next _).mpr (completeControl_wf _ _ _ _ _ (changeEvent_wf _ _ hw))

@[simp] theorem execEvwait_wf (q : Nat) (s : State) (hw : Memory.wf s.mem) : KeepsWf (execEvwait q s) := by
  unfold execEvwait
  split
  · split <;> simp [hw]
  · refine ctlStart_wf _ _ _ _ hw fun e => ?_
    extract_lets t
    have ht : Memory.wf t.mem := flushEvents_wf s hw
    split <;> simp [ht]

@[simp] theorem execEvwaitTimeout_wf (q : Nat) (s : State) (hw : Memory.wf s.mem) : KeepsWf (execEvwaitTimeout q s) := by
  unfold execEvwaitTimeout
  split <;> simp [hw]

@[simp] theorem execEvreset_wf (q : Nat) (s : State) (hw : Memory.wf s.mem) : KeepsWf (execEvreset q s) :=
  ctlStart_wf _ _ _ _ hw fun _ => (keepsWf_next _).mpr (completeControl_wf _ _ _ _ _ (changeEvent_wf _ _ hw))

@[simp] theorem ledgerTry_wf (q c : Nat) (x : State × List LedgerLine) (y : LedgerLine) (hw : Memory.wf x.1.mem) :
    Memory.wf (ledgerTry q c x y).1.mem := by
  unfold ledgerTry
  dsimp only
  split
  · exact hw
  · split
    · exact hw
    · have he := engineWrite_wf x.1 ⟨.serai 0, ctxTag x.1 c⟩ (.queue q x.2.length) y.phys y.bytes false hw
      split
      · exact hw
      next ht => simpa [ht] using he
      next ht => simpa [ht] using he

@[simp] theorem ledgerServe_wf (s : State) (q : Nat) (hw : Memory.wf s.mem) : Memory.wf (ledgerServe s q).mem := by
  unfold ledgerServe
  split
  · exact ledgerSettle_wf _ _ (foldl_fst_wf _ _ _ (fun x y hx => ledgerTry_wf _ _ x y hx) hw)
  · exact hw

@[simp] theorem execLedger_wf (q : Nat) (s : State) (hw : Memory.wf s.mem) : KeepsWf (execLedger q s) := by
  unfold execLedger
  split
  · split <;> simp [hw]
  · refine ctlStart_wf _ _ _ _ hw fun e => ?_
    extract_lets c a
    split
    · extract_lets
      repeat' split
      all_goals simp [hw]
    · simp [hw]
    · simp [hw]

@[simp] theorem evsigWrite_mem (s : State) (src : Nat) (v : Word) : (evsigWrite s src v).1.mem = s.mem := by
  unfold evsigWrite
  dsimp only
  repeat' split
  all_goals simp

@[simp] theorem execSraEvsigWrite_wf (core : Nat) (v : Word) (s : State) (hw : Memory.wf s.mem) :
    KeepsWf (execSraEvsigWrite core v s) := by
  simp [execSraEvsigWrite, hw]

@[simp] theorem execEventChange_wf (s : State) (hw : Memory.wf s.mem) : KeepsWf (execEventChange s) := by
  unfold execEventChange
  split <;> simp [hw]

@[simp] theorem evWrite_wf (s : State) (e : Nat) (v : Word) (hw : Memory.wf s.mem) : Memory.wf (evWrite s e v).1.mem := by
  unfold evWrite
  dsimp only
  repeat' split
  all_goals simp [hw]

@[simp] theorem execEvReset_wf (o : Origin) (e : Nat) (s : State) (hw : Memory.wf s.mem) : KeepsWf (execEvReset o e s) := by
  simp [execEvReset, hw]

@[simp] theorem msixCtrlWrite_mem (s : State) (n : Nat) (v : Word) : (msixCtrlWrite s n v).1.mem = s.mem := by
  unfold msixCtrlWrite
  dsimp only
  repeat' split
  all_goals simp

/-! ### Training, frames, replay and accesses of other chips (R350 to R370) -/

@[simp] theorem syncDone_mem (s : State) (i b : Nat) : (syncDone s i b).mem = s.mem := by
  unfold syncDone
  split <;> simp

@[simp] theorem sendSyncs_mem (s : State) (i b : Nat) : (sendSyncs s i b).mem = s.mem := by
  unfold sendSyncs
  extract_lets s1
  exact mem_ite (foldl_mem _ _ _ fun t l => giveFrame_mem t i b l 3 0 []) rfl

@[simp] theorem noteLive_mem (s : State) (i b : Nat) : (noteLive s i b).mem = s.mem := by simp [noteLive]

@[simp] theorem setLinkState_mem (s : State) (i l st gen : Nat) : (setLinkState s i l st gen).mem = s.mem := by
  unfold setLinkState
  split <;> simp

@[simp] theorem linkFail_mem (s : State) (i l status : Nat) : (linkFail s i l status).mem = s.mem := by simp [linkFail]

@[simp] theorem linkRetrain_mem (s : State) (i l : Nat) : (linkRetrain s i l).mem = s.mem := by
  unfold linkRetrain
  split <;> simp

@[simp] theorem linkCtlWrite_mem (s : State) (i l : Nat) (v : Word) : (linkCtlWrite s i l v).1.mem = s.mem := by
  unfold linkCtlWrite
  dsimp only
  repeat' split
  all_goals simp

@[simp] theorem execLinkEnable_wf (o : Origin) (serai l : Nat) (s : State) (hw : Memory.wf s.mem) :
    KeepsWf (execLinkEnable o serai l s) := by
  simp [execLinkEnable, hw]

@[simp] theorem execLinkTrainingEnd_wf (serai l : Nat) (r : TrainResult) (s : State) (hw : Memory.wf s.mem) :
    KeepsWf (execLinkTrainingEnd serai l r s) := by
  unfold execLinkTrainingEnd
  dsimp only
  repeat' split
  all_goals simp [hw]

@[simp] theorem execRetrain_wf (serai l : Nat) (s : State) (hw : Memory.wf s.mem) : KeepsWf (execRetrain serai l s) := by
  simp [execRetrain, hw]

@[simp] theorem execRetrainAttemptEnd_wf (serai l : Nat) (ok : Bool) (s : State) (hw : Memory.wf s.mem) :
    KeepsWf (execRetrainAttemptEnd serai l ok s) := by
  unfold execRetrainAttemptEnd
  dsimp only
  repeat' split
  all_goals simp [hw]

@[simp] theorem execTrainFrame_wf (serai l : Nat) (_chip _link : BitVec 6) (_gen : BitVec 2) (s : State)
    (hw : Memory.wf s.mem) :
    KeepsWf (execTrainFrame serai l _chip _link _gen s) := by
  simp [execTrainFrame, hw]

@[simp] theorem answerRequester_wf (s : State) (rq : Requester) (bytes : List Byte) (status : Nat) (hw : Memory.wf s.mem) :
    Memory.wf (answerRequester s rq bytes status).mem := by
  unfold answerRequester
  split
  · exact hw
  · refine wf_ite ?_ (engineAnswer_wf _ _ _ _ _ _ _ hw)
    split
    · exact hw
    · exact foldl_wf _ _ _ (fun t w ht => engineAnswer_wf t _ _ _ _ _ _ ht) hw
  · simp [hw]
  · simp [hw]
  · exact hw

@[simp] theorem loseBundle_wf (s : State) (i b : Nat) (hw : Memory.wf s.mem) : Memory.wf (loseBundle s i b).mem := by
  unfold loseBundle
  dsimp only
  rw [sendAlert_mem]
  exact foldl_wf _ _ _ (fun t e ht => answerRequester_wf t _ _ _ ht) (by simpa using hw)

@[simp] theorem execBundleLost_wf (serai b : Nat) (s : State) (hw : Memory.wf s.mem) : KeepsWf (execBundleLost serai b s) := by
  unfold execBundleLost
  split <;> simp [hw]

@[simp] theorem bndCfgWrite_mem (s : State) (i b : Nat) (v : Word) : (bndCfgWrite s i b v).1.mem = s.mem := by
  unfold bndCfgWrite
  dsimp only
  repeat' split
  all_goals simp

@[simp] theorem execResync_wf (o : Origin) (serai b : Nat) (s : State) (hw : Memory.wf s.mem) :
    KeepsWf (execResync o serai b s) := by
  simp [execResync, hw]

@[simp] theorem badFrame_mem (s : State) (i l : Nat) (crc : Bool) : (badFrame s i l crc).mem = s.mem := by
  simp [badFrame, apply_ite State.mem]

@[simp] theorem ackFrames_mem (s : State) (i b : Nat) (a : BitVec 16) : (ackFrames s i b a).mem = s.mem := rfl

@[simp] theorem resendFrame_mem (i b : Nat) (x : State × List SentFrame) (f : SentFrame) :
    (resendFrame i b x f).1.mem = x.1.mem := by
  unfold resendFrame
  repeat' split
  all_goals simp [*]

@[simp] theorem replayFrames_mem (s : State) (i b : Nat) : (replayFrames s i b).mem = s.mem := by simp [replayFrames]

@[simp] theorem noteGap_mem (s : State) (i b : Nat) (gap : Bool) : (noteGap s i b gap).mem = s.mem := rfl

@[simp] theorem receive_wf (s : State) (i l kind : Nat) (bs : List Byte) (k : Frame → State) (hw : Memory.wf s.mem)
    (hk : ∀ f, Memory.wf (k f).mem) :
    KeepsWf (receive s i l kind bs k) := by
  unfold receive
  repeat' split
  all_goals simp [*]

@[simp] theorem takeData_mem (s : State) (i l : Nat) (f : Frame) : (takeData s i l f).mem = s.mem := by
  simp [takeData, apply_ite State.mem]

@[simp] theorem execDataFrame_wf (serai l : Nat) (frame : List Byte) (s : State) (hw : Memory.wf s.mem) :
    KeepsWf (execDataFrame serai l frame s) := by
  unfold execDataFrame
  split <;> simp [hw]

@[simp] theorem takeNull_mem (s : State) (i l : Nat) (f : Frame) : (takeNull s i l f).mem = s.mem := by simp [takeNull]

@[simp] theorem execNullFrame_wf (serai l : Nat) (frame : List Byte) (s : State) (hw : Memory.wf s.mem) :
    KeepsWf (execNullFrame serai l frame s) := by
  unfold execNullFrame
  split <;> simp [hw]

@[simp] theorem execReplayFrame_wf (serai l : Nat) (frame : List Byte) (s : State) (hw : Memory.wf s.mem) :
    KeepsWf (execReplayFrame serai l frame s) := by
  unfold execReplayFrame
  split <;> simp [hw]

@[simp] theorem takeSync_wf (s : State) (i b : Nat) (hw : Memory.wf s.mem) : Memory.wf (takeSync s i b).mem := by
  unfold takeSync
  dsimp only
  repeat' split
  all_goals simp [hw]

@[simp] theorem execSyncFrame_wf (serai l : Nat) (frame : List Byte) (s : State) (hw : Memory.wf s.mem) :
    KeepsWf (execSyncFrame serai l frame s) := by
  simp [execSyncFrame, hw]

@[simp] theorem execGapTimer_wf (serai b : Nat) (s : State) (hw : Memory.wf s.mem) : KeepsWf (execGapTimer serai b s) := by
  unfold execGapTimer
  split <;> simp [hw]

@[simp] theorem execReplayTimer_wf (serai b : Nat) (s : State) (hw : Memory.wf s.mem) :
    KeepsWf (execReplayTimer serai b s) := by
  unfold execReplayTimer
  split <;> simp [hw]

theorem takeUnit_mem {s : State} {i b op : Nat} {x : LinkUnit × State} (hx : takeUnit s i b op = some x) : x.2.mem = s.mem := by
  unfold takeUnit at hx
  dsimp only at hx
  repeat' split at hx
  · cases hx
  · cases hx
  · obtain ⟨u, -, rfl⟩ := Option.map_eq_some_iff.mp hx
    rfl

@[simp] theorem respond_mem (s : State) (i b : Nat) (u : LinkUnit) : (respond s i b u).mem = s.mem := by
  unfold respond
  split <;> simp

@[simp] theorem countInbound_mem (s : State) (i b : Nat) (u : LinkUnit) : (countInbound s i b u).mem = s.mem := by
  unfold countInbound
  repeat' split
  all_goals simp

@[simp] theorem inbound_wf (s : State) (i b op : Nat) (f : LinkUnit → State → State) (hw : Memory.wf s.mem) (hf : ∀ u
    (t : State), Memory.wf t.mem → Memory.wf (f u t).mem) :
    KeepsWf (inbound s i b op f) := by
  unfold inbound
  split
  · simpa using hw
  next u t ht =>
    have h1 : Memory.wf t.mem := takeUnit_mem ht ▸ hw
    split
    · simpa using hw
    · exact (keepsWf_next _).mpr (hf u _ (by rwa [countInbound_mem]))

@[simp] theorem execLinkWrite_wf (serai b : Nat) (s : State) (hw : Memory.wf s.mem) : KeepsWf (execLinkWrite serai b s) := by
  refine inbound_wf _ _ _ _ _ hw fun u t ht => ?_
  split
  · rw [respond_mem]
    exact wf_ite (pocWrite_wf _ _ _ _ ht) ht
  · exact ht

@[simp] theorem execLinkRead_wf (serai b : Nat) (s : State) (hw : Memory.wf s.mem) : KeepsWf (execLinkRead serai b s) := by
  refine inbound_wf _ _ _ _ _ hw fun u t ht => ?_
  split
  · exact wf_ite (by simpa using ht) (by simpa using ht)
  · exact ht

@[simp] theorem dropItag_mem (s : State) (i b : Nat) (t : BitVec 12) : (dropItag s i b t).mem = s.mem := rfl

@[simp] theorem creadBlock_wf (s : State) (ch : Chan) (serial piece line : Nat) (cb : CodedBlock) (hw : Memory.wf s.mem) :
    Memory.wf (creadBlock s ch serial piece line cb).mem := by
  unfold creadBlock
  repeat' split
  all_goals simp [*]

@[simp] theorem execLinkShare_wf (serai b : Nat) (s : State) (hw : Memory.wf s.mem) : KeepsWf (execLinkShare serai b s) := by
  unfold execLinkShare
  refine inbound_wf _ _ _ _ _ hw fun u t ht => ?_
  split
  · split
    · exact foldl_wf _ _ _ (fun v p hv => creadBlock_wf v _ _ _ _ _ hv) (by simpa using ht)
    · rw [respond_mem]
      exact wf_ite (foldl_wf _ _ _ (fun v p hv => storeCoded_wf v _ _ _ hv) ht) ht
  · exact ht

@[simp] theorem execLinkRawblk_wf (serai b : Nat) (s : State) (hw : Memory.wf s.mem) : KeepsWf (execLinkRawblk serai b s) := by
  refine inbound_wf _ _ _ _ _ hw fun u t ht => ?_
  split
  · extract_lets cb
    split
    · exact creadBlock_wf _ _ _ _ _ _ (wf_ite (by rwa [dropItag_mem]) (by rwa [modBundle_mem]))
    · rw [respond_mem]
      exact wf_ite (storeCoded_wf _ _ _ _ ht) ht
  · exact ht

@[simp] theorem execLinkCread_wf (serai b : Nat) (s : State) (hw : Memory.wf s.mem) : KeepsWf (execLinkCread serai b s) := by
  unfold execLinkCread
  refine inbound_wf _ _ _ _ _ hw fun u t ht => ?_
  split
  next tag l r =>
    have hp : Memory.wf ((List.foldl (fun s a => pocRead s a (codedLen r.toNat (sget t.side (a / 128) 0))) t
      ((List.range (groupBlocks r.toNat)).map fun i => 128 * l.toNat + 128 * i))).mem := by
      rwa [foldl_mem _ _ _ fun v a => pocRead_mem v a _]
    dsimp only
    refine wf_ite (by simpa using ht) (wf_ite (by simpa using hp) (wf_ite (by simpa using hp) ?_))
    rwa [foldl_mem _ _ _ fun v a => respond_mem v _ _ _]
  · exact ht

@[simp] theorem endItag_wf (s : State) (i b : Nat) (t : BitVec 12) (bytes : List Byte) (status : Nat) (hw : Memory.wf s.mem) :
    Memory.wf (endItag s i b t bytes status).mem := by
  unfold endItag
  split <;> simp [hw]

@[simp] theorem execLinkRdata_wf (serai b : Nat) (s : State) (hw : Memory.wf s.mem) : KeepsWf (execLinkRdata serai b s) := by
  unfold execLinkRdata
  split
  next t ht =>
    have h1 : Memory.wf t.mem := takeUnit_mem ht ▸ hw
    rw [keepsWf_next, pumpBundle_mem]
    exact endItag_wf _ _ _ _ _ _ h1
  · simpa using hw

@[simp] theorem recordNak_mem (s : State) (i b : Nat) (t : BitVec 12) (status : Nat) :
    (recordNak s i b t status).mem = s.mem := by
  simp [recordNak, apply_ite State.mem]

@[simp] theorem takeResp_wf (i b : Nat) (s : State) (r : BitVec 12 × Byte) (hw : Memory.wf s.mem) :
    Memory.wf (takeResp i b s r).mem := by
  unfold takeResp
  split <;> simp [hw]

@[simp] theorem execLinkResp_wf (serai b : Nat) (s : State) (hw : Memory.wf s.mem) : KeepsWf (execLinkResp serai b s) := by
  unfold execLinkResp
  split
  next t ht =>
    have h1 : Memory.wf t.mem := takeUnit_mem ht ▸ hw
    rw [keepsWf_next, pumpBundle_mem]
    exact foldl_wf _ _ _ (fun v r hv => takeResp_wf _ _ v r hv) h1
  · simpa using hw

/-! ### Resets beyond a core (R32, R399, R429 to R436, R443) -/

@[simp] theorem zeroPackage_wf (s : State) (hw : Memory.wf s.mem) : Memory.wf (zeroPackage s).mem := by
  unfold zeroPackage
  all_goals simp [*, zeroMem_wf]

@[simp] theorem clearDies_mem (s : State) : (clearDies s).mem = s.mem := rfl

@[simp] theorem readyAll_mem (s : State) : (readyAll s).mem = s.mem := by simp [readyAll]

@[simp] theorem execPwrokLow_wf (s : State) (hw : Memory.wf s.mem) : KeepsWf (execPwrokLow s) := by simp [execPwrokLow, hw]

@[simp] theorem execPwrokHigh_wf (s : State) (hw : Memory.wf s.mem) : KeepsWf (execPwrokHigh s) := by
  unfold execPwrokHigh
  dsimp only
  repeat' split
  all_goals simp [hw]

@[simp] theorem execDroverPor_wf (s : State) (hw : Memory.wf s.mem) : KeepsWf (execDroverPor s) := by
  unfold execDroverPor
  all_goals simp [*, zeroMem_wf]

@[simp] theorem copyFlash_wf (s : State) (c lo : Nat) (flash : List (Nat × Byte)) (hw : Memory.wf s.mem) :
    Memory.wf (copyFlash s c lo flash).mem :=
  foldl_wf _ _ _ (fun t e ht => by
  split
  · exact writeLocal_wf _ _ _ _ ht
  · exact ht) hw

@[simp] theorem bootCore_wf (s : State) (c lo bit : Nat) (flash : List (Nat × Byte)) (hw : Memory.wf s.mem) :
    Memory.wf (bootCore s c lo bit flash).mem := by
  unfold bootCore
  dsimp only
  repeat' split
  all_goals simp [*, zeroMem_wf]

@[simp] theorem execDroverBoot_wf (flash : List (Nat × Byte)) (s : State) (hw : Memory.wf s.mem) :
    KeepsWf (execDroverBoot flash s) := by
  unfold execDroverBoot
  dsimp only
  repeat' split
  all_goals simp [*, bootCore_wf]

@[simp] theorem settleStore_wf (c : Nat) (s : State) (a : LaneAccess) (hw : Memory.wf s.mem) :
    Memory.wf (settleStore c s a).mem := by
  unfold settleStore
  repeat' split
  all_goals simp [*, writeMem_wf]

@[simp] theorem settleStores_wf (s : State) (hw : Memory.wf s.mem) : Memory.wf (settleStores s).mem :=
  foldl_wf _ _ _ (fun _ _ ht => wf_ite ht (foldl_wf _ _ _ (fun u a hu => settleStore_wf _ u a hu) ht)) hw

@[simp] theorem execPerstLow_wf (s : State) (hw : Memory.wf s.mem) : KeepsWf (execPerstLow s) := by simp [execPerstLow, hw]

@[simp] theorem execPerstHigh_wf (s : State) (hw : Memory.wf s.mem) : KeepsWf (execPerstHigh s) := by
  unfold execPerstHigh
  dsimp only
  repeat' split
  all_goals simp [hw]

@[simp] theorem spareCore_mem (s : State) (c : Nat) : (spareCore s c).mem = s.mem := by
  unfold spareCore
  split <;> rfl

@[simp] theorem execFlr_wf (s : State) (hw : Memory.wf s.mem) : KeepsWf (execFlr s) := by
  unfold execFlr
  extract_lets cs spared s1 s2
  rw [keepsWf_when _ _ _ hw]
  intro _
  show Memory.wf s2.mem
  rw [foldl_mem _ _ _ emptyCache_mem]
  refine foldl_wf _ _ _ (fun t c ht => wf_ite ?_ (beginCoreReset_wf t c _ ht)) hw
  rwa [spareCore_mem]

/-! ### Bring-up and power (R240, R427 to R446) -/

@[simp] theorem memStartWrite_mem (s : State) (v : Word) : (memStartWrite s v).1.mem = s.mem := by
  unfold memStartWrite
  split <;> rfl

@[simp] theorem execMemStartGo_wf (o : Origin) (s : State) (hw : Memory.wf s.mem) : KeepsWf (execMemStartGo o s) := by
  simp [execMemStartGo, hw]

@[simp] theorem execMemStartTimeout_wf (s : State) (hw : Memory.wf s.mem) : KeepsWf (execMemStartTimeout s) := by
  simp [execMemStartTimeout, hw]

@[simp] theorem unitUp_mem (s : State) (u : Nat) : (unitUp s u).mem = s.mem := rfl

@[simp] theorem execUnitTrained_wf (unit : Nat) (s : State) (hw : Memory.wf s.mem) : KeepsWf (execUnitTrained unit s) := by
  simp [execUnitTrained, hw]

@[simp] theorem execCxlEnumerated_wf (port gib : Nat) (s : State) (hw : Memory.wf s.mem) :
    KeepsWf (execCxlEnumerated port gib s) := by
  simp [execCxlEnumerated, hw]

@[simp] theorem execHostPortLinkUp_wf (s : State) (hw : Memory.wf s.mem) : KeepsWf (execHostPortLinkUp s) := by
  simp [execHostPortLinkUp, hw]

@[simp] theorem blkPwrWrite_mem (s : State) (b : Nat) (v : Word) : (blkPwrWrite s b v).1.mem = s.mem := by
  unfold blkPwrWrite
  dsimp only
  repeat' split
  all_goals simp

@[simp] theorem blockRequest_wf (o : Origin) (b req : Nat) (s : State) (hw : Memory.wf s.mem) :
    KeepsWf (blockRequest o b req s) := by
  simp [blockRequest, hw]

@[simp] theorem powerDownCore_wf (off : Bool) (s : State) (c : Nat) (hw : Memory.wf s.mem) :
    Memory.wf (powerDownCore off s c).mem := by
  unfold powerDownCore
  repeat' split
  all_goals simp [*, zeroMem_wf]

@[simp] theorem blockMove_wf (s : State) (b st : Nat) (hw : Memory.wf s.mem) : Memory.wf (blockMove s b st).mem := by
  unfold blockMove
  dsimp only
  rw [setBlockReady_mem]
  refine wf_ite (foldl_wf _ _ _ (fun t c ht => powerDownCore_wf _ t c ht) ?_) (wf_ite ?_ ?_)
  · simpa using hw
  · rw [foldl_mem _ _ _ landingReset_mem]
    simpa using hw
  · simpa using hw

@[simp] theorem execBlockPowerTransitionEnd_wf (b : Nat) (s : State) (hw : Memory.wf s.mem) :
    KeepsWf (execBlockPowerTransitionEnd b s) := by
  simp [execBlockPowerTransitionEnd, hw, apply_ite KeepsWf]

@[simp] theorem blockToOff_wf (s : State) (b : Nat) (hw : Memory.wf s.mem) : Memory.wf (blockToOff s b).mem := by
  simp [blockToOff, hw]

@[simp] theorem unitDown_mem (s : State) (u : Nat) : (unitDown s u).mem = s.mem := by
  unfold unitDown
  split <;> rfl

@[simp] theorem linkDown_mem (s : State) (x : Nat × Nat) : (linkDown s x).mem = s.mem := rfl

@[simp] theorem bundleDown_mem (s : State) (x : Nat × Nat) : (bundleDown s x).mem = s.mem := rfl

@[simp] theorem enterSlumber_wf (s : State) (hw : Memory.wf s.mem) : Memory.wf (enterSlumber s).mem := by
  unfold enterSlumber
  extract_lets s1 s2 s3 s4 s5
  have h1 : Memory.wf s1.mem := foldl_wf_of_mem emptyCache_mem _ hw
  have h2 : Memory.wf s2.mem := foldl_wf blockToOff _ s1 blockToOff_wf h1
  have h3 : Memory.wf s3.mem := foldl_wf_of_mem linkDown_mem _ h2
  have h4 : Memory.wf s4.mem := foldl_wf_of_mem bundleDown_mem _ h3
  clear_value s4
  exact foldl_wf_of_mem (s := s5) unitDown_mem _ h4

@[simp] theorem execD3hotEntry_wf (s : State) (hw : Memory.wf s.mem) : KeepsWf (execD3hotEntry s) := by
  simp [execD3hotEntry, hw, apply_ite KeepsWf]

@[simp] theorem unitWake_mem (s : State) (u : Nat) : (unitWake s u).mem = s.mem := by
  unfold unitWake
  split <;> rfl

@[simp] theorem linkWake_mem (s : State) (x : Nat × Nat) : (linkWake s x).mem = s.mem := by
  unfold linkWake
  split <;> rfl

@[simp] theorem execSlumberExit_wf (s : State) (hw : Memory.wf s.mem) : KeepsWf (execSlumberExit s) := by
  unfold execSlumberExit
  dsimp only
  split
  · simpa using hw
  · split
    · simpa using hw
    · rw [keepsWf_next, setFlag_mem, foldl_mem _ _ _ fun t p => setFld_mem t _ _ _ _, foldl_mem _ _ _ linkWake_mem,
        foldl_mem _ _ _ unitWake_mem]
      exact hw

@[simp] theorem tapShift_mem (s : State) : (tapShift s).mem = s.mem := rfl

@[simp] theorem execTapAccess_wf (op : TapOp) (s : State) (hw : Memory.wf s.mem) : KeepsWf (execTapAccess op s) := by
  unfold execTapAccess
  split <;> simp [hw]

@[simp] theorem latchTime_mem (s : State) : (latchTime s).mem = s.mem := rfl

@[simp] theorem execCmpTimeLoRead_wf (s : State) (hw : Memory.wf s.mem) : KeepsWf (execCmpTimeLoRead s) := by
  simp [execCmpTimeLoRead, hw]

@[simp] theorem execAlert_wf (k : Nat) (s : State) (hw : Memory.wf s.mem) : KeepsWf (execAlert k s) := by
  unfold execAlert
  split
  · simpa using hw
  next m t ht =>
    have hm := takeMsg_mem ht
    repeat' split
    all_goals simp_all

/-! ### Register writes as a whole (R12 to R15, R38, R45, R206) -/

@[simp] theorem chipWrite_mem (s : State) (v : Word) : (chipWrite s v).1.mem = s.mem := by simp [chipWrite]

@[simp] theorem routeWrite_mem (s : State) (k : Nat) (v : Word) : (routeWrite s k v).1.mem = s.mem := by
  unfold routeWrite
  split <;> simp

@[simp] theorem timeRateWrite_mem (s : State) (o : Origin) (v : Word) : (timeRateWrite s o v).1.mem = s.mem := by
  simp [timeRateWrite, apply_ite State.mem]

@[simp] theorem crOutboxWrite_mem (s : State) (c : Nat) (v : Word) : (crOutboxWrite s c v).1.mem = s.mem := by
  simp [crOutboxWrite, apply_ite State.mem]

@[simp] theorem latmaxWrite_mem (s : State) (off : Nat) (v : Word) : (latmaxWrite s off v).1.mem = s.mem := by
  unfold latmaxWrite
  split <;> rfl

@[simp] theorem kdoneWrite_wf (s : State) (o : Origin) (hw : Memory.wf s.mem) : Memory.wf (kdoneWrite s o).1.mem := by
  unfold kdoneWrite
  repeat' split
  all_goals simp [*]

@[simp] theorem evsigAccess_mem (s : State) (o : Origin) (v : Word) : (evsigAccess s o v).1.mem = s.mem := by
  unfold evsigAccess
  split <;> simp

@[simp] theorem keepIf_mem (s : State) (c : Bool) (k : State) (hk : k.mem = s.mem) : (keepIf s c k).1.mem = s.mem := by
  unfold keepIf
  split <;> simp [hk]

@[simp] theorem seraiWrite_wf (s : State) (o : Origin) (off : Nat) (v : Word) (hw : Memory.wf s.mem) :
    Memory.wf (seraiWrite s o off v).1.mem := by
  unfold seraiWrite
  dsimp only
  repeat' with_reducible apply wf_fst_ite
  all_goals simp [hw]

@[simp] theorem globalWrite_wf (s : State) (o : Origin) (off : Nat) (v : Word) (hw : Memory.wf s.mem) :
    Memory.wf (globalWrite s o off v).1.mem := by
  unfold globalWrite
  repeat' with_reducible apply wf_fst_ite
  all_goals simp [hw]

@[simp] theorem coreBlockWrite_wf (s : State) (o : Origin) (off : Nat) (v : Word) (hw : Memory.wf s.mem) :
    Memory.wf (coreBlockWrite s o off v).1.mem := by
  unfold coreBlockWrite
  dsimp only
  repeat' split
  all_goals simp [hw]

@[simp] theorem unitWrite_mem (s : State) (off : Nat) (v : Word) : (unitWrite s off v).1.mem = s.mem := by
  unfold unitWrite
  dsimp only
  repeat' split
  all_goals simp

@[simp] theorem ethWrite_mem (s : State) (off : Nat) (v : Word) : (ethWrite s off v).1.mem = s.mem := by
  unfold ethWrite
  extract_lets p x ring
  repeat' with_reducible apply mem_fst_ite
  all_goals simp

@[simp] theorem canWrite_wf (s : State) (off : Nat) (v : Word) (hw : Memory.wf s.mem) : Memory.wf (canWrite s off v).1.mem := by
  unfold canWrite
  extract_lets c x
  repeat' with_reducible apply wf_fst_ite
  all_goals simp [hw]

@[simp] theorem twinBlockWrite_mem (s : State) (o : Origin) (off : Nat) (v : Word) :
    (twinBlockWrite s o off v).1.mem = s.mem := by
  unfold twinBlockWrite
  extract_lets x
  repeat' with_reducible apply mem_fst_ite
  all_goals simp

@[simp] theorem droverWrite_wf (s : State) (o : Origin) (off : Nat) (v : Word) (hw : Memory.wf s.mem) :
    Memory.wf (droverWrite s o off v).1.mem := by
  unfold droverWrite
  repeat' with_reducible apply wf_fst_ite
  all_goals simp [hw]

@[simp] theorem regEffect_wf (s : State) (o : Origin) (off : Nat) (v : Word) (hw : Memory.wf s.mem) :
    Memory.wf (regEffect s o off v).1.mem := by
  unfold regEffect
  repeat' split
  all_goals simp [*]

@[simp] theorem regWrite_wf (s : State) (o : Origin) (off : Nat) (v : Word) (hw : Memory.wf s.mem) :
    Memory.wf (regWrite s o off v).1.mem := by
  simp [regWrite, hw]

@[simp] theorem regRead_mem (s : State) (off : Nat) : (regRead s off).1.mem = s.mem := by
  unfold regRead
  repeat' split
  all_goals simp

@[simp] theorem badBarAccess_mem (s : State) (off : Nat) (write : Bool) : (badBarAccess s off write).mem = s.mem := by
  unfold badBarAccess
  split <;> simp

@[simp] theorem barRead_mem (s : State) (off : Nat) : (barRead s off).mem = s.mem := by
  unfold barRead
  split <;> simp

@[simp] theorem execRegisterWrite_wf (o : Origin) (offset : Nat) (a : BarAccess) (s : State) (hw : Memory.wf s.mem) :
    KeepsWf (execRegisterWrite o offset a s) := by
  unfold execRegisterWrite
  repeat' split
  all_goals simp [*]

@[simp] theorem cfgRespond_mem (s : State) (m : Msg) (data : Word) (status : Nat) :
    (cfgRespond s m data status).mem = s.mem := by
  simp [cfgRespond]

@[simp] theorem execCfgRd_wf (k : Nat) (s : State) (hw : Memory.wf s.mem) : KeepsWf (execCfgRd k s) := by
  unfold execCfgRd
  dsimp only
  split
  · simpa using hw
  next t ht =>
    have hm := takeMsg_mem ht
    repeat' split
    all_goals simp_all

@[simp] theorem execCfgWr_wf (k : Nat) (s : State) (hw : Memory.wf s.mem) : KeepsWf (execCfgWr k s) := by
  unfold execCfgWr
  split
  · simpa using hw
  next m t ht =>
    have hm := takeMsg_mem ht
    dsimp only
    repeat' split
    all_goals simp_all

end Sys2Proof.Machine
end

section
/-! PROOFS. Commands keep the canonical form of memory: instructions that reach memory. -/

namespace Sys2Proof.Machine

/-! ### Loads, stores, atomics and window spills (R58, R64 to R70, R94) -/

@[simp] theorem drvRegRead_mem (s : State) (off n : Nat) : (drvRegRead s off n).1.mem = s.mem := by
  unfold drvRegRead
  split <;> simp

@[simp] theorem drvRegWrite_wf (s : State) (h : Hart) (off : Nat) (bs : List Byte) (hw : Memory.wf s.mem) :
    Memory.wf (drvRegWrite s h off bs).mem :=
  wf_ite (foldl_wf _ _ _ (fun t _ ht => regWrite_wf t _ _ _ ht) hw) hw

@[simp] theorem commitLoad_mem (s : State) (h : Hart) (rd : GReg) (bs : List Byte) (signed : Bool) :
    (commitLoad s h rd bs signed).mem = s.mem := by
  simp [commitLoad]

@[simp] theorem sendLoad_mem (s : State) (h : Hart) (rd : GReg) (va : Word) (dev n : Nat) (signed volat : Bool) :
    (sendLoad s h rd va dev n signed volat).mem = s.mem := by
  unfold sendLoad
  split <;> rfl

@[simp] theorem farLoad_mem (s : State) (h : Hart) (rd : GReg) (va : Word) (dev n : Nat) (signed volat : Bool) :
    (farLoad s h rd va dev n signed volat).mem = s.mem := by
  unfold farLoad
  split <;> simp

@[simp] theorem load_mem (s : State) (h : Hart) (rd : GReg) (va : Word) (n : Nat) (signed volat : Bool) :
    (load s h rd va n signed volat).state.mem = s.mem := by
  unfold load
  dsimp only
  repeat' split
  all_goals simp [*]

@[simp] theorem loadBehind_mem (s : State) (h : Hart) (rd : GReg) (va : Word) (n : Nat) (signed volat : Bool) :
    (loadBehind s h rd va n signed volat).mem = s.mem := by
  unfold loadBehind
  dsimp only
  repeat' split
  all_goals simp

@[simp] theorem loadInsn_wf (s : State) (h : Hart) (rd rb : GReg) (off : BitVec 13) (n : Nat) (signed volat : Bool)
    (hw : Memory.wf s.mem) :
    KeepsWf (loadInsn s h rd rb off n signed volat) := by
  simp [loadInsn, hw, apply_ite KeepsWf]

@[simp] theorem execPfh_wf (h : Hart) (kind : BitVec 5) (rb : GReg) (off : BitVec 13) (s : State) (hw : Memory.wf s.mem) :
    KeepsWf (execPfh h kind rb off s) := by
  unfold execPfh
  dsimp only
  repeat' split
  all_goals simp [hw]

theorem storeTo_wf {s t : State} {h : Hart} {va : Word} {bs : List Byte} (hw : Memory.wf s.mem)
    (ht : storeTo s h va bs = some t) :
    Memory.wf t.mem := by
  unfold storeTo at ht
  repeat' split at ht
  all_goals cases ht
  all_goals simp [hw]

@[simp] theorem store_wf (s : State) (h : Hart) (va : Word) (n : Nat) (v : Word) (hw : Memory.wf s.mem) :
    Memory.wf (store s h va n v).state.mem := by
  unfold store
  split
  · exact hw
  · split
    next t ht => simpa using storeTo_wf hw ht
    · exact hw

@[simp] theorem storeBehind_mem (s : State) (h : Hart) (va : Word) (n : Nat) (v : Word) :
    (storeBehind s h va n v).mem = s.mem := by
  unfold storeBehind
  repeat' split
  all_goals simp

@[simp] theorem storeInsn_wf (s : State) (h : Hart) (rs rb : GReg) (off : BitVec 13) (n : Nat) (hw : Memory.wf s.mem) :
    KeepsWf (storeInsn s h rs rb off n) := by
  simp [storeInsn, hw, apply_ite KeepsWf]

@[simp] theorem atomic_wf (s : State) (h : Hart) (i : Instr) (rd rs1 : GReg) (f : Word → Option Word) (hw : Memory.wf s.mem) :
    Memory.wf (atomic s h i rd rs1 f).state.mem := by
  unfold atomic
  dsimp only
  repeat' split
  all_goals simp [*]

@[simp] theorem execAmoswapW_wf (h : Hart) (rd rs1 rs2 : GReg) (s : State) (hw : Memory.wf s.mem) :
    KeepsWf (execAmoswapW h rd rs1 rs2 s) := by
  simp [execAmoswapW, hw]

@[simp] theorem execAmoaddW_wf (h : Hart) (rd rs1 rs2 : GReg) (s : State) (hw : Memory.wf s.mem) :
    KeepsWf (execAmoaddW h rd rs1 rs2 s) := by
  simp [execAmoaddW, hw]

@[simp] theorem execAmoandW_wf (h : Hart) (rd rs1 rs2 : GReg) (s : State) (hw : Memory.wf s.mem) :
    KeepsWf (execAmoandW h rd rs1 rs2 s) := by
  simp [execAmoandW, hw]

@[simp] theorem execAmoorW_wf (h : Hart) (rd rs1 rs2 : GReg) (s : State) (hw : Memory.wf s.mem) :
    KeepsWf (execAmoorW h rd rs1 rs2 s) := by
  simp [execAmoorW, hw]

@[simp] theorem execAmocasW_wf (h : Hart) (rd rs1 rs2 : GReg) (s : State) (hw : Memory.wf s.mem) :
    KeepsWf (execAmocasW h rd rs1 rs2 s) := by
  simp [execAmocasW, hw]

@[simp] theorem execWspill_wf (h : Hart) (rs1 : GReg) (s : State) (hw : Memory.wf s.mem) : KeepsWf (execWspill h rs1 s) := by
  unfold execWspill
  refine issue_wf _ _ _ hw ?_
  split
  · exact hw
  · split
    next t ht => simpa using storeTo_wf hw ht
    · exact hw

@[simp] theorem execWfill_wf (h : Hart) (rs1 : GReg) (s : State) (hw : Memory.wf s.mem) : KeepsWf (execWfill h rs1 s) := by
  unfold execWfill
  dsimp only
  repeat' split
  all_goals simp [hw]

/-! ### The long instructions (R83 to R88) -/

@[simp] theorem setProg_mem (s : State) (h : Hart) (v : Word) : (setProg s h v).mem = s.mem := rfl

@[simp] theorem endLong_mem (s : State) (h : Hart) (i : Instr) (rc : Word) : (endLong s h i rc).mem = s.mem := by
  unfold endLong
  extract_lets t
  have ht : t.mem = s.mem := (endWait_mem _ h).trans (setProg_mem s h 0)
  split
  · rw [setGreg_mem, ht]
  · exact ht

@[simp] theorem beginLong_mem (s : State) (h : Hart) (i : Instr) (ra rb rc rn : Word) :
    (beginLong s h i ra rb rc rn).mem = s.mem := by
  simp [beginLong, apply_ite State.mem]

@[simp] theorem startLong_mem (s : State) (h : Hart) (i : Instr) (ra rb rc rn : GReg) (al : List (Word × Nat)) :
    (startLong s h i ra rb rc rn al).state.mem = s.mem := by
  unfold startLong firstTrap
  split <;> simp

@[simp] theorem execMemcpyv_wf (h : Hart) (ra rb rn : GReg) (s : State) (hw : Memory.wf s.mem) :
    KeepsWf (execMemcpyv h ra rb rn s) := by
  simp [execMemcpyv, hw]

@[simp] theorem execGatherv_wf (h : Hart) (ra rb rc rn : GReg) (k : BitVec 3) (s : State) (hw : Memory.wf s.mem) :
    KeepsWf (execGatherv h ra rb rc rn k s) := by
  simp [execGatherv, hw]

@[simp] theorem execScanv_wf (h : Hart) (ra rb rc rn : GReg) (ty : ScanType) (s : State) (hw : Memory.wf s.mem) :
    KeepsWf (execScanv h ra rb rc rn ty s) := by
  simp [execScanv, hw]

@[simp] theorem dropStepReads_mem (s : State) (h : Hart) : (dropStepReads s h).mem = s.mem := rfl

theorem pieceBytes_mem {s : State} {h : Hart} {p : Word × Nat} {x : State × List Byte} (hx : pieceBytes s h p = some x) :
    x.1.mem = s.mem := by
  unfold pieceBytes at hx
  repeat' split at hx
  all_goals cases hx
  all_goals simp

theorem gatherBytes_mem {s : State} {h : Hart} {l : List (Word × Nat)} {x : State × List Byte}
    (hx : gatherBytes s h l = some x) :
    x.1.mem = s.mem := by
  induction l generalizing s x with
  | nil => cases hx; rfl
  | cons p r ih =>
    unfold gatherBytes at hx
    split at hx
    · cases hx
    next t bs ht =>
      obtain ⟨y, hy, rfl⟩ := Option.map_eq_some_iff.mp hx
      exact (ih hy).trans (pieceBytes_mem ht)

@[simp] theorem stepRead_mem (s : State) (h : Hart) (va : Word) (n : Nat) : (stepRead s h va n).state.mem = s.mem := by
  have hd : ∀ (t : State) (p : Word × Nat), (match ownOf t h p with
    | some a => demandRead t a p.2
    | none => t).mem = t.mem := fun t p => by split <;> simp
  unfold stepRead
  dsimp only
  split
  · exact foldl_mem _ _ _ hd
  · split
    · split
      next ht => exact (gatherBytes_mem ht).trans (foldl_mem _ _ _ hd)
      · exact foldl_mem _ _ _ hd
    · split
      · exact foldl_mem _ _ _ hd
      · exact (foldl_mem _ _ _ fun t p => laneSend_mem t h _ _ _ _).trans (foldl_mem _ _ _ hd)

/-- Writes that succeed one after another keep the canonical form, and once one cannot go none does. -/
theorem storeAll_wf {h : Hart} (l : List (Word × Nat)) (o : Option State) (bs : List Byte)
    (hw : ∀ s, o = some s → Memory.wf s.mem) :
    ∀ t, (l.foldl (fun (r : Option State × List Byte) p =>
      (r.1.bind fun s => storeTo s h p.1 (r.2.take p.2), r.2.drop p.2)) (o, bs)).1 = some t → Memory.wf t.mem := by
  induction l generalizing o bs with
  | nil => exact hw
  | cons p r ih =>
    refine ih _ _ fun s hs => ?_
    obtain ⟨u, hu, hs⟩ := Option.bind_eq_some_iff.mp hs
    exact storeTo_wf (hw u hu) hs

theorem stepWrite_wf {s t : State} {h : Hart} {va : Word} {bs : List Byte} (hw : Memory.wf s.mem)
    (ht : stepWrite s h va bs = some t) :
    Memory.wf t.mem := by
  unfold stepWrite at ht
  extract_lets ps far at ht
  split at ht
  · cases ht
  · exact storeAll_wf ps (some s) bs (fun u hu => Option.some.inj hu ▸ hw) t ht

@[simp] theorem closeStep_wf (s : State) (h : Hart) (va : Word) (bs : List Byte) (n : Nat) (rc : Word) (hw : Memory.wf s.mem) :
    Memory.wf (closeStep s h va bs n rc).state.mem := by
  unfold closeStep
  split
  next t ht => exact stepWrite_wf (by simpa using hw) ht
  · exact hw

@[simp] theorem memcpyStep_wf (s : State) (h : Hart) (ra rb rn : Word) (count : Nat) (hw : Memory.wf s.mem) :
    Memory.wf (memcpyStep s h ra rb rn count).state.mem := by
  unfold memcpyStep
  extract_lets n off
  have hr : Memory.wf (stepRead s h (rb + off) n).state.mem := by simpa using hw
  split
  · exact hw
  · split
    next ht => simpa [ht] using hr
    next ht => simpa [ht] using hr
    next ht => exact closeStep_wf _ _ _ _ _ _ (by simpa [ht] using hr)

@[simp] theorem gatherStep_wf (s : State) (h : Hart) (ra rb rc : Word) (k : BitVec 3) (count : Nat) (hw : Memory.wf s.mem) :
    Memory.wf (gatherStep s h ra rb rc k count).state.mem := by
  have hr (t : State) (va : Word) (n : Nat) (ht : Memory.wf t.mem) : Memory.wf (stepRead t h va n).state.mem := by
    simpa using ht
  unfold gatherStep
  extract_lets n dst idx
  split
  · exact hw
  · have h1 := hr s idx 4 hw
    split
    next ht => simpa [ht] using h1
    next ht => simpa [ht] using h1
    next t ib ht =>
      have h2 : Memory.wf t.mem := by simpa [ht] using h1
      extract_lets src
      split
      · exact h2
      · have h3 := hr t src n h2
        split
        next hu => simpa [hu] using h3
        next hu => simpa [hu] using h3
        next hu => exact closeStep_wf _ _ _ _ _ _ (by simpa [hu] using h3)

@[simp] theorem scanStep_wf (s : State) (h : Hart) (ty : ScanType) (ra rb rc rn : Word) (count : Nat) (hw : Memory.wf s.mem) :
    Memory.wf (scanStep s h ty ra rb rc rn count).state.mem := by
  unfold scanStep
  extract_lets w n off
  have hr : Memory.wf (stepRead s h (rb + off) (w * n)).state.mem := by simpa using hw
  split
  · exact hw
  · split
    next ht => simpa [ht] using hr
    next ht => simpa [ht] using hr
    next t bs ht =>
      extract_lets r
      have hc := closeStep_wf t h (ra + off) r.1 n r.2.1 (by simpa [ht] using hr)
      split
      next hu => simpa [hu] using hc
      · exact hc

@[simp] theorem nextStep_wf (s : State) (h : Hart) (i : Instr) (ra rb rc rn : Word) (hw : Memory.wf s.mem) :
    Memory.wf (nextStep s h i ra rb rc rn).state.mem := by
  unfold nextStep
  repeat' split
  all_goals simp [*]

@[simp] theorem stepBoundary_mem (s : State) (h : Hart) (i : Instr) (ra rb rc rn : Word) (count : Nat) :
    (stepBoundary s h i ra rb rc rn count).mem = s.mem := by
  unfold stepBoundary
  dsimp only
  repeat' split
  all_goals simp

@[simp] theorem execLongStep_wf (h : Hart) (s : State) (hw : Memory.wf s.mem) : KeepsWf (execLongStep h s) := by
  unfold execLongStep
  split
  next ra rb rc rn i _ _ =>
    have hn := nextStep_wf s h i ra rb rc rn hw
    split
    · simpa using hw
    · split
      next ht => simpa [ht] using hn
      next ht => simpa [ht] using hn
      next ht => simpa [ht] using hn
  · simpa using hw

/-! ### The vector unit (R97 to R102, R126, R127) -/

@[simp] theorem writeVd_wf (s : State) (h : Hart) (w : Word) (vd : VReg) (v : Line) (hw : Memory.wf s.mem) :
    KeepsWf (writeVd s h w vd v) := by
  simp [writeVd, hw]

@[simp] theorem vecSat_mem (s : State) (h : Hart) (c : Bool) : (vecSat s h c).mem = s.mem := by
  unfold vecSat
  split <;> rfl

@[simp] theorem satElems_wf (s : State) (h : Hart) (w : Word) (et : ElemType) (vd : VReg) (f : ℤ → ℤ → ℤ) (a b : Line)
    (hw : Memory.wf s.mem) :
    KeepsWf (satElems s h w et vd f a b) := by
  simp [satElems, hw]

@[simp] theorem narrowElems_wf (s : State) (h : Hart) (w : Word) (pre : List (Bool × Trap)) (et : ElemType) (vd : VReg)
    (d : Nat) (xs : List ℤ) (hw : Memory.wf s.mem) :
    KeepsWf (narrowElems s h w pre et vd d xs) := by
  simp [narrowElems, hw]

@[simp] theorem shiftElems_wf (s : State) (h : Hart) (w : Word) (et : ElemType) (left arith : Bool) (vd vs1 : VReg)
    (rs2 : GReg) (hw : Memory.wf s.mem) :
    KeepsWf (shiftElems s h w et left arith vd vs1 rs2) := by
  simp [shiftElems, hw]

@[simp] theorem execVmulq_wf (h : Hart) (et : ElemType) (vd vs1 vs2 : VReg) (s : State) (hw : Memory.wf s.mem) :
    KeepsWf (execVmulq h et vd vs1 vs2 s) := by
  simp [execVmulq, hw]

@[simp] theorem execVsel_wf (h : Hart) (vd vs1 vs2 : VReg) (s : State) (hw : Memory.wf s.mem) :
    KeepsWf (execVsel h vd vs1 vs2 s) := by
  simp [execVsel, hw]

@[simp] theorem execVext_wf (h : Hart) (et : ElemType) (rd : GReg) (vs1 : VReg) (rs2 : GReg) (s : State)
    (hw : Memory.wf s.mem) :
    KeepsWf (execVext h et rd vs1 rs2 s) := by
  simp [execVext, hw]

@[simp] theorem execVcvtHb_wf (h : Hart) (vd vs1 : VReg) (s : State) (hw : Memory.wf s.mem) :
    KeepsWf (execVcvtHb h vd vs1 s) := by
  simp [execVcvtHb, hw]

@[simp] theorem execVld_wf (h : Hart) (vd : VReg) (rb : GReg) (off : BitVec 13) (s : State) (hw : Memory.wf s.mem) :
    KeepsWf (execVld h vd rb off s) := by
  unfold execVld
  dsimp only
  refine issue_wf _ _ _ hw (firstTrap_wf _ _ _ hw (firstTrap_wf _ _ _ ?_ ?_)) <;> simpa using hw

@[simp] theorem execVst_wf (h : Hart) (vs : VReg) (rb : GReg) (off : BitVec 13) (s : State) (hw : Memory.wf s.mem) :
    KeepsWf (execVst h vs rb off s) := by
  unfold execVst
  exact issue_wf _ _ _ hw (firstTrap_wf _ _ _ hw (by simp [hw]))

end Sys2Proof.Machine
end

section
/-! PROOFS. Every command, and every step, keeps the canonical form of memory (R218, R261). -/

namespace Sys2Proof.Machine

/-- One command: those that share an operation keep memory canonical because the operation does, and each of the others has
a lemma of its own. -/
theorem exec_wf (i : Instr) (s : State) (hw : Memory.wf s.mem) : KeepsWf (exec i s) := by
  cases i
  case add | sub | and | or | xor | sll | srl | sra | slt | sltu | min | max | minu | maxu | mul | mulh | mulhu
    | clz | popc | addi | slti | sltiu | andi | ori | xori | slli | sri | lui | auipc | amovlo | amovhi | cvtBh =>
    exact writeRd_wf _ _ _ _ _ hw
  case addsH | subsH | addsB | subsB | addsW | subsW => exact satAddRd_wf _ _ _ _ _ hw
  case mulqH | mulqB | anarrowH | anarrowB | cvtHb => exact narrowRd_wf _ _ _ _ _ _ hw
  case macH | macB | msuH | msuB => exact accAdd_wf _ _ _ hw
  case ldB | ldBu | ldH | ldHu | ldW => exact loadInsn_wf _ _ _ _ _ _ _ _ hw
  case stB | stH | stW => exact storeInsn_wf _ _ _ _ _ _ hw
  case beq | bne | blt | bge | bltu | bgeu => exact branchIf_wf _ _ _ _ _ _ hw
  case csrw | csrs | csrc | isetWrite => exact csrAccess_wf _ _ _ _ _ _ _ hw
  case vadd | vsub | vmul | vmin | vmax | vcmpeq | vcmplt | vand | vor | vxor | vbcast | vcvtBh => exact writeVd_wf _ _ _ _ _ hw
  case vadds | vsubs => exact satElems_wf _ _ _ _ _ _ _ _ hw
  case vsll | vsrl | vsra => exact shiftElems_wf _ _ _ _ _ _ _ _ _ hw
  case stencil | tld | tst | tzero | tmov | texps | texpld | texpst | trdsh | vtr | mma | mms | azero | ast
    | ald => exact tileIssue_wf _ _ _ _ _ hw
  case cvmma | cvmms | cvsync => exact arm_wf _ _ _ hw
  case waybillGo | waybillClear | waybillLoad => exact wbCommand_wf _ _ _ _ hw
  case create | kill | free => exact ctxCommand_wf _ _ _ _ hw
  case blockRun | blockNap | blockDoze | blockOff => exact blockRequest_wf _ _ _ _ hw
  all_goals simp [exec, hw]

/-- A step is the idle cycle or the command at the front of the queue. -/
theorem step_wf (s : State) (hw : Memory.wf s.mem) : KeepsWf (step s) := by
  unfold step
  split
  · simp [hw]
  next i r _ => exact exec_wf i { s with pending := r } hw

/-- Settles O59: a step is the idle cycle or the command at the front of the queue, and each keeps the canonical form. -/
theorem everyStepKeepsMemoryCanonical : Obligations.EveryStepKeepsMemoryCanonical := by
  unfold Obligations.EveryStepKeepsMemoryCanonical
  exact fun s t hw ht => step_wf s hw t ht

end Sys2Proof.Machine
end

section
/-! PROOFS. The units of the near tier: one unit changed, registers written one after another, and the level that a temperature
selects (R242, R264). -/

namespace Sys2Proof.Machine

/-! ### One unit changed -/

@[simp] theorem memUnit_modUnit_same (s : State) (u : Nat) (f : Unit → Unit) : memUnit (modUnit s u f) u = f (memUnit s u) := by
  simp [memUnit, modUnit]

@[simp] theorem memUnit_modUnit_other (s : State) {u x : Nat} (f : Unit → Unit) (hx : x ≠ u) :
    memUnit (modUnit s u f) x = memUnit s x := by
  simp [memUnit, modUnit, hx]

@[simp] theorem memUnit_setReg (s : State) (o : Nat) (v : Word) (x : Nat) : memUnit (setReg s o v) x = memUnit s x := rfl

@[simp] theorem reg_modUnit (s : State) (u : Nat) (f : Unit → Unit) (o : Nat) : reg (modUnit s u f) o = reg s o := rfl

@[simp] theorem memUnit_sendMsg (s : State) (m : Msg) (x : Nat) : memUnit (sendMsg s m) x = memUnit s x := rfl

/-! ### Registers written one after another -/

theorem OnlyRegs.refl (s : State) (l : List Nat) : OnlyRegs s s l := ⟨rfl, fun _ _ => rfl⟩

/-- One more of the registers named is written. -/
theorem OnlyRegs.write {s t : State} {l : List Nat} {off : Nat} (h : OnlyRegs s t l) (hoff : off ∈ l) (v : Word) :
    OnlyRegs s (Machine.setReg t off v) l := by
  obtain ⟨heq, hregs⟩ := h
  refine ⟨by rw [heq]; rfl, fun o ho => ?_⟩
  have hne : o ≠ off := fun e => ho (e ▸ hoff)
  rw [reg_setReg_other t v hne, hregs o ho]

theorem OnlyRegs.trans {s t u : State} {l : List Nat} (hst : OnlyRegs s t l) (htu : OnlyRegs t u l) : OnlyRegs s u l := by
  obtain ⟨est, rst⟩ := hst
  obtain ⟨etu, rtu⟩ := htu
  exact ⟨by rw [etu, est], fun o ho => (rtu o ho).trans (rst o ho)⟩

theorem OnlyRegs.sameMemory {s t : State} {l : List Nat} (h : OnlyRegs s t l) : SameMemory s t := fun _ => by
  rw [h.1]
  rfl

theorem OnlyRegs.sameCores {s t : State} {l : List Nat} (h : OnlyRegs s t l) : SameCores s t := fun _ => by
  rw [h.1]
  rfl

/-- A bit outside a field that is written reads as before. -/
theorem flag_setFld_apart (s : State) (o : Nat) {hi lo i : Nat} (hi' : i < 32) (hapart : i < lo ∨ hi < i) (v : Nat) :
    flag (setFld s o hi lo v) o i = flag s o i := by
  rw [flag, reg_setFld_same, bit_putBits _ hi', if_neg (by omega), flag]

/-- A field that does not hold the bit that is written reads as before. -/
theorem fld_setFlag_apart (s : State) (o : Nat) {i h l : Nat} (hh : h < 32) (hapart : h < i ∨ i < l) (b : Bool) :
    fld (setFlag s o i b) o h l = fld s o h l := fld_setFld_apart s o hh hapart b.toNat

theorem fld_setReg_other (s : State) {o p : Nat} (v : Word) (h : p ≠ o) (hi lo : Nat) :
    fld (setReg s o v) p hi lo = fld s p hi lo := by
  rw [fld, reg_setReg_other s v h, fld]

theorem flag_setReg_other (s : State) {o p : Nat} (v : Word) (h : p ≠ o) (i : Nat) :
    flag (setReg s o v) p i = flag s p i := by
  rw [flag, reg_setReg_other s v h, flag]

/-! ### Which offsets are a unit's (R38, R264) -/

/-- The instances of a row lie below an offset. -/
def RegRow.endsBy (r : RegRow) (e : Nat) : Bool :=
  match r.dims with
  | [] => decide (r.base < e)
  | (st, n) :: _ => decide (0 < st) && decide (r.base + st * n ≤ e)

theorem RegRow.lt_of_holds {r : RegRow} {e off : Nat} (he : r.endsBy e = true) (hh : r.holds off = true) : off < e := by
  obtain ⟨base, dims, rw, rwl, w1c, locks, rst, lims, lock, upper⟩ := r
  cases dims with
  | nil =>
    simp [RegRow.endsBy, RegRow.holds, dimHit] at he hh
    omega
  | cons d l =>
    obtain ⟨st, n⟩ := d
    simp [RegRow.endsBy, RegRow.holds, dimHit] at he hh
    obtain ⟨hst, hle⟩ := he
    have hlt := (Nat.div_lt_iff_lt_mul hst).mp hh.2.1
    rw [Nat.mul_comm] at hlt
    omega

/-- No row of the Drover's registers reaches past its first MiB. -/
theorem regRow_none_of_high {off : Nat} (h : 0x3100000 ≤ off) : regRow off = none := by
  have hrows : ∀ r ∈ regRows_drover, r.endsBy 0x3100000 = true := by decide +kernel
  simp only [regRow]
  rw [if_neg (by omega), if_neg (by omega), if_neg (by omega), if_neg (by omega), List.find?_eq_none]
  intro r hr hh
  exact absurd (RegRow.lt_of_holds (hrows r hr) hh) (by omega)

/-- An offset that leads to a register is held by a row. -/
theorem regRow_ne_none_of_present {s : State} {off : Nat} (hp : presence s off = .present) : regRow off ≠ none := by
  intro hnone
  simp only [presence, hnone] at hp
  repeat' split at hp
  all_goals cases hp

/-- HBM_MASKCOMMIT or HBM_BC_PRE_CMD of a number that leads to a register is that of one of the eight units. -/
theorem unit_lt_of_present {s : State} {x u : Nat} (hx : x ∈ [0x40, 0x68])
    (hp : presence s (0x2000000 + x + 0x100000 * u) = .present) : u < 8 := by
  have hlow : ∀ x ∈ [0x40, 0x68], ∀ u < 17, 8 ≤ u → (regRow (0x2000000 + x + 0x100000 * u)).isNone = true := by decide +kernel
  by_contra hu
  refine regRow_ne_none_of_present hp ?_
  by_cases h17 : u < 17
  · simpa using hlow x hx u h17 (by omega)
  · exact regRow_none_of_high (by omega)

/-! ### The level that a temperature selects (R242) -/

/-- The number of the highest threshold that a temperature is above. -/
def levelWanted (thr : List Nat) (t : Nat) : Nat :=
  ((List.range thr.length).filter fun i => decide (nth thr i 0 < t)).foldl (fun m i => Nat.max m (i + 1)) 0

/-- Up at once. -/
theorem nextLevel_up {thr : List Nat} {t old : Nat} (hyst : Nat) (h : old ≤ levelWanted thr t) :
    nextLevel thr hyst t old = levelWanted thr t := by
  show (if old < levelWanted thr t then levelWanted thr t
    else if levelWanted thr t < old ∧ t + hyst ≤ nth thr (old - 1) 0 then old - 1 else old) = _
  split
  · rfl
  · rw [if_neg (by omega)]
    omega

/-- Down by one, where the temperature is HYST below the level being left. -/
theorem nextLevel_down {thr : List Nat} {t old : Nat} (hyst : Nat) (h : levelWanted thr t < old) :
    nextLevel thr hyst t old = if t + hyst ≤ nth thr (old - 1) 0 then old - 1 else old := by
  show (if old < levelWanted thr t then levelWanted thr t
    else if levelWanted thr t < old ∧ t + hyst ≤ nth thr (old - 1) 0 then old - 1 else old) = _
  rw [if_neg (by omega)]
  simp only [h, true_and]

theorem levelWanted_pair (a b t : Nat) : levelWanted [a, b] t = if b < t then 2 else if a < t then 1 else 0 := by
  by_cases ha : a < t <;> by_cases hb : b < t <;> simp [levelWanted, List.range_succ, nth, ha, hb]

theorem levelWanted_above_third (a b : Nat) {c t : Nat} (hc : c < t) : levelWanted [a, b, c] t = 3 := by
  by_cases ha : a < t <;> by_cases hb : b < t <;> simp [levelWanted, List.range_succ, nth, ha, hb, hc]

end Sys2Proof.Machine
end

section
/-! PROOFS. Temperatures and the catastrophic trip of a stack, pending masks, and the bring-up of units, CXL ports and instruction
caches (R207, R240, R242, R243, R246, R258, R429). -/

namespace Sys2Proof.Machine

/-! ### Samples of the temperature (R242, R243) -/

/-- The registers once a sample is shown in HBM_STAT. -/
def sampleShown (s : State) (u : Nat) (x : BitVec 8) : State :=
  setFld (setFlag s (Reg.hbmStat u) 7 false) (Reg.hbmStat u) 23 16 x.toNat

/-- What a sample leaves of its unit: the step and the gear selected, no sample missing. -/
def sampledUnit (s : State) (u : Nat) (x : BitVec 8) (m : Unit) : Unit :=
  { m with
    missing := 0
    stepNext := BitVec.ofNat 2 (nextLevel [fld s (Reg.hbmTherm u) 7 0, fld s (Reg.hbmTherm u) 15 8]
      (fld s (Reg.hbmTherm u) 19 16) x.toNat (memUnit s u).stepNext.toNat)
    gearNext := if flag s (Reg.hbmStat u) 8 then 3 else BitVec.ofNat 2 (nextLevel [fld s (Reg.hbmGearthr u) 7 0,
      fld s (Reg.hbmGearthr u) 15 8, fld s (Reg.hbmGearthr u) 23 16] (fld s (Reg.hbmTherm u) 19 16) x.toNat
      (memUnit s u).gearNext.toNat) }

theorem exec_thermalSample {s : State} {u : Nat} (hrun : unitRuns s u = true) (x : BitVec 8) :
    exec (.thermalSample u (some x)) s = .next (modUnit (sampleShown s u x) u (sampledUnit s u x)) := by
  show Machine.when s (unitRuns s u) (modUnit (sampleShown s u x) u (sampledUnit s u x)) = _
  rw [Machine.when, hrun]
  rfl

/-- A sample shows its temperature, clears the flag of missing samples, and leaves the other fields of HBM_STAT. -/
theorem sampleShown_stat (s : State) (u : Nat) (x : BitVec 8) :
    OnlyRegs s (sampleShown s u x) [Reg.hbmStat u] ∧ fld (sampleShown s u x) (Reg.hbmStat u) 23 16 = x.toNat ∧
      flag (sampleShown s u x) (Reg.hbmStat u) 7 = false ∧
      fld (sampleShown s u x) (Reg.hbmStat u) 6 3 = fld s (Reg.hbmStat u) 6 3 := by
  refine ⟨((OnlyRegs.refl s _).write (by simp) _).write (by simp) _, ?_, ?_, ?_⟩
  · exact (fld_setFld_same _ _ (by decide) _).trans (Nat.mod_eq_of_lt x.isLt)
  · exact (flag_setFld_apart _ _ (by decide) (by decide) _).trans (flag_setFlag_same _ _ (by decide) false)
  · exact (fld_setFld_apart _ _ (by decide) (by decide) _).trans (fld_setFlag_apart _ _ (by decide) (by decide) false)

/-- The step that a sample selects, by the thresholds `t2` and `t4` and the step selected before. -/
theorem stepLevel_cases (t2 t4 hyst x old : Nat) :
    (t4 < x → old ≤ 2 → nextLevel [t2, t4] hyst x old = 2) ∧
    (t2 < x → x ≤ t4 → old = 0 → nextLevel [t2, t4] hyst x old = 1) ∧
    (x ≤ t4 → old = 2 → nextLevel [t2, t4] hyst x old = if x + hyst ≤ t4 then 1 else 2) ∧
    (x ≤ t4 → x ≤ t2 → old = 1 → nextLevel [t2, t4] hyst x old = if x + hyst ≤ t2 then 0 else 1) := by
  have hwant := levelWanted_pair t2 t4 x
  refine ⟨fun h4 hold => ?_, fun h2 h4 hold => ?_, fun h4 hold => ?_, fun h4 h2 hold => ?_⟩
  · rw [if_pos h4] at hwant
    rw [nextLevel_up hyst (hold.trans_eq hwant.symm), hwant]
  · rw [if_neg (Nat.not_lt.mpr h4), if_pos h2] at hwant
    rw [nextLevel_up hyst (by omega), hwant]
  · have hlow : levelWanted [t2, t4] x < 2 := by
      rw [hwant, if_neg (Nat.not_lt.mpr h4)]
      split <;> decide
    rw [hold, nextLevel_down hyst hlow]
    rfl
  · rw [if_neg (Nat.not_lt.mpr h4), if_neg (Nat.not_lt.mpr h2)] at hwant
    rw [hold, nextLevel_down hyst (by omega)]
    rfl

/-- Above the highest gear threshold the gear is 3, whatever it was. -/
theorem gearLevel_top (a b : Nat) {g3 x : Nat} (hyst : Nat) {old : Nat} (hx : g3 < x) (hold : old ≤ 3) :
    nextLevel [a, b, g3] hyst x old = 3 := by
  have hwant := levelWanted_above_third a b hx
  rw [nextLevel_up hyst (hold.trans_eq hwant.symm), hwant]

theorem thermalSample_selects {s : State} {u : Nat} (hrun : unitRuns s u = true) (x : BitVec 8) :
    let st := Reg.hbmStat u
    let t2 := fld s (Reg.hbmTherm u) 7 0
    let t4 := fld s (Reg.hbmTherm u) 15 8
    let hyst := fld s (Reg.hbmTherm u) 19 16
    let g3 := fld s (Reg.hbmGearthr u) 23 16
    let old := (memUnit s u).stepNext.toNat
    ∃ t, exec (.thermalSample u (some x)) s = .next t ∧ SameMemory s t ∧ SameCores s t ∧ SameRegsBut s t [st] ∧
      fld t st 23 16 = x.toNat ∧ flag t st 7 = false ∧ fld t st 6 3 = fld s st 6 3 ∧ (memUnit t u).missing = 0 ∧
      (t4 < x.toNat → old ≤ 2 → (memUnit t u).stepNext = 2#2) ∧
      (t2 < x.toNat → x.toNat ≤ t4 → old = 0 → (memUnit t u).stepNext = 1#2) ∧
      (x.toNat ≤ t4 → old = 2 → (memUnit t u).stepNext = if x.toNat + hyst ≤ t4 then 1#2 else 2#2) ∧
      (x.toNat ≤ t4 → x.toNat ≤ t2 → old = 1 → (memUnit t u).stepNext = if x.toNat + hyst ≤ t2 then 0#2 else 1#2) ∧
      (g3 < x.toNat ∨ flag s st 8 = true → (memUnit t u).gearNext = 3#2) := by
  intro st t2 t4 hyst g3 old
  obtain ⟨honly, hshown, hflag, hrest⟩ := sampleShown_stat s u x
  have hunit : memUnit (modUnit (sampleShown s u x) u (sampledUnit s u x)) u = sampledUnit s u x (memUnit s u) :=
    memUnit_modUnit_same _ u _
  have hstep : (sampledUnit s u x (memUnit s u)).stepNext = BitVec.ofNat 2 (nextLevel [t2, t4] hyst x.toNat old) := rfl
  obtain ⟨hup2, hup1, hdown2, hdown1⟩ := stepLevel_cases t2 t4 hyst x.toNat old
  refine ⟨_, exec_thermalSample hrun x, honly.sameMemory, honly.sameCores, honly.2, hshown, hflag, hrest, ?_⟩
  rw [hunit, hstep]
  refine ⟨rfl, fun h4 h => by rw [hup2 h4 h], fun h2 h4 h => by rw [hup1 h2 h4 h], fun h4 h => ?_, fun h4 h2 h => ?_, fun h => ?_⟩
  · rw [hdown2 h4 h, apply_ite (BitVec.ofNat 2)]
  · rw [hdown1 h4 h2 h, apply_ite (BitVec.ofNat 2)]
  · by_cases hhot : flag s st 8 = true
    · exact if_pos hhot
    · have hx : g3 < x.toNat := h.resolve_right hhot
      have hold : (memUnit s u).gearNext.toNat ≤ 3 := Nat.le_of_lt_succ (memUnit s u).gearNext.isLt
      exact (if_neg hhot).trans (congrArg (BitVec.ofNat 2) (gearLevel_top _ _ hyst hx hold))

/-- A missing sample before the fourth in a row is counted. -/
theorem exec_thermalSample_missing {s : State} {u : Nat} (hrun : unitRuns s u = true) (hfew : (memUnit s u).missing < 3) :
    exec (.thermalSample u none) s = .next (modUnit s u fun x => { x with missing := (memUnit s u).missing + 1 }) := by
  have hmin : Nat.min ((memUnit s u).missing + 1) 4 = (memUnit s u).missing + 1 := Nat.min_eq_left (by omega)
  show execThermalSample u none s = _
  simp only [execThermalSample, Machine.when, hrun, if_true, hmin]
  rw [if_pos (by omega)]

/-- From the fourth missing sample in a row on the unit runs at 4× and gear 3, and says so. -/
theorem exec_thermalSample_missed {s : State} {u : Nat} (hrun : unitRuns s u = true) (hmany : 3 ≤ (memUnit s u).missing) :
    exec (.thermalSample u none) s = .next (modUnit (setFlag (modUnit s u fun x => { x with missing := 4 }) (Reg.hbmStat u) 7 true) u
      fun x => { x with stepNext := 2, gearNext := 3 }) := by
  have hmin : Nat.min ((memUnit s u).missing + 1) 4 = 4 := Nat.min_eq_right (by omega)
  show execThermalSample u none s = _
  simp only [execThermalSample, Machine.when, hrun, if_true, hmin, Nat.lt_irrefl, if_false]

/-! ### The catastrophic-temperature output (R207, R243) -/

/-- A memory controller lies in no rectangle: its alert is Plain, and goes to Serai 0 alone. -/
theorem sendAlert_unitNode (s : State) (u : Nat) :
    sendAlert s (unitNode u) 0 0 0 = sendMsg s ⟨0x300, 5, false, unitNode u, 0, 0⟩ := by
  have hguard : nodeGuarded s (unitNode u) = false := by
    rw [nodeGuarded, decide_eq_false (by simp only [unitNode]; omega), Bool.false_and]
  have hsend (m : Msg) (hm : m.src = unitNode u) : sendFrom s m = sendMsg s m :=
    if_neg (by rw [hm]; simp only [unitNode]; omega)
  simp only [sendAlert, hguard, Bool.false_and, Bool.false_eq_true, if_false]
  exact hsend _ rfl

theorem exec_cattrip {s : State} {u : Nat} (hrun : unitRuns s u = true) :
    exec (.cattrip u) s = .next (sendMsg (modUnit (setFlag s (Reg.hbmStat u) 8 true) u fun x => { x with gearNext := 3 })
      ⟨0x300, 5, false, unitNode u, 0, 0⟩) := by
  show execCattrip u s = _
  rw [execCattrip, Machine.when, hrun, sendAlert_unitNode]
  rfl

/-! ### Pending masks (R246, R266) -/

theorem maskCommit_pends {s : State} {o : Origin} {u : Nat} (ha : AllowedWrite s o (Reg.hbmMaskcommit u) 1) :
    ∃ t, exec (.maskCommit o u) s = .next t ∧ OnlyRegs s t [Reg.hbmMaskcommit u] ∧
      flag t (Reg.hbmMaskcommit u) 1 = true ∧ flag t (Reg.hbmMaskcommit u) 0 = true := by
  have hu : u < 8 := unit_lt_of_present (x := 0x40) (by decide) ha.2.1
  have hrows : ∀ u < 8, (regRow (Reg.hbmMaskcommit u)).any (fun r => bit ((1 : Word) &&& r.locks) 0) = true := by decide +kernel
  have hexec : exec (.maskCommit o u) s = .next (writeAt s o (Reg.hbmMaskcommit u) 1 (maskCommitWrite s u 1)).1 := rfl
  have hwrite : (maskCommitWrite s u 1).1 = setFlag (setW1s s (Reg.hbmMaskcommit u) 1) (Reg.hbmMaskcommit u) 1 true := rfl
  rw [writeAt_allowed ha, hwrite] at hexec
  refine ⟨_, hexec, (setW1s_onlyRegs s _ _).setReg _, flag_setFlag_same _ _ (by decide) true, ?_⟩
  rw [flag_setFlag_apart _ _ (by decide) (by decide) (by decide), flag_setW1s (hrows u hu)]

/-! ### Bring-up (R240, R427, R429) -/

/-- Whether training has started gives no register its reset value. -/
theorem reg_memStart (s : State) (b : Bool) (o : Nat) : reg { s with pkg := { s.pkg with memStart := b } } o = reg s o := rfl

theorem memStartGo_starts {s : State} {o : Origin} (ha : AllowedWrite s o Reg.cmpMemStart 1) :
    ∃ t, exec (.memStartGo o) s = .next t ∧ t.pkg = { s.pkg with memStart := true } ∧ SameMemory s t ∧ SameCores s t ∧
      SameRegsBut s t [Reg.cmpMemStart] := by
  have hexec : exec (.memStartGo o) s = .next (writeAt s o Reg.cmpMemStart 1 (memStartWrite s 1)).1 := rfl
  have honly := setReg_onlyRegs s Reg.cmpMemStart (putBit (reg s Reg.cmpMemStart) 0 true)
  rw [writeAt_allowed ha] at hexec
  exact ⟨_, hexec, rfl, honly.sameMemory, honly.sameCores, fun x hx => (reg_memStart _ true x).trans (honly.2 x hx)⟩

theorem exec_memStartTimeout {s : State} (hup : partUp s = true) (hwait : s.pkg.memStart = false)
    (hlate : s.pkg.resetAt + 1000000000 ≤ now s) :
    exec .memStartTimeout s = .next { s with pkg := { s.pkg with memStart := true } } := by
  show execMemStartTimeout s = _
  rw [execMemStartTimeout, Machine.when, hup, hwait, decide_eq_true hlate]
  rfl

theorem exec_unitTrained {s : State} {u : Nat} (hrun : unitRuns s u = true) (hstart : s.pkg.memStart = true)
    (hnew : unitReady s u = false) : exec (.unitTrained u) s = .next (unitUp s u) := by
  show execUnitTrained u s = _
  rw [execUnitTrained, Machine.when, hrun, hstart, hnew]
  rfl

theorem cxlEnumerated_fills {s : State} {port gib : Nat} (hup : partUp s = true) (hawake : s.pkg.slumber = false)
    (hport : port < 2 * s.pkg.nSerai) (hpos : 0 < gib) (hmax : gib ≤ 1024) :
    ∃ t, exec (.cxlEnumerated port gib) s = .next t ∧ OnlyRegs s t [Reg.cmpTierW0 port, Reg.cmpTierW2 (port + 1)] ∧
      fld t (Reg.cmpTierW0 port) 3 0 = 3 ∧ fld t (Reg.cmpTierW2 (port + 1)) 15 0 = gib := by
  have hexec : exec (.cxlEnumerated port gib) s =
      .next (setFld (setFld s (Reg.cmpTierW0 port) 3 0 3) (Reg.cmpTierW2 (port + 1)) 15 0 gib) := by
    show execCxlEnumerated port gib s = _
    rw [execCxlEnumerated, seraiRuns, Machine.when, hup, hawake, decide_eq_true hport, decide_eq_true hpos, decide_eq_true hmax]
    rfl
  have hapart : Reg.cmpTierW0 port ≠ Reg.cmpTierW2 (port + 1) := by simp only [Reg.cmpTierW0, Reg.cmpTierW2]; omega
  refine ⟨_, hexec, ((OnlyRegs.refl s _).write (by simp) _).write (by simp) _, ?_, ?_⟩
  · exact (fld_setReg_other _ _ hapart 3 0).trans (fld_setFld_same s _ (by decide) 3)
  · exact (fld_setFld_same _ _ (by decide) gib).trans (Nat.mod_eq_of_lt (show gib < 2 ^ 16 by omega))

/-! ### The instruction cache switched on and off (R258) -/

theorem icCtlWrite_switches {s : State} {o : Origin} {c : Nat} {v : Word} (ha : AllowedWrite s o (Reg.cmpIcCtl c) v) :
    ∃ t, exec (.icCtlWrite o c v) s = .next t ∧ SameMemory s t ∧ OnlyCoreRegs s t c [Reg.cmpIcCtl c] ∧
      reg t (Reg.cmpIcCtl c) = v &&& 1 ∧ core t c = (if bit v 0 then core s c else { core s c with icache := [] }) := by
  have hexec : exec (.icCtlWrite o c v) s = .next (writeAt s o (Reg.cmpIcCtl c) v (icCtlWrite s c v)).1 := rfl
  have hregs : SameRegsBut s (setReg s (Reg.cmpIcCtl c) (v &&& 1)) [Reg.cmpIcCtl c] := (setReg_onlyRegs s _ _).2
  rw [writeAt_allowed ha] at hexec
  refine ⟨_, hexec, sameMemory_of_mem (icCtlWrite_mem s c v), ?_⟩
  rw [icCtlWrite]
  by_cases hon : bit v 0 = true
  · simp only [hon, if_true]
    exact ⟨⟨rfl, fun _ _ => rfl, hregs⟩, reg_setReg_same s _ _, rfl⟩
  · simp only [hon, Bool.false_eq_true, if_false]
    exact ⟨⟨rfl, fun _ hd => core_modCore_other _ _ hd, hregs⟩, reg_setReg_same s _ _, core_modCore_same _ c _⟩

/-- Settles O36: each event by the lemma that says what its command comes to. -/
theorem temperatureAndBringUp : Obligations.TemperatureAndBringUp := by
  unfold Obligations.TemperatureAndBringUp
  intro o u c port gib v s st
  refine ⟨fun hrun => ⟨thermalSample_selects hrun, fun hfew => ?missing, fun hmany => ?missed, ?trip⟩, maskCommit_pends,
    memStartGo_starts, fun hup hwait hlate => ⟨_, exec_memStartTimeout hup hwait hlate, rfl⟩, fun hrun hstart hnew => ?trained,
    cxlEnumerated_fills, icCtlWrite_switches⟩
  case missing =>
    exact ⟨_, exec_thermalSample_missing hrun hfew, fun _ => rfl, memUnit_modUnit_same s u _⟩
  case missed =>
    refine ⟨_, exec_thermalSample_missed hrun hmany, flag_setFlag_same _ _ (by decide) true, (setReg_onlyRegs s st _).2, ?_⟩
    rw [memUnit_modUnit_same, setFlag, memUnit_setReg, memUnit_modUnit_same]
  case trip =>
    refine ⟨_, exec_cattrip hrun, flag_setFlag_same s _ (by decide) true, (setReg_onlyRegs s st _).2, ?_, rfl⟩
    rw [memUnit_sendMsg, memUnit_modUnit_same, setFlag, memUnit_setReg]
  case trained =>
    have hregs : SameRegsBut s (unitUp s u) [st] := (setReg_onlyRegs s st (putBit (reg s st) 0 true)).2
    refine ⟨_, exec_unitTrained hrun hstart hnew, flag_setFlag_same _ _ (by decide) true, hregs, ?_, fun _ => rfl⟩
    rw [unitUp, setFlag, memUnit_setReg, memUnit_modUnit_same]

end Sys2Proof.Machine
end

section
/-! PROOFS. The buffer cache: ways filled, emptied, read and written back change caches and latent errors alone where no array
holds an error (R250, R251, R253, R256, R261, R262). -/

namespace Sys2Proof.Machine

/-! ### Ways of a unit whose arrays hold no error (R262) -/

/-- No way of a unit holds an error of its array. -/
def ArraySound (m : Unit) : Prop := m.ways.all (fun e => !e.2.bad) = true

/-- No way of any unit does. -/
def CachesSound (s : State) : Prop := ∀ x, ArraySound (memUnit s x)

theorem arraySound_iff {m : Unit} : ArraySound m ↔ ∀ e ∈ m.ways, e.2.bad = false := by
  simp [ArraySound]

/-- A key written adds its own entry to a map and no other. -/
theorem mem_of_mem_sput {α : Type} {m : Sparse α} {k : Nat} {v : α} {e : Nat × α} (h : e ∈ sput m k v) : e = (k, v) ∨ e ∈ m := by
  induction m with
  | nil => simpa [sput] using h
  | cons x r ih =>
    rcases Nat.lt_trichotomy k x.1 with hk | hk | hk
    · simpa [sput, hk] using h
    · subst hk
      simp only [sput, Nat.lt_irrefl, if_false, if_true, List.mem_cons] at h
      exact h.imp_right (List.mem_cons_of_mem x)
    · simp only [sput, Nat.not_lt.mpr hk.le, Nat.ne_of_gt hk, if_false, List.mem_cons] at h
      rcases h with h | h
      · exact .inr (h ▸ List.mem_cons_self)
      · exact (ih h).imp_right (List.mem_cons_of_mem x)

/-- The entry found under a key just written is the one written. -/
theorem find?_sput {α : Type} (m : Sparse α) (k : Nat) (v : α) : ((sput m k v).find? fun e => e.1 == k) = some (k, v) := by
  induction m with
  | nil => simp [sput]
  | cons x r ih =>
    rcases Nat.lt_trichotomy k x.1 with hk | hk | hk
    · simp [sput, hk]
    · simp [sput, hk]
    · simp [sput, Nat.not_lt.mpr hk.le, Nat.ne_of_gt hk, Nat.ne_of_lt hk, ih]

theorem CachesSound.good_of_wayAt {s : State} (hs : CachesSound s) {u set w : Nat} {x : CacheWay}
    (hx : wayAt s u set w = some x) : x.bad = false := by
  obtain ⟨e, he, rfl⟩ := Option.map_eq_some_iff.mp hx
  exact arraySound_iff.mp (hs u) e (List.mem_of_find?_eq_some he)

/-- A read of a sound array finds nothing. -/
theorem readArray_good (s : State) (u w : Nat) {x : CacheWay} (hx : x.bad = false) : readArray s u w x = s := by
  simp [readArray, hx]

theorem CachesSound.readWay_eq {s : State} (hs : CachesSound s) (u set w : Nat) : readWay s u set w = s := by
  unfold readWay
  split
  · rfl
  · next x hx => exact readArray_good s u w (hs.good_of_wayAt hx)

/-! ### What only caches and latent errors tell apart -/

/-- Nothing but units and latent errors has changed; no latent error has come, and sound arrays have stayed sound. -/
structure CacheKeeps (s t : State) : Prop where
  rest : t = { s with units := t.units, latent := t.latent }
  clean : s.latent = [] → t.latent = []
  sound : CachesSound s → CachesSound t

namespace CacheKeeps

theorem refl (s : State) : CacheKeeps s s := ⟨rfl, id, id⟩

theorem of_eq {s t : State} (h : t = s) : CacheKeeps s t := h ▸ refl s

theorem trans {s t u : State} (hst : CacheKeeps s t) (htu : CacheKeeps t u) : CacheKeeps s u :=
  ⟨by rw [htu.rest, hst.rest], htu.clean ∘ hst.clean, htu.sound ∘ hst.sound⟩

theorem ite {s t u : State} {p : Prop} [Decidable p] (ht : CacheKeeps s t) (hu : CacheKeeps s u) :
    CacheKeeps s (if p then t else u) := by
  split
  · exact ht
  · exact hu

/-- Operations in a row keep what each of them keeps. -/
theorem foldl {α : Type} {f : State → α → State} {l : List α} {s : State}
    (hf : ∀ t, CacheKeeps s t → ∀ x ∈ l, CacheKeeps t (f t x)) : CacheKeeps s (l.foldl f s) := by
  have hrow : ∀ l' : List α, (∀ x ∈ l', x ∈ l) → ∀ t, CacheKeeps s t → CacheKeeps s (l'.foldl f t) := by
    intro l'
    induction l' with
    | nil => exact fun _ _ ht => ht
    | cons x r ih =>
      intro hmem t ht
      exact ih (fun y hy => hmem y (List.mem_cons_of_mem x hy)) _ (ht.trans (hf t ht x (hmem x List.mem_cons_self)))
  exact hrow l (fun _ h => h) s (refl s)

section
variable {s t : State} (h : CacheKeeps s t)
include h

theorem keepsMachine : KeepsMachine s t := by
  rw [h.rest]
  exact ⟨rfl, rfl, rfl, rfl⟩

theorem sameMemory : SameMemory s t := h.keepsMachine.sameMemory

theorem sameRegs : SameRegs s t := h.keepsMachine.sameRegs

theorem sameCores : SameCores s t := fun _ => by rw [core, h.keepsMachine.cores, core]

theorem poison : t.poison = s.poison := by rw [h.rest]

end

/-- A unit changed so that a sound array stays sound. -/
theorem modUnit (s : State) (u : Nat) {f : Unit → Unit} (hf : ArraySound (memUnit s u) → ArraySound (f (memUnit s u))) :
    CacheKeeps s (Machine.modUnit s u f) := by
  refine ⟨rfl, id, fun hs x => ?_⟩
  by_cases hx : x = u
  · subst hx
    rw [memUnit_modUnit_same]
    exact hf (hs x)
  · rw [memUnit_modUnit_other s f hx]
    exact hs x

theorem setWay (s : State) (u w : Nat) {x : CacheWay} (hx : x.bad = false) : CacheKeeps s (Machine.setWay s u w x) :=
  modUnit s u fun hs => arraySound_iff.mpr fun e he => by
    rcases mem_of_mem_sput he with rfl | he
    · exact hx
    · exact arraySound_iff.mp hs e he

theorem dropWay (s : State) (u set w : Nat) : CacheKeeps s (Machine.dropWay s u set w) :=
  modUnit s u fun hs => arraySound_iff.mpr fun e he => arraySound_iff.mp hs e (List.mem_of_mem_filter he)

theorem touchWay (s : State) (u set w : Nat) : CacheKeeps s (Machine.touchWay s u set w) := modUnit s u id

theorem writeBack (s : State) (u l : Nat) : CacheKeeps s (Machine.writeBack s u l) :=
  ⟨rfl, fun h => by rw [Machine.writeBack, h]; rfl, id⟩

theorem writeBackWay (s : State) (u w : Nat) {x : CacheWay} (hx : x.bad = false) : CacheKeeps s (Machine.writeBackWay s u w x) := by
  rw [Machine.writeBackWay, readArray_good s u w hx]
  exact writeBack s u x.line

theorem evictWay {s : State} (hs : CachesSound s) (u set w : Nat) : CacheKeeps s (Machine.evictWay s u set w) := by
  unfold Machine.evictWay
  split
  · exact refl s
  · next x hx => exact (ite (writeBackWay s u w (hs.good_of_wayAt hx)) (refl s)).trans (dropWay _ u set w)

/-- A line placed in a way in place of what the way holds. -/
theorem place {s : State} (hs : CachesSound s) (u set w l : Nat) (dirty : Bool) :
    CacheKeeps s (Machine.setWay (Machine.evictWay s u set w) u w ⟨l, dirty, false⟩) :=
  (evictWay hs u set w).trans (setWay _ u w rfl)

theorem queueFetch (s : State) (u l : Nat) : CacheKeeps s (Machine.queueFetch s u l) := ite (refl s) (modUnit s u id)

theorem missNext (s : State) (u a l : Nat) : CacheKeeps s (Machine.missNext s u a l) := ite (queueFetch s u (l + 1)) (refl s)

theorem allocate {s : State} (hs : CachesSound s) (u l : Nat) (dirty : Bool) : CacheKeeps s (Machine.allocate s u l dirty) :=
  ite (refl s) ((place hs u _ _ l dirty).trans (touchWay _ u _ _))

/-- Dirty lines written back stay, clean. -/
theorem cleanWays {s : State} (hs : CachesSound s) (u : Nat) (p : Nat → Bool) : CacheKeeps s (Machine.cleanWays s u p) := by
  refine foldl fun t _ e he => (writeBackWay t u _ ?_).trans (setWay _ u _ rfl)
  exact arraySound_iff.mp (hs u) e (List.mem_of_mem_filter he)

/-- A read of a line at its unit, where it finds no error. -/
theorem nearReadLine {s : State} (hl : s.latent = []) (hs : CachesSound s) (a : Nat) : CacheKeeps s (Machine.nearReadLine s a) := by
  unfold Machine.nearReadLine
  simp only [demandRead_clean hl, hs.readWay_eq]
  split
  · exact refl s
  · split
    · exact touchWay s _ _ _
    · exact (allocate hs _ _ false).trans (missNext _ _ _ _)

theorem pocRead {s : State} (hl : s.latent = []) (hs : CachesSound s) (a n : Nat) : CacheKeeps s (Machine.pocRead s a n) :=
  ite (foldl fun _ ht p _ => nearReadLine (ht.clean hl) (ht.sound hs) p.1) (of_eq (demandRead_clean hl a n))

end CacheKeeps

/-! ### What an operation of the cache leaves of its unit -/

/-- Of unit `u` nothing but its ways and their trees has changed. -/
def WaysOnly (s t : State) (u : Nat) : Prop :=
  memUnit t u = { memUnit s u with ways := (memUnit t u).ways, plru := (memUnit t u).plru }

theorem WaysOnly.trans {s t r : State} {u : Nat} (hst : WaysOnly s t u) (htr : WaysOnly t r u) : WaysOnly s r u := by
  unfold WaysOnly at hst htr ⊢
  rw [htr, hst]

theorem waysOnly_modUnit (s : State) (u : Nat) {f : Unit → Unit}
    (hf : ∀ m, f m = { m with ways := (f m).ways, plru := (f m).plru }) : WaysOnly s (modUnit s u f) u := by
  rw [WaysOnly, memUnit_modUnit_same]
  exact hf _

theorem waysOnly_setWay (s : State) (u w : Nat) (x : CacheWay) : WaysOnly s (setWay s u w x) u :=
  waysOnly_modUnit s u fun _ => rfl

theorem waysOnly_evictWay {s : State} (hs : CachesSound s) (u set w : Nat) : WaysOnly s (evictWay s u set w) u := by
  unfold evictWay
  split
  · rfl
  · next x hx =>
    rw [writeBackWay, readArray_good s u w (hs.good_of_wayAt hx)]
    refine WaysOnly.trans (t := if x.dirty then writeBack s u x.line else s) ?_ (waysOnly_modUnit _ u fun _ => rfl)
    split <;> rfl

theorem waysOnly_allocate {s : State} (hs : CachesSound s) (u l : Nat) (dirty : Bool) : WaysOnly s (allocate s u l dirty) u := by
  unfold allocate
  split
  · rfl
  · exact ((waysOnly_evictWay hs u _ _).trans (waysOnly_setWay _ u _ _)).trans (waysOnly_modUnit _ u fun _ => rfl)

/-! ### Lines found in the cache (R250) -/

/-- A line filled is found in the way it was put in. -/
theorem wayAt_setWay (s : State) (u w : Nat) (x : CacheWay) : wayAt (setWay s u w x) u (x.line % 4096) w = some x := by
  rw [wayAt, setWay, memUnit_modUnit_same, find?_sput]
  rfl

/-- A way of a set that holds a line of it makes the line present. -/
theorem wayOf_ne_none {s : State} {u l w : Nat} {x : CacheWay} (hw : w < 16) (hx : wayAt s u (l % 4096) w = some x)
    (hl : x.line = l) : wayOf s u l ≠ none := by
  obtain ⟨e, he, rfl⟩ := Option.map_eq_some_iff.mp hx
  intro hnone
  have hmiss := List.find?_eq_none.mp hnone w (List.mem_range.mpr hw)
  rw [he] at hmiss
  exact hmiss (decide_eq_true hl)

/-- The tree of a set names one of its 16 ways. -/
theorem plruVictim_lt (t : BitVec 16) (ok : Nat → Bool) : plruVictim t ok < 16 := by
  have hstep (a b : Bool) (n p m : Nat) (hn : n ≤ 1) (hp : p < m) :
      (if (a && b) = true then 2 * p + n else if a = true then 2 * p else 2 * p + 1) < 2 * m := by
    split
    · omega
    · split <;> omega
  have hbit (b : Bool) : b.toNat ≤ 1 := Bool.toNat_le b
  simp only [plruVictim, List.range_succ, List.range_zero, List.nil_append, List.cons_append, List.foldl_cons, List.foldl_nil]
  exact hstep _ _ _ _ 8 (hbit _) (hstep _ _ _ _ 4 (hbit _) (hstep _ _ _ _ 2 (hbit _) (hstep _ _ _ _ 1 (hbit _) (by decide))))

/-- A line allocated is present. -/
theorem wayOf_allocate {s : State} {u : Nat} (hcan : canAllocate s u = true) (l : Nat) (dirty : Bool) :
    wayOf (allocate s u l dirty) u l ≠ none := by
  have hlt : ∀ w, (List.range 16).find? (fun w => wayOpen s u w && (wayAt s u (l % 4096) w).isNone) = some w → w < 16 :=
    fun w hw => List.mem_range.mp (List.mem_of_find?_eq_some hw)
  have htouch (t : State) (set v w : Nat) : wayAt (touchWay t u set v) u (l % 4096) w = wayAt t u (l % 4096) w := by
    rw [wayAt, touchWay, memUnit_modUnit_same, wayAt]
  unfold allocate
  simp only [hcan, Bool.not_true, Bool.false_eq_true, if_false]
  refine wayOf_ne_none (x := ⟨l, dirty, false⟩) ?_ ((htouch _ _ _ _).trans (wayAt_setWay _ u _ ⟨l, dirty, false⟩)) rfl
  split
  · next w hw => exact hlt w hw
  · exact plruVictim_lt _ _

end Sys2Proof.Machine
end

section
/-! PROOFS. The commands of the buffer cache: locks, preloads, prefetches and drains (R252 to R257). -/

namespace Sys2Proof.Machine

theorem SameRegs.trans_sameRegsBut {s t r : State} {l : List Nat} (hst : SameRegs s t) (htr : SameRegsBut t r l) : SameRegsBut s r l :=
  fun x hx => (htr x hx).trans (hst x)

/-- A change of a unit that leaves its ways finds the lines it held. -/
theorem wayOf_modUnit (s : State) (u : Nat) {f : Unit → Unit} (hf : (f (memUnit s u)).ways = (memUnit s u).ways) (l : Nat) :
    wayOf (modUnit s u f) u l = wayOf s u l := by
  simp only [wayOf, memUnit_modUnit_same, hf]

/-! ### Locks (R252) -/

theorem bcLockWrite_locks {s : State} {o : Origin} {u : Nat} {v : Word} (ha : AllowedWrite s o (Reg.hbmBcLock u) v)
    (hs : CachesSound s) :
    ∃ t, exec (.bcLockWrite o u v) s = .next t ∧ SameMemory s t ∧ SameCores s t ∧ SameRegsBut s t [Reg.hbmBcLock u] ∧
      reg t (Reg.hbmBcLock u) = (if v &&& 0xFFFF = 0xFFFF then reg s (Reg.hbmBcLock u) else v &&& 0xFFFF) := by
  have hexec : exec (.bcLockWrite o u v) s = .next (writeAt s o (Reg.hbmBcLock u) v (bcLockWrite s u v)).1 := rfl
  rw [writeAt_allowed ha] at hexec
  refine ⟨_, hexec, ?_⟩
  rw [bcLockWrite]
  by_cases hall : v &&& 0xFFFF = 0xFFFF
  · simp only [hall, if_true, and_true]
    exact ⟨fun _ => rfl, fun _ => rfl, fun _ _ => rfl⟩
  · simp only [hall, if_false]
    have hclean := CacheKeeps.cleanWays hs u fun w => bit (reg s (Reg.hbmBcLock u)) w && !bit (v &&& 0xFFFF) w
    exact ⟨hclean.sameMemory, hclean.sameCores, hclean.sameRegs.trans_sameRegsBut (setReg_onlyRegs _ _ _).2, reg_setReg_same _ _ _⟩

/-! ### GO and STOP of a preload (R253, R257) -/

/-- What a preload needs: room in its target ways, lines of the unit, an enabled cache and no BUSY preload. -/
def PreloadFits (s : State) (u : Nat) : Prop :=
  preLines s u ≤ 4096 * (preWays s u).length ∧ fld s (Reg.hbmBcPreAddr u) 27 0 + preLines s u ≤ unitLines s ∧
    cacheOn s u = true ∧ flag s (Reg.hbmBcPreCmd u) 1 = false

/-- Of HBM_BC_PRE_CMD only BUSY decides whether a preload fits. -/
theorem preloadFits_setReg {s : State} {u : Nat} {x : Word} (hx : bit x 1 = flag s (Reg.hbmBcPreCmd u) 1) :
    PreloadFits (setReg s (Reg.hbmBcPreCmd u) x) u ↔ PreloadFits s u := by
  have hctl : Reg.hbmBcPreCtl u ≠ Reg.hbmBcPreCmd u := by simp only [Reg.hbmBcPreCtl, Reg.hbmBcPreCmd]; omega
  have haddr : Reg.hbmBcPreAddr u ≠ Reg.hbmBcPreCmd u := by simp only [Reg.hbmBcPreAddr, Reg.hbmBcPreCmd]; omega
  have hon : Reg.hbmBcCtl u ≠ Reg.hbmBcPreCmd u := by simp only [Reg.hbmBcCtl, Reg.hbmBcPreCmd]; omega
  have hbusy : flag (setReg s (Reg.hbmBcPreCmd u) x) (Reg.hbmBcPreCmd u) 1 = flag s (Reg.hbmBcPreCmd u) 1 := by
    rw [flag, reg_setReg_same, hx]
  simp only [PreloadFits, preLines, preWays, cacheOn, fld_setReg_other s x hctl, flag_setReg_other s x hctl,
    fld_setReg_other s x haddr, flag_setReg_other s x hon, hbusy]
  rfl

/-- The bits W1S of HBM_BC_PRE_CMD are GO and STOP. -/
theorem setW1s_preCmd (s : State) {u : Nat} (hu : u < 8) {v : Word} (hv : v &&& 9 ≠ 0) :
    setW1s s (Reg.hbmBcPreCmd u) v = setReg s (Reg.hbmBcPreCmd u) (reg s (Reg.hbmBcPreCmd u) ||| (v &&& 9)) := by
  have hrows : ∀ u < 8, (regRow (Reg.hbmBcPreCmd u)).any (fun r => r.locks == 9) = true := by decide +kernel
  obtain ⟨r, hr, hlocks⟩ := (Option.any_eq_true _ _).mp (hrows u hu)
  have hlocks9 : r.locks = 9 := eq_of_beq hlocks
  simp only [setW1s, hr, hlocks9, if_neg hv]

/-- A preload of `n` lines is refused. -/
def preloadRefusal (s : State) (u n : Nat) : Bool :=
  decide (4096 * (preWays s u).length < n) || decide (unitLines s < fld s (Reg.hbmBcPreAddr u) 27 0 + n) || !cacheOn s u ||
    flag s (Reg.hbmBcPreCmd u) 1

theorem preGo_eq (s : State) (u : Nat) :
    preGo s u =
      if preloadRefusal (setFlag s (Reg.hbmBcPreCmd u) 2 false) u (preLines s u) then
        setFld (setFlag s (Reg.hbmBcPreCmd u) 2 false) (Reg.hbmBcPreCmd u) 15 8 0x0B
      else setReg (modUnit (setFlag s (Reg.hbmBcPreCmd u) 2 false) u fun m => { m with preNext := 0 }) (Reg.hbmBcPreCmd u)
        ((reg (setFlag s (Reg.hbmBcPreCmd u) 2 false) (Reg.hbmBcPreCmd u) &&& 9) ||| 2) := rfl

/-- GO refuses a preload that does not fit, and no other. -/
theorem preloadRefusal_iff (s : State) (u : Nat) :
    preloadRefusal (setFlag s (Reg.hbmBcPreCmd u) 2 false) u (preLines s u) = true ↔ ¬ PreloadFits s u := by
  have hctl : Reg.hbmBcPreCtl u ≠ Reg.hbmBcPreCmd u := by simp only [Reg.hbmBcPreCtl, Reg.hbmBcPreCmd]; omega
  have hn : preLines s u = preLines (setFlag s (Reg.hbmBcPreCmd u) 2 false) u := by
    rw [preLines, preLines, setFlag, fld_setReg_other s _ hctl]
  have hbusy : bit (putBit (reg s (Reg.hbmBcPreCmd u)) 2 false) 1 = flag s (Reg.hbmBcPreCmd u) 1 :=
    bit_putBit _ _ (by decide) (by decide)
  have hfits : PreloadFits (setFlag s (Reg.hbmBcPreCmd u) 2 false) u ↔ PreloadFits s u := preloadFits_setReg hbusy
  rw [hn, ← hfits]
  generalize setFlag s (Reg.hbmBcPreCmd u) 2 false = r
  simp only [preloadRefusal, PreloadFits, Bool.or_eq_true, decide_eq_true_eq, Bool.not_eq_true', not_and_or, Nat.not_le,
    Bool.not_eq_true, Bool.not_eq_false, or_assoc]

/-- The word of a preload that GO has started: GO and BUSY set, STOP as it was, ABORTED and STATUS cleared. -/
theorem preloadStarted_word (r : Word) : (putBit (r ||| 1) 2 false &&& 9) ||| 2 = (r &&& 8) ||| 3 := by
  have hbits : ∀ i < 32, ∀ b : Bool,
      (((if i = 2 then false else b || bit (1 : Word) i) && bit (9 : Word) i) || bit (2 : Word) i) =
        ((b && bit (8 : Word) i) || bit (3 : Word) i) := by decide
  refine BitVec.eq_of_getLsbD_eq fun i hi => ?_
  have h := hbits i hi (bit r i)
  rw [← bit_or r 1 i, ← bit_putBit (r ||| 1) (i := 2) false (by decide) hi, ← bit_and, ← bit_and, ← bit_or, ← bit_or] at h
  exact h

/-- GO with its own bit set: the preload that fits is BUSY from its first line on, any other reports VALIDATION. -/
theorem preGo_acts (s : State) (u : Nat) :
    SameRegsBut s (preGo s u) [Reg.hbmBcPreCmd u] ∧
      (PreloadFits s u → reg (preGo s u) (Reg.hbmBcPreCmd u) = (putBit (reg s (Reg.hbmBcPreCmd u)) 2 false &&& 9) ||| 2 ∧
        (memUnit (preGo s u) u).preNext = 0) ∧
      (¬ PreloadFits s u → fld (preGo s u) (Reg.hbmBcPreCmd u) 15 8 = 0x0B ∧
        flag (preGo s u) (Reg.hbmBcPreCmd u) 1 = flag s (Reg.hbmBcPreCmd u) 1) := by
  have honly := setReg_onlyRegs s (Reg.hbmBcPreCmd u) (putBit (reg s (Reg.hbmBcPreCmd u)) 2 false)
  rw [preGo_eq]
  by_cases hf : PreloadFits s u
  · rw [if_neg (mt (preloadRefusal_iff s u).mp (not_not_intro hf))]
    refine ⟨(honly.setReg _).2, fun _ => ⟨?_, ?_⟩, fun hn => absurd hf hn⟩
    · rw [reg_setReg_same, reg_setFlag_same]
    · rw [memUnit_setReg, memUnit_modUnit_same]
  · rw [if_pos ((preloadRefusal_iff s u).mpr hf)]
    refine ⟨(honly.setReg _).2, fun h => absurd h hf, fun _ => ⟨fld_setFld_same _ _ (by decide) 0x0B, ?_⟩⟩
    rw [flag_setFld_apart _ _ (by decide) (by decide), flag_setFlag_apart _ _ (by decide) (by decide) (by decide)]

theorem preloadGo_acts {s : State} {o : Origin} {u : Nat} (ha : AllowedWrite s o (Reg.hbmBcPreCmd u) 1) :
    ∃ t, exec (.preloadGo o u) s = .next t ∧ SameMemory s t ∧ SameRegsBut s t [Reg.hbmBcPreCmd u] ∧
      (PreloadFits s u → reg t (Reg.hbmBcPreCmd u) = (reg s (Reg.hbmBcPreCmd u) &&& 8) ||| 3 ∧ (memUnit t u).preNext = 0) ∧
      (¬ PreloadFits s u → fld t (Reg.hbmBcPreCmd u) 15 8 = 0x0B ∧
        flag t (Reg.hbmBcPreCmd u) 1 = flag s (Reg.hbmBcPreCmd u) 1) := by
  have hu : u < 8 := unit_lt_of_present (x := 0x68) (by decide) ha.2.1
  have hexec : exec (.preloadGo o u) s = .next (writeAt s o (Reg.hbmBcPreCmd u) 1 (preCmdWrite s u 1)).1 := rfl
  have hwrite : (preCmdWrite s u 1).1 = preGo (setW1s s (Reg.hbmBcPreCmd u) 1) u := rfl
  have hset : setW1s s (Reg.hbmBcPreCmd u) 1 = setReg s (Reg.hbmBcPreCmd u) (reg s (Reg.hbmBcPreCmd u) ||| 1) :=
    setW1s_preCmd s hu (by decide)
  have hbusy : bit (reg s (Reg.hbmBcPreCmd u) ||| 1) 1 = flag s (Reg.hbmBcPreCmd u) 1 := (bit_or _ 1 1).trans (Bool.or_false _)
  obtain ⟨hregs, hgo, hrefused⟩ := preGo_acts (setReg s (Reg.hbmBcPreCmd u) (reg s (Reg.hbmBcPreCmd u) ||| 1)) u
  rw [preloadFits_setReg hbusy] at hgo hrefused
  rw [flag, flag, reg_setReg_same, hbusy, ← flag] at hrefused
  rw [reg_setReg_same, preloadStarted_word] at hgo
  rw [writeAt_allowed ha, hwrite, hset] at hexec
  exact ⟨_, hexec, sameMemory_of_mem (preGo_mem _ u), fun x hx => (hregs x hx).trans ((setReg_onlyRegs s _ _).2 x hx), hgo, hrefused⟩

/-- STOP ends a BUSY preload with ABORTED. -/
theorem preStop_ends {s : State} {u : Nat} (hbusy : flag s (Reg.hbmBcPreCmd u) 1 = true) :
    OnlyRegs s (preStop s u) [Reg.hbmBcPreCmd u] ∧ flag (preStop s u) (Reg.hbmBcPreCmd u) 1 = false ∧
      flag (preStop s u) (Reg.hbmBcPreCmd u) 2 = true ∧ fld (preStop s u) (Reg.hbmBcPreCmd u) 15 8 = 0 := by
  have hstop : preStop s u = setFld (setFlag (setFlag s (Reg.hbmBcPreCmd u) 1 false) (Reg.hbmBcPreCmd u) 2 true)
      (Reg.hbmBcPreCmd u) 15 8 0 := if_pos hbusy
  rw [hstop]
  refine ⟨((setReg_onlyRegs s _ _).setReg _).setReg _, ?_, ?_, fld_setFld_same _ _ (by decide) 0⟩
  · rw [flag_setFld_apart _ _ (by decide) (by decide), flag_setFlag_apart _ _ (by decide) (by decide) (by decide),
      flag_setFlag_same _ _ (by decide)]
  · rw [flag_setFld_apart _ _ (by decide) (by decide), flag_setFlag_same _ _ (by decide)]

theorem preloadStop_ends {s : State} {o : Origin} {u : Nat} (ha : AllowedWrite s o (Reg.hbmBcPreCmd u) 8)
    (hbusy : flag s (Reg.hbmBcPreCmd u) 1 = true) :
    ∃ t, exec (.preloadStop o u) s = .next t ∧ OnlyRegs s t [Reg.hbmBcPreCmd u] ∧ flag t (Reg.hbmBcPreCmd u) 1 = false ∧
      flag t (Reg.hbmBcPreCmd u) 2 = true ∧ fld t (Reg.hbmBcPreCmd u) 15 8 = 0 := by
  have hu : u < 8 := unit_lt_of_present (x := 0x68) (by decide) ha.2.1
  have hexec : exec (.preloadStop o u) s = .next (writeAt s o (Reg.hbmBcPreCmd u) 8 (preCmdWrite s u 8)).1 := rfl
  have hwrite : (preCmdWrite s u 8).1 = preStop (setW1s s (Reg.hbmBcPreCmd u) 8) u := rfl
  have hstill : flag (setW1s s (Reg.hbmBcPreCmd u) 8) (Reg.hbmBcPreCmd u) 1 = true := by
    rw [setW1s_preCmd s hu (by decide), flag, reg_setReg_same, bit_or, ← flag, hbusy, Bool.true_or]
  rw [writeAt_allowed ha, hwrite] at hexec
  obtain ⟨honly, hends⟩ := preStop_ends hstill
  exact ⟨_, hexec, (setW1s_onlyRegs s _ 8).trans honly, hends⟩

/-! ### The lines of a preload (R253) -/

/-- A line that is not cached takes its target way, unless another line is locked there. -/
theorem preloadPlace_eq {s : State} {u i l w : Nat} (hl : fld s (Reg.hbmBcPreAddr u) 27 0 + i = l)
    (hw : nth (preWays s u) (i / 4096) 0 = w) (hnew : wayOf s u l = none)
    (hopen : flag s (Reg.hbmBcLock u) w = false ∨ wayAt s u (l % 4096) w = none) (hlatent : s.latent = []) :
    preloadPlace s u i =
      setWay (evictWay (modUnit s u fun m => { m with preNext := i + 1 }) u (l % 4096) w) u w ⟨l, false, false⟩ := by
  have hwayOf : wayOf (modUnit s u fun m => { m with preNext := i + 1 }) u l = none := (wayOf_modUnit s u rfl l).trans hnew
  have hclean : (modUnit s u fun m => { m with preNext := i + 1 }).latent = [] := hlatent
  unfold preloadPlace
  simp only [hl, hw, hwayOf, demandRead_clean hclean]
  rcases hopen with h | h
  · simp only [h, Bool.false_and, Bool.false_eq_true, if_false]
  · simp only [h, Bool.and_false, Bool.false_eq_true, if_false]

/-- The line is in its way, the next line is due, and only the cache has changed. -/
theorem preloadPlace_places {s : State} {u i l w : Nat} (hl : fld s (Reg.hbmBcPreAddr u) 27 0 + i = l)
    (hw : nth (preWays s u) (i / 4096) 0 = w) (hnew : wayOf s u l = none)
    (hopen : flag s (Reg.hbmBcLock u) w = false ∨ wayAt s u (l % 4096) w = none) (hlatent : s.latent = []) (hs : CachesSound s) :
    CacheKeeps s (preloadPlace s u i) ∧ (memUnit (preloadPlace s u i) u).preNext = i + 1 ∧
      wayAt (preloadPlace s u i) u (l % 4096) w = some ⟨l, false, false⟩ := by
  rw [preloadPlace_eq hl hw hnew hopen hlatent]
  have hcount : CacheKeeps s (modUnit s u fun m => { m with preNext := i + 1 }) := CacheKeeps.modUnit s u id
  have hunit := (waysOnly_evictWay (hcount.sound hs) u (l % 4096) w).trans (waysOnly_setWay _ u w ⟨l, false, false⟩)
  refine ⟨hcount.trans (CacheKeeps.place (hcount.sound hs) u _ w l false), ?_, wayAt_setWay _ u w ⟨l, false, false⟩⟩
  rw [hunit, memUnit_modUnit_same]

theorem exec_preloadLine {s : State} {u : Nat} (hrun : preloadRuns s u = true) (hmore : (memUnit s u).preNext + 1 < preLines s u) :
    exec (.preloadLine u) s = .next (preloadPlace s u (memUnit s u).preNext) := by
  show execPreloadLine u s = _
  rw [execPreloadLine, hrun, decide_eq_true hmore]
  rfl

theorem exec_preloadComplete {s : State} {u : Nat} (hrun : preloadRuns s u = true)
    (hlast : preLines s u ≤ (memUnit s u).preNext + 1) :
    exec (.preloadComplete u) s = .next (setFlag (preloadPlace s u (memUnit s u).preNext) (Reg.hbmBcPreCmd u) 1 false) := by
  show execPreloadComplete u s = _
  rw [execPreloadComplete, hrun, decide_eq_true hlast]
  rfl

/-! ### Prefetch (R254, R255) -/

theorem prefetchFetch_caches {s : State} {u x : Nat} {r : List Nat} (hq : (memUnit s u).pfQueue = x :: r)
    (hrun : unitRuns s u = true) (hready : unitReady s u = true) (hon : cacheOn s u = true) (hfree : freeCapacity s u ≠ 0)
    (hlatent : s.latent = []) (hs : CachesSound s) (hcan : canAllocate s u = true) :
    ∃ t, exec (.prefetchFetch u) s = .next t ∧ SameMemory s t ∧ SameRegs s t ∧ (memUnit t u).pfQueue = r ∧
      wayOf t u x ≠ none := by
  have hpop : CacheKeeps s (modUnit s u fun m => { m with pfQueue := r }) := CacheKeeps.modUnit s u id
  have hexec : exec (.prefetchFetch u) s = if (wayOf (modUnit s u fun m => { m with pfQueue := r }) u x).isSome then
      .next (modUnit s u fun m => { m with pfQueue := r })
      else .next (allocate (modUnit s u fun m => { m with pfQueue := r }) u x false) := by
    show execPrefetchFetch u s = _
    simp [execPrefetchFetch, hq, hrun, hready, hon, hfree, demandRead_clean (hpop.clean hlatent)]
  have hqueue : (memUnit (modUnit s u fun m => { m with pfQueue := r }) u).pfQueue = r := by rw [memUnit_modUnit_same]
  have hcan' : canAllocate (modUnit s u fun m => { m with pfQueue := r }) u = true := hcan
  generalize modUnit s u (fun m => { m with pfQueue := r }) = p at hpop hexec hqueue hcan'
  by_cases hin : (wayOf p u x).isSome = true
  · rw [if_pos hin] at hexec
    exact ⟨p, hexec, hpop.sameMemory, hpop.sameRegs, hqueue, Option.isSome_iff_ne_none.mp hin⟩
  · rw [if_neg hin] at hexec
    have hkeeps := hpop.trans (CacheKeeps.allocate (hpop.sound hs) u x false)
    refine ⟨_, hexec, hkeeps.sameMemory, hkeeps.sameRegs, ?_, wayOf_allocate hcan' x false⟩
    rw [waysOnly_allocate (hpop.sound hs) u x false]
    exact hqueue

/-! ### Drains (R256) -/

/-- ENABLE = 0 starts a drain and ends a preload. -/
theorem bcCtlWrite_drains {s : State} {u : Nat} (hidle : flag s (Reg.hbmBcCtl u) 1 = false) :
    (bcCtlWrite s u 0).1 =
      if flag (setFlag (setFlag s (Reg.hbmBcCtl u) 0 false) (Reg.hbmBcCtl u) 1 true) (Reg.hbmBcPreCmd u) 1 then
        setFld (preStop (setFlag (setFlag s (Reg.hbmBcCtl u) 0 false) (Reg.hbmBcCtl u) 1 true) u) (Reg.hbmBcPreCmd u) 15 8 0x0B
      else setFlag (setFlag s (Reg.hbmBcCtl u) 0 false) (Reg.hbmBcCtl u) 1 true := by
  have hzero : bit (0 : Word) 0 = false := by decide
  simp only [bcCtlWrite, hidle, hzero, Bool.not_false, Bool.and_self, Bool.not_true, Bool.false_eq_true, if_false]
  split <;> rfl

theorem cacheDrainStart_drains {s : State} {o : Origin} {u : Nat} (ha : AllowedWrite s o (Reg.hbmBcCtl u) 0)
    (hidle : flag s (Reg.hbmBcCtl u) 1 = false) :
    ∃ t, exec (.cacheDrainStart o u) s = .next t ∧ OnlyRegs s t [Reg.hbmBcCtl u, Reg.hbmBcPreCmd u] ∧
      flag t (Reg.hbmBcCtl u) 0 = false ∧ flag t (Reg.hbmBcCtl u) 1 = true ∧ flag t (Reg.hbmBcPreCmd u) 1 = false ∧
      (flag s (Reg.hbmBcPreCmd u) 1 = true → flag t (Reg.hbmBcPreCmd u) 2 = true ∧ fld t (Reg.hbmBcPreCmd u) 15 8 = 0x0B) := by
  have hexec : exec (.cacheDrainStart o u) s = .next (writeAt s o (Reg.hbmBcCtl u) 0 (bcCtlWrite s u 0)).1 := rfl
  rw [writeAt_allowed ha, bcCtlWrite_drains hidle] at hexec
  have hapart : Reg.hbmBcPreCmd u ≠ Reg.hbmBcCtl u := by simp only [Reg.hbmBcPreCmd, Reg.hbmBcCtl]; omega
  have honly : OnlyRegs s (setFlag (setFlag s (Reg.hbmBcCtl u) 0 false) (Reg.hbmBcCtl u) 1 true)
      [Reg.hbmBcCtl u, Reg.hbmBcPreCmd u] := ((OnlyRegs.refl s _).write (by simp) _).write (by simp) _
  have hoff : flag (setFlag (setFlag s (Reg.hbmBcCtl u) 0 false) (Reg.hbmBcCtl u) 1 true) (Reg.hbmBcCtl u) 0 = false := by
    rw [flag_setFlag_apart _ _ (by decide) (by decide) (by decide), flag_setFlag_same _ _ (by decide)]
  have hdrain : flag (setFlag (setFlag s (Reg.hbmBcCtl u) 0 false) (Reg.hbmBcCtl u) 1 true) (Reg.hbmBcCtl u) 1 = true :=
    flag_setFlag_same _ _ (by decide) true
  have hcmd : flag (setFlag (setFlag s (Reg.hbmBcCtl u) 0 false) (Reg.hbmBcCtl u) 1 true) (Reg.hbmBcPreCmd u) 1 =
      flag s (Reg.hbmBcPreCmd u) 1 := (flag_setReg_other _ _ hapart 1).trans (flag_setReg_other _ _ hapart 1)
  generalize setFlag (setFlag s (Reg.hbmBcCtl u) 0 false) (Reg.hbmBcCtl u) 1 true = d at hexec honly hoff hdrain hcmd
  by_cases hbusy : flag d (Reg.hbmBcPreCmd u) 1 = true
  · rw [if_pos hbusy] at hexec
    obtain ⟨hstop, hended, haborted, -⟩ := preStop_ends hbusy
    have hctl (k : Nat) : flag (setFld (preStop d u) (Reg.hbmBcPreCmd u) 15 8 0x0B) (Reg.hbmBcCtl u) k = flag d (Reg.hbmBcCtl u) k := by
      rw [setFld, flag_setReg_other _ _ hapart.symm, flag, hstop.2 _ (by simp), flag]
    refine ⟨_, hexec, ?_, (hctl 0).trans hoff, (hctl 1).trans hdrain, ?_, fun _ => ⟨?_, fld_setFld_same _ _ (by decide) 0x0B⟩⟩
    · obtain ⟨heq, hregs⟩ := hstop
      exact (honly.trans ⟨heq, fun x hx => hregs x fun h => hx (List.mem_cons_of_mem _ h)⟩).write (by simp) _
    · rw [flag_setFld_apart _ _ (by decide) (by decide), hended]
    · rw [flag_setFld_apart _ _ (by decide) (by decide), haborted]
  · rw [if_neg hbusy] at hexec
    exact ⟨d, hexec, honly, hoff, hdrain, Bool.eq_false_iff.mpr hbusy, fun h => absurd (hcmd.trans h) hbusy⟩

theorem exec_cacheDrainComplete {s : State} {u : Nat} (hrun : unitRuns s u = true) (hdrain : draining s u = true) :
    exec (.cacheDrainComplete u) s = .next (setFlag (emptyCache s u) (Reg.hbmBcCtl u) 1 false) := by
  show execCacheDrainComplete u s = _
  rw [execCacheDrainComplete, hrun, hdrain]
  rfl

theorem cacheDrainComplete_empties {s : State} {u : Nat} (hrun : unitRuns s u = true) (hdrain : draining s u = true)
    (hs : CachesSound s) :
    ∃ t, exec (.cacheDrainComplete u) s = .next t ∧ SameMemory s t ∧ SameRegsBut s t [Reg.hbmBcCtl u, Reg.hbmBcLock u] ∧
      flag t (Reg.hbmBcCtl u) 1 = false ∧ flag t (Reg.hbmBcCtl u) 0 = flag s (Reg.hbmBcCtl u) 0 ∧
      reg t (Reg.hbmBcLock u) = 0 ∧ (memUnit t u).ways = [] ∧ (memUnit t u).pfQueue = [] := by
  have hapart : Reg.hbmBcCtl u ≠ Reg.hbmBcLock u := by simp only [Reg.hbmBcCtl, Reg.hbmBcLock]; omega
  have hregs : SameRegs s (modUnit (cleanWays s u fun _ => true) u fun m => { m with ways := [], plru := [], pfQueue := [] }) :=
    (CacheKeeps.cleanWays hs u fun _ => true).sameRegs
  have hunit : memUnit (setFlag (emptyCache s u) (Reg.hbmBcCtl u) 1 false) u =
      { memUnit (cleanWays s u fun _ => true) u with ways := [], plru := [], pfQueue := [] } := by
    rw [setFlag, memUnit_setReg, emptyCache, memUnit_setReg, memUnit_modUnit_same]
  refine ⟨_, exec_cacheDrainComplete hrun hdrain, sameMemory_of_mem (emptyCache_mem s u), ?_, flag_setFlag_same _ _ (by decide) false,
    ?_, ?_, by rw [hunit], by rw [hunit]⟩
  · exact hregs.trans_sameRegsBut (((OnlyRegs.refl _ _).write (by simp) _).write (by simp) _).2
  · rw [flag_setFlag_apart _ _ (by decide) (by decide) (by decide), emptyCache, flag_setReg_other _ _ hapart, flag, hregs, flag]
  · rw [reg_setFlag_other _ _ _ hapart.symm, emptyCache, reg_setReg_same]

end Sys2Proof.Machine
end

section
/-! PROOFS. Accesses at the point of coherence of the near tier: what a store writes, whichever way its lines take, and the answers
of a unit (R218, R239, R250, R251, R262). -/

namespace Sys2Proof.Machine

/-! ### Operations of the cache leave the cores -/

@[simp] theorem modUnit_cores (s : State) (u : Nat) (f : Unit → Unit) : (modUnit s u f).cores = s.cores := rfl

@[simp] theorem setWay_cores (s : State) (u w : Nat) (x : CacheWay) : (setWay s u w x).cores = s.cores := rfl

@[simp] theorem cleanSectors_cores (s : State) (ks : List Nat) : (cleanSectors s ks).cores = s.cores := rfl

@[simp] theorem poisonSectors_cores (s : State) (ks : List Nat) : (poisonSectors s ks).cores = s.cores := rfl

@[simp] theorem touchWay_cores (s : State) (u set w : Nat) : (touchWay s u set w).cores = s.cores := rfl

@[simp] theorem readArray_cores (s : State) (u w : Nat) (x : CacheWay) : (readArray s u w x).cores = s.cores := by
  simp [readArray, apply_ite State.cores]

@[simp] theorem readWay_cores (s : State) (u set w : Nat) : (readWay s u set w).cores = s.cores := by
  unfold readWay
  split <;> simp

@[simp] theorem writeBackWay_cores (s : State) (u w : Nat) (x : CacheWay) : (writeBackWay s u w x).cores = s.cores :=
  readArray_cores s u w x

@[simp] theorem evictWay_cores (s : State) (u set w : Nat) : (evictWay s u set w).cores = s.cores := by
  unfold evictWay
  split
  · rfl
  · simp [dropWay, apply_ite State.cores]

@[simp] theorem allocate_cores (s : State) (u l : Nat) (dirty : Bool) : (allocate s u l dirty).cores = s.cores := by
  unfold allocate
  split <;> simp

@[simp] theorem missNext_cores (s : State) (u a l : Nat) : (missNext s u a l).cores = s.cores :=
  (CacheKeeps.missNext s u a l).keepsMachine.cores

@[simp] theorem writeData_cores (s : State) (a : Nat) (bs : List Byte) (pz : Bool) : (writeData s a bs pz).cores = s.cores := by
  simp [writeData, writePoison, apply_ite State.cores]

@[simp] theorem writeCached_cores (s : State) (a : Nat) (bs : List Byte) (pz : Bool) :
    (writeCached s a bs pz).cores = s.cores := by
  simp [writeCached, apply_ite State.cores]

@[simp] theorem writeCached_mem (s : State) (a : Nat) (bs : List Byte) (pz : Bool) :
    (writeCached s a bs pz).mem = memPutAll s.mem a bs := by
  simp [writeCached, apply_ite State.mem]

/-- A write within a line stores its bytes, whether the line is cached, allocated or passed by (R250, R251). -/
theorem nearWriteLine_mem (s : State) (a : Nat) (bs : List Byte) (pz : Bool) :
    (nearWriteLine s a bs pz).mem = memPutAll s.mem a bs := by
  unfold nearWriteLine
  dsimp only
  repeat' split
  all_goals simp [writeData_mem]

theorem nearWriteLine_cores (s : State) (a : Nat) (bs : List Byte) (pz : Bool) : (nearWriteLine s a bs pz).cores = s.cores := by
  unfold nearWriteLine
  dsimp only
  repeat' split
  all_goals simp

/-! ### The bytes of a store, line by line -/

/-- What of a byte range lies in line `l`: address and length. -/
def linePiece (a n l : Nat) : Nat × Nat := (max a (128 * l), min (a + n) (128 * (l + 1)) - max a (128 * l))

/-- The pieces of a byte range are those of the lines it meets. -/
theorem mem_linePieces {a n : Nat} {p : Nat × Nat} :
    p ∈ linePieces a n ↔ n ≠ 0 ∧ ∃ l, a / 128 ≤ l ∧ l ≤ (a + n - 1) / 128 ∧ linePiece a n l = p := by
  have hpieces : linePieces a n =
      if n = 0 then [] else (upFrom (a / 128) ((a + n - 1) / 128 + 1 - a / 128)).map (linePiece a n) := rfl
  have hup (l k : Nat) : l ∈ upFrom (a / 128) k ↔ a / 128 ≤ l ∧ l < a / 128 + k := by
    simp only [upFrom, List.mem_map, List.mem_range]
    exact ⟨fun ⟨i, hi, he⟩ => by omega, fun h => ⟨l - a / 128, by omega, by omega⟩⟩
  rw [hpieces]
  by_cases hn : n = 0
  · simp [hn]
  · rw [if_neg hn, List.mem_map, and_iff_right hn]
    refine exists_congr fun l => ?_
    rw [hup, and_assoc]
    exact and_congr_right fun _ => and_congr_left fun _ => by omega

/-- Every piece of a byte range lies in it. -/
theorem linePieces_within {a n : Nat} {p : Nat × Nat} (hp : p ∈ linePieces a n) : a ≤ p.1 ∧ p.1 + p.2 ≤ a + n := by
  obtain ⟨hn, l, hlow, hhigh, rfl⟩ := mem_linePieces.mp hp
  simp only [linePiece]
  omega

/-- Every byte of a range lies in one of its pieces. -/
theorem linePieces_cover {a n x : Nat} (h1 : a ≤ x) (h2 : x < a + n) : ∃ p ∈ linePieces a n, p.1 ≤ x ∧ x < p.1 + p.2 := by
  refine ⟨linePiece a n (x / 128), mem_linePieces.mpr ⟨by omega, x / 128, by omega, by omega, rfl⟩, ?_⟩
  simp only [linePiece]
  omega

/-- A byte string stored piece by piece: a byte that a piece holds is the string's own, every other reads as before. -/
theorem memGet_pieces (a : Nat) (bs : List Byte) (ps : List (Nat × Nat)) (hps : ∀ p ∈ ps, a ≤ p.1 ∧ p.1 + p.2 ≤ a + bs.length)
    {m : List Host.Cell} (hm : Memory.wf m = true) (x : Nat) :
    memGet (ps.foldl (fun m p => memPutAll m p.1 ((bs.drop (p.1 - a)).take p.2)) m) x =
      if ∃ p ∈ ps, p.1 ≤ x ∧ x < p.1 + p.2 then nth bs (x - a) 0 else memGet m x := by
  induction ps generalizing m with
  | nil => simp
  | cons p r ih =>
    obtain ⟨hlow, hhigh⟩ := hps p List.mem_cons_self
    have hlen : ((bs.drop (p.1 - a)).take p.2).length = p.2 := by
      rw [List.length_take, List.length_drop]
      omega
    rw [List.foldl_cons, ih (fun q hq => hps q (List.mem_cons_of_mem p hq)) (memPutAll_wf _ _ hm)]
    by_cases hr : ∃ q ∈ r, q.1 ≤ x ∧ x < q.1 + q.2
    · obtain ⟨q, hq, hin⟩ := hr
      rw [if_pos ⟨q, hq, hin⟩, if_pos ⟨q, List.mem_cons_of_mem p hq, hin⟩]
    · rw [if_neg hr]
      by_cases hp : p.1 ≤ x ∧ x < p.1 + p.2
      · rw [if_pos ⟨p, List.mem_cons_self, hp⟩]
        have hi : x - p.1 < ((bs.drop (p.1 - a)).take p.2).length := by omega
        have hget := memGet_memPutAll_inside (a := p.1) ((bs.drop (p.1 - a)).take p.2) hm hi
        rw [Nat.add_sub_cancel' hp.1] at hget
        rw [hget, List.getElem_take, List.getElem_drop, nth, List.getD_eq_getElem _ _ (by omega)]
        congr 1
        omega
      · rw [if_neg fun ⟨q, hq, hin⟩ => (List.mem_cons.mp hq).elim (fun e => hp (e ▸ hin)) fun hq => hr ⟨q, hq, hin⟩]
        exact memGet_memPutAll_outside _ hm (by omega)

/-- The memory after the lines of a store, piece by piece. -/
theorem nearWrites_mem (a : Nat) (bs : List Byte) (pz : Bool) (ps : List (Nat × Nat)) (s : State) :
    (ps.foldl (fun s p => nearWriteLine s p.1 ((bs.drop (p.1 - a)).take p.2) pz) s).mem =
      ps.foldl (fun m p => memPutAll m p.1 ((bs.drop (p.1 - a)).take p.2)) s.mem := by
  induction ps generalizing s with
  | nil => rfl
  | cons p r ih => rw [List.foldl_cons, ih, nearWriteLine_mem, List.foldl_cons]

/-- A store to the near tier writes its bytes and no other (R218, R251). -/
theorem pocWrite_bytes {s : State} {a : Nat} (hnear : isNear s a = true) (hm : MemoryCanonical s) (bs : List Byte) (pz : Bool) :
    SameMemoryBut s (pocWrite s a bs pz) a bs.length ∧
      ∀ k, k < bs.length → byteAt (pocWrite s a bs pz) (a + k) = nth bs k 0 := by
  have hbyte (x : Nat) : byteAt (pocWrite s a bs pz) x =
      if ∃ p ∈ linePieces a bs.length, p.1 ≤ x ∧ x < p.1 + p.2 then nth bs (x - a) 0 else byteAt s x := by
    rw [pocWrite, if_pos hnear, byteAt, clearSide_mem, nearWrites_mem]
    exact memGet_pieces a bs _ (fun p hp => linePieces_within hp) hm x
  refine ⟨fun x hx => ?_, fun k hk => ?_⟩
  · rw [hbyte, if_neg]
    rintro ⟨p, hp, hin⟩
    have := linePieces_within hp
    omega
  · rw [hbyte, if_pos (linePieces_cover (by omega) (by omega)), Nat.add_sub_cancel_left]

theorem pocWrite_cores {s : State} {a : Nat} (hnear : isNear s a = true) (bs : List Byte) (pz : Bool) :
    (pocWrite s a bs pz).cores = s.cores := by
  rw [pocWrite, if_pos hnear]
  exact foldl_cores _ (fun t p => nearWriteLine_cores t _ _ _) _ s

/-! ### The answers of a unit (R218, R239) -/

/-- What leads to a unit lies in the near tier. -/
theorem isNear_of_target {s : State} {a u : Nat} (h : target s a = .near u) : isNear s a = true := by
  by_contra hn
  have hfar : ¬ a < nearSize s := by simpa [isNear] using hn
  unfold target at h
  rw [if_neg hfar] at h
  dsimp only at h
  repeat' split at h
  all_goals cases h

/-- An access that a unit may serve: sent, unanswered, held up by no drain and by no older access, with service on its path. -/
structure Servable (s : State) (u c id : Nat) (a : LaneAccess) : Prop where
  found : laneFind s c id = some a
  sent : a.sent = true
  unanswered : a.result = none
  near : target s a.addr = .near u
  idle : draining s u = false
  oldest : laneBlocked s c a = false

/-- Without service on its path nothing happens; with it a ready unit performs the access and another fails it with BUS. -/
theorem Servable.exec_eq {s : State} {u c id : Nat} {a : LaneAccess} (h : Servable s u c id a) :
    exec (.nearTierAccess u c id) s =
      if beatServed s c a.addr true then
        if unitReady s u then .next (lanePerform s c a)
        else .next (laneMod s c id fun b => { b with result := some (.fail 0x01) })
      else .next s := by
  show execNearTierAccess u c id s = _
  simp only [execNearTierAccess, h.found, h.sent, h.unanswered, h.near, h.idle, h.oldest]
  cases beatServed s c a.addr true <;> simp

/-- A load that finds no poison is answered with the bytes in memory. -/
theorem Servable.load_answered {s : State} {u c id : Nat} {a : LaneAccess} (h : Servable s u c id a) {rd : GReg} {n : Nat} {g : Bool}
    (hload : a.kind = .load rd n g) (hlatent : s.latent = []) (hs : CachesSound s) (hclean : isPoisoned s a.addr n = false) :
    ∃ line, SameMemory s (lanePerform s c a) ∧
      laneFind (lanePerform s c a) c id = some { a with result := some (.ok (readMem s a.addr n) line) } := by
  have hkeeps := CacheKeeps.pocRead hlatent hs a.addr n
  have hpoison : isPoisoned (pocRead s a.addr n) a.addr n = false := by rwa [isPoisoned, hkeeps.poison, ← isPoisoned]
  have hread : readMem (pocRead s a.addr n) a.addr n = readMem s a.addr n := by rw [readMem, hkeeps.keepsMachine.mem, readMem]
  have hfind : laneFind (pocRead s a.addr n) c id = some a :=
    (laneFind_of_lane (by rw [hkeeps.sameCores c]) id).trans h.found
  have hperform : lanePerform s c a = laneMod (pocRead s a.addr n) c id fun b =>
      { b with result := some (.ok (readMem s a.addr n) (lineAround (pocRead s a.addr n) a.addr)) } := by
    simp only [lanePerform, hload, LaneAccess.size, hpoison, hread, id_of_laneFind h.found, Bool.false_eq_true, if_false]
  rw [hperform]
  exact ⟨_, hkeeps.sameMemory, laneFind_laneMod hfind fun _ => rfl⟩

/-- A store is performed on its bytes and answered. -/
theorem Servable.store_performed {s : State} {u c id : Nat} {a : LaneAccess} (h : Servable s u c id a) {bs : List Byte}
    (hstore : a.kind = .store bs) (hm : MemoryCanonical s) :
    SameMemoryBut s (lanePerform s c a) a.addr bs.length ∧
      (∀ k, k < bs.length → byteAt (lanePerform s c a) (a.addr + k) = nth bs k 0) ∧
      laneFind (lanePerform s c a) c id = some { a with result := some (.ok [] []) } := by
  have hnear := isNear_of_target h.near
  have hfind : laneFind (pocWrite s a.addr bs false) c id = some a :=
    (laneFind_of_lane (by rw [core, pocWrite_cores hnear, core]) id).trans h.found
  have hperform : lanePerform s c a = laneMod (pocWrite s a.addr bs false) c id fun b => { b with result := some (.ok [] []) } := by
    simp only [lanePerform, hstore, id_of_laneFind h.found]
  obtain ⟨hother, hbytes⟩ := pocWrite_bytes hnear hm bs false
  rw [hperform]
  exact ⟨hother, hbytes, laneFind_laneMod hfind fun _ => rfl⟩

end Sys2Proof.Machine
end

section
/-! PROOFS. The scrubbers: the next line of a unit or of a local memory, and what a line without errors leaves (R259 to R261). -/

namespace Sys2Proof.Machine

/-! ### The scrubber of a unit (R259, R261) -/

/-- A scrub of a line without errors or poison changes nothing. -/
theorem scrubRead_clean {s : State} (hlatent : s.latent = []) (hpoison : s.poison = []) (u : Option Nat) (a : Nat) :
    scrubRead s u a = s := by
  have hfind : findLine s a false = s := by simp [findLine, latentOf, hlatent]
  have hnone (n : Nat) : isPoisoned s a n = false := by simp [isPoisoned, hpoison]
  simp [scrubRead, hfind, hnone]

/-- A unit whose scrubber goes on to its next line, after the last one to the first. -/
def scrubNext (s : State) (u : Nat) : Unit → Unit := fun m =>
  { m with
    scrubAt := if decide (unitLines s ≤ (memUnit s u).scrubAt + 1) then 0 else (memUnit s u).scrubAt + 1
    scrubFrom := now s + fld s (Reg.hbmScrubCtl u) 31 8 }

/-- The state as the scrubber of a unit goes on to its next line; after the last one a pass is counted. -/
def scrubAdvanced (s : State) (u : Nat) : State :=
  if decide (unitLines s ≤ (memUnit s u).scrubAt + 1) then countWrap (modUnit s u (scrubNext s u)) (Reg.hbmScrubPass u)
  else modUnit s u (scrubNext s u)

theorem scrubAdvanced_at (s : State) (u : Nat) :
    let n := (memUnit s u).scrubAt
    (memUnit (scrubAdvanced s u) u).scrubAt = (if n + 1 < unitLines s then n + 1 else 0) ∧
      reg (scrubAdvanced s u) (Reg.hbmScrubPass u) =
        (if n + 1 < unitLines s then reg s (Reg.hbmScrubPass u) else reg s (Reg.hbmScrubPass u) + 1) := by
  intro n
  by_cases hlast : unitLines s ≤ (memUnit s u).scrubAt + 1
  · simp [scrubAdvanced, scrubNext, hlast, countWrap, n, Nat.not_lt.mpr hlast]
  · simp [scrubAdvanced, scrubNext, hlast, n, Nat.lt_of_not_le hlast]

theorem scrubAdvanced_frame (s : State) (u : Nat) :
    SameMemory s (scrubAdvanced s u) ∧ SameRegsBut s (scrubAdvanced s u) [Reg.hbmScrubPass u] ∧
      (scrubAdvanced s u).latent = s.latent ∧ (scrubAdvanced s u).poison = s.poison ∧
      (CachesSound s → CachesSound (scrubAdvanced s u)) := by
  have hsound : CachesSound s → CachesSound (modUnit s u (scrubNext s u)) := (CacheKeeps.modUnit s u id).sound
  unfold scrubAdvanced
  split
  · exact ⟨fun _ => rfl, (setReg_onlyRegs _ _ _).2, rfl, rfl, hsound⟩
  · exact ⟨fun _ => rfl, fun _ _ => rfl, rfl, rfl, hsound⟩

/-- A line without errors is scrubbed: the scrubber goes on, and at most latent errors of the line are cleared. -/
theorem scrubLine_clean {s : State} {u : Nat} (hrun : unitRuns s u = true) (hready : unitReady s u = true)
    (hon : flag s (Reg.hbmScrubCtl u) 0 = true) (hroom : scrubFree s (some u) ≠ none) (hdue : (memUnit s u).scrubFrom ≤ now s)
    (hfree : freeCapacity s u ≠ 0) (hlatent : s.latent = []) (hs : CachesSound s) (hpoison : s.poison = []) :
    ∃ k, exec (.scrubLine u) s = .next { scrubAdvanced s u with latent := k } := by
  obtain ⟨-, -, hl, hp, hsound⟩ := scrubAdvanced_frame s u
  have hroom' : (scrubFree s (some u)).isNone = false := Option.isNone_eq_false_iff.mpr (Option.isSome_iff_ne_none.mpr hroom)
  generalize hr : scrubAdvanced s u = r at hl hp hsound
  unfold scrubAdvanced scrubNext at hr
  show ∃ k, execScrubLine u s = _
  simp only [execScrubLine, hrun, hready, hon, hroom', hfree, Nat.not_lt.mpr hdue, Bool.not_true, Bool.or_self, decide_false,
    Bool.false_eq_true, if_false, hr]
  split
  · next x hx =>
    obtain ⟨w, -, hw⟩ := Option.bind_eq_some_iff.mp hx
    have hgood := (hsound hs).good_of_wayAt hw
    split
    · exact ⟨r.latent, rfl⟩
    · refine ⟨(writeBack r u (memUnit s u).scrubAt).latent, ?_⟩
      have hnone (a n : Nat) : isPoisoned (writeBack r u (memUnit s u).scrubAt) a n = false := by
        simp [isPoisoned, writeBack, hp, hpoison]
      have hcount (a : Nat) : (latentOf r (sectorsOf a 128)).count .single = 0 := by simp [latentOf, hl, hlatent]
      simp only [readArray_good r u _ hgood, hcount, countCorr, hnone, Bool.false_and, Bool.false_eq_true, if_false]
      rfl
  · exact ⟨r.latent, by rw [scrubRead_clean (hl.trans hlatent) (hp.trans hpoison)]⟩

/-! ### The scrubber of a local memory (R260, R261) -/

/-- The errors of sectors that were dropped are gone. -/
theorem latentOf_dropped (s : State) (ks : List Nat) :
    latentOf { s with latent := sdrop s.latent fun k => ks.contains k } ks = [] := by
  refine List.filterMap_eq_nil_iff.mpr fun k hk => ?_
  rw [Option.map_eq_none_iff, List.find?_eq_none]
  intro e he hek
  have hkept := (List.mem_filter.mp he).2
  rw [eq_of_beq hek] at hkept
  simp [hk] at hkept

/-- One corrected error of a line in a local memory is counted and gone (R261). -/
theorem findLine_single {s : State} {a : Nat} (hlocal : isLocalAddr a = true) (herr : latentOf s (sectorsOf a 64) = [.single])
    (d : Bool) : findLine s a d =
      countSat { s with latent := sdrop s.latent fun k => (sectorsOf a 64).contains k } Reg.cmpEccCnt := by
  have hwidth : eccLine a = 64 := if_pos hlocal
  have hnolog : logUnit { s with latent := sdrop s.latent fun k => (sectorsOf a 64).contains k } a = none := if_pos hlocal
  have hcount : [Ecc.single].count .single = 1 := rfl
  have hcorrected : [Ecc.single].contains .uncorrectable = false := rfl
  simp only [findLine, hwidth, herr, List.isEmpty_cons, hcount, hcorrected, countCorr, hnolog, Bool.false_eq_true, if_false]

/-- The state as the scrubber of a core's local memory goes on to its next line. -/
def localScrubAdvanced (s : State) (c : Nat) : State :=
  modCore s c fun k => { k with
    scrubAt := ((core s c).scrubAt + 1) % 6144, scrubFrom := now s + fld s Reg.cmpScrubCtl 31 8 }

theorem exec_localScrubLine {s : State} {c : Nat} (hc : c < s.pkg.nCores) (hup : partUp s = true) (hawake : s.pkg.slumber = false)
    (hblock : blockState s (blockOf c) ≠ 3) (hon : flag s Reg.cmpScrubCtl 0 = true) (hroom : scrubFree s none ≠ none)
    (hdue : (core s c).scrubFrom ≤ now s) :
    exec (.localScrubLine c) s =
      .next (scrubRead (localScrubAdvanced s c) none (localBase c + 64 * (core s c).scrubAt)) := by
  have hroom' : (scrubFree s none).isNone = false := Option.isNone_eq_false_iff.mpr (Option.isSome_iff_ne_none.mpr hroom)
  show execLocalScrubLine c s = _
  simp only [execLocalScrubLine, hc, hup, hawake, hblock, hon, hroom', Nat.not_lt.mpr hdue, decide_true, decide_false, Bool.not_true,
    Bool.or_self, Bool.false_eq_true, if_false]
  rfl

/-- A corrected error of the line that is due is counted and gone. -/
theorem localScrubLine_corrects {s : State} {c : Nat} (hc : c < s.pkg.nCores) (hup : partUp s = true) (hawake : s.pkg.slumber = false)
    (hblock : blockState s (blockOf c) ≠ 3) (hon : flag s Reg.cmpScrubCtl 0 = true) (hroom : scrubFree s none ≠ none)
    (hdue : (core s c).scrubFrom ≤ now s) (hpoison : s.poison = [])
    (herr : latentOf s (sectorsOf (localBase c + 64 * (core s c).scrubAt) 64) = [.single]) :
    ∃ t, exec (.localScrubLine c) s = .next t ∧ SameMemory s t ∧ SameRegsBut s t [Reg.cmpEccCnt] ∧
      (core t c).scrubAt = ((core s c).scrubAt + 1) % 6144 ∧ reg t Reg.cmpEccCnt = satInc (reg s Reg.cmpEccCnt) ∧
      latentOf t (sectorsOf (localBase c + 64 * (core s c).scrubAt) 64) = [] := by
  have hexec := exec_localScrubLine hc hup hawake hblock hon hroom hdue
  have hlocal := isLocalAddr_localBase c (64 * (core s c).scrubAt)
  generalize localBase c + 64 * (core s c).scrubAt = a at hexec hlocal herr
  have hclean (n : Nat) : isPoisoned (localScrubAdvanced s c) a n = false := by
    have hp : (localScrubAdvanced s c).poison = [] := hpoison
    simp [isPoisoned, hp]
  have hfound := findLine_single (s := localScrubAdvanced s c) hlocal herr false
  rw [scrubRead, hclean, hfound, Bool.false_and, if_neg Bool.false_ne_true] at hexec
  refine ⟨_, hexec, fun _ => rfl, (setReg_onlyRegs _ _ _).2, ?_, reg_setReg_same _ _ _, latentOf_dropped s _⟩
  show (core (localScrubAdvanced s c) c).scrubAt = _
  rw [localScrubAdvanced, core_modCore_same]

/-- Settles O37: each event by the lemma that says what its command comes to. -/
theorem bufferCachePreloadAndScrub : Obligations.BufferCachePreloadAndScrub := by
  unfold Obligations.BufferCachePreloadAndScrub
  intro o u c id v s cmd ctl i l w fits placeable sound
  refine ⟨bcLockWrite_locks, preloadGo_acts, preloadStop_ends, fun hrun hplace hs => ?preload, fun x r => prefetchFetch_caches,
    cacheDrainStart_drains, cacheDrainComplete_empties, fun a hfound hsent hopen hnear hidle hfirst => ?access,
    fun hrun hready hon hroom hdue hfree hlatent hs hpoison => ?scrub,
    fun hc hup hawake hblock hon hroom hdue hpoison _ => localScrubLine_corrects hc hup hawake hblock hon hroom hdue hpoison⟩
  case preload =>
    obtain ⟨hnew, hopen, hlatent⟩ := hplace
    obtain ⟨hkeeps, hnext, hin⟩ := preloadPlace_places (i := i) rfl rfl hnew hopen hlatent hs
    refine ⟨fun hmore => ⟨_, exec_preloadLine hrun hmore, hkeeps.sameMemory, hkeeps.sameRegs, hnext, hin⟩, fun hlast => ?_⟩
    exact ⟨_, exec_preloadComplete hrun hlast, hkeeps.sameMemory, hkeeps.sameRegs.trans_sameRegsBut (setReg_onlyRegs _ cmd _).2,
      flag_setFlag_same _ cmd (by decide) false, hin⟩
  case access =>
    have ha : Servable s u c id a := ⟨hfound, hsent, hopen, hnear, hidle, hfirst⟩
    refine ⟨fun hbeat => by rw [ha.exec_eq, hbeat, if_neg Bool.false_ne_true], fun hbeat => ?_⟩
    have hexec := ha.exec_eq
    rw [hbeat, if_pos rfl] at hexec
    refine ⟨fun hdown => ?_, fun rd n g hready hload hlatent hs hclean => ?_, fun bs hready hstore hm => ?_⟩
    · rw [hdown, if_neg Bool.false_ne_true] at hexec
      exact ⟨_, hexec, fun _ => rfl, fun _ => rfl, laneFind_laneMod hfound fun _ => rfl⟩
    · rw [hready, if_pos rfl] at hexec
      obtain ⟨line, hmem, hanswer⟩ := ha.load_answered hload hlatent hs hclean
      exact ⟨_, line, hexec, hmem, hanswer⟩
    · rw [hready, if_pos rfl] at hexec
      exact ⟨_, hexec, ha.store_performed hstore hm⟩
  case scrub =>
    obtain ⟨k, hexec⟩ := scrubLine_clean hrun hready hon hroom hdue hfree hlatent hs hpoison
    obtain ⟨hmem, hregs, -⟩ := scrubAdvanced_frame s u
    exact ⟨_, hexec, hmem, hregs, scrubAdvanced_at s u⟩

end Sys2Proof.Machine
end

section
/-! PROOFS. DMA channels as plain data: one channel replaced, and what an access of a channel reads of the state beside channels,
bytes and counters (R194, R267, R287). -/

namespace Sys2Proof.Machine

/-! ### One channel replaced -/

@[simp] theorem chan_setChan_same (s : State) (ch : Chan) (x : DmaChan) : chan (setChan s ch x) ch = x := by
  cases ch with
  | sys i n => exact sget_sput_same _ _ _ _
  | tile c k =>
    rw [setChan, chan, core_modCore_same]
    exact sget_sput_same _ _ _ _

@[simp] theorem setChan_setChan (s : State) (ch : Chan) (x y : DmaChan) : setChan (setChan s ch x) ch y = setChan s ch y := by
  cases ch with
  | sys i n => simp only [setChan, sput_sput]
  | tile c k => simp only [setChan, modCore, setCore_setCore, core_setCore_same, sput_sput]

@[simp] theorem setChan_poison (s : State) (ch : Chan) (x : DmaChan) : (setChan s ch x).poison = s.poison := by cases ch <;> rfl

@[simp] theorem setChan_latent (s : State) (ch : Chan) (x : DmaChan) : (setChan s ch x).latent = s.latent := by cases ch <;> rfl

@[simp] theorem setChan_regs (s : State) (ch : Chan) (x : DmaChan) : (setChan s ch x).regs = s.regs := by cases ch <;> rfl

@[simp] theorem setChan_pkg (s : State) (ch : Chan) (x : DmaChan) : (setChan s ch x).pkg = s.pkg := by cases ch <;> rfl

@[simp] theorem reg_setChan (s : State) (ch : Chan) (x : DmaChan) (o : Nat) : reg (setChan s ch x) o = reg s o := by
  simp [reg]

/-- Of the cores a channel replaced changes nothing but tile channels. -/
theorem core_setChan (s : State) (ch : Chan) (x : DmaChan) (c : Nat) :
    core (setChan s ch x) c = { core s c with tdma := (core (setChan s ch x) c).tdma } := by
  cases ch with
  | sys i n => rfl
  | tile d k =>
    by_cases h : c = d
    · rw [setChan, h, core_modCore_same]
    · rw [setChan, core_modCore_other s _ h]

/-- A read of memory and its poison see no channel. -/
@[simp] theorem readMem_setChan (s : State) (ch : Chan) (x : DmaChan) (a n : Nat) : readMem (setChan s ch x) a n = readMem s a n := by
  simp [readMem]

@[simp] theorem isPoisoned_setChan (s : State) (ch : Chan) (x : DmaChan) (a n : Nat) :
    isPoisoned (setChan s ch x) a n = isPoisoned s a n := by
  simp [isPoisoned]

/-! ### Writes of memory that find no error (R261, R262) -/

/-- Without latent errors a write renews check bits and finds nothing. -/
theorem renewChecks_clean {s : State} (hlatent : s.latent = []) (a n : Nat) :
    renewChecks s a n = if hasEcc a then cleanSectors (cleanSectors s (wholeSectors a n)) (wholeSectors a n)
      else cleanSectors s (wholeSectors a n) := by
  have hclean : (cleanSectors s (wholeSectors a n)).latent = [] := by simp [cleanSectors, hlatent, sdrop]
  simp only [renewChecks]
  rw [List.foldl_fixed' (fun g => demandRead_clean hclean g 1)]

/-- A write that finds no error sees no channel. -/
theorem writeMem_setChan {s : State} (hlatent : s.latent = []) (ch : Chan) (x : DmaChan) (a : Nat) (bs : List Byte) :
    writeMem (setChan s ch x) a bs = setChan (writeMem s a bs) ch x := by
  simp only [writeMem, renewChecks_clean hlatent, renewChecks_clean ((setChan_latent s ch x).trans hlatent)]
  split
  · rfl
  · split <;> cases ch <;> rfl

/-- A write that finds no error changes bytes and poison alone. -/
theorem writeMem_clean {s : State} (hlatent : s.latent = []) (a : Nat) (bs : List Byte) :
    ∃ z, writeMem s a bs = written s (memPutAll s.mem a bs) z := writeMem_written hlatent s.mem s.poison a bs

/-- Bytes written stand where they were written, and nowhere else. -/
theorem writeMem_bytes {s : State} (hm : MemoryCanonical s) (a : Nat) (bs : List Byte) :
    SameMemoryBut s (writeMem s a bs) a bs.length ∧ ∀ i (hi : i < bs.length), byteAt (writeMem s a bs) (a + i) = bs[i] :=
  ⟨fun x hx => memGet_writeMem_outside s a x bs hm hx, fun i hi => memGet_writeMem_inside s a i bs hm hi⟩

/-! ### What decides where an access leads and whether it is served (R35, R194, R438) -/

/-- What addresses, paths, worlds and deadlines read of the state is the same in both. -/
structure SamePaths (s t : State) : Prop where
  pkg : t.pkg = s.pkg
  regs : t.regs = s.regs
  tb : t.tb = s.tb
  slotNow : t.slotNow = s.slotNow
  drv : t.drv = s.drv
  core : ∀ c, core t c = { core s c with tdma := (core t c).tdma }
  masks : ∀ u, (memUnit t u).refNow = (memUnit s u).refNow ∧ (memUnit t u).gearNow = (memUnit s u).gearNow

namespace SamePaths

theorem refl (s : State) : SamePaths s s := ⟨rfl, rfl, rfl, rfl, rfl, fun _ => rfl, fun _ => ⟨rfl, rfl⟩⟩

theorem trans {s t u : State} (hst : SamePaths s t) (htu : SamePaths t u) : SamePaths s u where
  pkg := htu.pkg.trans hst.pkg
  regs := htu.regs.trans hst.regs
  tb := htu.tb.trans hst.tb
  slotNow := htu.slotNow.trans hst.slotNow
  drv := htu.drv.trans hst.drv
  core c := by rw [htu.core c, hst.core c]
  masks u := ⟨(htu.masks u).1.trans (hst.masks u).1, (htu.masks u).2.trans (hst.masks u).2⟩

theorem setChan (s : State) (ch : Chan) (x : DmaChan) : SamePaths s (setChan s ch x) := by
  have hcore := core_setChan s ch x
  cases ch with
  | sys i n => exact ⟨rfl, rfl, rfl, rfl, rfl, hcore, fun _ => ⟨rfl, rfl⟩⟩
  | tile c k => exact ⟨rfl, rfl, rfl, rfl, rfl, hcore, fun _ => ⟨rfl, rfl⟩⟩

theorem written (s : State) (m : List Host.Cell) (z : List Nat) : SamePaths s (written s m z) :=
  ⟨rfl, rfl, rfl, rfl, rfl, fun _ => rfl, fun _ => ⟨rfl, rfl⟩⟩

theorem writeMem {s : State} (hlatent : s.latent = []) (a : Nat) (bs : List Byte) : SamePaths s (writeMem s a bs) := by
  obtain ⟨z, hz⟩ := writeMem_clean hlatent a bs
  exact hz ▸ written s _ z

section
variable {s t : State} (h : SamePaths s t)
include h

theorem reg (o : Nat) : reg t o = reg s o := by rw [Machine.reg, h.regs, h.pkg, Machine.reg]

theorem sameRegs : SameRegs s t := h.reg

theorem fld (o hi lo : Nat) : fld t o hi lo = fld s o hi lo := by rw [Machine.fld, h.reg, Machine.fld]

theorem flag (o i : Nat) : flag t o i = flag s o i := by rw [Machine.flag, h.reg, Machine.flag]

theorem now : now t = now s := by rw [Machine.now, h.tb, Machine.now]

theorem csr (c : Nat) : (Machine.core t c).csr = (Machine.core s c).csr := by rw [h.core]

theorem lane (c : Nat) : (Machine.core t c).lane = (Machine.core s c).lane := by rw [h.core]

theorem resetJob (c : Nat) : (Machine.core t c).resetJob = (Machine.core s c).resetJob := by rw [h.core]

theorem coreCsr (c n : Nat) : coreCsr t c n = coreCsr s c n := by rw [Machine.coreCsr, h.csr, Machine.coreCsr]

theorem nearSize : nearSize t = nearSize s := by simp only [Machine.nearSize, Machine.unitSize, h.pkg]

theorem unitOf (a : Nat) : unitOf t a = unitOf s a := by simp only [Machine.unitOf, Machine.unitSize, h.pkg, h.fld]

theorem unitReady (u : Nat) : unitReady t u = unitReady s u := h.flag _ _

theorem target (a : Nat) : target t a = target s a := by
  simp only [Machine.target, h.nearSize, h.unitOf, h.pkg, h.fld, h.flag]

theorem partUp : partUp t = partUp s := by simp only [Machine.partUp, h.pkg]

theorem dieUp (c : Nat) : dieUp t c = dieUp s c := by simp only [Machine.dieUp, drvUp, h.partUp, h.pkg, h.drv]

theorem blockState (b : Nat) : blockState t b = blockState s b := h.fld _ _ _

theorem coreDown (c : Nat) : coreDown t c = coreDown s c := by
  simp only [Machine.coreDown, h.blockState, h.dieUp, h.resetJob]

theorem relocking (c : Nat) : relocking t c = relocking s c := by simp only [Machine.relocking, h.coreCsr]

theorem rectOn (n : Nat) : rectOn t n = rectOn s n := h.flag _ _

theorem rectGuarded (n : Nat) : rectGuarded t n = rectGuarded s n := h.flag _ _

theorem rectOf (c : Nat) : rectOf t c = rectOf s c := by simp only [Machine.rectOf, h.rectOn, h.reg]

theorem queueCtx (q : Nat) : queueCtx t q = queueCtx s q := h.fld _ _ _

theorem exitOf (a : Nat) : exitOf t a = exitOf s a := by simp only [Machine.exitOf, h.target, h.fld]

theorem rowSerai (c : Nat) : rowSerai t c = rowSerai s c := by simp only [Machine.rowSerai, h.pkg]

theorem rowHop (c : Nat) : rowHop t c = rowHop s c := by
  funext x n
  simp only [Machine.rowHop, h.rowSerai]

theorem coreToUnit (c u : Nat) : coreToUnit t c u = coreToUnit s c u := by simp only [Machine.coreToUnit, h.rowHop, h.rowSerai]

theorem coreToSerai (c e : Nat) : coreToSerai t c e = coreToSerai s c e := by simp only [Machine.coreToSerai, h.rowHop, h.rowSerai]

theorem pathHops (c a : Nat) : pathHops t c a = pathHops s c a := by
  simp only [Machine.pathHops, h.coreToUnit, h.coreToSerai, h.exitOf]

theorem agentHops (ag : Agent) (a : Nat) : agentHops t ag a = agentHops s ag a := by
  simp only [Machine.agentHops, h.coreToUnit, h.coreToSerai, h.target, h.pathHops, h.exitOf, h.pkg]

theorem indexUsable (u k : Nat) : indexUsable t u k = indexUsable s u k := by
  simp only [Machine.indexUsable, refMask, gearMask, h.fld, (h.masks u).1, (h.masks u).2]

theorem slotEntry (l k : Nat) : slotEntry t l k = slotEntry s l k := by simp only [Machine.slotEntry, h.slotNow]

theorem slotUsable (e : Option Nat) (tag : Nat) (out : Bool) : slotUsable t e tag out = slotUsable s e tag out := by
  funext hop k
  simp only [Machine.slotUsable, h.slotEntry, h.indexUsable]

theorem hopsServed (e : Option Nat) (tag : Nat) (out : Bool) (hs : List Hop) : hopsServed t e tag out hs = hopsServed s e tag out hs := by
  simp only [Machine.hopsServed, h.slotUsable]

/-- The path of an engine serves it in both. -/
theorem agentServed (ag : Agent) (a : Nat) : agentServed t ag a = agentServed s ag a := by
  simp only [Machine.agentServed, agentRelocks, agentExit, h.agentHops, h.target, h.relocking, h.hopsServed]

theorem ctxTag (c : Nat) : ctxTag t c = ctxTag s c := h.fld _ _ _

theorem chanRect (ch : Chan) (q : Option Nat) : chanRect t ch q = chanRect s ch q := by
  cases ch with
  | sys i n => simp only [Machine.chanRect, h.ctxTag, h.queueCtx, h.rectOn]
  | tile c k => exact h.rectOf c

theorem chanAgent (ch : Chan) (q : Option Nat) : chanAgent t ch q = chanAgent s ch q := by
  simp only [Machine.chanAgent, h.chanRect]

theorem ctlOff (c k : Nat) : ctlOff t c k = ctlOff s c k := by simp only [Machine.ctlOff, h.fld]

theorem codecBound (k : Nat) : codecBound t k = codecBound s k := by simp only [Machine.codecBound, h.fld]

end

end SamePaths

/-! ### Room in a lane port (R202, R287) -/

/-- The accesses of a channel that are in flight. -/
def openAccesses (x : DmaChan) : Nat :=
  (x.descs.map fun d => d.waits.countP fun w => (w.op.isNone || w.reached.isSome) && (w.write || w.got.isNone)).sum

theorem openAccesses_quiet {x : DmaChan} (h : ∀ d ∈ x.descs, d.waits = []) : openAccesses x = 0 := by
  rw [openAccesses, List.map_congr_left (g := fun _ => 0) fun d hd => by rw [h d hd, List.countP_nil]]
  simp

/-- A key of a map written takes its share of a sum from the old value to the new one. -/
theorem sum_sput {α : Type} (f : α → Nat) (m : Sparse α) (k : Nat) (v : α) {d : α} (hd : f d = 0) :
    ((sput m k v).map fun e => f e.2).sum + f (sget m k d) = (m.map fun e => f e.2).sum + f v := by
  induction m with
  | nil => simp [sput, sget, hd]
  | cons e r ih =>
    rcases Nat.lt_trichotomy k e.1 with h | h | h
    · simp [sput, sget, h, Nat.ne_of_lt h, hd]
      omega
    · simp [sput, sget, h]
      omega
    · simp [sput, sget, Nat.not_lt.mpr h.le, Nat.ne_of_gt h]
      omega

/-- A channel replaced by one with as many accesses in flight leaves the ports as full as they were. -/
theorem portFull_setChan (s : State) {ch : Chan} {x : DmaChan} (hx : openAccesses x = openAccesses (chan s ch)) (a : Nat) :
    portFull (setChan s ch x) ch a = portFull s ch a := by
  have hpath := SamePaths.setChan s ch x
  cases ch with
  | sys i n => rfl
  | tile c k =>
    have hflight : tileInFlight (setChan s (.tile c k) x) c = tileInFlight s c := by
      have hsum := sum_sput openAccesses (core s c).tdma k x (d := DmaChan.reset) rfl
      simp only [setChan, tileInFlight, core_modCore_same]
      simp only [openAccesses, chan] at hsum hx
      omega
    have hused : laneUsed (setChan s (.tile c k) x) c = laneUsed s c := by rw [laneUsed, laneUsed, hpath.lane, hflight]
    simp only [portFull, laneFull, hpath.agentHops, hused]

end Sys2Proof.Machine
end

section
/-! PROOFS. A channel with one descriptor: its descriptor changed, its accesses to local memory, and the start and end of its issue
(R268, R270, R281, R285, R295). -/

namespace Sys2Proof.Machine

/-! ### The one descriptor of a channel -/

/-- A state whose channel `ch` is `x`, but for its one descriptor `d`. -/
def withDesc (s : State) (ch : Chan) (x : DmaChan) (d : Desc) : State := setChan s ch { x with descs := [d] }

section
variable (s : State) (ch : Chan) (x : DmaChan) (d : Desc)

@[simp] theorem chan_withDesc : chan (withDesc s ch x d) ch = { x with descs := [d] } := chan_setChan_same s ch _

theorem descOf_withDesc {n : Nat} (hn : d.serial = n) : descOf (withDesc s ch x d) ch n = some d := by
  simp [descOf, hn]

/-- The one descriptor of a channel changed. -/
theorem modDesc_eq {s : State} {ch : Chan} {d : Desc} (hd : (chan s ch).descs = [d]) {n : Nat} (hn : d.serial = n) (f : Desc → Desc) :
    modDesc s ch n f = withDesc s ch (chan s ch) (f d) := by
  simp [modDesc, modChan, withDesc, hd, hn]

theorem modDesc_withDesc {n : Nat} (hn : d.serial = n) (f : Desc → Desc) :
    modDesc (withDesc s ch x d) ch n f = withDesc s ch x (f d) := by
  rw [modDesc_eq (by rw [chan_withDesc]) hn, chan_withDesc, withDesc, withDesc, setChan_setChan, withDesc]

theorem paths_withDesc : SamePaths s (withDesc s ch x d) := .setChan s ch _

@[simp] theorem withDesc_mem : (withDesc s ch x d).mem = s.mem := setChan_mem s ch _

@[simp] theorem withDesc_latent : (withDesc s ch x d).latent = s.latent := setChan_latent s ch _

@[simp] theorem isPoisoned_withDesc (a n : Nat) : isPoisoned (withDesc s ch x d) a n = isPoisoned s a n := isPoisoned_setChan s ch _ a n

@[simp] theorem readMem_withDesc (a n : Nat) : readMem (withDesc s ch x d) a n = readMem s a n := readMem_setChan s ch _ a n

theorem quiet_withDesc {d : Desc} (hd : d.waits = []) : ∀ e ∈ (chan (withDesc s ch x d) ch).descs, e.waits = [] := by
  simpa using hd

/-- A channel whose one descriptor waits for nothing has nothing to serve. -/
theorem serveWaits_quiet {s : State} {ch : Chan} (h : ∀ d ∈ (chan s ch).descs, d.waits = []) : serveWaits s ch = s := by
  have hnil : ((chan s ch).descs.flatMap fun d => (d.waits.filter fun w => w.op.isSome).map fun w => (d.serial, w.piece, w.slot)) = [] :=
    List.flatMap_eq_nil_iff.mpr fun d hd => by rw [h d hd]; rfl
  rw [serveWaits, hnil, List.foldl_nil]

theorem olderOpen_quiet {s : State} {ch : Chan} (h : ∀ d ∈ (chan s ch).descs, d.waits = []) (n : Nat) (w : EngineWait) :
    olderOpen s ch n w = false := by
  have hnil : ((chan s ch).descs.flatMap fun d => d.waits.map fun x => (d.serial, x.piece, x.slot, x)) = [] :=
    List.flatMap_eq_nil_iff.mpr fun d hd => by rw [h d hd, List.map_nil]
  rw [olderOpen, hnil]
  rfl

end

/-! ### STAT of a control line (R295) -/

/-- STAT is not written where neither STATE nor LAST has changed. -/
theorem syncStat_same {s t : State} {ch : Chan} (hstate : chanState (chan t ch) = chanState (chan s ch))
    (hlast : (chan t ch).last = (chan s ch).last) : syncStat s t ch = t := by
  cases ch with
  | sys i n => rfl
  | tile c k => simp only [syncStat, statWord, hstate, hlast, if_true]

/-- A channel with a descriptor that is not in its trigger wait issues or drains, unless it aborts or has faulted. -/
theorem chanState_busy {x : DmaChan} {d : Desc} (hx : x.descs = [d]) (hd : d.stage ≠ .trigger) :
    chanState x = if x.aborting || x.faulted then 3 else 2 := by
  simp [chanState, hx, hd]

/-- A command that leaves the one descriptor of its channel out of its trigger wait writes no STAT. -/
theorem syncStat_withDesc {s b : State} {ch : Chan} {d e : Desc} (hs : (chan s ch).descs = [d]) (hd : d.stage ≠ .trigger)
    (he : e.stage ≠ .trigger) : syncStat s (withDesc b ch (chan s ch) e) ch = withDesc b ch (chan s ch) e := by
  refine syncStat_same ?_ (by rw [chan_withDesc])
  rw [chanState_busy hs hd, chanState_busy (d := e) (by rw [chan_withDesc]) he, chan_withDesc]

/-! ### The start of issue (R281, R283) -/

/-- A descriptor that goes into issue. -/
def begun (s : State) (d : Desc) : Desc :=
  { d with stage := .issuing, paceAt := now s, paceUsed := 0, eb := codecBound s (dCkind d.words) }

/-- A descriptor without barrier whose trigger holds goes into issue. -/
theorem beginDesc_issues {s : State} {ch : Chan} {d : Desc} (hcur : curDesc (chan s ch) = some d) (hstage : d.stage ≠ .issuing)
    (hbar : dBarrier d.words = false) (htrig : triggerHolds s ch d.words = true) :
    beginDesc s ch = modDesc s ch d.serial (begun s) := by
  have hmay : mayBegin (chan s ch) d = true := by rw [mayBegin, hbar]; rfl
  unfold beginDesc
  simp only [hcur, hstage, hmay, hbar, htrig, decide_false, Bool.not_true, Bool.or_false, Bool.false_eq_true, if_false, if_true]
  rfl

theorem curDesc_one {x : DmaChan} {d : Desc} (hx : x.descs = [d]) (hd : d.stage = .fetched ∨ d.stage = .trigger ∨ d.stage = .issuing) :
    curDesc x = some d := by
  rw [curDesc, hx, List.find?_cons_of_pos]
  rcases hd with h | h | h <;> simp [h]

/-! ### The end of issue (R268, R285) -/

theorem endIssue_drains {b : State} {ch : Chan} {x : DmaChan} {d : Desc} {n : Nat} (hn : d.serial = n) (hstage : d.stage = .issuing)
    (hall : dTotal d.words ≤ d.next) : endIssue (withDesc b ch x d) ch n = withDesc b ch x { d with stage := .drain } := by
  simp [endIssue, modDesc_withDesc b ch x d hn, hstage, hall]

/-! ### Accesses to a local memory (R194, R261, R438) -/

/-- An address of a local memory whose core is up, on a path that serves the engine, for a channel with room in its port. -/
def LocalServed (s : State) (ch : Chan) (ag : Agent) (a : Nat) : Prop :=
  (∃ c x, target s a = .localMem c x ∧ coreDown s c = false) ∧ agentServed s ag a = true ∧ portFull s ch a = false

/-- Service depends on what paths read, and on the accesses in flight of the channel. -/
theorem LocalServed.withDesc {s : State} {ch : Chan} {ag : Agent} {a : Nat} (h : LocalServed s ch ag a)
    {d e : Desc} (hs : (chan s ch).descs = [d]) (hd : d.waits = []) (he : e.waits = []) (x : DmaChan) :
    LocalServed (withDesc s ch x e) ch ag a := by
  obtain ⟨⟨c, y, htarget, hup⟩, hserved, hroom⟩ := h
  have hpath := paths_withDesc s ch x e
  refine ⟨⟨c, y, (hpath.target a).trans htarget, (hpath.coreDown c).trans hup⟩, (hpath.agentServed ag a).trans hserved, ?_⟩
  rw [Machine.withDesc, portFull_setChan s, hroom]
  rw [openAccesses_quiet, openAccesses_quiet]
  · simpa [hs] using hd
  · simpa using he

theorem engineRead_local {s : State} {ch : Chan} {ag : Agent} {a n : Nat} (h : LocalServed s ch ag a) (hlatent : s.latent = [])
    (hclean : isPoisoned s a n = false) (rq : Requester) (hinted : Bool) :
    engineRead s ag rq a n hinted = .done s (readMem s a n) 0 := by
  obtain ⟨⟨c, x, htarget, hup⟩, hserved, -⟩ := h
  simp [engineRead, htarget, hserved, hup, demandRead_clean hlatent, poisonStatus, hclean]

theorem engineWrite_local {s : State} {ch : Chan} {ag : Agent} {a : Nat} (h : LocalServed s ch ag a) (rq : Requester) (bs : List Byte) :
    engineWrite s ag rq a bs false = .done (writeMem s a bs) [] 0 := by
  obtain ⟨⟨c, x, htarget, hup⟩, hserved, -⟩ := h
  simp [engineWrite, htarget, hserved, hup, writeData]

/-- An access that nothing holds up ends as its target answers it. -/
theorem tryAccess_ends {s t : State} {ch : Chan} {d : Desc} {w : EngineWait} {op : EngineOp} {bs : List Byte} {st : Nat}
    (hop : w.op = some op) (hreached : w.reached = none) (hquiet : ∀ e ∈ (chan s ch).descs, e.waits = [])
    (hroom : portFull s ch (physOf d.pages w.addr) = false) (hnow : accessNow s ch d w op = .done t bs st) :
    tryAccess s ch d w = (t, { w with op := none, reached := none }, some (bs, st)) := by
  simp [tryAccess, hop, hreached, olderOpen_quiet hquiet, hroom, cxlLate, hnow]

/-- Accesses of a channel are its own but for the writes of rows that were dispatched (R276, R278). -/
theorem waitAgent_chan {s : State} {ch : Chan} {d : Desc} {w : EngineWait} (h : w.write = false ∨ d.rows = [] ∨ dOp d.words ≠ 4) :
    waitAgent s ch d w = chanAgent s ch d.queue := by
  unfold waitAgent
  rw [List.find?_eq_none.mpr]
  rcases h with h | h | h <;> simp [h]

/-- A read of a local memory that nothing holds up ends with its bytes. -/
theorem tryAccess_read {s : State} {ch : Chan} {d : Desc} {p slot a n i : Nat} {hinted : Bool} (hpages : d.pages = [])
    (hserved : LocalServed s ch (chanAgent s ch d.queue) a) (hquiet : ∀ e ∈ (chan s ch).descs, e.waits = [])
    (hlatent : s.latent = []) (hclean : isPoisoned s a n = false) :
    tryAccess s ch d (newWait p slot a n i false (.read hinted)) =
      (s, { newWait p slot a n i false (.read hinted) with op := none }, some (readMem s a n, 0)) := by
  refine tryAccess_ends rfl rfl hquiet (by rw [hpages]; exact hserved.2.2) ?_
  rw [accessNow, waitAgent_chan (.inl rfl), hpages]
  exact engineRead_local hserved hlatent hclean _ _

/-- A write to a local memory that nothing holds up performs. -/
theorem tryAccess_write {s : State} {ch : Chan} {d : Desc} {p slot a n i : Nat} {bs : List Byte} {ag : Agent} (hpages : d.pages = [])
    (hag : waitAgent s ch d (newWait p slot a n i true (.write bs false)) = ag)
    (hserved : LocalServed s ch ag a) (hquiet : ∀ e ∈ (chan s ch).descs, e.waits = []) :
    tryAccess s ch d (newWait p slot a n i true (.write bs false)) =
      (writeMem s a bs, { newWait p slot a n i true (.write bs false) with op := none }, some ([], 0)) := by
  refine tryAccess_ends rfl rfl hquiet (by rw [hpages]; exact hserved.2.2) ?_
  rw [accessNow, hag, hpages]
  exact engineWrite_local hserved _ _

/-! ### The bytes written, counted (R340) -/

theorem countDma_withDesc (s : State) (ch : Chan) (x : DmaChan) (e d : Desc) (n : Nat) :
    countDma (withDesc s ch x e) ch d n = withDesc (countDma s ch d n) ch x e := by
  unfold countDma
  cases ch with
  | sys i k => cases d.queue <;> rfl
  | tile c k => rfl

theorem paths_countDma (s : State) (ch : Chan) (d : Desc) (n : Nat) : SamePaths s (countDma s ch d n) := by
  unfold countDma
  split
  · exact ⟨rfl, rfl, rfl, rfl, rfl, fun _ => rfl, fun _ => ⟨rfl, rfl⟩⟩
  · exact .refl s

/-- The one write of a piece or row, performed at once to a local memory. -/
theorem startWrites_one {s : State} {ch : Chan} {x : DmaChan} {d e : Desc} {p slot a n i key rd wr : Nat} {bs : List Byte} {ag : Agent}
    (hpages : d.pages = []) (he : e.waits = [])
    (hag : waitAgent (withDesc s ch x e) ch d (newWait p slot a n i true (.write bs false)) = ag)
    (hserved : LocalServed (withDesc s ch x e) ch ag a) (hlatent : s.latent = []) :
    startWrites ch d key 0 rd wr [newWait p slot a n i true (.write bs false)] (withDesc s ch x e) =
      withDesc (countDma (writeMem s a bs) ch d n) ch x e := by
  have htry := tryAccess_write hpages hag hserved (quiet_withDesc s ch x he)
  have hmem : writeMem (withDesc s ch x e) a bs = withDesc (writeMem s a bs) ch x e := writeMem_setChan hlatent ch _ a bs
  simp only [startWrites, List.foldl_cons, List.foldl_nil, htry, hmem]
  rw [show firstFault _ = 0 from rfl, if_pos rfl]
  exact countDma_withDesc _ ch x e d n

end Sys2Proof.Machine
end

section
/-! PROOFS. COPY, FILL, COMPARE and NOP of one block in local memories (R268, R270, R271, R273 to R275). -/

namespace Sys2Proof.Machine

/-! ### Pieces of one block (R270) -/

theorem strideAddr_zero {a : Nat} (ha : a < 2 ^ 48) (st : Int) : strideAddr a st 0 = a := by
  simp only [strideAddr]
  omega

theorem dDst_lt (w : List DWord) : dDst w < 2 ^ 48 := bits_lt _ 47 0

theorem dSrc_lt (w : List DWord) : dSrc w < 2 ^ 48 := bits_lt _ 47 0

/-- A descriptor of one row whose destination lies in one 64-byte block is one piece; a COMPARE's source must too. -/
theorem pieceAt_block {w : List DWord} (hdesc : descends w = false) (hblock : dDst w % 64 + dLen w ≤ 64)
    (hsrc : dOp w = 3 → dSrc w % 64 + dLen w ≤ 64) : pieceAt w 0 = ⟨0, 0, dSrc w, dDst w, dLen w⟩ := by
  have hlen : Nat.min (64 - dDst w % 64) (dLen w) = dLen w := Nat.min_eq_right (by omega)
  simp only [pieceAt, hdesc, Bool.false_eq_true, if_false, Nat.zero_div, Nat.zero_mod, Nat.sub_zero, Nat.add_zero,
    strideAddr_zero (dDst_lt w), strideAddr_zero (dSrc_lt w), hlen]
  split
  · next h => rw [show Nat.min (dLen w) (64 - dSrc w % 64) = dLen w from Nat.min_eq_left (by have := hsrc h; omega)]
  · rfl

/-- A range within one 128-byte line is one access. -/
theorem lineCuts_one {a n : Nat} (hn : 0 < n) (h : a % 128 + n ≤ 128) : lineCuts a n = [(a, n)] := by
  have hcount : (a + n - 1) / 128 + 1 - a / 128 = 1 := by omega
  have hlo : Nat.max a (128 * (a / 128)) = a := Nat.max_eq_left (by omega)
  have hhi : Nat.min (a + n) (128 * (a / 128 + 1)) = a + n := Nat.min_eq_left (by omega)
  simp [lineCuts, linePieces, Nat.ne_of_gt hn, hcount, upFrom, hlo, hhi]

/-! ### A descriptor that begins and ends in one command -/

/-- A descriptor that drains with `m` bytes counted and the position `f` noted, no register having changed. -/
def Drained (s t : State) (ch : Chan) (d : Desc) (m : Nat) (f : Option Nat) : Prop :=
  SameRegs s t ∧ ∃ x, (chan t ch).descs = [x] ∧ x.stage = .drain ∧ x.next = m ∧ x.fail = none ∧ x.waits = [] ∧ x.mism = f ∧
    x.words = d.words ∧ x.serial = d.serial

theorem drained_withDesc {s b : State} (hb : SamePaths s b) (ch : Chan) (x : DmaChan) {d e : Desc} {m : Nat} {f : Option Nat}
    (hnext : e.next = m) (hfail : e.fail = none) (hwaits : e.waits = []) (hmism : e.mism = f) (hwords : e.words = d.words)
    (hserial : e.serial = d.serial) : Drained s (withDesc b ch x { e with stage := .drain }) ch d m f :=
  ⟨(hb.trans (paths_withDesc b ch x _)).sameRegs, { e with stage := .drain }, by rw [chan_withDesc], rfl,
    hnext, hfail, hwaits, hmism, hwords, hserial⟩

/-- The one descriptor of a channel, fetched and not begun, without barrier or trigger. -/
structure FreshDesc (s : State) (ch : Chan) (d : Desc) : Prop where
  descs : (chan s ch).descs = [d]
  stage : d.stage = .fetched
  next : d.next = 0
  fail : d.fail = none
  waits : d.waits = []
  pages : d.pages = []
  barrier : dBarrier d.words = false
  trig : dTrig d.words = 0
  pace : dPaceLines d.words = 0

namespace FreshDesc
variable {s : State} {ch : Chan} {d : Desc} (h : FreshDesc s ch d)
include h

theorem quiet : ∀ e ∈ (chan s ch).descs, e.waits = [] := by
  simpa [h.descs] using h.waits

theorem curDesc : curDesc (chan s ch) = some d := curDesc_one h.descs (.inl h.stage)

theorem not_trigger : d.stage ≠ .trigger := by rw [h.stage]; decide

theorem begins : beginDesc s ch = withDesc s ch (chan s ch) (begun s d) := by
  rw [beginDesc_issues h.curDesc (by rw [h.stage]; decide) h.barrier (by simp only [triggerHolds, h.trig]), modDesc_eq h.descs rfl]

theorem runPieces {op : Nat} (hop : dOp d.words = op) :
    runPieces s ch op =
      endIssue (issueLoop ch d.serial (dTotal d.words) (withDesc s ch (chan s ch) (begun s d))) ch d.serial := by
  simp only [Machine.runPieces, serveWaits_quiet h.quiet, h.curDesc, h.begins, h.next, Nat.sub_zero]
  rw [if_neg (by rw [hop]; exact fun hne => hne rfl)]

theorem served {ag : Agent} {a : Nat} (ha : LocalServed s ch ag a) {e : Desc} (he : e.waits = []) :
    LocalServed (withDesc s ch (chan s ch) e) ch ag a := ha.withDesc h.descs h.waits he _

/-- A command that issues the whole descriptor at once leaves it draining. -/
theorem runs_to_end {op : Nat} (hop : dOp d.words = op) {b : State} {e : Desc} (htotal : 0 < dTotal d.words)
    (hissue : issuePiece (withDesc s ch (chan s ch) (begun s d)) ch (begun s d) = some (withDesc b ch (chan s ch) e))
    (hserial : e.serial = d.serial) (hwords : e.words = d.words) (hstage : e.stage = .issuing) (hnext : dTotal d.words ≤ e.next) :
    syncStat s (Machine.runPieces s ch op) ch = withDesc b ch (chan s ch) { e with stage := .drain } := by
  have hfirst : (descOf (withDesc s ch (chan s ch) (begun s d)) ch d.serial).bind
      (issuePiece (withDesc s ch (chan s ch) (begun s d)) ch) = some (withDesc b ch (chan s ch) e) := by
    rw [descOf_withDesc _ ch _ (begun s d) (n := d.serial) rfl]
    exact hissue
  have hlast : (descOf (withDesc b ch (chan s ch) e) ch d.serial).bind (issuePiece (withDesc b ch (chan s ch) e) ch) = none := by
    rw [descOf_withDesc _ ch _ e hserial]
    simp [issuePiece, hwords, hnext]
  obtain ⟨n, hn⟩ := Nat.exists_eq_succ_of_ne_zero htotal.ne'
  have hdone (m : Nat) : issueLoop ch d.serial m (withDesc b ch (chan s ch) e) = withDesc b ch (chan s ch) e := by
    cases m with
    | zero => rfl
    | succ m => simp only [issueLoop, hlast]
  rw [h.runPieces hop, hn]
  simp only [issueLoop, hfirst, hdone]
  rw [endIssue_drains hserial hstage (by rw [hwords]; exact hnext)]
  exact syncStat_withDesc h.descs h.not_trigger (by simp)

end FreshDesc

/-! ### Reads and writes of the piece -/

/-- A descriptor of one row, without codec, of a length that its operation uses. -/
structure OneBlock (w : List DWord) : Prop where
  codec : dCodec w = 0
  dim2 : dDim2 w = false
  rows : dRows w = 1
  pos : 0 < dLen w
  block : dDst w % 64 + dLen w ≤ 64

theorem OneBlock.total {w : List DWord} (h : OneBlock w) (h0 : dOp w ≠ 0) (h4 : dOp w ≠ 4) : dTotal w = dLen w := by
  simp [dTotal, h0, h4, h.rows]

/-- A read that ended at once with its bytes. -/
def endedRead (slot a n i : Nat) (bs : List Byte) : EngineWait := ⟨0, slot, a, n, i, false, some (bs, 0), none, none⟩

theorem startReads_nil (s : State) (ch : Chan) (d : Desc) : startReads ch d s [] = (s, []) := rfl

/-- Reads that each end at once, and change nothing, end one after another. -/
theorem startReads_cons {s : State} {ch : Chan} {d : Desc} {w v : EngineWait} {bs : List Byte} {st : Nat}
    (h : tryAccess s ch d w = (s, v, some (bs, st))) (r : List EngineWait) :
    startReads ch d s (w :: r) =
      ((startReads ch d s r).1, { v with got := some (bs, BitVec.ofNat 8 st) } :: (startReads ch d s r).2) := by
  simp [startReads, h]

/-- A descriptor whose one piece has issued with its reads `ws`. -/
def issued (d : Desc) (n : Nat) (ws : List EngineWait) : Desc :=
  { d with next := d.next + n, paceUsed := d.paceUsed + 1, waits := ws }

/-- A piece whose reads have all ended goes on at once, and its reads are dropped. -/
theorem startPiece_ended {b : State} {ch : Chan} {x : DmaChan} {d : Desc} {n : Nat} {ws : List EngineWait} (hw : d.waits = [])
    (hnext : d.next = 0) (hended : ∀ w ∈ ws, w.piece = 0 ∧ w.write = false ∧ w.got.isSome = true) (hcodec : dCodec d.words = 0) :
    startPiece (withDesc b ch x d) ch d n ws =
      if dOp d.words = 3 then comparePiece ch (issued d n ws) (pieceAt d.words 0) ws (withDesc b ch x (issued d n []))
      else copyPiece ch (issued d n ws) (pieceAt d.words 0) ws (withDesc b ch x (issued d n [])) := by
  have hopen : (ws.any fun w => w.got.isNone) = false :=
    List.any_eq_false.mpr fun w hin => by simp [(hended w hin).2.2, Option.isNone_iff_eq_none, ← Option.isSome_iff_ne_none]
  have hmine : ws.filter (fun w => decide (w.piece = 0) && !w.write) = ws :=
    List.filter_eq_self.mpr fun w hin => by simp [(hended w hin).1, (hended w hin).2.1]
  have hdrop : ws.filter (fun w => !(decide (w.piece = 0) && !w.write)) = [] :=
    List.filter_eq_nil_iff.mpr fun w hin => by simp [(hended w hin).1, (hended w hin).2.1]
  have hnote : noteIssue (withDesc b ch x d) ch d.serial n 1 ws = withDesc b ch x (issued d n ws) := by
    rw [noteIssue, modDesc_withDesc b ch x d rfl, hw, List.nil_append, issued]
  have hkey : (issued d n ws).next - n = 0 := by simp [issued, hnext]
  have hafter : dropWaits (withDesc b ch x (issued d n ws)) ch d.serial (fun w => decide (w.piece = 0) && !w.write) =
      withDesc b ch x (issued d n []) := by
    rw [dropWaits, modDesc_withDesc b ch x (issued d n ws) (n := d.serial) rfl]
    simp only [issued, hdrop]
  have hfind := descOf_withDesc b ch x (issued d n ws) (n := d.serial) rfl
  simp only [startPiece, hw, List.any_nil, Bool.and_false, Bool.false_or, hopen, Bool.false_eq_true, if_false, hnote, hfind, hkey]
  simp only [finishPiece, show (issued d n ws).waits = ws from rfl, show (issued d n ws).words = d.words from rfl,
    show (issued d n ws).serial = d.serial from rfl, hmine, hafter, hcodec, if_true]

/-- A COPY piece whose one read has ended writes what it read. -/
theorem copyPiece_one (ch : Chan) (d : Desc) (p : Piece) (slot a n i : Nat) (bs : List Byte) (s : State) :
    copyPiece ch d p [endedRead slot a n i bs] s =
      startWrites ch d p.key 0 a p.dst [newWait p.key writeSlot p.dst p.len i true (.write bs false)] s := by
  have hfault : firstFault ([endedRead slot a n i bs].map fun r => (gotOf r).2) = 0 := rfl
  have hbytes : ([endedRead slot a n i bs].flatMap fun r => (gotOf r).1) = bs := List.append_nil bs
  simp only [copyPiece, hfault, hbytes, ne_eq, not_true_eq_false, false_and, if_false]
  rfl

/-- A COMPARE piece whose source and destination have been read notes the lowest position at which they differ. -/
theorem comparePiece_one (b : State) (ch : Chan) (x : DmaChan) {d e : Desc} (hserial : e.serial = d.serial) (hm : e.mism = none)
    (a c n i : Nat) (l r : List Byte) (src dst len : Nat) :
    comparePiece ch d ⟨0, 0, src, dst, len⟩ [endedRead 0 a n i l, endedRead 128 c n i r] (withDesc b ch x e) =
      withDesc b ch x { e with mism := firstDiff l r } := by
  have hfault : firstFault ([endedRead 0 a n i l, endedRead 128 c n i r].map fun r => (gotOf r).2) = 0 := rfl
  have hleft : (([endedRead 0 a n i l, endedRead 128 c n i r].filter fun r => decide (r.slot < 128) == true).flatMap fun r => (gotOf r).1) = l :=
    List.append_nil l
  have hright : (([endedRead 0 a n i l, endedRead 128 c n i r].filter fun r => decide (r.slot < 128) == false).flatMap fun r => (gotOf r).1) = r :=
    List.append_nil r
  simp only [comparePiece, hfault, ne_eq, not_true_eq_false, if_false, hleft, hright]
  cases firstDiff l r with
  | none =>
    cases e
    cases hm
    rfl
  | some o =>
    simp only [modDesc_withDesc b ch x e hserial, hm, Option.getD_none, Nat.zero_add, Nat.min_eq_left (Nat.le_refl o)]

/-! ### The operations (R271, R273 to R275) -/

namespace FreshDesc
variable {s : State} {ch : Chan} {d : Desc} (h : FreshDesc s ch d)
include h

/-- The one piece of a descriptor issues: a FILL writes at once, the others read first. -/
theorem issuePiece_eq (hb : OneBlock d.words) (htotal : dTotal d.words = dLen d.words) :
    let t := withDesc s ch (chan s ch) (begun s d)
    let p := pieceAt d.words 0
    issuePiece t ch (begun s d) =
      if dOp d.words = 2 then
        some (startWrites ch (begun s d) p.key 0 p.dst p.dst
          [newWait p.key writeSlot p.dst p.len (now t) true (.write (fillBytes (ent d.words 1) p.dst p.len) false)]
          (withDesc s ch (chan s ch) (issued (begun s d) p.len [])))
      else
        let r := startReads ch (begun s d) t (pieceReads t (begun s d) p)
        some (startPiece r.1 ch (begun s d) p.len r.2) := by
  intro t p
  have hpos : ¬ dTotal d.words ≤ d.next := by
    rw [htotal, h.next]
    exact Nat.not_le.mpr hb.pos
  have hdepth : ¬ chanDepth ch ≤ inFlight (chan t ch) := by
    simp only [t, chan_withDesc, inFlight, begun, h.waits, List.map_cons, List.map_nil, List.dedup_nil, List.length_nil, List.sum_cons,
      List.sum_nil]
    cases ch <;> simp [chanDepth]
  have hpace : paceFull (begun s d) = false := by simp [paceFull, begun, h.pace]
  have hnote : noteIssue t ch d.serial p.len 1 [] = withDesc s ch (chan s ch) (issued (begun s d) p.len []) := by
    refine (modDesc_withDesc s ch _ (begun s d) (n := d.serial) rfl _).trans ?_
    simp only [issued, begun, h.waits, List.append_nil]
  have hp : pieceAt d.words d.next = p := by rw [h.next]
  unfold issuePiece
  simp only [hp, hdepth, hpace, show (begun s d).stage = .issuing from rfl, show (begun s d).words = d.words from rfl,
    show (begun s d).next = d.next from rfl, show (begun s d).fail = d.fail from rfl, show (begun s d).serial = d.serial from rfl,
    hpos, h.fail, hb.codec, hnote, ne_eq, not_true_eq_false, decide_false, Option.isSome_none, Bool.or_false, Bool.false_eq_true, if_false]

/-- A read of the piece ends at once with its bytes, before the reads after it. -/
theorem read_ends {a : Nat} (ha : LocalServed s ch (chanAgent s ch d.queue) a) (hlatent : s.latent = [])
    (hclean : isPoisoned s a (dLen d.words) = false) (slot i : Nat) (hinted : Bool) (r : List EngineWait) :
    let t := withDesc s ch (chan s ch) (begun s d)
    startReads ch (begun s d) t (newWait 0 slot a (dLen d.words) i false (.read hinted) :: r) =
      ((startReads ch (begun s d) t r).1, endedRead slot a (dLen d.words) i (readMem s a (dLen d.words)) :: (startReads ch (begun s d) t r).2) := by
  intro t
  rw [← readMem_withDesc s ch (chan s ch) (begun s d)]
  refine startReads_cons (tryAccess_read (d := begun s d) h.pages ?_ (quiet_withDesc s ch _ (d := begun s d) h.waits)
    ((withDesc_latent s ch _ _).trans hlatent) ((isPoisoned_withDesc s ch _ _ _ _).trans hclean)) r
  rw [(paths_withDesc s ch _ _).chanAgent]
  exact h.served ha h.waits

/-- The bytes of the piece are written at once, and the descriptor has issued. -/
theorem write_ends {a : Nat} (ha : LocalServed s ch (chanAgent s ch d.queue) a) (hlatent : s.latent = []) (h4 : dOp d.words ≠ 4)
    {e : Desc} (hpages : e.pages = []) (hwords : e.words = d.words) (hqueue : e.queue = d.queue) (wh wr i : Nat) (bs : List Byte) :
    startWrites ch e 0 0 wh wr [newWait 0 writeSlot a (dLen d.words) i true (.write bs false)]
        (withDesc s ch (chan s ch) (issued (begun s d) (dLen d.words) [])) =
      withDesc (countDma (writeMem s a bs) ch e (dLen d.words)) ch (chan s ch) (issued (begun s d) (dLen d.words) []) := by
  refine startWrites_one hpages rfl ?_ (h.served ha rfl) hlatent
  rw [waitAgent_chan (.inr (.inr (by rw [hwords]; exact h4))), hqueue, (paths_withDesc s ch _ _).chanAgent]

end FreshDesc

/-- What a write by the channel leaves: its bytes, nowhere else a change, and no path. -/
theorem countDma_writeMem {s : State} (hm : MemoryCanonical s) (hlatent : s.latent = []) (ch : Chan) (x : DmaChan) (e d : Desc)
    (a k : Nat) (bs : List Byte) :
    let t := withDesc (countDma (writeMem s a bs) ch d k) ch x e
    SamePaths s (countDma (writeMem s a bs) ch d k) ∧ SameMemoryBut s t a bs.length ∧
      ∀ i (hi : i < bs.length), byteAt t (a + i) = bs[i] := by
  intro t
  have hmem : t.mem = (writeMem s a bs).mem := by rw [withDesc_mem, countDma_mem]
  obtain ⟨hother, hbytes⟩ := writeMem_bytes hm a bs
  refine ⟨(SamePaths.writeMem hlatent a bs).trans (paths_countDma _ ch d k), fun y hy => ?_, fun i hi => ?_⟩
  · rw [byteAt, hmem]
    exact hother y hy
  · rw [byteAt, hmem]
    exact hbytes i hi

/-- The bytes of a FILL (R273). -/
theorem fillBytes_getElem (p : DWord) (a n : Nat) {i : Nat} (hi : i < (fillBytes p a n).length) :
    (fillBytes p a n)[i] = p.extractLsb' (8 * ((a + i) % 8)) 8 := by
  simp only [fillBytes, List.getElem_map, List.getElem_range]
  refine BitVec.eq_of_toNat_eq ?_
  rw [BitVec.toNat_ofNat, BitVec.extractLsb'_toNat]

/-- The lowest index at which byte strings differ: below it they agree, and without one they agree everywhere (R274). -/
theorem firstDiff_spec (s : State) (a b n : Nat) :
    (firstDiff (readMem s a n) (readMem s b n) = none → ∀ k, k < n → byteAt s (a + k) = byteAt s (b + k)) ∧
    ∀ j, firstDiff (readMem s a n) (readMem s b n) = some j → j < n ∧ byteAt s (a + j) ≠ byteAt s (b + j) ∧
      ∀ k, k < j → byteAt s (a + k) = byteAt s (b + k) := by
  have hnth (c k : Nat) (hk : k < n) : nth (readMem s c n) k 0 = byteAt s (c + k) := by
    simp [nth, readMem, byteAt, hk]
  have hdiff (k : Nat) (hk : k < n) :
      (nth (readMem s a n) k 0 != nth (readMem s b n) k 0) = false ↔ byteAt s (a + k) = byteAt s (b + k) := by
    rw [hnth a k hk, hnth b k hk, bne_eq_false_iff_eq]
  rw [firstDiff, readMem_length]
  refine ⟨fun hnone k hk => ?_, fun j hj => ?_⟩
  · exact (hdiff k hk).mp (by simpa using List.find?_eq_none.mp hnone k (List.mem_range.mpr hk))
  · rw [List.find?_range_eq_some] at hj
    obtain ⟨hne, hlt, hbelow⟩ := hj
    have hj := List.mem_range.mp hlt
    refine ⟨hj, fun he => ?_, fun k hk => (hdiff k (hk.trans hj)).mp (by simpa using hbelow k hk)⟩
    rw [(hdiff j hj).mpr he] at hne
    cases hne

end Sys2Proof.Machine
end

section
/-! PROOFS. Each operation of a channel on one block, whole (R271, R273 to R275). -/

namespace Sys2Proof.Machine

theorem when_chanRuns {s : State} {ch : Chan} (h : chanRuns s ch = true) (t : State) : when s (chanRuns s ch) t = .next t := by
  rw [Machine.when, if_pos h]

section
variable {s : State} {ch : Chan} {d : Desc} (h : FreshDesc s ch d) (hruns : chanRuns s ch = true)
include h hruns

/-- A command whose one piece issues leaves the descriptor draining, with what the piece left. -/
theorem FreshDesc.exec_drains {op : Nat} {i : Instr} (hexec : exec i s = when s (chanRuns s ch) (syncStat s (Machine.runPieces s ch op) ch))
    (hop : dOp d.words = op) (hb : OneBlock d.words) (htotal : dTotal d.words = dLen d.words) {b : State} (hpaths : SamePaths s b)
    {e : Desc} (he : e = { issued (begun s d) (dLen d.words) [] with mism := e.mism })
    (hissue : issuePiece (withDesc s ch (chan s ch) (begun s d)) ch (begun s d) = some (withDesc b ch (chan s ch) e)) :
    exec i s = .next (withDesc b ch (chan s ch) { e with stage := .drain }) ∧
      Drained s (withDesc b ch (chan s ch) { e with stage := .drain }) ch d (dLen d.words) e.mism := by
  have hnext : e.next = dLen d.words := by rw [he]; simp [issued, begun, h.next]
  have hwords : e.words = d.words := by rw [he]; rfl
  have hserial : e.serial = d.serial := by rw [he]; rfl
  refine ⟨?_, drained_withDesc hpaths ch _ hnext (by rw [he]; exact h.fail) (by rw [he]; rfl) rfl hwords hserial⟩
  rw [hexec, when_chanRuns hruns, h.runs_to_end hop (by rw [htotal]; exact hb.pos) hissue hserial hwords (by rw [he]; rfl)
    (by rw [htotal, hnext])]

variable (hlatent : s.latent = [])
include hlatent

/-- COPY of one block (R271). -/
theorem FreshDesc.copy_drains (hm : MemoryCanonical s) (hmism : d.mism = none) (hop : dOp d.words = 1) (hb : OneBlock d.words)
    (hdst : LocalServed s ch (chanAgent s ch d.queue) (dDst d.words)) (hsrc : LocalServed s ch (chanAgent s ch d.queue) (dSrc d.words))
    (hline : dSrc d.words % 128 + dLen d.words ≤ 128) (hdesc : descends d.words = false)
    (hclean : isPoisoned s (dSrc d.words) (dLen d.words) = false) :
    ∃ t, exec (.copy ch) s = .next t ∧ Drained s t ch d (dLen d.words) none ∧ SameMemoryBut s t (dDst d.words) (dLen d.words) ∧
      ∀ k, k < dLen d.words → byteAt t (dDst d.words + k) = byteAt s (dSrc d.words + k) := by
  have htotal := hb.total (by rw [hop]; decide) (by rw [hop]; decide)
  have hpiece := pieceAt_block hdesc hb.block (by rw [hop]; intro h; cases h)
  have hreads (t : State) : pieceReads t (begun s d) ⟨0, 0, dSrc d.words, dDst d.words, dLen d.words⟩ =
      [newWait 0 0 (dSrc d.words) (dLen d.words) (now t) false (.read (dHint d.words))] := by
    simp [pieceReads, lineCuts_one hb.pos hline, begun, hop]
  have hissue := h.issuePiece_eq hb htotal
  simp only [hpiece, hreads, h.read_ends hsrc hlatent hclean, startReads_nil] at hissue
  rw [if_neg (by rw [hop]; decide)] at hissue
  have hstart (i : Nat) (ws : List EngineWait) (hws : ws = [endedRead 0 (dSrc d.words) (dLen d.words) i (readMem s (dSrc d.words) (dLen d.words))]) :
      startPiece (withDesc s ch (chan s ch) (begun s d)) ch (begun s d) (dLen d.words) ws =
        withDesc (countDma (writeMem s (dDst d.words) (readMem s (dSrc d.words) (dLen d.words))) ch
          (issued (begun s d) (dLen d.words) ws) (dLen d.words)) ch (chan s ch) (issued (begun s d) (dLen d.words) []) := by
    rw [startPiece_ended (d := begun s d) h.waits h.next (by simp [hws, endedRead]) hb.codec, if_neg (by rw [begun, hop]; decide),
      show (begun s d).words = d.words from rfl, hpiece, hws, copyPiece_one]
    exact h.write_ends hdst hlatent (by rw [hop]; decide) h.pages rfl rfl _ _ i _
  rw [hstart _ _ rfl] at hissue
  obtain ⟨hpaths, hother, hbytes⟩ := countDma_writeMem hm hlatent ch (chan s ch) _ _ _ _ _
  obtain ⟨hexec, hdrained⟩ := h.exec_drains hruns (i := .copy ch) rfl hop hb htotal hpaths rfl hissue
  rw [readMem_length] at hother
  refine ⟨_, hexec, hmism ▸ hdrained, hother, fun k hk => ?_⟩
  rw [hbytes k (by rwa [readMem_length]), readMem_getElem]

/-- FILL of one block (R273). -/
theorem FreshDesc.fill_drains (hm : MemoryCanonical s) (hmism : d.mism = none) (hop : dOp d.words = 2) (hb : OneBlock d.words)
    (hdst : LocalServed s ch (chanAgent s ch d.queue) (dDst d.words)) :
    ∃ t, exec (.fill ch) s = .next t ∧ Drained s t ch d (dLen d.words) none ∧ SameMemoryBut s t (dDst d.words) (dLen d.words) ∧
      ∀ k, k < dLen d.words → byteAt t (dDst d.words + k) = (ent d.words 1).extractLsb' (8 * ((dDst d.words + k) % 8)) 8 := by
  have htotal := hb.total (by rw [hop]; decide) (by rw [hop]; decide)
  have hpiece := pieceAt_block (by simp [descends, hop]) hb.block (by rw [hop]; intro h; cases h)
  have hlen : (fillBytes (ent d.words 1) (dDst d.words) (dLen d.words)).length = dLen d.words := by simp [fillBytes]
  have hissue := h.issuePiece_eq hb htotal
  simp only [hpiece] at hissue
  rw [if_pos hop, h.write_ends hdst hlatent (by rw [hop]; decide) (e := begun s d) h.pages rfl rfl] at hissue
  obtain ⟨hpaths, hother, hbytes⟩ := countDma_writeMem hm hlatent ch (chan s ch) _ _ _ _ _
  obtain ⟨hexec, hdrained⟩ := h.exec_drains hruns (i := .fill ch) rfl hop hb htotal hpaths rfl hissue
  rw [hlen] at hother
  refine ⟨_, hexec, hmism ▸ hdrained, hother, fun k hk => ?_⟩
  rw [hbytes k (by rwa [hlen]), fillBytes_getElem]

/-- COMPARE of one block (R274). -/
theorem FreshDesc.compare_drains (hmism : d.mism = none) (hop : dOp d.words = 3) (hb : OneBlock d.words)
    (hdst : LocalServed s ch (chanAgent s ch d.queue) (dDst d.words)) (hsrc : LocalServed s ch (chanAgent s ch d.queue) (dSrc d.words))
    (hblock : dSrc d.words % 64 + dLen d.words ≤ 64) (hcleanSrc : isPoisoned s (dSrc d.words) (dLen d.words) = false)
    (hcleanDst : isPoisoned s (dDst d.words) (dLen d.words) = false) :
    ∃ t, exec (.compare ch) s = .next t ∧ SameMemory s t ∧
      Drained s t ch d (dLen d.words) (firstDiff (readMem s (dSrc d.words) (dLen d.words)) (readMem s (dDst d.words) (dLen d.words))) := by
  have htotal := hb.total (by rw [hop]; decide) (by rw [hop]; decide)
  have hpiece := pieceAt_block (by simp [descends, hop]) hb.block fun _ => hblock
  have hone := hb.block
  have hreads (t : State) : pieceReads t (begun s d) ⟨0, 0, dSrc d.words, dDst d.words, dLen d.words⟩ =
      [newWait 0 0 (dSrc d.words) (dLen d.words) (now t) false (.read (dHint d.words)),
        newWait 0 128 (dDst d.words) (dLen d.words) (now t) false (.read (dHint d.words))] := by
    simp [pieceReads, lineCuts_one hb.pos (show dSrc d.words % 128 + dLen d.words ≤ 128 by omega),
      lineCuts_one hb.pos (show dDst d.words % 128 + dLen d.words ≤ 128 by omega), begun, hop]
  have hissue := h.issuePiece_eq hb htotal
  simp only [hpiece, hreads, h.read_ends hsrc hlatent hcleanSrc, h.read_ends hdst hlatent hcleanDst, startReads_nil] at hissue
  rw [if_neg (by rw [hop]; decide)] at hissue
  have hstart (i : Nat) (ws : List EngineWait) (hws : ws = [endedRead 0 (dSrc d.words) (dLen d.words) i (readMem s (dSrc d.words) (dLen d.words)),
      endedRead 128 (dDst d.words) (dLen d.words) i (readMem s (dDst d.words) (dLen d.words))]) :
      startPiece (withDesc s ch (chan s ch) (begun s d)) ch (begun s d) (dLen d.words) ws =
        withDesc s ch (chan s ch) { issued (begun s d) (dLen d.words) [] with
          mism := firstDiff (readMem s (dSrc d.words) (dLen d.words)) (readMem s (dDst d.words) (dLen d.words)) } := by
    rw [startPiece_ended (d := begun s d) h.waits h.next (by simp [hws, endedRead]) hb.codec, show (begun s d).words = d.words from rfl,
      if_pos hop, hpiece, hws]
    exact comparePiece_one s ch (chan s ch) (d := issued (begun s d) _ _) (e := issued (begun s d) (dLen d.words) []) rfl hmism ..
  rw [hstart _ _ rfl] at hissue
  obtain ⟨hexec, hdrained⟩ := h.exec_drains hruns (i := .compare ch) rfl hop hb htotal (.refl s) rfl hissue
  exact ⟨_, hexec, sameMemory_of_mem (withDesc_mem s ch _ _), hdrained⟩

omit hlatent in
/-- NOP (R275). -/
theorem FreshDesc.nop_drains (hmism : d.mism = none) (hop : dOp d.words = 0) :
    ∃ t, exec (.nop ch) s = .next t ∧ Drained s t ch d 0 none ∧ SameMemory s t := by
  have htotal : dTotal d.words = 0 := by simp [dTotal, hop]
  have hexec : exec (.nop ch) s = when s (chanRuns s ch) (syncStat s (Machine.runPieces s ch 0) ch) := rfl
  have hend := endIssue_drains (b := s) (ch := ch) (x := chan s ch) (d := begun s d) (n := d.serial) rfl rfl
    (by rw [begun, htotal]; exact Nat.zero_le _)
  rw [when_chanRuns hruns, h.runPieces hop, htotal, issueLoop, hend, syncStat_withDesc h.descs h.not_trigger (by simp)] at hexec
  exact ⟨_, hexec, drained_withDesc (e := begun s d) (.refl s) ch _ h.next h.fail h.waits hmism rfl rfl,
    sameMemory_of_mem (withDesc_mem s ch _ _)⟩

end

/-- Settles O39: one piece reads what it needs, writes or compares it, and ends the issue. -/
theorem dmaOperationsMoveData : Obligations.DmaOperationsMoveData := by
  unfold Obligations.DmaOperationsMoveData
  intro ch d s hm hlatent hruns hdescs hstage hnext hfail hwaits hpages hmism hbar htrig hcodec hpace hdim hrows n src dst up drained
    block
  have h : FreshDesc s ch d := ⟨hdescs, hstage, hnext, hfail, hwaits, hpages, hbar, htrig, hpace⟩
  have hone (hb : block) : OneBlock d.words := ⟨hcodec, hdim, hrows, hb.1, hb.2.1⟩
  refine ⟨fun hop hb hsrc hline hdesc hclean => ?copy, fun hop hb => ?fill, fun hop hb hsrc hblock hcs hcd => ?compare,
    h.nop_drains hruns hmism⟩
  case copy => exact h.copy_drains hruns hlatent hm hmism hop (hone hb) hb.2.2 hsrc hline hdesc hclean
  case fill => exact h.fill_drains hruns hlatent hm hmism hop (hone hb) hb.2.2
  case compare =>
    obtain ⟨t, hexec, hmem, hdrained⟩ := h.compare_drains hruns hlatent hmism hop (hone hb) hb.2.2 hsrc hblock hcs hcd
    obtain ⟨hnone, hsome⟩ := firstDiff_spec s src dst n
    exact ⟨t, _, hexec, hdrained, hmem, hnone, hsome⟩

end Sys2Proof.Machine
end

section
/-! PROOFS. What CXL devices answer to accesses of lane ports, and what happens without an answer (R279, R293). -/

namespace Sys2Proof.Machine

/-! ### The far tier (R35, R261) -/

/-- The far tier lies outside the addresses whose latent errors are kept. -/
theorem hasEcc_of_far {s : State} {a p : Nat} (h : target s a = .far p) : hasEcc a = false := by
  by_contra hecc
  have hout : ¬ (decide (0x100000000000 ≤ a) && decide (a < 0x140000000000)) = true := by
    simp only [hasEcc, isLocalAddr, Bool.not_eq_false, Bool.or_eq_true, decide_eq_true_eq] at hecc
    simp only [Bool.and_eq_true, decide_eq_true_eq]
    omega
  unfold target at h
  rw [if_neg hout] at h
  dsimp only at h
  repeat' split at h
  all_goals cases h

/-- A write of bytes without check bits finds nothing. -/
theorem writeMem_noEcc {a : Nat} (h : hasEcc a = false) (s : State) (bs : List Byte) :
    (writeMem s a bs).regs = s.regs ∧ (writeMem s a bs).pkg = s.pkg := by
  unfold writeMem
  split
  · exact ⟨rfl, rfl⟩
  · simp only [renewChecks, h, Bool.false_eq_true, if_false]
    exact ⟨rfl, rfl⟩

theorem reg_writeMem_noEcc {a : Nat} (h : hasEcc a = false) (s : State) (bs : List Byte) (o : Nat) :
    reg (writeMem s a bs) o = reg s o := by
  obtain ⟨hregs, hpkg⟩ := writeMem_noEcc h s bs
  rw [reg, hregs, hpkg, reg]

/-! ### The greatest latency of a port (R279) -/

/-- LATMAX takes an answer's latency where it is greater. -/
theorem noteLatency_latmax (s : State) (p : Nat) {ns : Nat} (hns : ns < 2 ^ 32) :
    (reg (noteLatency s p ns) (Reg.sraCxlLatmax (p / 2) (p % 2))).toNat =
      max (reg s (Reg.sraCxlLatmax (p / 2) (p % 2))).toNat ns := by
  unfold noteLatency
  dsimp only
  split
  · next h => rw [reg_setReg_same, toNat_ofNat_of_lt hns, max_eq_right h.le]
  · next h => rw [max_eq_left (not_lt.mp h)]

theorem noteLatency_onlyRegs (s : State) (p ns : Nat) : OnlyRegs s (noteLatency s p ns) [Reg.sraCxlLatmax (p / 2) (p % 2)] := by
  unfold noteLatency
  dsimp only
  split
  · exact setReg_onlyRegs s _ _
  · exact OnlyRegs.refl s _

/-! ### Accesses of lane ports (R279) -/

/-- What a CXL port waits on is an address of the far tier. -/
theorem target_of_cxlPending {s : State} {c p : Nat} {x : LaneAccess} (h : cxlPending s c x = some p) : target s x.addr = .far p := by
  unfold cxlPending at h
  split at h
  · next q htarget =>
    split_ifs at h
    rw [htarget, Option.some.inj h]
  · cases h

/-- An access that has its answer, by way of a state whose port has the latency noted. -/
def cxlAnswered (b : State) (c id p ns : Nat) (r : AccessResult) : State :=
  laneMod (noteLatency b p ns) c id fun y => { y with result := some r }

section
variable {b : State} {c id : Nat} {x : LaneAccess} (hf : laneFind b c id = some x)
include hf

theorem laneFind_cxlAnswered (p ns : Nat) (r : AccessResult) :
    laneFind (cxlAnswered b c id p ns r) c id = some { x with result := some r } := by
  refine laneFind_laneMod ?_ fun _ => rfl
  rw [laneFind_of_lane (s := b) (by rw [(noteLatency_onlyRegs b p ns).sameCores c]), hf]

omit hf in
/-- An answer that changes no byte raises LATMAX alone of the registers. -/
theorem cxlAnswered_raises (p : Nat) {ns : Nat} (hns : ns < 2 ^ 32) (r : AccessResult) :
    (SameRegsBut b (cxlAnswered b c id p ns r) [Reg.sraCxlLatmax (p / 2) (p % 2)] ∧
      (reg (cxlAnswered b c id p ns r) (Reg.sraCxlLatmax (p / 2) (p % 2))).toNat =
        max (reg b (Reg.sraCxlLatmax (p / 2) (p % 2))).toNat ns) ∧ SameMemory b (cxlAnswered b c id p ns r) :=
  ⟨⟨(noteLatency_onlyRegs b p ns).2, noteLatency_latmax b p hns⟩, (noteLatency_onlyRegs b p ns).sameMemory⟩

end

section
variable {s : State} {c id p : Nat} {x : LaneAccess} (hf : laneFind s c id = some x) (hp : cxlPending s c x = some p)
include hf hp

/-- A response at the deadline comes too late. -/
theorem exec_cxlResponse_late (hlate : x.issued + cxlDl s p ≤ now s) (a : CxlAnswer) (ns : Nat) :
    exec (.cxlResponse c id a ns) s = .next s := by
  change execCxlResponse c id a ns s = .next s
  simp only [execCxlResponse, hf, hp, hlate, if_true]

/-- An access unanswered at the deadline has timed out; a store may have performed. -/
theorem exec_cxlTimeout (hlate : x.issued + cxlDl s p ≤ now s) :
    exec (.cxlTimeout c id) s = .next (laneMod (cxlMaybeStore s x) c id fun b => { b with result := some (.fail 0x05) }) := by
  change execCxlTimeout c id s = _
  simp only [execCxlTimeout, hf, hp, hlate, decide_true, Machine.when, if_true]

variable (htime : ¬ x.issued + cxlDl s p ≤ now s) (ns : Nat)
include htime

theorem exec_cxlResponse_load (hload : x.isStore = false) :
    exec (.cxlResponse c id .ok ns) s = .next (cxlAnswered s c id p ns
      (if isPoisoned s x.addr x.size then .fail 0x02 else .ok (readMem s x.addr x.size) (lineAround s x.addr))) := by
  change execCxlResponse c id .ok ns s = _
  simp only [execCxlResponse, hf, hp, htime, if_false]
  split
  · next bs _ hk => simp [LaneAccess.isStore, hk] at hload
  · rfl
  · next h => cases h
  · next h => cases h

theorem exec_cxlResponse_store {bs : List Byte} (hk : x.kind = .store bs) :
    exec (.cxlResponse c id .ok ns) s = .next (cxlAnswered (writeMem s x.addr bs) c id p ns (.ok [] [])) := by
  change execCxlResponse c id .ok ns s = _
  simp only [execCxlResponse, hf, hp, htime, if_false, hk]
  rfl

theorem exec_cxlResponse_error :
    exec (.cxlResponse c id .error ns) s = .next (cxlAnswered (cxlMaybeStore s x) c id p ns (.fail 0x01)) := by
  change execCxlResponse c id .error ns s = _
  simp only [execCxlResponse, hf, hp, htime, if_false]
  rfl

theorem exec_cxlResponse_poison :
    exec (.cxlResponse c id .poison ns) s = .next (cxlAnswered s c id p ns (.fail 0x02)) := by
  change execCxlResponse c id .poison ns s = _
  simp only [execCxlResponse, hf, hp, htime, if_false]
  rfl

end

/-! ### Answers to loads and stores (R279) -/

/-- What an access that is not a store finds at the device leaves the bytes there. -/
theorem cxlMaybeStore_load {x : LaneAccess} (hload : x.isStore = false) (s : State) : cxlMaybeStore s x = s := by
  unfold cxlMaybeStore
  split
  · next bs hk => simp [LaneAccess.isStore, hk] at hload
  · rfl

/-- A store that may have performed changes no register and no core. -/
theorem cxlMaybeStore_frame {s : State} {p : Nat} {x : LaneAccess} (htarget : target s x.addr = .far p) :
    SameRegs s (cxlMaybeStore s x) ∧ (cxlMaybeStore s x).cores = s.cores := by
  unfold cxlMaybeStore
  split
  · split
    · exact ⟨reg_writeMem_noEcc (hasEcc_of_far htarget) s _, writeMem_cores s _ _⟩
    · exact ⟨fun _ => rfl, rfl⟩
  · exact ⟨fun _ => rfl, rfl⟩

section
variable {s : State} {c id p : Nat} {x : LaneAccess} (hf : laneFind s c id = some x) (hp : cxlPending s c x = some p)
include hf hp

theorem cxlTimeout_answers (hlate : x.issued + cxlDl s p ≤ now s) :
    ∃ t, exec (.cxlTimeout c id) s = .next t ∧ SameRegs s t ∧ (x.isStore = false → SameMemory s t) ∧
      laneFind t c id = some { x with result := some (.fail 0x05) } := by
  obtain ⟨hregs, hcores⟩ := cxlMaybeStore_frame (target_of_cxlPending hp)
  refine ⟨_, exec_cxlTimeout hf hp hlate, hregs, fun hload => ?_, laneFind_laneMod ?_ fun _ => rfl⟩
  · rw [cxlMaybeStore_load hload]
    exact sameMemory_of_mem rfl
  · rw [laneFind_of_lane (s := s) (by rw [core, hcores, core]), hf]

variable (htime : ¬ x.issued + cxlDl s p ≤ now s) {ns : Nat}
include htime

/-- A store that the device performs. -/
theorem cxlStore_performs {bs : List Byte} (hk : x.kind = .store bs) (hm : MemoryCanonical s) :
    ∃ t, exec (.cxlResponse c id .ok ns) s = .next t ∧ laneFind t c id = some { x with result := some (.ok [] []) } ∧
      SameMemoryBut s t x.addr bs.length ∧ ∀ k, k < bs.length → byteAt t (x.addr + k) = nth bs k 0 := by
  have hfind : laneFind (writeMem s x.addr bs) c id = some x := by
    rw [laneFind_of_lane (s := s) (by rw [core, writeMem_cores, core]), hf]
  obtain ⟨hother, hbytes⟩ := writeMem_bytes hm x.addr bs
  have hmem := (noteLatency_onlyRegs (writeMem s x.addr bs) p ns).sameMemory
  refine ⟨_, exec_cxlResponse_store hf hp htime ns hk, laneFind_cxlAnswered hfind p ns _, fun a ha => ?_, fun k hk => ?_⟩
  · exact (hmem a).trans (hother a ha)
  · rw [nth, List.getD_eq_getElem _ _ hk, ← hbytes k hk]
    exact hmem _

end

end Sys2Proof.Machine
end

section
/-! PROOFS. The checks of descriptors and of table rows read of the state what paths read (R269, R276, R277, R280, R316). -/

namespace Sys2Proof.Machine
namespace SamePaths
variable {s t : State} (h : SamePaths s t)
include h

/-! ### Contexts, queues, translations -/

theorem enforced : enforced t = enforced s := h.flag _ _

theorem chanCtx (ch : Chan) (q : Option Nat) : chanCtx t ch q = chanCtx s ch q := by
  have hctx : Machine.queueCtx t = Machine.queueCtx s := funext h.queueCtx
  simp only [Machine.chanCtx, h.enforced, hctx]

theorem ctxGuarded (c : Nat) : ctxGuarded t c = ctxGuarded s c := h.flag _ _

theorem chanGuarded (ch : Chan) (q : Option Nat) : chanGuarded t ch q = chanGuarded s ch q := by
  simp only [Machine.chanGuarded, h.ctxGuarded, h.queueCtx, h.flag]

theorem queueOfChan (i n : Nat) : queueOfChan t i n = queueOfChan s i n := by
  have hon (q : Nat) : queueOn t q = queueOn s q := h.flag _ _
  have hbound (q : Nat) : queueBound t q = queueBound s q := h.flag _ _
  have hchan (q : Nat) : queueChan t q = queueChan s q := by rw [queueChan, h.flag, h.fld, queueChan]
  simp only [Machine.queueOfChan, hon, hbound, hchan]

theorem eventOk (e c : Nat) : eventOk t e c = eventOk s e c := by simp only [Machine.eventOk, h.flag, h.fld]

theorem moValidList : moValidList t = moValidList s := by rw [Machine.moValidList, h.regs, Machine.moValidList]

theorem moCtx (m : Nat) : moCtx t m = moCtx s m := h.fld _ _ _

theorem moVirt (m : Nat) : moVirt t m = moVirt s m := by simp only [Machine.moVirt, h.fld]

theorem moSize (m : Nat) : moSize t m = moSize s m := by simp only [Machine.moSize, h.fld, h.flag]

theorem moPhys (m : Nat) : moPhys t m = moPhys s m := by simp only [Machine.moPhys, h.fld]

theorem moOf (c v : Nat) : moOf t c v = moOf s c v := by
  simp only [Machine.moOf, h.moValidList, h.moCtx, h.moVirt, h.moSize]

theorem translate (c v perm : Nat) : translate t c v perm = translate s c v perm := by
  simp only [Machine.translate, h.moOf, h.flag, h.moPhys, h.moVirt]

theorem translateRows (c perm : Nat) (l : List (Int × Nat)) : translateRows t c perm l = translateRows s c perm l := by
  induction l with
  | nil => rfl
  | cons r l ih => simp only [Machine.translateRows, h.translate, ih]

theorem translateAll (c : Nat) (l : List (Nat × List (Int × Nat))) : translateAll t c l = translateAll s c l := by
  induction l with
  | nil => rfl
  | cons r l ih => simp only [Machine.translateAll, h.translateRows, ih]

theorem readMap (c : Nat) : readMap t c = readMap s c := by
  simp only [Machine.readMap, h.moValidList, h.moCtx, h.moVirt, h.moSize, h.moPhys, h.flag]

theorem mappedParts (c a n : Nat) : mappedParts t c a n = mappedParts s c a n := by
  simp only [Machine.mappedParts, h.moValidList, h.moCtx, h.moVirt, h.moSize, h.moPhys]

theorem deviceParts (c : Option Nat) (a n : Nat) : deviceParts t c a n = deviceParts s c a n := by
  simp only [Machine.deviceParts, h.mappedParts]

/-! ### Checks 1 and 2 -/

theorem oneTier : oneTier t = oneTier s := by
  funext a n
  simp only [Machine.oneTier, h.nearSize]

theorem codecSide : codecSide t = codecSide s := by
  funext a n
  simp only [Machine.codecSide, h.nearSize]

theorem partsWithin (ok : Nat → Nat → Bool) (sh : Nat) (l : List (Nat × Nat × Nat)) : partsWithin t ok sh l = partsWithin s ok sh l := by
  simp only [Machine.partsWithin, h.nearSize]

theorem chainOk (ch : Chan) (q : Option Nat) (n : Nat) : chainOk t ch q n = chainOk s ch q n := by
  simp only [Machine.chainOk, h.queueOfChan, h.queueCtx]

theorem limitsOk (ch : Chan) (q : Option Nat) (w : List DWord) : limitsOk t ch q w = limitsOk s ch q w := by
  simp only [Machine.limitsOk, h.partsWithin, h.oneTier, h.codecSide, h.deviceParts, h.chanCtx, h.now, h.chainOk]

/-! ### Checks 4 and 5 -/

theorem regionEnd (a : Nat) : regionEnd t a = regionEnd s a := by simp only [Machine.regionEnd, h.target, h.nearSize, h.fld]

theorem nearBad (a n : Nat) : nearBad t a n = nearBad s a n := by
  simp only [Machine.nearBad, unitSize, h.fld, h.pkg, h.unitReady, h.unitOf]

theorem rangeBad (f : Nat) : Machine.rangeBad t f = Machine.rangeBad s f := by
  induction f with
  | zero => rfl
  | succ f ih =>
    funext a n
    simp only [Machine.rangeBad, h.regionEnd, h.target, h.nearBad, ih]

theorem firstOutside (r f a n : Nat) : firstOutside t r f a n = firstOutside s r f a n := by
  induction f generalizing a n with
  | zero => rfl
  | succ f ih => simp only [Machine.firstOutside, h.reg, h.fld, ih]

theorem firstGuarded (a n : Nat) : firstGuarded t a n = firstGuarded s a n := by simp only [Machine.firstGuarded, h.reg, h.fld]

theorem firstGlmem (c off n : Nat) : firstGlmem t c off n = firstGlmem s c off n := by
  have hin (o : Nat) : inGlmem t c o = inGlmem s c o := by rw [inGlmem, h.coreCsr, inGlmem]
  simp only [Machine.firstGlmem, hin, h.coreCsr]

theorem mayReachLocal (ch : Chan) (q : Option Nat) (c : Nat) : mayReachLocal t ch q c = mayReachLocal s ch q c := by
  simp only [Machine.mayReachLocal, h.chanRect, h.rectOf]

theorem tenancyBad (ch : Chan) (q : Option Nat) : tenancyBad t ch q = tenancyBad s ch q := by
  funext a n
  simp only [Machine.tenancyBad, h.target, h.mayReachLocal, h.chanGuarded, h.firstGlmem, h.chanRect, h.firstOutside, h.rectGuarded,
    h.firstGuarded]

theorem checkRanges (ch : Chan) (q : Option Nat) (w : List DWord) (pages : List (Nat × Nat)) :
    checkRanges t ch q w pages = checkRanges s ch q w pages := by
  simp only [Machine.checkRanges, h.chanCtx, h.deviceParts, h.rangeBad, h.tenancyBad, h.eventOk, h.queueCtx]

/-- A descriptor passes its checks in both or in neither. -/
theorem checkDesc (ch : Chan) (q : Option Nat) (w : List DWord) : checkDesc t ch q w = checkDesc s ch q w := by
  simp only [Machine.checkDesc, h.limitsOk, h.chanCtx, h.checkRanges, h.translateAll]

/-! ### Table rows (R276) -/

theorem rowSource (ch : Chan) (d : Desc) (x : Nat) : rowSource t ch d x = rowSource s ch d x := by
  simp only [Machine.rowSource, h.chanCtx, h.oneTier, h.rangeBad, h.tenancyBad]

theorem engineOf (a : Nat) : engineOf t a = engineOf s a := by simp only [Machine.engineOf, h.target, h.unitOf]

end SamePaths
end Sys2Proof.Machine
end

section
/-! PROOFS. The one row of a GATHER: its index read, its turn, and the end of its descriptor (R276, R277, R285). -/

namespace Sys2Proof.Machine

/-! ### Rows written -/

/-- A row within one 128-byte line is written by one access. -/
theorem writeRow_one {s : State} (ch : Chan) (d : Desc) {i a : Nat} {bs : List Byte} (ha : dDst d.words + i * dRow d.words = a)
    (hpos : 0 < bs.length) (hline : a % 128 + bs.length ≤ 128) :
    writeRow s ch d i bs false = startWrites ch d i 0 i i [newWait i writeSlot a bs.length (now s) true (.write bs false)] s := by
  simp only [writeRow, ha, lineCuts_one hpos hline, List.zipIdx_cons, List.zipIdx_nil, List.map_cons, List.map_nil, Nat.sub_self,
    List.drop_zero, List.take_length, Nat.add_zero, Bool.false_eq_true, if_false]

/-! ### A GATHER of one row -/

/-- A fresh GATHER of one row, its index without poison in a local memory on a path that serves the channel. -/
structure FreshGather (s : State) (ch : Chan) (d : Desc) : Prop extends FreshDesc s ch d where
  op : dOp d.words = 4
  rows : d.rows = []
  count : dCount d.words = 1
  latent : s.latent = []
  clean : isPoisoned s (dIdx d.words) (dIdxSize d.words) = false
  index : LocalServed s ch (chanAgent s ch d.queue) (dIdx d.words)

/-- The bytes of the index that the row's turn reads. -/
def indexBytes (s : State) (d : Desc) : List Byte := readMem s (dIdx d.words) (dIdxSize d.words)

/-- The one row whose index has been read. -/
def indexed (s : State) (d : Desc) : Desc :=
  { begun s d with waits := [endedRead 0 (dIdx d.words) (dIdxSize d.words) (now s) (indexBytes s d)] }

/-- The one row that has had its turn. -/
def turned (s : State) (d : Desc) : Desc := { begun s d with next := 1 }

namespace FreshGather
variable {s : State} {ch : Chan} {d : Desc} (h : FreshGather s ch d)
include h

theorem total : dTotal d.words = 1 := by simp [dTotal, h.op, h.count]

/-- The index is read at once. -/
theorem rowIndex_eq : rowIndex (withDesc s ch (chan s ch) (begun s d)) ch (begun s d) =
    (withDesc s ch (chan s ch) (indexed s d), some (indexBytes s d, 0)) := by
  have hnext : (begun s d).next = 0 := h.next
  have hwaits : (begun s d).waits = [] := h.waits
  have hword : (begun s d).words = d.words := rfl
  have hpaths := paths_withDesc s ch (chan s ch) (begun s d)
  have hserved : LocalServed (withDesc s ch (chan s ch) (begun s d)) ch
      (chanAgent (withDesc s ch (chan s ch) (begun s d)) ch (begun s d).queue) (dIdx d.words) := by
    rw [hpaths.chanAgent]
    exact h.served h.index hwaits
  have htry := tryAccess_read (d := begun s d) (p := 0) (slot := 0) (n := dIdxSize d.words) (i := now s) (hinted := dHint d.words) h.pages
    hserved (quiet_withDesc s ch _ hwaits)
    ((withDesc_latent s ch _ _).trans h.latent) ((isPoisoned_withDesc s ch _ _ _ _).trans h.clean)
  rw [readMem_withDesc] at htry
  simp only [rowIndex, hwaits, hnext, hword, List.find?_nil, Nat.zero_mul, Nat.add_zero, hpaths.now, htry]
  rw [addWait, modDesc_withDesc s ch _ (begun s d) rfl, hwaits]
  rfl

/-- The wait of the index read goes with the row's turn. -/
theorem rowTurned_eq : rowTurned (withDesc s ch (chan s ch) (indexed s d)) ch (begun s d) = withDesc s ch (chan s ch) (turned s d) := by
  have hnext : (begun s d).next = 0 := h.next
  have hdrop : dropWaits (withDesc s ch (chan s ch) (indexed s d)) ch d.serial (fun w => !w.write && w.piece == 0) =
      withDesc s ch (chan s ch) (begun s d) := by
    rw [dropWaits, modDesc_withDesc s ch _ (indexed s d) (n := d.serial) rfl]
    simp [indexed, begun, endedRead, h.waits]
  have hnote := modDesc_withDesc s ch (chan s ch) (begun s d) (n := d.serial) rfl
  simp only [rowTurned, noteIssue, hnext, show (begun s d).serial = d.serial from rfl, hdrop, hnote, List.append_nil]
  rfl

/-- The turn of the row: zeros written, a failure, or a wait for an entry. -/
theorem gatherRow_eq :
    gatherRow (withDesc s ch (chan s ch) (begun s d)) ch (begun s d) =
      if leNat (indexBytes s d) = 256 ^ dIdxSize d.words - 1 then
        some (writeRow (withDesc s ch (chan s ch) (turned s d)) ch (begun s d) 0 (List.replicate (dRow d.words) 0) false)
      else if dLimit d.words ≤ leNat (indexBytes s d) then
        some (rowFailed (withDesc s ch (chan s ch) (turned s d)) ch (begun s d) 0 0x01 0xFFF)
      else (rowSource s ch d (leNat (indexBytes s d))).elim
        (fun st => some (rowFailed (withDesc s ch (chan s ch) (turned s d)) ch (begun s d) 0 st 0xFFF))
        fun p => some (rowWaits (withDesc s ch (chan s ch) (turned s d)) ch (begun s d) 0 p) := by
  have hwords : (begun s d).words = d.words := rfl
  have hpace : paceFull (begun s d) = false := by simp [paceFull, begun, h.pace]
  have hnext : (begun s d).next = 0 := h.next
  have hwaits : (begun s d).waits = [] := h.waits
  have hrows : (begun s d).rows = [] := h.rows
  have hsource : rowSource (withDesc s ch (chan s ch) (indexed s d)) ch (begun s d) (leNat (indexBytes s d)) =
      rowSource s ch d (leNat (indexBytes s d)) := (paths_withDesc s ch _ _).rowSource ch (begun s d) _
  simp only [gatherRow, h.total, hnext, hwaits, hrows, h.rowIndex_eq, h.rowTurned_eq, hpace, hsource, hwords,
    show (begun s d).stage = .issuing from rfl, List.find?_nil, List.any_nil, ne_eq, not_true_eq_false, decide_false,
    Nat.one_ne_zero, Nat.le_zero, Bool.or_false, Bool.false_eq_true, if_false]
  cases rowSource s ch d (leNat (indexBytes s d)) <;> rfl

/-- The command: the row has its turn, and a descriptor with no row left drains. -/
theorem exec_gather (hruns : chanRuns s ch = true) {b : State} {e : Desc}
    (hturn : gatherRow (withDesc s ch (chan s ch) (begun s d)) ch (begun s d) = some (withDesc b ch (chan s ch) e))
    (hwords : e.words = d.words) (hserial : e.serial = d.serial) (hnext : e.next = 1) (hstage : e.stage = .issuing)  :
    exec (.gather ch) s = .next (withDesc b ch (chan s ch) (if e.rows.any fun r => !r.sent then e else { e with stage := .drain })) := by
  have hfirst : (descOf (withDesc s ch (chan s ch) (begun s d)) ch d.serial).bind
      (gatherRow (withDesc s ch (chan s ch) (begun s d)) ch) = some (withDesc b ch (chan s ch) e) := by
    rw [descOf_withDesc _ ch _ (begun s d) (n := d.serial) rfl]
    exact hturn
  have hfound := descOf_withDesc b ch (chan s ch) e hserial
  have hlast : (descOf (withDesc b ch (chan s ch) e) ch d.serial).bind (gatherRow (withDesc b ch (chan s ch) e) ch) = none := by
    rw [hfound]
    simp [gatherRow, hwords, h.total, hnext]
  have hloop : gatherLoop ch d.serial (2 * (dTotal d.words - d.next)) (withDesc s ch (chan s ch) (begun s d)) =
      withDesc b ch (chan s ch) e := by
    rw [h.total, h.next]
    simp only [gatherLoop, hfirst, hlast]
  have hend : endGather (withDesc b ch (chan s ch) e) ch d.serial =
      withDesc b ch (chan s ch) (if e.rows.any fun r => !r.sent then e else { e with stage := .drain }) := by
    simp only [endGather, hfound]
    split
    · rfl
    · exact endIssue_drains hserial hstage (by rw [hwords, h.total, hnext])
  change execGather ch s = _
  simp only [execGather, h.curDesc, hruns, h.op, decide_true, Bool.and_self, Machine.when, if_true, serveWaits_quiet h.quiet, h.begins,
    hloop, hend]
  rw [syncStat_withDesc h.descs h.not_trigger]
  split <;> simp [hstage]

variable (hruns : chanRuns s ch = true)
include hruns

/-- An index of all ones writes a row of zeros (R276). -/
theorem zero_row (hm : MemoryCanonical s) (hx : leNat (indexBytes s d) = 256 ^ dIdxSize d.words - 1) (hrow : dRow d.words = 64)
    (halign : dDst d.words % 64 = 0) (hdst : LocalServed s ch (chanAgent s ch d.queue) (dDst d.words)) :
    ∃ t z, exec (.gather ch) s = .next t ∧ (chan t ch).descs = [z] ∧ z.stage = .drain ∧ z.fail = none ∧ z.next = 1 ∧
      SameMemoryBut s t (dDst d.words) 64 ∧ ∀ k, k < 64 → byteAt t (dDst d.words + k) = 0 := by
  have hlen : (List.replicate 64 (0 : Byte)).length = 64 := List.length_replicate
  have hwrite := writeRow_one (s := withDesc s ch (chan s ch) (turned s d)) ch (begun s d) (i := 0) (a := dDst d.words)
    (bs := List.replicate 64 0) (by simp [begun]) (by rw [hlen]; decide) (by rw [hlen]; omega)
  have hag (w : EngineWait) : waitAgent (withDesc s ch (chan s ch) (turned s d)) ch (begun s d) w = chanAgent s ch d.queue := by
    rw [waitAgent_chan (d := begun s d) (.inr (.inl h.rows)), (paths_withDesc s ch _ _).chanAgent]
    rfl
  have hturn := h.gatherRow_eq
  have hstart := startWrites_one (x := chan s ch) (d := begun s d) (e := turned s d) (p := 0) (slot := writeSlot)
    (n := (List.replicate 64 (0 : Byte)).length) (i := now (withDesc s ch (chan s ch) (turned s d))) (key := 0) (rd := 0) (wr := 0)
    (bs := List.replicate 64 0) h.pages h.waits (hag _) (h.served hdst h.waits) h.latent
  rw [if_pos hx, hrow, hwrite, hstart] at hturn
  have hexec := h.exec_gather hruns hturn rfl rfl rfl rfl
  obtain ⟨-, hother, hbytes⟩ := countDma_writeMem hm h.latent ch (chan s ch)
    (if (turned s d).rows.any fun r => !r.sent then turned s d else { turned s d with stage := .drain }) (begun s d) (dDst d.words)
    (List.replicate 64 (0 : Byte)).length (List.replicate 64 0)
  have hdrain : (if (turned s d).rows.any fun r => !r.sent then turned s d else { turned s d with stage := .drain }) =
      { turned s d with stage := .drain } := by simp [turned, begun, h.rows]
  refine ⟨_, _, hexec, by rw [chan_withDesc], ?_, ?_, ?_, hlen ▸ hother, fun k hk => ?_⟩
  · rw [hdrain]
  · rw [hdrain]
    exact h.fail
  · rw [hdrain]
    rfl
  · rw [hbytes k (by rwa [hlen]), List.getElem_replicate]

/-- An index from LIMIT on fails with BUS at its row (R277). -/
theorem limit_row (hx : leNat (indexBytes s d) ≠ 256 ^ dIdxSize d.words - 1) (hlimit : dLimit d.words ≤ leNat (indexBytes s d)) :
    ∃ t z, exec (.gather ch) s = .next t ∧ (chan t ch).descs = [z] ∧ z.stage = .drain ∧ z.fail = some ⟨0, 0x01, 0, 0xFFF⟩ ∧
      z.failed = d.failed + 1 ∧ SameMemory s t := by
  have hturn := h.gatherRow_eq
  rw [if_neg hx, if_pos hlimit, rowFailed, pieceFailed, modDesc_withDesc s ch _ (turned s d) (n := (begun s d).serial) rfl] at hturn
  have hexec := h.exec_gather hruns hturn rfl rfl rfl rfl
  rw [if_neg (by simp [turned, begun, h.rows])] at hexec
  refine ⟨_, _, hexec, by rw [chan_withDesc], rfl, ?_, rfl, sameMemory_of_mem (withDesc_mem s ch _ _)⟩
  simp [turned, begun, h.fail]

/-- Any other index whose source passes its checks waits for an entry (R276, R278). -/
theorem waiting_row (hx : leNat (indexBytes s d) ≠ 256 ^ dIdxSize d.words - 1) (hlimit : leNat (indexBytes s d) < dLimit d.words)
    {p : Nat} (hsource : rowSource s ch d (leNat (indexBytes s d)) = .inr p) :
    ∃ t z, exec (.gather ch) s = .next t ∧ (chan t ch).descs = [z] ∧ z.stage = .issuing ∧ z.next = 1 ∧ SameMemory s t ∧
      z.rows = [⟨0, p, dDst d.words, (chanRect s ch d.queue).getD 16, engineOf s p, false, false, false, now s, [], [], none⟩] := by
  have hpaths := paths_withDesc s ch (chan s ch) (turned s d)
  have hturn := h.gatherRow_eq
  rw [if_neg hx, if_neg (Nat.not_le.mpr hlimit), hsource, Sum.elim_inr, rowWaits,
    modDesc_withDesc s ch _ (turned s d) (n := (begun s d).serial) rfl, hpaths.chanRect, hpaths.engineOf, hpaths.now] at hturn
  have hexec := h.exec_gather hruns hturn rfl rfl rfl rfl
  rw [if_pos (by simp)] at hexec
  refine ⟨_, _, hexec, by rw [chan_withDesc], rfl, rfl, sameMemory_of_mem (withDesc_mem s ch _ _), ?_⟩
  simp [turned, begun, h.rows]

end FreshGather

end Sys2Proof.Machine
end

section
/-! PROOFS. A row dispatched, and a line of the near tier read by a gather engine: caches and counters change, and no path
(R250, R255, R278, R340). -/

namespace Sys2Proof.Machine

/-! ### A descriptor changed twice -/

/-- Changes of a descriptor that keep its number, one after the other. -/
theorem modDesc_modDesc (s : State) (ch : Chan) (n : Nat) {f : Desc → Desc} (hf : ∀ d, (f d).serial = d.serial) (g : Desc → Desc) :
    modDesc (modDesc s ch n f) ch n g = modDesc s ch n (g ∘ f) := by
  simp only [modDesc, modChan, chan_setChan_same, setChan_setChan, List.map_map]
  congr 2
  refine List.map_congr_left fun d _ => ?_
  by_cases hn : d.serial = n
  · simp [hn, hf]
  · simp [hn]

/-! ### A row dispatched (R278) -/

/-- The last row of a GATHER takes its entry, and the descriptor drains. -/
theorem exec_rowFetchDispatch {s : State} {ch : Chan} {d : Desc} {r : GatherRow} {e : Bool} (hruns : chanRuns s ch = true)
    (hdescs : (chan s ch).descs = [d]) (hop : dOp d.words = 4) (hstage : d.stage = .issuing) (hnext : d.next = dCount d.words)
    (hrows : d.rows = [r]) (hsent : r.sent = false) (hfree : freeEntry s r.engine r.tag = some e) (hpace : paceFull d = false)
    (hserved : dispatchServed s ch r = true) :
    exec (.rowFetchDispatch ch) s = .next (withDesc s ch (chan s ch)
      { d with stage := .drain, rows := [{ r with sent := true, pooled := e, turn := now s }], paceUsed := d.paceUsed + 1 }) := by
  have hfind : (d.rows.find? fun r => !r.sent) = some r := by simp [hrows, hsent]
  have hdispatch : dispatchRow s ch d.serial r e = withDesc s ch (chan s ch)
      { d with rows := [{ r with sent := true, pooled := e, turn := now s }], paceUsed := d.paceUsed + 1 } := by
    rw [dispatchRow, modRow, modDesc_modDesc, modDesc_eq hdescs rfl]
    · simp [hrows]
    · exact fun _ => rfl
  have hend := endIssue_drains (b := s) (ch := ch) (x := chan s ch) (n := d.serial)
    (d := { d with rows := [{ r with sent := true, pooled := e, turn := now s }], paceUsed := d.paceUsed + 1 }) rfl hstage
    (by simp [dTotal, hop, hnext])
  have hfound := descOf_withDesc s ch (chan s ch)
    { d with rows := [{ r with sent := true, pooled := e, turn := now s }], paceUsed := d.paceUsed + 1 } (n := d.serial) rfl
  change execRowFetchDispatch ch s = _
  simp only [execRowFetchDispatch, curDesc_one hdescs (.inr (.inr hstage)), hfind, hfree, hruns, hpace, hserved, Bool.not_false,
    Bool.and_self, Machine.when, if_true, hdispatch, endGather, hfound, List.any_cons, List.any_nil, Bool.not_true, Bool.or_self,
    Bool.false_eq_true, if_false, hend]
  rw [syncStat_withDesc hdescs (by rw [hstage]; decide) (by simp)]

/-! ### Units whose masks stay (R194, R243) -/

/-- Of the units nothing but ways, trees and queues of prefetches has changed. -/
def SameMasks (s t : State) : Prop :=
  ∀ u, (memUnit t u).refNow = (memUnit s u).refNow ∧ (memUnit t u).gearNow = (memUnit s u).gearNow

namespace SameMasks

theorem refl (s : State) : SameMasks s s := fun _ => ⟨rfl, rfl⟩

theorem trans {s t u : State} (hst : SameMasks s t) (htu : SameMasks t u) : SameMasks s u :=
  fun x => ⟨(htu x).1.trans (hst x).1, (htu x).2.trans (hst x).2⟩

theorem modUnit (s : State) (u : Nat) {f : Unit → Unit} (hf : ∀ m, (f m).refNow = m.refNow ∧ (f m).gearNow = m.gearNow) :
    SameMasks s (modUnit s u f) := by
  intro x
  by_cases hx : x = u
  · subst hx
    rw [memUnit_modUnit_same]
    exact hf _
  · rw [memUnit_modUnit_other s f hx]
    exact ⟨rfl, rfl⟩

theorem setWay (s : State) (u w : Nat) (x : CacheWay) : SameMasks s (setWay s u w x) := modUnit s u fun _ => ⟨rfl, rfl⟩

theorem touchWay (s : State) (u set w : Nat) : SameMasks s (touchWay s u set w) := modUnit s u fun _ => ⟨rfl, rfl⟩

theorem queueFetch (s : State) (u l : Nat) : SameMasks s (queueFetch s u l) := by
  unfold Machine.queueFetch
  split
  · exact refl s
  · exact modUnit s u fun _ => ⟨rfl, rfl⟩

/-- A hint on one line. -/
theorem hint_line (s : State) (a : Nat) : SameMasks s (hint s a 0) := by
  unfold hint
  split
  · split
    · exact refl s
    · exact queueFetch s _ _
  · exact refl s

theorem missNext (s : State) (u a l : Nat) : SameMasks s (missNext s u a l) := by
  unfold Machine.missNext
  split
  · exact queueFetch s u _
  · exact refl s

theorem evictWay {s : State} (hs : CachesSound s) (u set w : Nat) : SameMasks s (evictWay s u set w) := by
  unfold Machine.evictWay
  split
  · exact refl s
  · next x hx =>
    rw [writeBackWay, readArray_good s u w (hs.good_of_wayAt hx)]
    refine trans (t := if x.dirty then writeBack s u x.line else s) ?_ (modUnit _ u fun _ => ⟨rfl, rfl⟩)
    split <;> exact fun _ => ⟨rfl, rfl⟩

theorem allocate {s : State} (hs : CachesSound s) (u l : Nat) (dirty : Bool) : SameMasks s (allocate s u l dirty) := by
  unfold Machine.allocate
  split
  · exact refl s
  · exact ((evictWay hs u _ _).trans (setWay _ u _ _)).trans (touchWay _ u _ _)

theorem nearReadLine {s : State} (hl : s.latent = []) (hs : CachesSound s) (a : Nat) : SameMasks s (nearReadLine s a) := by
  unfold Machine.nearReadLine
  simp only [demandRead_clean hl, hs.readWay_eq]
  split
  · exact refl s
  · split
    · exact touchWay s _ _ _
    · exact (allocate hs _ _ false).trans (missNext _ _ _ _)

end SameMasks

/-! ### A line read by an engine -/

/-- Nothing but units and counters has changed, and of the units no mask of a path; sound arrays have stayed sound. -/
structure QuietRead (s t : State) : Prop where
  rest : t = { s with units := t.units, ledger := t.ledger }
  masks : SameMasks s t
  sound : CachesSound s → CachesSound t

namespace QuietRead

theorem trans {s t u : State} (hst : QuietRead s t) (htu : QuietRead t u) : QuietRead s u :=
  ⟨by rw [htu.rest, hst.rest], hst.masks.trans htu.masks, htu.sound ∘ hst.sound⟩

theorem countAgent (s : State) (ag : Agent) (a : Nat) : QuietRead s (countAgent s ag a) := by
  rw [Machine.countAgent, countBeats_eq]
  exact ⟨rfl, .refl s, id⟩

theorem countTrip (s : State) (ag : Agent) (a : Nat) : QuietRead s (countTrip s ag a) :=
  (countAgent s ag a).trans (countAgent _ ag a)

theorem hint_line (s : State) (a : Nat) : QuietRead s (hint s a 0) := by
  refine ⟨by rw [hint_eq], .hint_line s a, ?_⟩
  unfold hint
  split
  · split
    · exact id
    · exact (CacheKeeps.queueFetch s _ _).sound
  · exact id

/-- A demand read of a line of the near tier that finds no error. -/
theorem pocRead {s : State} (hl : s.latent = []) (hs : CachesSound s) {a n : Nat} (hnear : isNear s a = true) (hpos : 0 < n)
    (hline : a % 128 + n ≤ 128) : QuietRead s (pocRead s a n) := by
  have hkeeps := CacheKeeps.nearReadLine hl hs a
  have hlatent : (nearReadLine s a).latent = s.latent := (hkeeps.clean hl).trans hl.symm
  rw [Machine.pocRead, if_pos hnear, show linePieces a n = [(a, n)] from lineCuts_one hpos hline, List.foldl_cons, List.foldl_nil]
  refine ⟨?_, .nearReadLine hl hs a, hkeeps.sound⟩
  rw [hkeeps.rest, hlatent]

section
variable {s t : State} (h : QuietRead s t)
include h

theorem paths : SamePaths s t := by
  refine ⟨?_, ?_, ?_, ?_, ?_, fun c => ?_, h.masks⟩ <;> rw [h.rest]
  rfl

theorem mem : t.mem = s.mem := by rw [h.rest]

theorem latent : t.latent = s.latent := by rw [h.rest]

theorem chan (ch : Chan) : chan t ch = chan s ch := by
  rw [h.rest]
  cases ch <;> rfl

theorem isPoisoned (a n : Nat) : isPoisoned t a n = isPoisoned s a n := by
  rw [h.rest]
  rfl

theorem portFull (ch : Chan) (a : Nat) : portFull t ch a = portFull s ch a := by
  have hcores : t.cores = s.cores := by rw [h.rest]
  cases ch with
  | sys i n => rfl
  | tile c k =>
    have hfull : laneFull t c = laneFull s c := by
      rw [laneFull, laneUsed, tileInFlight, core, hcores]
      rfl
    simp only [Machine.portFull, h.paths.agentHops, hfull]

/-- What served an engine before serves it still. -/
theorem localServed {ch : Chan} {ag : Agent} {a : Nat} (hs : LocalServed s ch ag a) : LocalServed t ch ag a := by
  obtain ⟨⟨c, y, htarget, hup⟩, hserved, hroom⟩ := hs
  exact ⟨⟨c, y, (h.paths.target a).trans htarget, (h.paths.coreDown c).trans hup⟩, (h.paths.agentServed ag a).trans hserved,
    (h.portFull ch a).trans hroom⟩

end

end QuietRead

/-- An engine reads within a line of a near-tier unit that is ready: its bytes come, without a fault. -/
theorem engineRead_near {s : State} {ag : Agent} {a n u : Nat} (htarget : target s a = .near u) (hserved : agentServed s ag a = true)
    (hdrain : draining s u = false) (hready : unitReady s u = true) (hl : s.latent = []) (hs : CachesSound s) (hpos : 0 < n)
    (hline : a % 128 + n ≤ 128) (hclean : isPoisoned s a n = false) (rq : Requester) (hinted : Bool) :
    ∃ t, engineRead s ag rq a n hinted = .done t (readMem s a n) 0 ∧ QuietRead s t := by
  have hcount : QuietRead s (if hinted then hint (countTrip s ag a) a 0 else countTrip s ag a) := by
    have htrip := QuietRead.countTrip s ag a
    split
    · exact htrip.trans (.hint_line _ a)
    · exact htrip
  have hnear : isNear (if hinted then hint (countTrip s ag a) a 0 else countTrip s ag a) a = true :=
    isNear_of_target ((hcount.paths.target a).trans htarget)
  have hquiet := hcount.trans (.pocRead (hcount.latent.trans hl) (hcount.sound hs) hnear hpos hline)
  refine ⟨_, ?_, hquiet⟩
  have hbytes : readMem (pocRead (if hinted then hint (countTrip s ag a) a 0 else countTrip s ag a) a n) a n = readMem s a n := by
    rw [readMem, hquiet.mem, readMem]
  simp [engineRead, htarget, hserved, hdrain, hready, poisonStatus, hquiet.isPoisoned, hclean, hbytes]

end Sys2Proof.Machine
end

section
/-! PROOFS. The row fetch of one line of the near tier: read, written and its entry released (R276, R278). -/

namespace Sys2Proof.Machine

/-- The one row of a descriptor whose writes have all ended leaves it. -/
theorem settleRow_withDesc (b : State) (ch : Chan) (x : DmaChan) {e : Desc} {q : GatherRow} {n i : Nat} {f : GatherRow → GatherRow}
    (hn : e.serial = n) (hwaits : e.waits = []) (hrows : e.rows = [q]) (hi : q.row = i) (hf : (f q).row = q.row) :
    settleRow (modRow (withDesc b ch x e) ch n i f) ch n i = withDesc b ch x { e with rows := [] } := by
  have hmod : modRow (withDesc b ch x e) ch n i f = withDesc b ch x { e with rows := [f q] } := by
    rw [modRow, modDesc_withDesc b ch x e hn]
    simp [hrows, hi]
  have hfound := descOf_withDesc b ch x { e with rows := [f q] } hn
  simp only [hmod, settleRow, hfound]
  rw [if_neg (by simp [hwaits]), dropRow, modDesc_withDesc b ch x { e with rows := [f q] } hn]
  simp [hf, hi]

/-- The one row fetch of a GATHER in flight: of one line of a ready near-tier unit, without poison, on a path that serves its
engine. -/
structure ReadyRow (s : State) (ch : Chan) (d : Desc) (r : GatherRow) (u : Nat) : Prop where
  descs : (chan s ch).descs = [d]
  op : dOp d.words = 4
  pages : d.pages = []
  waits : d.waits = []
  rows : d.rows = [r]
  sent : r.sent = true
  data : r.data = []
  faults : r.faults = []
  reached : r.reached = none
  engine : r.engine = .near u
  size : dRow d.words = 64
  src : r.src % 64 = 0
  near : target s r.src = .near u
  unit : unitReady s u = true
  drain : draining s u = false
  served : agentServed s (gatherAgent r) r.src = true
  sound : CachesSound s
  clean : isPoisoned s r.src 64 = false
  latent : s.latent = []

/-- The row with its line read. -/
def rowRead (s : State) (r : GatherRow) : GatherRow := { r with data := readMem s r.src 64, faults := [0], reached := none }

/-- Its descriptor. -/
def rowReadDesc (s : State) (d : Desc) (r : GatherRow) : Desc := { d with rows := [rowRead s r] }

namespace ReadyRow
variable {s : State} {ch : Chan} {d : Desc} {r : GatherRow} {u : Nat} (h : ReadyRow s ch d r u)
include h

theorem cuts : lineCuts r.src (dRow d.words) = [(r.src, 64)] := by
  have hsrc := h.src
  rw [h.size, lineCuts_one (by decide) (by omega)]

/-- The line comes without a fault. -/
theorem readLines_eq : ∃ b, QuietRead s b ∧
    readLines ch d.serial r.row (lineCuts r.src (dRow d.words)).length s = withDesc b ch (chan s ch) (rowReadDesc s d r) := by
  have hsrc := h.src
  obtain ⟨b, hread, hquiet⟩ := engineRead_near h.near h.served h.drain h.unit h.latent h.sound (by decide) (by omega) h.clean
    (.dma ch d.serial r.row 0) (dHint d.words)
  have hline : readLine s ch d.serial d r (r.src, 64) = (withDesc b ch (chan s ch) (rowReadDesc s d r), true) := by
    have hdescs : (chan b ch).descs = [d] := by rw [hquiet.chan, h.descs]
    simp only [readLine, h.reached, cxlLate, rowMayRead, countBeat, h.engine, hread, Option.isSome_none, Bool.not_true, Bool.and_false,
      Bool.or_false, Bool.false_eq_true, if_false, modRow, modDesc_eq hdescs rfl, hquiet.chan, h.rows, List.map_cons, List.map_nil, if_true,
      h.data, h.faults, List.nil_append]
    rw [rowReadDesc, rowRead, h.engine]
  have hfind : ((descOf s ch d.serial).bind fun d => (d.rows.find? fun x => x.row == r.row).map fun x => (d, x)) = some (d, r) := by
    simp [descOf, h.descs, h.rows]
  refine ⟨b, hquiet, ?_⟩
  simp only [h.cuts, List.length_cons, List.length_nil, readLines, hfind, h.faults, List.getElem?_cons_zero, hline]

/-- A row read is written, and its entry released. -/
theorem finishRow_eq {b : State} (hb : QuietRead s b) (halign : dDst d.words % 64 = 0)
    (hdst : LocalServed s ch (gatherAgent r) (dDst d.words + 64 * r.row)) :
    finishRow (withDesc b ch (chan s ch) (rowReadDesc s d r)) ch (rowReadDesc s d r) (rowRead s r) =
      withDesc (countDma (writeMem b (dDst d.words + 64 * r.row) (readMem s r.src 64)) ch (rowReadDesc s d r) 64) ch
        (chan s ch) { d with rows := [] } := by
  have hlen : (readMem s r.src 64).length = 64 := readMem_length _ _ _
  have hwrite := writeRow_one (s := withDesc b ch (chan s ch) (rowReadDesc s d r)) ch (rowReadDesc s d r)
    (i := r.row) (a := dDst d.words + 64 * r.row) (bs := readMem s r.src 64) (by rw [rowReadDesc, h.size, Nat.mul_comm]) (by rw [hlen]; decide)
    (by rw [hlen]; omega)
  rw [hlen] at hwrite
  have hag : waitAgent (withDesc b ch (chan s ch) (rowReadDesc s d r)) ch (rowReadDesc s d r)
      (newWait r.row writeSlot (dDst d.words + 64 * r.row) 64 (now (withDesc b ch (chan s ch) (rowReadDesc s d r))) true
        (.write (readMem s r.src 64) false)) = gatherAgent r := by
    simp [waitAgent, newWait, rowReadDesc, rowRead, h.sent, h.op, gatherAgent]
  have hserved : LocalServed (withDesc b ch (chan s ch) (rowReadDesc s d r)) ch (gatherAgent r) (dDst d.words + 64 * r.row) :=
    (hb.localServed hdst).withDesc (e := rowReadDesc s d r) (by rw [hb.chan, h.descs]) h.waits h.waits _
  have hstart := startWrites_one (key := r.row) (rd := r.row) (wr := r.row) (d := rowReadDesc s d r) (e := rowReadDesc s d r) h.pages h.waits
    hag hserved (hb.latent.trans h.latent)
  have hsettle (c : State) := settleRow_withDesc c ch (chan s ch) (e := rowReadDesc s d r) (q := rowRead s r) (n := d.serial) (i := r.row)
    (f := fun r => { r with read := true, data := [] }) rfl h.waits rfl rfl rfl
  have hwords : (rowReadDesc s d r).words = d.words := rfl
  have hserial : (rowReadDesc s d r).serial = d.serial := rfl
  have hsrc : (rowRead s r).src = r.src := rfl
  simp only [finishRow, hwords, hserial, hsrc, h.cuts, show (rowRead s r).faults = [0] from rfl,
    show (rowRead s r).data = readMem s r.src 64 from rfl, show (rowRead s r).row = r.row from rfl, show firstFault [0] = 0 from rfl,
    List.length_cons, List.length_nil, ne_eq, not_true_eq_false, false_and, if_false, Nat.lt_irrefl,
    show decide ((0 : Nat) = 2) = false from rfl, hwrite, hstart, hsettle]
  rfl

/-- The row fetch whole: its line is written, and its entry is free. -/
theorem exec_rowFetchComplete (hm : MemoryCanonical s) (hruns : chanRuns s ch = true) (hup : partUp s = true) (hunread : r.read = false)
    {k : Nat} (hk : (rowFetches s (.near u))[k]? = some (ch, d.serial, r)) (halign : dDst d.words % 64 = 0)
    (hdst : LocalServed s ch (gatherAgent r) (dDst d.words + 64 * r.row)) :
    ∃ t, exec (.rowFetchComplete (.near u) k) s = .next t ∧ (chan t ch).descs = [{ d with rows := [] }] ∧
      SameMemoryBut s t (dDst d.words + 64 * r.row) 64 ∧
      ∀ b, b < 64 → byteAt t (dDst d.words + 64 * r.row + b) = byteAt s (r.src + b) := by
  obtain ⟨b, hb, hread⟩ := h.readLines_eq
  have hfound : descOf s ch d.serial = some d := by simp [descOf, h.descs]
  have hrow : ((descOf (withDesc b ch (chan s ch) (rowReadDesc s d r)) ch d.serial).bind fun d =>
      (d.rows.find? fun x => x.row == r.row).map fun x => (d, x)) = some (rowReadDesc s d r, rowRead s r) := by
    rw [descOf_withDesc b ch _ (rowReadDesc s d r) (n := d.serial) rfl]
    simp [rowReadDesc, rowRead]
  have hexec : exec (.rowFetchComplete (.near u) k) s = .next (withDesc
      (countDma (writeMem b (dDst d.words + 64 * r.row) (readMem s r.src 64)) ch (rowReadDesc s d r) 64) ch (chan s ch)
      { d with rows := [] }) := by
    change execRowFetchComplete (.near u) k s = _
    simp only [execRowFetchComplete, hk, hfound, hup, hruns, hunread, Bool.not_true, Bool.or_self, Bool.false_eq_true, if_false, hread, hrow,
      h.finishRow_eq hb halign hdst]
    rw [syncStat_same (by simp [chanState, h.descs]) (by simp)]
  have hcanon : MemoryCanonical b := by
    rw [MemoryCanonical, hb.mem]
    exact hm
  have hsame (a : Nat) : byteAt b a = byteAt s a := sameMemory_of_mem hb.mem a
  obtain ⟨-, hother, hbytes⟩ := countDma_writeMem hcanon (hb.latent.trans h.latent) ch (chan s ch) { d with rows := [] } (rowReadDesc s d r)
    (dDst d.words + 64 * r.row) 64 (readMem s r.src 64)
  rw [readMem_length] at hother
  refine ⟨_, hexec, by rw [chan_withDesc], fun a ha => (hother a ha).trans (hsame a), fun k hk => ?_⟩
  rw [hbytes k (by rwa [readMem_length]), readMem_getElem]

end ReadyRow

/-! ### The obligation -/

/-- Settles O40: a row of a GATHER has its turn, its dispatch and its read; a CXL device's answer comes in time or not at all. -/
theorem gatherRowsAndFarAnswers : Obligations.GatherRowsAndFarAnswers := by
  unfold Obligations.GatherRowsAndFarAnswers
  refine ⟨fun ch d s hm hlatent hruns hdescs hop hpages hfail hwaits => ⟨?turn, ?dispatch, ?complete⟩, fun c id p ns x s hf hp _ hns => ?far⟩
  case turn =>
    intro hstage hnext hrows hbar htrig hpace hcount hclean hindex
    have h : FreshGather s ch d := ⟨⟨hdescs, hstage, hnext, hfail, hwaits, hpages, hbar, htrig, hpace⟩, hop, hrows, hcount, hlatent, hclean,
      hindex⟩
    exact ⟨fun hx hrow halign hdst => h.zero_row hruns hm hx hrow halign hdst, h.limit_row hruns,
      fun p hx hlimit hsource => h.waiting_row hruns hx hlimit hsource⟩
  case dispatch =>
    intro r e hstage hnext hrows hsent hfree hpace hserved
    exact ⟨_, _, exec_rowFetchDispatch hruns hdescs hop hstage hnext hrows hsent hfree hpace hserved, by rw [chan_withDesc], rfl, rfl,
      sameMemory_of_mem (withDesc_mem s ch _ _), (paths_withDesc s ch _ _).sameRegs⟩
  case complete =>
    intro r u k hrows hsent hread hdata hfaults hreached hengine hk hsize hsrc halign hnear hunit hdrain hserved hsound hclean hup out hdst
    have h : ReadyRow s ch d r u := ⟨hdescs, hop, hpages, hwaits, hrows, hsent, hdata, hfaults, hreached, hengine, hsize, hsrc, hnear, hunit,
      hdrain, hserved, hsound, hclean, hlatent⟩
    obtain ⟨t, hexec, hdone, hother, hbytes⟩ := h.exec_rowFetchComplete hm hruns hup hread hk halign hdst
    exact ⟨t, _, hexec, hdone, rfl, hfail, hother, hbytes⟩
  case far =>
    refine ⟨fun hlate a => exec_cxlResponse_late hf hp hlate a ns, fun hload => ⟨fun htime hclean => ?loaded, fun htime hpz => ?poisoned,
      fun htime => ?failed, fun hlate => ?timedOut⟩, fun htime => ?poison, fun bs _ hlate => ?storeTimedOut,
      fun bs hk htime hm => cxlStore_performs hf hp htime hk hm⟩
    case loaded =>
      have hexec := exec_cxlResponse_load hf hp htime ns hload
      rw [if_neg (by rw [hclean]; decide)] at hexec
      obtain ⟨hraised, hmem⟩ := cxlAnswered_raises (b := s) (c := c) (id := id) p hns (.ok (readMem s x.addr x.size) (lineAround s x.addr))
      exact ⟨_, hexec, hraised, hmem, _, laneFind_cxlAnswered hf p ns _⟩
    case poisoned =>
      have hexec := exec_cxlResponse_load hf hp htime ns hload
      rw [if_pos hpz] at hexec
      obtain ⟨hraised, hmem⟩ := cxlAnswered_raises (b := s) (c := c) (id := id) p hns (.fail 0x02)
      exact ⟨_, hexec, hraised, hmem, laneFind_cxlAnswered hf p ns _⟩
    case failed =>
      have hexec := exec_cxlResponse_error hf hp htime ns
      rw [cxlMaybeStore_load hload] at hexec
      obtain ⟨hraised, hmem⟩ := cxlAnswered_raises (b := s) (c := c) (id := id) p hns (.fail 0x01)
      exact ⟨_, hexec, hraised, hmem, laneFind_cxlAnswered hf p ns _⟩
    case timedOut =>
      obtain ⟨t, hexec, hregs, hmem, hanswer⟩ := cxlTimeout_answers hf hp hlate
      exact ⟨t, hexec, hregs, hmem hload, hanswer⟩
    case poison =>
      obtain ⟨hraised, hmem⟩ := cxlAnswered_raises (b := s) (c := c) (id := id) p hns (.fail 0x02)
      exact ⟨_, exec_cxlResponse_poison hf hp htime ns, hraised, hmem, laneFind_cxlAnswered hf p ns _⟩
    case storeTimedOut =>
      obtain ⟨t, hexec, hregs, -, hanswer⟩ := cxlTimeout_answers hf hp hlate
      exact ⟨t, hexec, hregs, hanswer⟩

end Sys2Proof.Machine
end

section
/-! PROOFS. A system channel enabled and aborted by its control register (R291, R292). -/

namespace Sys2Proof.Machine

/-! ### Registers and channels -/

/-- What changes registers alone changes no channel. -/
theorem OnlyRegs.chan {s t : State} {l : List Nat} (h : OnlyRegs s t l) (ch : Chan) : chan t ch = chan s ch := by
  rw [h.1]
  cases ch <;> rfl

/-- Registers named, and one channel, changed. -/
theorem OnlyRegs.setChan {s t : State} {l : List Nat} (h : OnlyRegs s t l) (ch : Chan) (x : DmaChan) :
    SameRegsBut s (setChan t ch x) l ∧ SameMemory s (setChan t ch x) :=
  ⟨fun o ho => (reg_setChan t ch x o).trans (h.2 o ho), fun a => by rw [byteAt, setChan_mem]; exact h.sameMemory a⟩

/-- A flag set and a channel replaced, in either order. -/
theorem setFlag_setChan (s : State) (ch : Chan) (x : DmaChan) (off k : Nat) (b : Bool) :
    setFlag (setChan s ch x) off k b = setChan (setFlag s off k b) ch x := by
  rw [setFlag, reg_setChan, setFlag]
  cases ch <;> rfl

/-! ### SRA_DMA_CTL (R291) -/

section
variable (s : State) {i n : Nat} (hi : i < 2) (hn : n < 32) (v : Word)
include hi hn

/-- A write of the control register keeps EN through its W1S bits: ABORT is the only one. -/
theorem flag_setW1s_dmaCtl : flag (setW1s s (Reg.sraDmaCtl i n) v) (Reg.sraDmaCtl i n) 0 = flag s (Reg.sraDmaCtl i n) 0 := by
  have hrows : ∀ i < 2, ∀ n < 32, (regRow (Reg.sraDmaCtl i n)).any (fun r => r.locks == 2) = true := by decide +kernel
  obtain ⟨r, hr, hlocks⟩ := (Option.any_eq_true _ _).mp (hrows i hi n hn)
  have hlocks2 : r.locks = 2 := eq_of_beq hlocks
  simp only [setW1s, hr, hlocks2]
  split
  · rfl
  · rw [flag, reg_setReg_same, flag, bit_or, bit_and]
    simp [bit]

/-- EN written on a channel that does not abort. -/
def enWritten (s : State) (i n : Nat) (v : Word) (b : Bool) : State := setFlag (setW1s s (Reg.sraDmaCtl i n) v) (Reg.sraDmaCtl i n) 0 b

omit hi hn in
theorem enWritten_onlyRegs (b : Bool) : OnlyRegs s (enWritten s i n v b) [Reg.sraDmaCtl i n] := (setW1s_onlyRegs s _ v).setReg _

omit hi hn in
theorem flag_enWritten (b : Bool) : flag (enWritten s i n v b) (Reg.sraDmaCtl i n) 0 = b := flag_setFlag_same _ _ (by decide) b

variable (hidle : (chan s (.sys i n)).aborting = false)
include hidle

/-- A write that does not abort writes EN, and a channel that it enables forgets the failure that a barrier waits for. -/
theorem dmaCtlWrite_enable :
    (dmaCtlWrite s i n 1).1 =
      if flag s (Reg.sraDmaCtl i n) 0 = true then enWritten s i n 1 true
      else setChan (enWritten s i n 1 true) (.sys i n) { chan s (.sys i n) with barFail := none } := by
  have hchan : chan (setW1s s (Reg.sraDmaCtl i n) 1) (.sys i n) = chan s (.sys i n) := (setW1s_onlyRegs s _ 1).chan _
  have hen := flag_setW1s_dmaCtl s hi hn 1
  simp only [dmaCtlWrite, chanOn, hen, show bit (1 : Word) 0 = true from rfl, show bit (1 : Word) 1 = false from rfl, Bool.true_and]
  cases hf : flag s (Reg.sraDmaCtl i n) 0
  · simp only [Bool.not_false, if_true, modChan, hchan, chan_setChan_same, hidle, Bool.false_eq_true, if_false, setFlag_setChan, enWritten]
  · simp only [Bool.not_true, Bool.false_eq_true, if_false, if_true, hchan, hidle, enWritten]

/-- A write that sets ABORT writes EN as it stands, and the channel aborts. -/
theorem dmaCtlWrite_abort :
    (dmaCtlWrite s i n ((reg s (Reg.sraDmaCtl i n) &&& 1) ||| 2)).1 =
      abortChan (enWritten s i n ((reg s (Reg.sraDmaCtl i n) &&& 1) ||| 2) (flag s (Reg.sraDmaCtl i n) 0)) (.sys i n) := by
  have hen := flag_setW1s_dmaCtl s hi hn ((reg s (Reg.sraDmaCtl i n) &&& 1) ||| 2)
  have h0 : bit ((reg s (Reg.sraDmaCtl i n) &&& 1) ||| 2) 0 = flag s (Reg.sraDmaCtl i n) 0 := by
    rw [bit_or, bit_and, flag]
    simp [bit]
  have h1 : bit ((reg s (Reg.sraDmaCtl i n) &&& 1) ||| 2) 1 = true := by
    rw [bit_or, show bit (2 : Word) 1 = true from rfl, Bool.or_true]
  have hchan := (setW1s_onlyRegs s (Reg.sraDmaCtl i n) ((reg s (Reg.sraDmaCtl i n) &&& 1) ||| 2)).chan (.sys i n)
  simp only [dmaCtlWrite, chanOn, hen, h0, h1, Bool.and_not_self, Bool.false_eq_true, if_false, hchan, hidle, if_true, enWritten]

end

section
variable {s : State} {o : Origin} {i n : Nat} (hi : i < 2) (hn : n < 32) (hidle : (chan s (.sys i n)).aborting = false)
include hi hn hidle

theorem dmaChannelEnable_enables (ha : AllowedWrite s o (Reg.sraDmaCtl i n) 1) :
    ∃ t, exec (.dmaChannelEnable o i n) s = .next t ∧ SameRegsBut s t [Reg.sraDmaCtl i n] ∧ flag t (Reg.sraDmaCtl i n) 0 = true ∧
      SameMemory s t ∧ SameCores s t ∧ chan t (.sys i n) =
        (if flag s (Reg.sraDmaCtl i n) 0 = true then chan s (.sys i n) else { chan s (.sys i n) with barFail := none }) := by
  have honly := enWritten_onlyRegs s (i := i) (n := n) 1 true
  have hexec : exec (.dmaChannelEnable o i n) s = .next (dmaCtlWrite s i n 1).1 := by
    change execDmaChannelEnable o i n s = _
    simp only [execDmaChannelEnable, hi, hn, decide_true, Bool.and_self, Machine.when, if_true, writeAt_allowed ha]
  refine ⟨_, hexec, ?_⟩
  rw [dmaCtlWrite_enable s hi hn hidle]
  split
  · exact ⟨honly.2, flag_enWritten s 1 true, honly.sameMemory, honly.sameCores, honly.chan _⟩
  · obtain ⟨hregs, hmem⟩ := honly.setChan (.sys i n) { chan s (.sys i n) with barFail := none }
    refine ⟨hregs, ?_, hmem, honly.sameCores, chan_setChan_same _ _ _⟩
    rw [flag, reg_setChan, ← flag, flag_enWritten]

/-! ### Abort (R292) -/

theorem exec_dmaAbort (ha : AllowedWrite s o (Reg.sraDmaCtl i n) ((reg s (Reg.sraDmaCtl i n) &&& 1) ||| 2)) :
    exec (.dmaAbort o i n) s = .next (abortChan
      (enWritten s i n ((reg s (Reg.sraDmaCtl i n) &&& 1) ||| 2) (flag s (Reg.sraDmaCtl i n) 0)) (.sys i n)) := by
  rw [← dmaCtlWrite_abort s hi hn hidle]
  change execDmaAbort o i n s = _
  simp only [execDmaAbort, hi, hn, decide_true, Bool.and_self, Machine.when, if_true, writeAt_allowed ha]

/-- An empty channel that aborts is disabled at once. -/
theorem dmaAbort_empty (ha : AllowedWrite s o (Reg.sraDmaCtl i n) ((reg s (Reg.sraDmaCtl i n) &&& 1) ||| 2))
    (hnone : (chan s (.sys i n)).descs = []) :
    ∃ t, exec (.dmaAbort o i n) s = .next t ∧ SameRegsBut s t [Reg.sraDmaCtl i n] ∧ flag t (Reg.sraDmaCtl i n) 0 = false ∧
      chan t (.sys i n) = chan s (.sys i n) ∧ SameMemory s t := by
  have honly := enWritten_onlyRegs s (i := i) (n := n) ((reg s (Reg.sraDmaCtl i n) &&& 1) ||| 2) (flag s (Reg.sraDmaCtl i n) 0)
  have hback : { chan s (.sys i n) with aborting := false, descs := [] } = chan s (.sys i n) := by rw [← hnone, ← hidle]
  refine ⟨_, exec_dmaAbort hi hn hidle ha, ?_⟩
  have hempty : abortChan (enWritten s i n ((reg s (Reg.sraDmaCtl i n) &&& 1) ||| 2) (flag s (Reg.sraDmaCtl i n) 0)) (.sys i n) =
      setChan (setFlag (enWritten s i n ((reg s (Reg.sraDmaCtl i n) &&& 1) ||| 2) (flag s (Reg.sraDmaCtl i n) 0))
        (Reg.sraDmaCtl i n) 0 false) (.sys i n) (chan s (.sys i n)) := by
    simp only [abortChan, settleAbort, modChan, honly.chan, chan_setChan_same, setChan_setChan, hidle, hnone, List.map_nil, List.isEmpty_nil,
      Bool.and_self, Bool.false_eq_true, if_false, if_true, setFlag_setChan, hback]
  rw [hempty]
  obtain ⟨hregs, hmem⟩ := (honly.setReg _).setChan (.sys i n) (chan s (.sys i n))
  refine ⟨hregs, ?_, chan_setChan_same _ _ _, hmem⟩
  rw [flag, reg_setChan]
  exact flag_setFlag_same _ _ (by decide) false

/-- A channel whose descriptor has not begun aborts: the descriptor drains without issue. -/
theorem dmaAbort_waiting (ha : AllowedWrite s o (Reg.sraDmaCtl i n) ((reg s (Reg.sraDmaCtl i n) &&& 1) ||| 2)) {d : Desc}
    (hone : (chan s (.sys i n)).descs = [d]) (hstage : d.stage = .fetched ∨ d.stage = .trigger) :
    ∃ t, exec (.dmaAbort o i n) s = .next t ∧ SameMemory s t ∧
      chan t (.sys i n) = { chan s (.sys i n) with aborting := true, descs := [{ d with aborted := true, stage := .drain }] } := by
  have honly := enWritten_onlyRegs s (i := i) (n := n) ((reg s (Reg.sraDmaCtl i n) &&& 1) ||| 2) (flag s (Reg.sraDmaCtl i n) 0)
  refine ⟨_, exec_dmaAbort hi hn hidle ha, ?_⟩
  have haborts : abortChan (enWritten s i n ((reg s (Reg.sraDmaCtl i n) &&& 1) ||| 2) (flag s (Reg.sraDmaCtl i n) 0)) (.sys i n) =
      setChan (enWritten s i n ((reg s (Reg.sraDmaCtl i n) &&& 1) ||| 2) (flag s (Reg.sraDmaCtl i n) 0)) (.sys i n)
        { chan s (.sys i n) with aborting := true, descs := [{ d with aborted := true, stage := .drain }] } := by
    simp only [abortChan, settleAbort, modChan, honly.chan, chan_setChan_same, hidle, hone, List.map_cons, List.map_nil, List.isEmpty_cons,
      Bool.and_false, Bool.false_eq_true, if_false]
    rcases hstage with h | h <;> simp only [h]
  rw [haborts]
  exact ⟨(honly.setChan _ _).2, chan_setChan_same _ _ _⟩

end

end Sys2Proof.Machine
end

section
/-! PROOFS. A channel's descriptor whose trigger fires, whose period ends or whose trigger comes too late, and the doorbell of a tile
channel (R281, R282, R286, R295). -/

namespace Sys2Proof.Machine

/-! ### STAT written (R295) -/

@[simp] theorem chan_written (s : State) (m : List Host.Cell) (z : List Nat) (ch : Chan) : chan (written s m z) ch = chan s ch := by
  cases ch <;> rfl

@[simp] theorem descOf_written (s : State) (m : List Host.Cell) (z : List Nat) (ch : Chan) (n : Nat) :
    descOf (written s m z) ch n = descOf s ch n := by
  rw [descOf, chan_written, descOf]

/-- STAT written where no error is found changes bytes and poison alone. -/
theorem syncStat_written {b : State} (hlatent : b.latent = []) (s : State) (ch : Chan) :
    ∃ m z, syncStat s b ch = written b m z := by
  cases ch with
  | sys i n => exact ⟨b.mem, b.poison, rfl⟩
  | tile c k =>
    unfold syncStat
    dsimp only
    split
    · exact ⟨b.mem, b.poison, rfl⟩
    · obtain ⟨z, hz⟩ := writeMem_clean hlatent (localBase c + (ctlOff b c k + 24)) (leBytes 4 (statWord b c k))
      exact ⟨_, z, hz⟩

/-! ### One descriptor of a channel changed -/

theorem paths_modDesc (s : State) (ch : Chan) (n : Nat) (f : Desc → Desc) : SamePaths s (modDesc s ch n f) := .setChan s ch _

@[simp] theorem modDesc_latent (s : State) (ch : Chan) (n : Nat) (f : Desc → Desc) : (modDesc s ch n f).latent = s.latent :=
  setChan_latent s ch _

/-- A descriptor changed, found again by its number. -/
theorem descOf_modDesc {s : State} {ch : Chan} {n : Nat} {d : Desc} (hd : descOf s ch n = some d) {f : Desc → Desc}
    (hf : ∀ d, (f d).serial = d.serial) : descOf (modDesc s ch n f) ch n = some (f d) := by
  have hn : d.serial = n := by simpa using List.find?_some hd
  have hsame : ((fun d : Desc => d.serial == n) ∘ fun d => if d.serial = n then f d else d) = fun d => d.serial == n := by
    funext e
    by_cases he : e.serial = n
    · simp [he, hf]
    · simp [he]
  rw [descOf, modDesc, modChan, chan_setChan_same, List.find?_map, hsame, ← descOf, hd, Option.map_some, if_pos hn]

/-- A trigger that holds begins issue. -/
theorem triggerFire_issues {s : State} {ch : Chan} {d : Desc} (hlatent : s.latent = []) (hruns : chanRuns s ch = true)
    (hcur : curDesc (chan s ch) = some d) (hd : descOf s ch d.serial = some d) (hstage : d.stage ≠ .issuing) (htrig : dTrig d.words ≠ 0)
    (hbar : dBarrier d.words = false) (hholds : triggerHolds s ch d.words = true) :
    ∃ t, exec (.triggerFire ch) s = .next t ∧ SameRegs s t ∧ descOf t ch d.serial = some (begun s d) := by
  have hexec : exec (.triggerFire ch) s = .next (syncStat s (modDesc s ch d.serial (begun s)) ch) := by
    change execTriggerFire ch s = _
    simp only [execTriggerFire, hcur, hruns, hstage, htrig, hholds, ne_eq, not_false_iff, decide_true, Bool.and_self, Machine.when, if_true,
      beginDesc_issues hcur hstage hbar hholds]
  obtain ⟨m, z, hstat⟩ := syncStat_written ((modDesc_latent s ch d.serial (begun s)).trans hlatent) s ch
  rw [hstat] at hexec
  exact ⟨_, hexec, ((paths_modDesc s ch _ _).trans (.written _ m z)).sameRegs,
    (descOf_written _ m z ch _).trans (descOf_modDesc hd fun _ => rfl)⟩

/-- A pacing period ends. -/
theorem pacePeriod_renews {s : State} {ch : Chan} {d : Desc} (hruns : chanRuns s ch = true) (hcur : curDesc (chan s ch) = some d)
    (hd : descOf s ch d.serial = some d) (hstage : d.stage = .issuing) (hlines : dPaceLines d.words ≠ 0)
    (hdue : d.paceAt + dPaceNs d.words ≤ now s) :
    ∃ t, exec (.pacePeriod ch) s = .next t ∧ SameMemory s t ∧ SameRegs s t ∧ descOf t ch d.serial =
      some { d with paceUsed := 0, paceAt := d.paceAt + (now s - d.paceAt) / dPaceNs d.words * dPaceNs d.words } := by
  have hexec : exec (.pacePeriod ch) s = .next (modDesc s ch d.serial fun d' =>
      { d' with paceAt := d'.paceAt + (now s - d'.paceAt) / dPaceNs d.words * dPaceNs d.words, paceUsed := 0 }) := by
    change execPacePeriod ch s = _
    simp only [execPacePeriod, hcur, hruns, hstage, hlines, hdue, ne_eq, not_false_iff, decide_true, Bool.and_self, Machine.when, if_true]
  exact ⟨_, hexec, sameMemory_of_mem (setChan_mem s ch _), (paths_modDesc s ch _ _).sameRegs, descOf_modDesc hd fun _ => rfl⟩

/-! ### A trigger that comes too late (R286) -/

/-- A descriptor whose chain trigger has not fired by its deadline. -/
def triggerLate (ch : Chan) (d : Desc) : Desc :=
  { d with stage := .drain, fail := some ⟨0, 0x05, 0, chanNode (chainOf ch (dChain d.words))⟩ }

theorem triggerDeadline_late {s : State} {ch : Chan} {d : Desc} (hdescs : (chan s ch).descs = [d]) (hstage : d.stage = .trigger)
    (htrig : dTrig d.words = 2) (hbar : dBarrier d.words = false) (hwaiting : triggerHolds s ch d.words = false)
    (hdue : d.fetchedAt + chanDl s ch ≤ now s) : triggerDeadline s ch = withDesc s ch (chan s ch) (triggerLate ch d) := by
  have hmay : mayBegin (chan s ch) d = true := by rw [mayBegin, hbar]; rfl
  have hnot : d.stage ≠ .issuing := by rw [hstage]; decide
  simp only [triggerDeadline, curDesc_one hdescs (.inr (.inl hstage)), hnot, hmay, htrig, hwaiting, hdue, ne_eq, not_false_iff, decide_true,
    Bool.not_false, Bool.and_self, if_true]
  rw [modDesc_eq hdescs rfl]
  rfl

/-- A descriptor without waits or rows ends no access of its own at a deadline. -/
theorem deadlines_quiet {b : State} {ch : Chan} {d : Desc} (hwaits : d.waits = []) (hrows : d.rows = []) :
    waitDeadlines b ch d = b ∧ rowDeadlines b ch d = b := by
  rw [waitDeadlines, hwaits, rowDeadlines, hrows]
  exact ⟨rfl, rfl⟩

/-- A descriptor that drains is left draining. -/
theorem endGather_drain (b : State) (ch : Chan) (x : DmaChan) {d : Desc} (hstage : d.stage = .drain) (hrows : d.rows = []) :
    endGather (withDesc b ch x d) ch d.serial = withDesc b ch x d := by
  simp [endGather, descOf_withDesc b ch x d rfl, hrows, endIssue, modDesc_withDesc b ch x d rfl, hstage]

theorem dmaDeadline_fails {s : State} {ch : Chan} {d : Desc} (hlatent : s.latent = []) (hruns : chanRuns s ch = true)
    (hdescs : (chan s ch).descs = [d]) (hstage : d.stage = .trigger) (htrig : dTrig d.words = 2) (hbar : dBarrier d.words = false)
    (hwaiting : triggerHolds s ch d.words = false) (hdue : d.fetchedAt + chanDl s ch ≤ now s) (hwaits : d.waits = [])
    (hrows : d.rows = []) :
    ∃ t, exec (.dmaDeadline ch) s = .next t ∧ SameRegs s t ∧ (chan t ch).descs = [triggerLate ch d] := by
  obtain ⟨hw, hr⟩ := deadlines_quiet (b := withDesc s ch (chan s ch) (triggerLate ch d)) (ch := ch) (d := triggerLate ch d) hwaits hrows
  have hend := endGather_drain s ch (chan s ch) (d := triggerLate ch d) rfl hrows
  have hexec : exec (.dmaDeadline ch) s = .next (syncStat s (withDesc s ch (chan s ch) (triggerLate ch d)) ch) := by
    change execDmaDeadline ch s = _
    simp only [execDmaDeadline, triggerDeadline_late hdescs hstage htrig hbar hwaiting hdue, chan_withDesc, List.foldl_cons, List.foldl_nil,
      hw, hr, hend, ite_self, when_chanRuns hruns]
  obtain ⟨m, z, hstat⟩ := syncStat_written ((withDesc_latent s ch (chan s ch) (triggerLate ch d)).trans hlatent) s ch
  rw [hstat] at hexec
  exact ⟨_, hexec, ((paths_withDesc s ch _ _).trans (.written _ m z)).sameRegs, by rw [chan_written, chan_withDesc]⟩

/-! ### The doorbell (R295) -/

theorem tdmaDoorbell_takesHead {s : State} {c k : Nat} (hruns : chanRuns s (.tile c k) = true) (hon : chanOn s (.tile c k) = true)
    (hfault : (chan s (.tile c k)).faulted = false) :
    ∃ t, exec (.tdmaDoorbell c k) s = .next t ∧ SameMemory s t ∧ SameRegs s t ∧ chan t (.tile c k) =
      { chan s (.tile c k) with head := (localWord s c (ctlOff s c k)).toNat % 2 ^ (chan s (.tile c k)).logN } := by
  have hexec : exec (.tdmaDoorbell c k) s = .next (modChan s (.tile c k) fun x =>
      { x with head := (localWord s c (ctlOff s c k)).toNat % 2 ^ x.logN }) := by
    change execTdmaDoorbell c k s = _
    simp only [execTdmaDoorbell, hruns, hon, hfault, Bool.not_false, Bool.and_self, Machine.when, if_true]
  exact ⟨_, hexec, sameMemory_of_mem (setChan_mem s _ _), (SamePaths.setChan s _ _).sameRegs, chan_setChan_same _ _ _⟩

end Sys2Proof.Machine
end

section
/-! PROOFS. A control line written and descriptors fetched (R268, R269, R295, R324). -/

namespace Sys2Proof.Machine

/-! ### Writes of local memory that find no error -/

/-- A write that finds no error takes poison away and puts none. -/
theorem poison_writeMem {s : State} (hlatent : s.latent = []) (a : Nat) (bs : List Byte) {k : Nat}
    (hk : k ∈ (writeMem s a bs).poison) : k ∈ s.poison := by
  unfold writeMem at hk
  split at hk
  · exact hk
  · rw [renewChecks_clean hlatent] at hk
    split at hk
    · exact List.mem_of_mem_filter (List.mem_of_mem_filter hk)
    · exact List.mem_of_mem_filter hk

/-- Nothing but channels, the `n` bytes at `a` and poison has changed, and no poison has come. -/
structure LocalEdit (s t : State) (a n : Nat) : Prop where
  paths : SamePaths s t
  latent : t.latent = s.latent
  poison : ∀ k ∈ t.poison, k ∈ s.poison
  memory : SameMemoryBut s t a n
  canonical : MemoryCanonical s → MemoryCanonical t

namespace LocalEdit

theorem refl (s : State) (a n : Nat) : LocalEdit s s a n := ⟨.refl s, rfl, fun _ h => h, fun _ _ => rfl, id⟩

theorem trans {s t u : State} {a n : Nat} (hst : LocalEdit s t a n) (htu : LocalEdit t u a n) : LocalEdit s u a n where
  paths := hst.paths.trans htu.paths
  latent := htu.latent.trans hst.latent
  poison k hk := hst.poison k (htu.poison k hk)
  memory x hx := (htu.memory x hx).trans (hst.memory x hx)
  canonical hm := htu.canonical (hst.canonical hm)

theorem setChan (s : State) (ch : Chan) (x : DmaChan) (a n : Nat) : LocalEdit s (setChan s ch x) a n where
  paths := .setChan s ch x
  latent := setChan_latent s ch x
  poison k hk := by rwa [setChan_poison] at hk
  memory y _ := by rw [byteAt, setChan_mem, byteAt]
  canonical hm := by rwa [MemoryCanonical, setChan_mem]

/-- Bytes written within those named. -/
theorem writeLocal {s : State} (hlatent : s.latent = []) (hm : MemoryCanonical s) (c : Nat) {off a n : Nat} {bs : List Byte}
    (hlo : a ≤ localBase c + off) (hhi : localBase c + off + bs.length ≤ a + n) : LocalEdit s (writeLocal s c off bs) a n where
  paths := .writeMem hlatent _ bs
  latent := by
    obtain ⟨z, hz⟩ := writeLocal_written hlatent c off bs
    rw [hz, written]
  poison _ hk := poison_writeMem hlatent _ bs hk
  memory x hx := (writeLocal_bytes hm c off bs).1 x (by omega)
  canonical hm := writeLocal_wf s c off bs hm

theorem syncStat {s : State} (hlatent : s.latent = []) (hm : MemoryCanonical s) (s0 : State) {c k a n : Nat}
    (hlo : a ≤ localBase c + (ctlOff s c k + 24)) (hhi : localBase c + (ctlOff s c k + 28) ≤ a + n) :
    LocalEdit s (syncStat s0 s (.tile c k)) a n := by
  unfold Machine.syncStat
  dsimp only
  split
  · exact refl s a n
  · exact writeLocal hlatent hm c hlo (by rw [leBytes_length]; omega)

section
variable {s t : State} {a n : Nat} (h : LocalEdit s t a n)
include h

theorem isPoisoned {b m : Nat} (hclean : isPoisoned s b m = false) : isPoisoned t b m = false := by
  simp only [Machine.isPoisoned, List.any_eq_false, List.contains_iff_mem] at hclean ⊢
  exact fun k hk hin => hclean k hk (h.poison k hin)

theorem readMem_apart {b m : Nat} (hb : b + m ≤ a ∨ a + n ≤ b) : readMem t b m = readMem s b m :=
  List.map_congr_left fun i hi => h.memory (b + i) (by have := List.mem_range.mp hi; omega)

end
end LocalEdit

/-- A write that finds no error changes no channel. -/
theorem chan_writeLocal {s : State} (hlatent : s.latent = []) (c off : Nat) (bs : List Byte) (ch : Chan) :
    chan (writeLocal s c off bs) ch = chan s ch := by
  obtain ⟨z, hz⟩ := writeLocal_written hlatent c off bs
  rw [hz, chan_written]

theorem chan_syncStat {b : State} (hlatent : b.latent = []) (s : State) (ch ch' : Chan) : chan (syncStat s b ch) ch' = chan b ch' := by
  obtain ⟨m, z, h⟩ := syncStat_written hlatent s ch
  rw [h, chan_written]

/-- STAT stands in its own word of the control line. -/
theorem localWord_syncStat {b : State} (hm : MemoryCanonical b) (s : State) {c k x : Nat} (hx : x + 4 ≤ ctlOff b c k + 24) :
    localWord (syncStat s b (.tile c k)) c x = localWord b c x := by
  unfold syncStat
  dsimp only
  split
  · rfl
  · exact localWord_writeLocal_apart hm c _ (.inl hx)

/-! ### Descriptors that pass their checks (R268, R269) -/

/-- A descriptor that passes its checks joins its channel. -/
theorem takeDesc_passes {s : State} {ch : Chan} {q : Option Nat} {w : List DWord} (hpass : (checkDesc s ch q w).status = 0) :
    takeDesc s ch q w false =
      modChan s ch fun x => { x with descs := x.descs ++ [newDesc s ch q w false], serial := x.serial + 1 } := by
  simp [takeDesc, newDesc, hpass]

/-- It has not begun. -/
theorem newDesc_fetched {s : State} {ch : Chan} {q : Option Nat} {w : List DWord} (hpass : (checkDesc s ch q w).status = 0) :
    let x := newDesc s ch q w false
    x.words = w ∧ x.stage = .fetched ∧ x.queue = q ∧ x.next = 0 ∧ x.fail = none ∧ x.waits = [] ∧ x.rows = [] := by
  simp [newDesc, hpass]

/-- The next entry of the queue that feeds a system channel. -/
theorem descriptorFetch_sys {s : State} {i n q : Nat} (hruns : chanRuns s (.sys i n) = true) (hon : chanOn s (.sys i n) = true)
    (hidle : (chan s (.sys i n)).aborting = false) (hfeed : feedOfChan s i n = some q)
    (hop : entOp (nth (queueOf s q).entries (queueOf s q).inChan []) ≤ 4)
    (hpass : (checkDesc s (.sys i n) (some q) (nth (queueOf s q).entries (queueOf s q).inChan [])).status = 0) :
    ∃ t, exec (.descriptorFetch (.sys i n)) s = .next t ∧ SameMemory s t ∧ SameRegs s t ∧ SameCores s t ∧
      queueOf t q = { queueOf s q with inChan := (queueOf s q).inChan + 1 } ∧
      ∃ x, (chan t (.sys i n)).descs = (chan s (.sys i n)).descs ++ [x] ∧
        x.words = nth (queueOf s q).entries (queueOf s q).inChan [] ∧ x.stage = .fetched ∧ x.queue = some q ∧ x.next = 0 ∧ x.fail = none ∧
        x.waits = [] ∧ x.rows = [] := by
  have hpaths : SamePaths s (modQueue s q fun y => { y with inChan := y.inChan + 1 }) :=
    ⟨rfl, rfl, rfl, rfl, rfl, fun _ => rfl, fun _ => ⟨rfl, rfl⟩⟩
  have hpass' := hpass
  rw [← hpaths.checkDesc] at hpass'
  have hexec : exec (.descriptorFetch (.sys i n)) s = .next (takeDesc (modQueue s q fun y => { y with inChan := y.inChan + 1 }) (.sys i n)
      (some q) (nth (queueOf s q).entries (queueOf s q).inChan []) false) := by
    change execDescriptorFetch (.sys i n) s = _
    simp only [execDescriptorFetch, hruns, hon, hidle, hfeed, Bool.not_true, Bool.or_self, Bool.false_eq_true, if_false,
      if_neg (show ¬ 5 ≤ entOp (nth (queueOf s q).entries (queueOf s q).inChan []) by omega)]
  rw [takeDesc_passes hpass'] at hexec
  exact ⟨_, hexec, fun _ => rfl, (hpaths.trans (.setChan _ _ _)).sameRegs, fun _ => rfl, sget_sput_same _ _ _ _, _,
    by rw [modChan, chan_setChan_same]; rfl, newDesc_fetched hpass'⟩

section
variable {s : State} {c k : Nat} (hlatent : s.latent = []) (hm : MemoryCanonical s)
include hlatent hm

/-- The ring's next slot taken: TAIL stands advanced in the channel and its control line. -/
def tailTaken (s : State) (c k : Nat) : State :=
  let t := ((chan s (.tile c k)).tail + 1) % 2 ^ (chan s (.tile c k)).logN
  writeLocal (modChan s (.tile c k) fun y => { y with tail := t }) c (ctlOff s c k + 4) (leBytes 4 t)

theorem tailTaken_edit : LocalEdit s (tailTaken s c k) (localBase c + ctlOff s c k) 64 := by
  have hset := LocalEdit.setChan s (.tile c k) { chan s (.tile c k) with
    tail := ((chan s (.tile c k)).tail + 1) % 2 ^ (chan s (.tile c k)).logN } (localBase c + ctlOff s c k) 64
  exact hset.trans (.writeLocal (hset.latent.trans hlatent) (hset.canonical hm) c (by omega) (by rw [leBytes_length]; omega))

omit hm in
theorem chan_tailTaken : chan (tailTaken s c k) (.tile c k) =
    { chan s (.tile c k) with tail := ((chan s (.tile c k)).tail + 1) % 2 ^ (chan s (.tile c k)).logN } := by
  rw [tailTaken, chan_writeLocal, modChan, chan_setChan_same]
  exact (setChan_latent s _ _).trans hlatent

omit hlatent in
theorem localWord_tailTaken : localWord (tailTaken s c k) c (ctlOff s c k + 4) =
    BitVec.ofNat 32 (((chan s (.tile c k)).tail + 1) % 2 ^ (chan s (.tile c k)).logN) :=
  localWord_writeLocal_same ((LocalEdit.setChan s _ _ 0 0).canonical hm) c _ _

/-- The next pending slot of a tile channel's ring. -/
theorem descriptorFetch_tile (hruns : chanRuns s (.tile c k) = true) (hon : chanOn s (.tile c k) = true)
    (hidle : (chan s (.tile c k)).aborting = false) (hfault : (chan s (.tile c k)).faulted = false)
    (hpending : (chan s (.tile c k)).tail ≠ (chan s (.tile c k)).head) (hguard : tileGuardFault s c k = false) {slot : Nat}
    (hslot : localBase c + 64 * ((chan s (.tile c k)).ringLine + (chan s (.tile c k)).tail) = slot)
    (hclean : isPoisoned s slot 64 = false)
    (hapart : slot + 64 ≤ localBase c + ctlOff s c k ∨ localBase c + ctlOff s c k + 64 ≤ slot)
    (hpass : (checkDesc s (.tile c k) none (slotWords (readMem s slot 64))).status = 0) :
    ∃ t, exec (.descriptorFetch (.tile c k)) s = .next t ∧ SameMemoryBut s t (localBase c + ctlOff s c k) 64 ∧ SameRegs s t ∧
      (chan t (.tile c k)).tail = ((chan s (.tile c k)).tail + 1) % 2 ^ (chan s (.tile c k)).logN ∧
      (∃ x, (chan t (.tile c k)).descs = (chan s (.tile c k)).descs ++ [x] ∧ x.words = slotWords (readMem s slot 64) ∧ x.stage = .fetched ∧
        x.queue = none ∧ x.next = 0 ∧ x.fail = none ∧ x.waits = [] ∧ x.rows = []) ∧
      localWord t c (ctlOff s c k + 4) = BitVec.ofNat 32 (((chan s (.tile c k)).tail + 1) % 2 ^ (chan s (.tile c k)).logN) := by
  have htaken := tailTaken_edit (k := k) (c := c) hlatent hm
  have hread := htaken.readMem_apart (b := slot) (m := 64) (by omega)
  have hpass' : (checkDesc (tailTaken s c k) (.tile c k) none (slotWords (readMem s slot 64))).status = 0 := by
    rw [htaken.paths.checkDesc, hpass]
  have hexec : exec (.descriptorFetch (.tile c k)) s = .next (syncStat s (takeDesc (tailTaken s c k) (.tile c k) none
      (slotWords (readMem (tailTaken s c k) slot 64)) (isPoisoned (tailTaken s c k) slot 64)) (.tile c k)) := by
    change execDescriptorFetch (.tile c k) s = _
    simp only [execDescriptorFetch, hruns, hon, hidle, hfault, hpending, hguard, demandRead_clean hlatent, hslot, Bool.not_true, Bool.or_self,
      decide_false, Bool.false_eq_true, if_false]
    rfl
  rw [hread, htaken.isPoisoned hclean, takeDesc_passes hpass', modChan] at hexec
  have hadded := htaken.trans (.setChan _ (.tile c k) { chan (tailTaken s c k) (.tile c k) with
    descs := (chan (tailTaken s c k) (.tile c k)).descs ++
      [newDesc (tailTaken s c k) (.tile c k) none (slotWords (readMem s slot 64)) false]
    serial := (chan (tailTaken s c k) (.tile c k)).serial + 1 } _ _)
  have hoff := hadded.paths.ctlOff c k
  have hfinal := hadded.trans (.syncStat (hadded.latent.trans hlatent) (hadded.canonical hm) s (c := c) (k := k) (by omega) (by omega))
  have hchan := chan_syncStat (hadded.latent.trans hlatent) s (.tile c k) (.tile c k)
  rw [chan_setChan_same] at hchan
  have htail := congrArg DmaChan.tail (chan_tailTaken (c := c) (k := k) hlatent)
  have hdescs := congrArg DmaChan.descs (chan_tailTaken (c := c) (k := k) hlatent)
  refine ⟨_, hexec, hfinal.memory, hfinal.paths.sameRegs, by rw [hchan, htail], ⟨_, by rw [hchan, hdescs], newDesc_fetched hpass'⟩, ?_⟩
  rw [localWord_syncStat (hadded.canonical hm) s (by omega), localWord_of_mem (setChan_mem _ _ _), localWord_tailTaken hm]

end

end Sys2Proof.Machine
end

section
/-! PROOFS. A tile channel enabled: its control line read and reset (R280, R294, R295). -/

namespace Sys2Proof.Machine

/-! ### CMP_TDMA_CFG (R294) -/

/-- A field taken from another word gives that word where the two agree beside it. -/
theorem putBits_bits {w v : Word} {hi lo : Nat} (h : ∀ j < 32, ¬ (lo ≤ j ∧ j ≤ hi) → bit w j = bit v j) :
    putBits w hi lo (bits v hi lo) = v := by
  refine BitVec.eq_of_getLsbD_eq fun j hj => ?_
  show bit (putBits w hi lo (bits v hi lo)) j = bit v j
  rw [bit_putBits w hj]
  split
  · next hin =>
    rw [testBit_bits, Nat.add_sub_cancel' hin.1, decide_eq_true (by omega), Bool.true_and]
  · next hout => exact h j hj hout

section
variable (s : State) (o : Origin) (c : Nat) {k : Nat} (hk : k < 2)
include hk

/-- A write that sets one channel's EN is taken whole. -/
theorem tdmaCfgWrite_en : (tdmaCfgWrite s o c (putBit (reg s (Reg.cmpTdmaCfg c)) (16 + k) true)).1 =
    tdmaEn (reg s (Reg.cmpTdmaCfg c)) (tdmaEn (reg s (Reg.cmpTdmaCfg c))
      (setReg s (Reg.cmpTdmaCfg c) (putBit (reg s (Reg.cmpTdmaCfg c)) (16 + k) true)) c 0) c 1 := by
  have hbit (j : Nat) (hj : j < 32) (hne : j ≠ 16 + k) :
      bit (reg s (Reg.cmpTdmaCfg c)) j = bit (putBit (reg s (Reg.cmpTdmaCfg c)) (16 + k) true) j := by
    rw [bit_putBit _ _ (by omega) hj, if_neg hne]
  have hline : bits (putBit (reg s (Reg.cmpTdmaCfg c)) (16 + k) true) 12 0 = bits (reg s (Reg.cmpTdmaCfg c)) 12 0 :=
    bits_congr fun j _ hj => (hbit j (by omega) (by omega)).symm
  have hsame : putBits (reg s (Reg.cmpTdmaCfg c)) 12 0 (bits (reg s (Reg.cmpTdmaCfg c)) 12 0) = reg s (Reg.cmpTdmaCfg c) :=
    putBits_bits fun _ _ _ => rfl
  have hen := putBits_bits (w := reg s (Reg.cmpTdmaCfg c)) (hi := 17) (lo := 16) fun j hj hout => hbit j hj (by omega)
  have hguard := putBits_bits (w := putBit (reg s (Reg.cmpTdmaCfg c)) (16 + k) true)
    (v := putBit (reg s (Reg.cmpTdmaCfg c)) (16 + k) true) (hi := 19) (lo := 18) fun _ _ _ => rfl
  simp only [tdmaCfgWrite, hline, ite_self, hsame, hen, hguard]

end

/-! ### A channel that starts (R280, R295) -/

/-- A channel that acts for the Guarded world, or a core without a guarded region, meets no guard fault. -/
theorem tileGuardFault_eq_false {s : State} {c k : Nat}
    (h : flag s (Reg.cmpTdmaCfg c) (18 + k) = true ∨ bits (coreCsr s c 0x802) 14 8 = 0) : tileGuardFault s c k = false := by
  have hnone (hb : bits (coreCsr s c 0x802) 14 8 = 0) (off n : Nat) : firstGlmem s c off n = none := by
    have hout (x : Nat) : inGlmem s c x = false := by
      simp only [inGlmem, hb, Nat.add_zero, Bool.and_eq_false_iff, decide_eq_false_iff_not]
      omega
    simp [firstGlmem, hout]
  rcases h with h | h
  · simp [tileGuardFault, h]
  · simp [tileGuardFault, hnone h]

/-- A tile channel as its control line starts it. -/
def started (b : State) (c k : Nat) : DmaChan :=
  { chan b (.tile c k) with
    ringLine := bits (localWord b c (ctlOff b c k + 8)) 12 0
    logN := bits (localWord b c (ctlOff b c k + 8)) 19 16
    dl := (localWord b c (ctlOff b c k + 12)).toNat
    tail := 0, head := 0, ccount := 0, okcount := 0, barFail := none, faulted := false }

/-- The channel started, with TAIL and the counts of its line zeroed. -/
def lineZeroed (b : State) (c k : Nat) : State :=
  writeLocal (writeLocal (setChan b (.tile c k) (started b c k)) c (ctlOff b c k + 4) (leBytes 4 0)) c (ctlOff b c k + 16) (leBytes 8 0)

section
variable {b : State} {c k : Nat} (hlatent : b.latent = []) (hm : MemoryCanonical b)
include hlatent hm

theorem lineZeroed_edit : LocalEdit b (lineZeroed b c k) (localBase c + ctlOff b c k) 64 := by
  have h1 := LocalEdit.setChan b (.tile c k) (started b c k) (localBase c + ctlOff b c k) 64
  have h2 := h1.trans (.writeLocal (h1.latent.trans hlatent) (h1.canonical hm) c (off := ctlOff b c k + 4) (bs := leBytes 4 0) (by omega)
    (by rw [leBytes_length]; omega))
  exact h2.trans (.writeLocal (h2.latent.trans hlatent) (h2.canonical hm) c (by omega) (by rw [leBytes_length]; omega))

/-- What a start leaves: the channel's fields, its line, and TAIL zero. -/
theorem tdmaStart_starts (hlog : bits (localWord b c (ctlOff b c k + 8)) 19 16 ≤ 8)
    (hring : bits (localWord b c (ctlOff b c k + 8)) 12 0 + 2 ^ bits (localWord b c (ctlOff b c k + 8)) 19 16 ≤ 6144)
    (hdl : localWord b c (ctlOff b c k + 12) ≠ 0)
    (hguard : flag b (Reg.cmpTdmaCfg c) (18 + k) = true ∨ bits (coreCsr b c 0x802) 14 8 = 0) :
    LocalEdit b (tdmaStart b c k) (localBase c + ctlOff b c k) 64 ∧ chan (tdmaStart b c k) (.tile c k) = started b c k ∧
      localWord (tdmaStart b c k) c (ctlOff b c k + 4) = 0 := by
  have hzeroed := lineZeroed_edit (c := c) (k := k) hlatent hm
  have hdl0 : (localWord b c (ctlOff b c k + 12)).toNat ≠ 0 := fun h => hdl (BitVec.eq_of_toNat_eq h)
  have hbad : (decide (8 < bits (localWord b c (ctlOff b c k + 8)) 19 16) ||
      decide (6144 < bits (localWord b c (ctlOff b c k + 8)) 12 0 + 2 ^ bits (localWord b c (ctlOff b c k + 8)) 19 16) ||
      decide ((localWord b c (ctlOff b c k + 12)).toNat = 0)) = false := by
    simp only [Bool.or_eq_false_iff, decide_eq_false_iff_not]
    omega
  have hfault : tileGuardFault (lineZeroed b c k) c k = false := by
    refine tileGuardFault_eq_false ?_
    rwa [hzeroed.paths.flag, hzeroed.paths.coreCsr]
  have hstart : tdmaStart b c k =
      writeLocal (lineZeroed b c k) c (ctlOff b c k + 24) (leBytes 4 (statWord (lineZeroed b c k) c k)) := by
    simp only [tdmaStart, demandRead_clean hlatent, hbad, Bool.not_false, Bool.true_and, Bool.false_eq_true, if_false]
    simp only [lineZeroed, started] at hfault
    simp only [modChan, hfault, Bool.false_eq_true, if_false]
    rfl
  have hset := LocalEdit.setChan b (.tile c k) (started b c k) (localBase c + ctlOff b c k + 4) 4
  have htail := LocalEdit.writeLocal (off := ctlOff b c k + 4) (a := localBase c + ctlOff b c k + 4) (n := 4) (bs := leBytes 4 0)
    (hset.latent.trans hlatent) (hset.canonical hm) c (by omega) (by rw [leBytes_length]; omega)
  rw [hstart]
  refine ⟨hzeroed.trans (.writeLocal (hzeroed.latent.trans hlatent) (hzeroed.canonical hm) c (by omega) (by rw [leBytes_length]; omega)),
    ?_, ?_⟩
  · rw [chan_writeLocal (hzeroed.latent.trans hlatent), lineZeroed, chan_writeLocal (htail.latent.trans (hset.latent.trans hlatent)),
      chan_writeLocal (hset.latent.trans hlatent), chan_setChan_same]
  · rw [localWord_writeLocal_apart (hzeroed.canonical hm) c _ (.inl (by omega)), lineZeroed,
      localWord_writeLocal_apart (htail.canonical (hset.canonical hm)) c _ (.inl (by omega)),
      localWord_writeLocal_same (hset.canonical hm)]
    rfl

end

/-! ### TDMA_ENABLE (R294, R295) -/

/-- The register written with one channel's EN set. -/
def enSet (s : State) (c k : Nat) : State := setReg s (Reg.cmpTdmaCfg c) (putBit (reg s (Reg.cmpTdmaCfg c)) (16 + k) true)

section
variable (s : State) (c : Nat) {k : Nat} (hk : k < 2)
include hk

theorem flag_enSet {j : Nat} (hj : j < 32) :
    flag (enSet s c k) (Reg.cmpTdmaCfg c) j = if j = 16 + k then true else flag s (Reg.cmpTdmaCfg c) j := by
  rw [flag, enSet, reg_setReg_same, bit_putBit _ _ (by omega) hj, flag]

theorem ctlOff_enSet : ctlOff (enSet s c k) c k = ctlOff s c k := by
  have hline : fld (enSet s c k) (Reg.cmpTdmaCfg c) 12 0 = fld s (Reg.cmpTdmaCfg c) 12 0 :=
    bits_congr fun j _ hj => (flag_enSet s c hk (by omega)).trans (if_neg (by omega))
  rw [ctlOff, hline, ctlOff]

omit hk in
theorem enSet_onlyRegs : OnlyRegs s (enSet s c k) [Reg.cmpTdmaCfg c] := setReg_onlyRegs s _ _

/-- The control line is read where it was. -/
theorem started_enSet : started (enSet s c k) c k = started s c k := by
  have hword (x : Nat) : localWord (enSet s c k) c x = localWord s c x := localWord_of_mem rfl c x
  rw [started, ctlOff_enSet s c hk, hword, hword, (enSet_onlyRegs s c).chan, started]

end

/-- A channel whose EN a write does not change goes on as it is. -/
theorem tdmaEn_unchanged {s : State} {old : Word} {c j : Nat} (h : chanOn s (.tile c j) = bit old (16 + j)) : tdmaEn old s c j = s := by
  simp [tdmaEn, h]

/-- A channel whose EN goes from 0 to 1 starts. -/
theorem tdmaEn_starts {s : State} {old : Word} {c j : Nat} (h : chanOn s (.tile c j) = true) (hold : bit old (16 + j) = false) :
    tdmaEn old s c j = tdmaStart s c j := by
  simp [tdmaEn, h, hold]

/-- Of two channels the one that is enabled starts, and the other goes on. -/
theorem tdmaEn_both {s : State} {c k : Nat} (hk : k < 2) (hoff : chanOn s (.tile c k) = false)
    (hpaths : SamePaths (enSet s c k) (tdmaStart (enSet s c k) c k)) :
    tdmaEn (reg s (Reg.cmpTdmaCfg c)) (tdmaEn (reg s (Reg.cmpTdmaCfg c)) (enSet s c k) c 0) c 1 = tdmaStart (enSet s c k) c k := by
  have hon : chanOn (enSet s c k) (.tile c k) = true := by rw [chanOn, flag_enSet s c hk (by omega), if_pos rfl]
  have hother {j : Nat} (hj : j < 2) (hne : j ≠ k) {t : State} (ht : SamePaths (enSet s c k) t) :
      tdmaEn (reg s (Reg.cmpTdmaCfg c)) t c j = t :=
    tdmaEn_unchanged (by rw [chanOn, ht.flag, flag_enSet s c hk (by omega), if_neg (by omega), flag])
  obtain rfl | rfl : k = 0 ∨ k = 1 := by omega
  · rw [tdmaEn_starts hon hoff, hother (by decide) (by decide) hpaths]
  · rw [hother (by decide) (by decide) (.refl _), tdmaEn_starts hon hoff]

/-- TDMA_ENABLE of a channel whose ring is in range. -/
theorem tdmaEnable_starts {s : State} {o : Origin} {c k : Nat} (hc : c < 768) (hk : k < 2)
    (ha : AllowedWrite s o (Reg.cmpTdmaCfg c) (putBit (reg s (Reg.cmpTdmaCfg c)) (16 + k) true)) (hoff : chanOn s (.tile c k) = false)
    (hm : MemoryCanonical s) (hlatent : s.latent = []) (hlog : bits (localWord s c (ctlOff s c k + 8)) 19 16 ≤ 8)
    (hring : bits (localWord s c (ctlOff s c k + 8)) 12 0 + 2 ^ bits (localWord s c (ctlOff s c k + 8)) 19 16 ≤ 6144)
    (hdl : localWord s c (ctlOff s c k + 12) ≠ 0)
    (hguard : flag s (Reg.cmpTdmaCfg c) (18 + k) = true ∨ bits (coreCsr s c 0x802) 14 8 = 0) :
    ∃ t, exec (.tdmaEnable o c k) s = .next t ∧ SameRegsBut s t [Reg.cmpTdmaCfg c] ∧
      reg t (Reg.cmpTdmaCfg c) = putBit (reg s (Reg.cmpTdmaCfg c)) (16 + k) true ∧
      SameMemoryBut s t (localBase c + ctlOff s c k) 64 ∧ chan t (.tile c k) = started s c k ∧ localWord t c (ctlOff s c k + 4) = 0 := by
  have hword (x : Nat) : localWord (enSet s c k) c x = localWord s c x := localWord_of_mem rfl c x
  have hguard' : flag (enSet s c k) (Reg.cmpTdmaCfg c) (18 + k) = true ∨ bits (coreCsr (enSet s c k) c 0x802) 14 8 = 0 := by
    rwa [flag_enSet s c hk (by omega), if_neg (by omega)]
  have hctl := ctlOff_enSet s c hk
  obtain ⟨hedit, hchan, htail⟩ := tdmaStart_starts (b := enSet s c k) (c := c) (k := k) hlatent hm (by rwa [hctl, hword])
    (by rwa [hctl, hword]) (by rwa [hctl, hword]) hguard'
  have hexec : exec (.tdmaEnable o c k) s = .next (tdmaStart (enSet s c k) c k) := by
    change execTdmaEnable o c k s = _
    simp only [execTdmaEnable, hc, hk, decide_true, Bool.and_self, Machine.when, if_true, writeAt_allowed ha, tdmaCfgWrite_en s o c hk]
    exact congrArg _ (tdmaEn_both hk hoff hedit.paths)
  rw [hctl] at hedit htail
  refine ⟨_, hexec, fun x hx => (hedit.paths.reg x).trans ((enSet_onlyRegs s c).2 x hx), ?_, hedit.memory,
    hchan.trans (started_enSet s c hk), htail⟩
  rw [hedit.paths.reg, enSet, reg_setReg_same]

end Sys2Proof.Machine
end

section
/-! PROOFS. What a write of a local memory or of the host window may find: counts, records and alerts of the compute die (R261 to
R265). -/

namespace Sys2Proof.Machine

/-- The granules of a local memory that a write covers in part are its own. -/
theorem isLocal_of_mem_partGranules {a n g : Nat} (ha : isLocalAddr a = true) (hn : 0 < n) (hg : g ∈ partGranules a n) :
    isLocalAddr g = true := by
  have hsize : eccGranule a = 64 := by rw [eccGranule, ha, if_pos rfl]
  have hends : g = a / 64 * 64 ∨ g = (a + n - 1) / 64 * 64 := by
    simp only [partGranules, hsize, List.mem_append] at hg
    rcases hg with hg | hg
    · split at hg
      · cases hg
      · exact .inl (List.mem_singleton.mp hg)
    · split at hg
      · cases hg
      · exact .inr (List.mem_singleton.mp hg)
  simp only [isLocalAddr, decide_eq_true_eq] at ha ⊢
  omega

/-- Nothing but bytes, their errors, messages, counters and the compute die's own registers has changed. -/
structure ComputeFinding (s t : State) : Prop where
  rest : t = { s with
    regs := t.regs, poison := t.poison, latent := t.latent, mem := t.mem, courier := t.courier, ledger := t.ledger }
  regs : ∀ o, o < 0x1000000 ∨ 0x1400000 ≤ o → reg t o = reg s o

namespace ComputeFinding

theorem refl (s : State) : ComputeFinding s s := ⟨rfl, fun _ _ => rfl⟩

theorem trans {s t u : State} (hst : ComputeFinding s t) (htu : ComputeFinding t u) : ComputeFinding s u :=
  ⟨by rw [htu.rest, hst.rest], fun o ho => (htu.regs o ho).trans (hst.regs o ho)⟩

theorem ite {s t u : State} {p : Prop} [Decidable p] (ht : ComputeFinding s t) (hu : ComputeFinding s u) :
    ComputeFinding s (if p then t else u) := by
  split
  · exact ht
  · exact hu

theorem foldl {α : Type} {f : State → α → State} {l : List α} (hf : ∀ t, ∀ x ∈ l, ComputeFinding t (f t x)) (s : State) :
    ComputeFinding s (l.foldl f s) := by
  induction l generalizing s with
  | nil => exact refl s
  | cons x r ih => exact (hf s x List.mem_cons_self).trans (ih (fun t y hy => hf t y (List.mem_cons_of_mem x hy)) _)

theorem setReg (s : State) {off : Nat} (hlo : 0x1000000 ≤ off) (hhi : off < 0x1400000) (v : Word) :
    ComputeFinding s (setReg s off v) :=
  ⟨rfl, fun o ho => reg_setReg_other s v (by omega)⟩

theorem dropLatent (s : State) (l : Sparse Ecc) : ComputeFinding s { s with latent := l } := ⟨rfl, fun _ _ => rfl⟩

theorem poisonSectors (s : State) (ks : List Nat) : ComputeFinding s (poisonSectors s ks) := ⟨rfl, fun _ _ => rfl⟩

theorem cleanSectors (s : State) (ks : List Nat) : ComputeFinding s (cleanSectors s ks) := ⟨rfl, fun _ _ => rfl⟩

theorem sendFrom (s : State) (m : Msg) : ComputeFinding s (sendFrom s m) := by
  unfold Machine.sendFrom ledgerCore
  split
  · split <;> exact ⟨rfl, fun _ _ => rfl⟩
  · exact ⟨rfl, fun _ _ => rfl⟩

theorem sendAlert (s : State) (n st t i : Nat) : ComputeFinding s (sendAlert s n st t i) := by
  unfold Machine.sendAlert
  exact ite ((sendFrom s _).trans (sendFrom _ _)) (sendFrom s _)

section
variable (s : State) {a : Nat} (ha : isLocalAddr a = true)
include ha

/-- The log of the compute die takes what is found in a local memory. -/
theorem reportPoison (d : Bool) : ComputeFinding s (reportPoison s a d) := by
  have hunit : logUnit s a = none := by rw [logUnit, ha, if_pos rfl]
  unfold Machine.reportPoison
  rw [hunit]
  refine ite (refl s) ?_
  dsimp only
  split
  · next i hi =>
    have hi16 : i < 16 := List.mem_range.mp (List.mem_of_find?_eq_some hi)
    have hlog : scrubLogW0 none i = 0x1000210 + 8 * i := rfl
    rw [hlog]
    exact ((setReg s (by omega) (by omega) _).trans (setReg _ (by omega) (by omega) _)).trans (sendAlert _ _ _ _ _)
  · exact ite (setReg s (by decide) (by decide) _) (refl s)

theorem countCorr (n : Nat) : ComputeFinding s (countCorr s a n) := by
  induction n with
  | zero => exact refl s
  | succ n ih =>
    have hunit : logUnit s a = none := by rw [logUnit, ha, if_pos rfl]
    simp only [Machine.countCorr, hunit]
    exact ih.trans (setReg _ (by decide) (by decide) _)

theorem findLine (d : Bool) : ComputeFinding s (findLine s a d) := by
  unfold Machine.findLine
  refine ite (refl s) ?_
  have hcount := (dropLatent s (sdrop s.latent fun k => (sectorsOf a (eccLine a)).contains k)).trans
    (countCorr _ ha ((latentOf s (sectorsOf a (eccLine a))).count .single))
  exact ite ((hcount.trans (poisonSectors _ _)).trans (reportPoison _ ha d)) hcount

/-- The lines of a local memory are its own. -/
theorem demandRead (n : Nat) : ComputeFinding s (demandRead s a n) := by
  unfold Machine.demandRead
  refine ite (foldl (fun t l hl => findLine t ?_ true) s) (refl s)
  have hline : eccLine a = 64 := by rw [eccLine, ha, if_pos rfl]
  simp only [eccLines, hline] at hl
  split at hl
  · cases hl
  · obtain ⟨q, hq, rfl⟩ := List.mem_map.mp hl
    rw [mem_upFrom] at hq
    simp only [isLocalAddr, decide_eq_true_eq] at ha ⊢
    omega

end

/-- A write of a local memory, or of bytes without check bits. -/
theorem writeMem (s : State) {a : Nat} (ha : isLocalAddr a = true ∨ hasEcc a = false) (bs : List Byte) :
    ComputeFinding s (writeMem s a bs) := by
  have hrenew : bs.isEmpty = false → ComputeFinding s (renewChecks s a bs.length) := by
    intro hne
    unfold renewChecks
    dsimp only
    split
    · next hecc =>
      have hlocal : isLocalAddr a = true := by
        rcases ha with h | h
        · exact h
        · rw [h] at hecc
          cases hecc
      have hpos : 0 < bs.length := List.length_pos_iff.mpr fun h => by simp [h] at hne
      exact (cleanSectors s _).trans ((foldl (fun t g hg =>
        demandRead t (isLocal_of_mem_partGranules hlocal hpos hg) 1) _).trans (cleanSectors _ _))
    · exact cleanSectors s _
  unfold Machine.writeMem
  split
  · exact refl s
  · next hne => exact (hrenew (by simpa using hne)).trans ⟨rfl, fun _ _ => rfl⟩

theorem chan {s t : State} (h : ComputeFinding s t) (ch : Chan) : chan t ch = chan s ch := by
  rw [h.rest]
  cases ch <;> rfl

end ComputeFinding

end Sys2Proof.Machine
end

section
/-! PROOFS. The first descriptor of a channel completes: its counts, its queue and the words of memory that show them (R284, R295,
R326). -/

namespace Sys2Proof.Machine

/-! ### The first descriptor ends (R284) -/

/-- A channel whose one descriptor has ended. -/
def ended (x : DmaChan) (d : Desc) : DmaChan :=
  { x with
    descs := []
    last := BitVec.ofNat 8 (descResult d).1
    ccount := x.ccount + 1
    okcount := if (descResult d).1 = 0 then x.okcount + 1 else x.okcount
    barFail := match x.barFail with
      | some f => some f
      | none => d.wfail.map Prod.snd }

/-- A drained descriptor without a completion record ends at once. -/
theorem exec_descriptorComplete {s : State} {ch : Chan} {d : Desc} (hruns : chanRuns s ch = true) (hdescs : (chan s ch).descs = [d])
    (hstage : d.stage = .drain) (hwaits : d.waits = []) (hrows : d.rows = []) (hcpl : dCpl d.words = false) :
    exec (.descriptorComplete ch) s = .next (syncStat s (finishDesc s ch d) ch) := by
  have hquiet : ∀ e ∈ (chan s ch).descs, e.waits = [] := by simpa [hdescs] using hwaits
  have hnone : cplTarget s ch d.queue d.pages d.words = none := by simp [cplTarget, hcpl]
  change execDescriptorComplete ch s = _
  rw [execDescriptorComplete, when_chanRuns hruns, serveWaits_quiet hquiet]
  simp [completeHead, hdescs, hwaits, hrows, hstage, hnone]

/-! ### Tile channels: the control line (R295) -/

/-- A word among the bytes written. -/
theorem localWord_writeLocal_part {s : State} (hm : MemoryCanonical s) (c off : Nat) (l r : List Byte) (v : Nat) :
    localWord (writeLocal s c off (l ++ (leBytes 4 v ++ r))) c (off + l.length) = BitVec.ofNat 32 v := by
  have hread := readLocal_writeLocal hm c off (l ++ (leBytes 4 v ++ r))
  have hslice := readMem_slice (writeLocal s c off (l ++ (leBytes 4 v ++ r))) (localBase c + off)
    (n := (l ++ (leBytes 4 v ++ r)).length) (i := l.length) (m := 4) (by simp)
  have hpart : ((l ++ (leBytes 4 v ++ r)).drop l.length).take 4 = leBytes 4 v := by
    rw [List.drop_left, List.take_left' (leBytes_length 4 v)]
  rw [readLocal] at hread
  rw [hread, hpart] at hslice
  rw [localWord, readLocal, ← Nat.add_assoc, ← hslice, leNat_leBytes]
  exact BitVec.eq_of_toNat_eq (by rw [BitVec.toNat_ofNat, BitVec.toNat_ofNat]; exact Nat.mod_mod _ _)

theorem findingWriteLocal (s : State) (c off : Nat) (bs : List Byte) : ComputeFinding s (writeLocal s c off bs) :=
  .writeMem s (.inl (isLocalAddr_localBase c off)) bs

/-- The control line of a channel stays where it is. -/
theorem ctlOff_writeLocal (s : State) (c k off : Nat) (bs : List Byte) : ctlOff (writeLocal s c off bs) c k = ctlOff s c k := by
  have hreg : reg (writeLocal s c off bs) (Reg.cmpTdmaCfg c) = reg s (Reg.cmpTdmaCfg c) :=
    (findingWriteLocal s c off bs).regs _ (.inr (Nat.le_trans (by decide) (Nat.le_add_right 0x140001C _)))
  rw [ctlOff, fld, hreg, ctlOff, fld]

/-- Counts and STAT written in the control line, and STAT once more where it has changed. -/
theorem countsShown {b : State} (hm : MemoryCanonical b) (s0 : State) (c k cc oc st : Nat) :
    let t := syncStat s0 (writeLocal b c (ctlOff b c k + 16) (leBytes 4 cc ++ leBytes 4 oc ++ leBytes 4 st)) (.tile c k)
    chan t (.tile c k) = chan b (.tile c k) ∧ SameMemoryBut b t (localBase c + ctlOff b c k + 16) 12 ∧
      localWord t c (ctlOff b c k + 16) = BitVec.ofNat 32 cc ∧ localWord t c (ctlOff b c k + 20) = BitVec.ofNat 32 oc := by
  have hbytes : leBytes 4 cc ++ leBytes 4 oc ++ leBytes 4 st = leBytes 4 cc ++ (leBytes 4 oc ++ leBytes 4 st) := List.append_assoc _ _ _
  have hfirst := localWord_writeLocal_part hm c (ctlOff b c k + 16) [] (leBytes 4 oc ++ leBytes 4 st) cc
  have hsecond := localWord_writeLocal_part hm c (ctlOff b c k + 16) (leBytes 4 cc) (leBytes 4 st) oc
  have hother := (writeLocal_bytes hm c (ctlOff b c k + 16) (leBytes 4 cc ++ (leBytes 4 oc ++ leBytes 4 st))).1
  have hchan := (findingWriteLocal b c (ctlOff b c k + 16) (leBytes 4 cc ++ (leBytes 4 oc ++ leBytes 4 st))).chan (.tile c k)
  have hctl := ctlOff_writeLocal b c k (ctlOff b c k + 16) (leBytes 4 cc ++ (leBytes 4 oc ++ leBytes 4 st))
  have hcanon : MemoryCanonical (writeLocal b c (ctlOff b c k + 16) (leBytes 4 cc ++ (leBytes 4 oc ++ leBytes 4 st))) :=
    writeLocal_wf b c _ _ hm
  rw [List.nil_append, List.length_nil, Nat.add_zero] at hfirst
  rw [leBytes_length] at hsecond
  simp only [List.length_append, leBytes_length] at hother
  rw [hbytes]
  generalize writeLocal b c (ctlOff b c k + 16) (leBytes 4 cc ++ (leBytes 4 oc ++ leBytes 4 st)) = w at *
  have hword {x : Nat} (hx : x + 4 ≤ ctlOff b c k + 24) : localWord (syncStat s0 w (.tile c k)) c x = localWord w c x :=
    localWord_syncStat hcanon s0 (by rwa [hctl])
  refine ⟨?_, fun a ha => ?_, (hword (by omega)).trans hfirst, (hword (by omega)).trans hsecond⟩
  · rw [← hchan]
    unfold syncStat
    dsimp only
    split
    · rfl
    · exact (findingWriteLocal _ _ _ _).chan _
  · rw [← hother a (by omega)]
    unfold syncStat
    dsimp only
    split
    · rfl
    · exact (writeLocal_bytes hcanon c _ _).1 a (by rw [hctl, leBytes_length]; omega)

section
variable {s : State} {c k : Nat} {d : Desc}

/-- The channel's counts and STAT follow its record. -/
theorem finishDesc_tile (hdescs : (chan s (.tile c k)).descs = [d]) (hsignal : dSignal d.words = false) (hirq : dIrq d.words = false) :
    let t := setChan s (.tile c k) (ended (chan s (.tile c k)) d)
    finishDesc s (.tile c k) d = writeLocal t c (ctlOff t c k + 16)
      (leBytes 4 (chan t (.tile c k)).ccount.toNat ++ leBytes 4 (chan t (.tile c k)).okcount.toNat ++ leBytes 4 (statWord t c k)) := by
  have hfilter : (chan s (.tile c k)).descs.filter (fun y => decide (y.serial ≠ d.serial)) = [] := by simp [hdescs]
  cases hb : (chan s (.tile c k)).barFail <;>
    simp only [finishDesc, ended, hb, hsignal, hirq, Bool.false_eq_true, if_false, modChan, hfilter]

theorem descriptorComplete_tile (hruns : chanRuns s (.tile c k) = true) (hdescs : (chan s (.tile c k)).descs = [d])
    (hstage : d.stage = .drain) (hwaits : d.waits = []) (hrows : d.rows = []) (hcpl : dCpl d.words = false)
    (hsignal : dSignal d.words = false) (hirq : dIrq d.words = false) (hm : MemoryCanonical s) :
    ∃ t, exec (.descriptorComplete (.tile c k)) s = .next t ∧ chan t (.tile c k) = ended (chan s (.tile c k)) d ∧
      SameMemoryBut s t (localBase c + ctlOff s c k + 16) 12 ∧
      localWord t c (ctlOff s c k + 16) = (ended (chan s (.tile c k)) d).ccount ∧
      localWord t c (ctlOff s c k + 20) = (ended (chan s (.tile c k)) d).okcount := by
  have hpaths := SamePaths.setChan s (.tile c k) (ended (chan s (.tile c k)) d)
  have hcanon : MemoryCanonical (setChan s (.tile c k) (ended (chan s (.tile c k)) d)) := by rwa [MemoryCanonical, setChan_mem]
  have hexec := exec_descriptorComplete hruns hdescs hstage hwaits hrows hcpl
  rw [finishDesc_tile hdescs hsignal hirq, hpaths.ctlOff, chan_setChan_same] at hexec
  obtain ⟨hchan, hmem, hdone, hok⟩ := countsShown hcanon s c k (ended (chan s (.tile c k)) d).ccount.toNat
    (ended (chan s (.tile c k)) d).okcount.toNat (statWord (setChan s (.tile c k) (ended (chan s (.tile c k)) d)) c k)
  rw [hpaths.ctlOff] at hchan hmem hdone hok
  refine ⟨_, hexec, hchan.trans (chan_setChan_same _ _ _), fun a ha => (hmem a ha).trans (sameMemory_of_mem (setChan_mem _ _ _) a),
    hdone.trans (BitVec.ofNat_toNat _ _), hok.trans (BitVec.ofNat_toNat _ _)⟩

end

end Sys2Proof.Machine
end

section
/-! PROOFS. The first descriptor of a system channel completes: its queue's counters and consumer word (R284, R326). -/

namespace Sys2Proof.Machine

theorem ComputeFinding.queueOf {s t : State} (h : ComputeFinding s t) (q : Nat) : queueOf t q = queueOf s q := by
  rw [h.rest]
  rfl

/-! ### The host window (R35) -/

theorem target_host_iff (s : State) (a : Nat) :
    target s a = .host ↔ ¬ a < nearSize s ∧ 0x200000000000 ≤ a ∧ a < 0x300000000000 := by
  have hrange (lo hi : Nat) : (decide (lo ≤ a) && decide (a < hi)) = true ↔ lo ≤ a ∧ a < hi := by simp
  constructor
  · intro h
    unfold target at h
    split at h
    · cases h
    · next hnear =>
      by_contra hout
      have hhost : ¬ (decide (0x200000000000 ≤ a) && decide (a < 0x300000000000)) = true :=
        fun hin => hout ⟨hnear, (hrange _ _).mp hin⟩
      rw [if_neg hhost] at h
      dsimp only at h
      repeat' split at h
      all_goals cases h
  · rintro ⟨hnear, hin⟩
    have hfar : ¬ (decide (0x100000000000 ≤ a) && decide (a < 0x140000000000)) = true := by
      rw [hrange]
      omega
    rw [target, if_neg hnear, if_neg hfar, if_pos ((hrange _ _).mpr hin)]

/-- A byte of the host has no check bits, or counts as a local one. -/
theorem hostCell_found {s : State} {a : Nat} (h : target s a = .host) :
    isLocalAddr (hostCell s a) = true ∨ hasEcc (hostCell s a) = false := by
  obtain ⟨-, hlo, hhi⟩ := (target_host_iff s a).mp h
  by_cases hb : fld s Reg.sraHwin 19 0 = 0
  · right
    have hcell : hostCell s a = a := by rw [hostCell, hb]; rfl
    simp only [hcell, hasEcc, isLocalAddr, Bool.or_eq_false_iff, decide_eq_false_iff_not]
    omega
  · left
    simp only [hostCell, hb, if_false, isLocalAddr, decide_eq_true_eq]
    omega

/-! ### CONS, LAST and the consumer word (R326) -/

/-- CONS and LAST of a queue advanced. -/
def consAdvanced (s : State) (q status : Nat) : State :=
  setFld (setFld s (Reg.sraQStat q) 31 16 ((fld s (Reg.sraQStat q) 31 16 + 1) % 65536)) (Reg.sraQStat q) 15 8 status

section
variable (s : State) (q status : Nat)

theorem reg_consAdvanced_other {o : Nat} (h : o ≠ Reg.sraQStat q) : reg (consAdvanced s q status) o = reg s o := by
  rw [consAdvanced, reg_setFld_other _ _ _ _ h, reg_setFld_other _ _ _ _ h]

theorem fld_consAdvanced_cons : fld (consAdvanced s q status) (Reg.sraQStat q) 31 16 = (fld s (Reg.sraQStat q) 31 16 + 1) % 65536 := by
  rw [consAdvanced, fld_setFld_apart _ _ (by decide) (by decide), fld_setFld_same _ _ (by decide)]
  exact Nat.mod_mod _ _

theorem fld_consAdvanced_last : fld (consAdvanced s q status) (Reg.sraQStat q) 15 8 = status % 256 := by
  exact fld_setFld_same _ _ (by decide) status

theorem regAddr_consAdvanced : regAddr (consAdvanced s q status) (Reg.sraQConsLo q) = regAddr s (Reg.sraQConsLo q) := by
  have hne : Reg.sraQConsLo q ≠ Reg.sraQStat q ∧ Reg.sraQConsLo q + 4 ≠ Reg.sraQStat q := by
    constructor <;> simp only [Reg.sraQConsLo, Reg.sraQStat] <;> omega
  rw [regAddr, reg_consAdvanced_other s q status hne.1, reg_consAdvanced_other s q status hne.2, regAddr]

theorem hostCell_consAdvanced (a : Nat) : hostCell (consAdvanced s q status) a = hostCell s a := by
  have hne : Reg.sraHwin ≠ Reg.sraQStat q := by
    simp only [Reg.sraHwin, Reg.sraQStat]
    omega
  rw [hostCell, fld, reg_consAdvanced_other s q status hne, hostCell, fld]

end

/-- The consumer word written where the host keeps it. -/
theorem advanceCons_host {s : State} {q : Nat} (status : Nat) (h : target s (regAddr s (Reg.sraQConsLo q)) = .host) :
    advanceCons s q status false = writeMem (consAdvanced s q status) (hostCell s (regAddr s (Reg.sraQConsLo q)))
      (leBytes 8 ((fld s (Reg.sraQStat q) 31 16 + 1) % 65536 + 65536 * (status % 256))) := by
  have hhost : target (consAdvanced s q status) (regAddr s (Reg.sraQConsLo q)) = .host :=
    (target_host_iff _ _).mpr ((target_host_iff s _).mp h)
  have hword : reportWord (consAdvanced s q status) (regAddr s (Reg.sraQConsLo q)) 8
      ((fld s (Reg.sraQStat q) 31 16 + 1) % 65536 + 65536 * (status % 256)) =
      writeMem (consAdvanced s q status) (hostCell s (regAddr s (Reg.sraQConsLo q)))
        (leBytes 8 ((fld s (Reg.sraQStat q) 31 16 + 1) % 65536 + 65536 * (status % 256))) := by
    rw [reportWord, reportWrite, hhost, hostCell_consAdvanced]
  rw [← hword, ← regAddr_consAdvanced s q status]
  rfl

/-! ### What follows (R323, R331) -/

/-- Nothing but queues and registers changed, of which CONS and LAST of the queue have not. -/
structure QueueSettled (s t : State) (q : Nat) : Prop where
  rest : t = { s with regs := t.regs, queues := t.queues }
  cons : fld t (Reg.sraQStat q) 31 16 = fld s (Reg.sraQStat q) 31 16
  last : fld t (Reg.sraQStat q) 15 8 = fld s (Reg.sraQStat q) 15 8
  entries : (queueOf t q).entries = (queueOf s q).entries

theorem settleState_settled (s : State) (q : Nat) : QueueSettled s (settleState s q) q := by
  unfold settleState
  split
  · exact ⟨rfl, fld_setFld_apart _ _ (by decide) (by decide) _, fld_setFld_apart _ _ (by decide) (by decide) _, rfl⟩
  · exact ⟨rfl, rfl, rfl, rfl⟩

theorem pumpFetch_settled (s : State) (q : Nat) : QueueSettled s (pumpFetch s q) q := by
  unfold pumpFetch
  dsimp only
  split
  · exact ⟨rfl, rfl, rfl, rfl⟩
  · exact ⟨rfl, rfl, rfl, by rw [queueOf, modQueue, sget_sput_same]⟩

theorem QueueSettled.trans {s t u : State} {q : Nat} (hst : QueueSettled s t q) (htu : QueueSettled t u q) : QueueSettled s u q :=
  ⟨by rw [htu.rest, hst.rest], htu.cons.trans hst.cons, htu.last.trans hst.last, htu.entries.trans hst.entries⟩

theorem QueueSettled.chan {s t : State} {q : Nat} (h : QueueSettled s t q) (ch : Chan) : chan t ch = chan s ch := by
  rw [h.rest]
  cases ch <;> rfl

/-- The queue without its front entry. -/
def frontDropped (s : State) (q : Nat) : State :=
  modQueue s q fun x => { x with entries := x.entries.drop 1, inChan := x.inChan - 1, ctl := .ready, old := x.old - 1 }

/-- The number that the consumer word shows: CONS and LAST (R326). -/
def consumerWord (s : State) (q status : Nat) : Nat := (fld s (Reg.sraQStat q) 31 16 + 1) % 65536 + 65536 * (status % 256)

/-- The queue without its front entry, with CONS and LAST advanced and shown in host memory. -/
def consumerShown (s : State) (q status : Nat) : State :=
  writeMem (consAdvanced (frontDropped s q) q status) (hostCell s (regAddr s (Reg.sraQConsLo q))) (leBytes 8 (consumerWord s q status))

section
variable {s : State} {q : Nat} (status : Nat) (hhost : target s (regAddr s (Reg.sraQConsLo q)) = .host)
include hhost

theorem consumerShown_finding : ComputeFinding (consAdvanced (frontDropped s q) q status) (consumerShown s q status) :=
  .writeMem _ (hostCell_found hhost) _

theorem consumerShown_counts (hq : q < 256) :
    fld (consumerShown s q status) (Reg.sraQStat q) 31 16 = (fld s (Reg.sraQStat q) 31 16 + 1) % 65536 ∧
      fld (consumerShown s q status) (Reg.sraQStat q) 15 8 = status % 256 := by
  have hreg := (consumerShown_finding status hhost).regs (Reg.sraQStat q) (.inl (by simp only [Reg.sraQStat]; omega))
  have hfld (hi lo : Nat) : fld (consumerShown s q status) (Reg.sraQStat q) hi lo =
      fld (consAdvanced (frontDropped s q) q status) (Reg.sraQStat q) hi lo := by rw [fld, hreg, fld]
  exact ⟨(hfld 31 16).trans (fld_consAdvanced_cons (frontDropped s q) q status),
    (hfld 15 8).trans (fld_consAdvanced_last (frontDropped s q) q status)⟩

theorem consumerShown_entries {e : List DWord} (hentries : (queueOf s q).entries = [e]) :
    (queueOf (consumerShown s q status) q).entries = [] := by
  rw [(consumerShown_finding status hhost).queueOf]
  show (queueOf (frontDropped s q) q).entries = []
  rw [frontDropped, queueOf, modQueue, sget_sput_same, hentries]
  rfl

omit hhost in
/-- The consumer word in host memory. -/
theorem consumerShown_memory (hm : MemoryCanonical s) :
    SameMemoryBut s (consumerShown s q status) (hostCell s (regAddr s (Reg.sraQConsLo q))) 8 ∧
      leNat (readMem (consumerShown s q status) (hostCell s (regAddr s (Reg.sraQConsLo q))) 8) = consumerWord s q status := by
  have hcanon : MemoryCanonical (consAdvanced (frontDropped s q) q status) := hm
  obtain ⟨hother, hbytes⟩ := writeMem_bytes hcanon (hostCell s (regAddr s (Reg.sraQConsLo q))) (leBytes 8 (consumerWord s q status))
  have hlen := leBytes_length 8 (consumerWord s q status)
  have hread : readMem (consumerShown s q status) (hostCell s (regAddr s (Reg.sraQConsLo q))) 8 = leBytes 8 (consumerWord s q status) :=
    List.ext_getElem ((readMem_length _ _ _).trans hlen.symm) fun k h1 h2 => (readMem_getElem _ _ _ h1).trans (hbytes k h2)
  have hlt : consumerWord s q status < 256 ^ 8 := by
    rw [consumerWord]
    omega
  rw [hlen] at hother
  exact ⟨hother, by rw [hread, leNat_leBytes, Nat.mod_eq_of_lt hlt]⟩

/-- The one entry of a queue completes. -/
theorem completeEntry_one {e : List DWord} (hentries : (queueOf s q).entries = [e]) (hold : (queueOf s q).old = 0) :
    QueueSettled (consumerShown s q status) (completeEntry s q status false) q := by
  have hpop : popEntry s q status false = pumpFetch (settleState (consumerShown s q status) q) q := by
    rw [popEntry, hold]
    exact congrArg (fun t => pumpFetch (settleState t q) q) (advanceCons_host (s := frontDropped s q) status hhost)
  have hsettled := (settleState_settled (consumerShown s q status) q).trans (pumpFetch_settled _ q)
  rw [← hpop] at hsettled
  have hempty : (queueOf (popEntry s q status false) q).entries = [] :=
    hsettled.entries.trans (consumerShown_entries status hhost hentries)
  have hcomplete : completeEntry s q status false = popEntry s q status false := by
    rw [completeEntry, hempty]
    rfl
  rw [hcomplete]
  exact hsettled

/-- What its completion leaves: the channels as they were, the queue's counters and its consumer word. -/
theorem completeEntry_shows {e : List DWord} (hentries : (queueOf s q).entries = [e]) (hold : (queueOf s q).old = 0) (hq : q < 256)
    (hm : MemoryCanonical s) :
    let t := completeEntry s q status false
    let p := hostCell s (regAddr s (Reg.sraQConsLo q))
    (∀ ch, chan t ch = chan s ch) ∧ fld t (Reg.sraQStat q) 31 16 = (fld s (Reg.sraQStat q) 31 16 + 1) % 65536 ∧
      fld t (Reg.sraQStat q) 15 8 = status % 256 ∧ (queueOf t q).entries = [] ∧ SameMemoryBut s t p 8 ∧
      leNat (readMem t p 8) = consumerWord s q status := by
  have hsettled := completeEntry_one status hhost hentries hold
  obtain ⟨hcons, hlast⟩ := consumerShown_counts status hhost hq
  obtain ⟨hother, hword⟩ := consumerShown_memory status hm
  have hmem : (completeEntry s q status false).mem = (consumerShown s q status).mem := by rw [hsettled.rest]
  have hread (a m : Nat) : readMem (completeEntry s q status false) a m = readMem (consumerShown s q status) a m := by
    rw [readMem, hmem, readMem]
  refine ⟨fun ch => (hsettled.chan ch).trans (((consumerShown_finding status hhost).chan ch).trans ?_), hsettled.cons.trans hcons,
    hsettled.last.trans hlast, hsettled.entries.trans (consumerShown_entries status hhost hentries),
    fun a ha => (sameMemory_of_mem hmem a).trans (hother a ha), (congrArg leNat (hread _ 8)).trans hword⟩
  cases ch <;> rfl

end

/-! ### The completion (R284, R326) -/

section
variable {s : State} {i n : Nat} {d : Desc}

/-- The entry of the queue completes with the descriptor. -/
theorem finishDesc_sys {q : Nat} (hdescs : (chan s (.sys i n)).descs = [d]) (hqueue : d.queue = some q) (hsignal : dSignal d.words = false)
    (hirq : dIrq d.words = false) :
    finishDesc s (.sys i n) d =
      settleAbort (completeEntry (setChan s (.sys i n) (ended (chan s (.sys i n)) d)) q (descResult d).1 false) (.sys i n) := by
  have hfilter : (chan s (.sys i n)).descs.filter (fun y => decide (y.serial ≠ d.serial)) = [] := by simp [hdescs]
  cases hb : (chan s (.sys i n)).barFail <;>
    simp only [finishDesc, ended, hb, hqueue, hsignal, hirq, Bool.false_and, Bool.false_eq_true, if_false, modChan, hfilter]

theorem descriptorComplete_sys {q : Nat} {e : List DWord} (hruns : chanRuns s (.sys i n) = true)
    (hdescs : (chan s (.sys i n)).descs = [d]) (hidle : (chan s (.sys i n)).aborting = false) (hstage : d.stage = .drain)
    (hwaits : d.waits = []) (hrows : d.rows = []) (hcpl : dCpl d.words = false) (hsignal : dSignal d.words = false)
    (hirq : dIrq d.words = false) (hm : MemoryCanonical s) (hqueue : d.queue = some q) (hentries : (queueOf s q).entries = [e])
    (hold : (queueOf s q).old = 0) (hq : q < 256) (hhost : target s (regAddr s (Reg.sraQConsLo q)) = .host) :
    let p := hostCell s (regAddr s (Reg.sraQConsLo q))
    ∃ t, exec (.descriptorComplete (.sys i n)) s = .next t ∧ chan t (.sys i n) = ended (chan s (.sys i n)) d ∧
      fld t (Reg.sraQStat q) 31 16 = (fld s (Reg.sraQStat q) 31 16 + 1) % 65536 ∧
      fld t (Reg.sraQStat q) 15 8 = (descResult d).1 % 256 ∧ (queueOf t q).entries = [] ∧ SameMemoryBut s t p 8 ∧
      leNat (readMem t p 8) = consumerWord s q (descResult d).1 := by
  have hexec := exec_descriptorComplete hruns hdescs hstage hwaits hrows hcpl
  obtain ⟨hchan, hrest⟩ := completeEntry_shows (s := setChan s (.sys i n) (ended (chan s (.sys i n)) d)) (descResult d).1 hhost hentries
    hold hq hm
  have hended := (hchan (.sys i n)).trans (chan_setChan_same s (.sys i n) _)
  have hstays : (chan (completeEntry (setChan s (.sys i n) (ended (chan s (.sys i n)) d)) q (descResult d).1 false) (.sys i n)).aborting =
      false := by
    rw [hended]
    exact hidle
  rw [finishDesc_sys hdescs hqueue hsignal hirq, syncStat, settleAbort, hstays, Bool.false_and, if_neg Bool.false_ne_true] at hexec
  exact ⟨_, hexec, hended, hrest⟩

end

end Sys2Proof.Machine
end

section
/-! PROOFS. The life of a descriptor in its channel, settled (R268, R281 to R286, R291 to R295). -/

namespace Sys2Proof.Machine

/-- Settles O38: each command by the one state it leaves. -/
theorem dmaChannelsTakeAndEndDescriptors : Obligations.DmaChannelsTakeAndEndDescriptors := by
  unfold Obligations.DmaChannelsTakeAndEndDescriptors
  intro o i n c k d s
  refine ⟨?enable, ?fetchSys, ?fetchTile, ?current, ?complete, ?abort, ?deadline, ?tileEnable, tdmaDoorbell_takesHead⟩
  case enable => exact fun hi hn ha hidle => dmaChannelEnable_enables hi hn hidle ha
  case fetchSys => exact fun q hruns hon hidle hfeed hop hpass => descriptorFetch_sys hruns hon hidle hfeed hop hpass
  case fetchTile =>
    exact fun hruns hon hidle hfault hpending hguard hlatent hclean hm hapart hpass =>
      descriptorFetch_tile hlatent hm hruns hon hidle hfault hpending hguard rfl hclean hapart hpass
  case current =>
    intro ch hlatent hruns hcur hd
    exact ⟨fun hstage htrig hbar hholds => triggerFire_issues hlatent hruns hcur hd hstage htrig hbar hholds,
      fun hstage hlines hdue => pacePeriod_renews hruns hcur hd hstage hlines hdue⟩
  case complete =>
    intro st done hstage hwaits hrows hcpl hsignal hirq hm
    refine ⟨fun q e halone hqueue hq hentries hold hhost => ?_, fun halone => ?_⟩
    · obtain ⟨hruns, hdescs, hidle⟩ := halone
      obtain ⟨t, hexec, hchan, hrest⟩ := descriptorComplete_sys hruns hdescs hidle hstage hwaits hrows hcpl hsignal hirq hm hqueue hentries
        hold hq hhost
      refine ⟨t, hexec, ?_, hrest⟩
      rw [hchan]
      exact ⟨rfl, rfl, rfl, rfl⟩
    · obtain ⟨hruns, hdescs, -⟩ := halone
      obtain ⟨t, hexec, hchan, hrest⟩ := descriptorComplete_tile hruns hdescs hstage hwaits hrows hcpl hsignal hirq hm
      refine ⟨t, hexec, ?_, hrest⟩
      rw [hchan]
      exact ⟨rfl, rfl, rfl, rfl⟩
  case abort =>
    exact fun hi hn ha hidle => ⟨dmaAbort_empty hi hn hidle ha, dmaAbort_waiting hi hn hidle ha⟩
  case deadline =>
    intro ch hlatent halone hstage htrig hbar hwaiting hdue hwaits hrows
    exact dmaDeadline_fails hlatent halone.1 halone.2.1 hstage htrig hbar hwaiting hdue hwaits hrows
  case tileEnable =>
    exact fun hc hk ha hoff hm hlatent hlog hring hdl hguard => tdmaEnable_starts hc hk ha hoff hm hlatent hlog hring hdl hguard

end Sys2Proof.Machine
end
